-- ==== Sys2Proof/Word.lean ====
section
/-! DEFINITION. The words of the register ports and of memory. -/

namespace Sys2Proof

/-- A 32-bit register word (R34). -/
abbrev Word := BitVec 32

/-- One byte of an addressed memory. -/
abbrev Byte := BitVec 8

end Sys2Proof
end

