-- ==== Sys2Proof/Syntax.lean ====
section
/-! DEFINITION. The commands the block takes: one constructor per row of the opcode table. The operands are what
comes from outside with the command: who sends it, the unit, the data. -/

namespace Sys2Proof

/-- A source of register accesses and doorbells (R36, R43, R44): the physical function of host port `port`, the
instance `vi` through its window, control core `core` in the normal or the secure world, the safety island, or
device `dev` over the Jenpin link. -/
inductive Src where
  | pf (port : Nat)
  | inst (vi : Nat)
  | ccn (core : Nat)
  | ccs (core : Nat)
  | island
  | link (dev : Nat)
  deriving DecidableEq, Repr

/-- A copy of the partition table in the BOOT flash (R65): whether its CRC-32 is correct, and its 16 B entries. Where the CRC-32 lies is not stated. -/
structure FlashTable where
  crcOk : Bool
  entries : List (List Byte)
  deriving DecidableEq, Repr

/-- What the boot ROM finds where an image should be (R64–R68): its bytes, whether the CRC-32 and the ECDSA signature it carries are correct, the SHA-384
digest of the key it is signed with, the version of an image that no table entry describes (in recovery), and the early timing table of an island image
with its CRC-32. The spec does not say where in an image these lie. -/
structure FlashImage where
  bytes : List Byte
  crcOk : Bool
  sigOk : Bool := false
  keyDigest : Nat := 0
  version : Nat := 0
  early : List (List Byte) := []
  earlyCrc : Word := 0
  deriving DecidableEq, Repr

/-- What a DRAM request serves: a layer fetch of a composition pipe, a GPU job by its context, or other work of an owner (0–15 an instance, 16 the manager and the
control cluster) in a class (1 urgent, 2 normal, 3 background). -/
inductive DramWho where
  | pipe (n : Nat)
  | job (k : Nat)
  | other (own cls : Nat)
  deriving DecidableEq, Repr

/-- A request that stands at a DRAM channel's admission: its fabric port, what it serves, its world tag, and its bytes. -/
structure DramAsk where
  port : Nat
  who : DramWho
  sec : Bool := false
  write : Bool
  off : Nat
  len : Nat
  data : List Byte := []
  deriving DecidableEq, Repr

/-- A request of 32–256 B or less within one 256 B chunk, from a fabric port (R245). -/
def DramAsk.fits (a : DramAsk) : Bool := decide (a.port < 20) && decide (1 ≤ a.len) && decide (a.off % 256 + a.len ≤ 256)

/-- What a DRAM request carries beside its place: its world tag and its data, and the requests of other ports, or later ones of its own, that stand at the same
channel's admission. -/
structure DramRest where
  sec : Bool := false
  data : List Byte := []
  others : List DramAsk := []
  deriving DecidableEq, Repr

/-- The sink at a display output: the output, and the receiver capabilities that it answers as training begins (R201). -/
structure LinkSink where
  out : Nat
  caps : List Byte
  deriving DecidableEq, Repr

/-- How a training went: the attempts made, and the highest voltage swing and pre-emphasis that the sink asked for (R201). -/
structure TrainDrive where
  attempts : Nat := 0
  swing : Nat := 0
  pre : Nat := 0
  deriving DecidableEq, Repr

/-- A grant of the DMA engine: a read or a write burst, of which PREEMPT mode takes the first `beats` beats (R266, R267). -/
inductive DmaBurst where
  | read (beats : Nat)
  | write (beats : Nat)
  deriving DecidableEq, Repr

/-- The grant is one of a write burst. -/
def DmaBurst.isWrite : DmaBurst → Bool
  | .read _ => false
  | .write _ => true

/-- What a control core does to memory: a load, a store, the cache operations of R275, or the write-back of a line that the caches give up by themselves. -/
inductive CoreOp where
  | load
  | store
  | clean
  | flush
  | inval
  | evict
  deriving DecidableEq, Repr


/-- The commands. Each constructor's text is its row of the opcode table. -/
inductive Instr where
  /-- REG_WRITE (R34): A 32-bit register write to a field that has no row of its own is checked under R38 and either applied or rejected and recorded in PAGE_ERR. -/
  | regWrite (src : Src) (page off : Nat) (data : List Byte)
  /-- PAGE_ERR_CLEAR (R36): Writing 1 to a PAGE_ERR field clears the whole field, and the header ERR state follows. -/
  | pageErrClear (src : Src) (page : Nat) (data : Word)
  /-- IRQ_STAT_CLEAR (R41): Writing 1 to an IRQ_STAT bit clears the IRQ_RAW bit; a new delivery follows if any enabled bit remains set. -/
  | irqStatClear (src : Src) (page : Nat) (data : Word)
  /-- CTRL_ENABLE (R35): A CTRL.ENABLE write changes the block's clock enable, subject to the page's claim. -/
  | ctrlEnable (src : Src) (page : Nat) (en : Bool)
  /-- CTRL_RESET (R35): Setting CTRL.RESET resets the block's logic on the page, subject to the claim; the bit clears when the reset completes. -/
  | ctrlReset (src : Src) (page : Nat)
  /-- CLAIM_WRITE (R35): The secure world sets or clears CLAIM.CLAIMED on a page, which then holds back normal-world control and power-off. -/
  | claimWrite (src : Src) (page : Nat) (data : Word)
  /-- COMMIT_GO (R39): COMMIT.GO starts validation of the staged set against the configuration live at the latch point. -/
  | commitGo (src : Src) (page : Nat)
  /-- COMMIT_DISCARD (R39): COMMIT.DISCARD reloads the shadow from the live values and cancels any pending set. -/
  | commitDiscard (src : Src) (page : Nat)
  /-- COMMIT_VALIDATION_END (R39): Validation of a staged set ends, accepting it as pending or rejecting it with RESULT and PAGE_ERR. -/
  | commitValidationEnd (page : Nat)
  /-- COMMIT_LATCH (R40): An accepted staged set latches whole at its block's latch point, clears PENDING and increments SEQ. -/
  | commitLatch (page : Nat)
  /-- MODE_REQ_VIGIL (R46): A MODE_REQ for VIGIL is checked and starts the quiesce of every domain to be powered off. -/
  | modeReqVigil (src : Src)
  /-- MODE_REQ_DEGRADED (R46): A manager MODE_REQ for DEGRADED switches every output to Degraded composition from its next frame. -/
  | modeReqDegraded (src : Src)
  /-- MODE_REQ_RUN (R47): A MODE_REQ for RUN leaves SERVICE, or posts the manager's agreement for DEGRADED to RUN. -/
  | modeReqRun (src : Src)
  /-- MODE_REQ_SERVICE (R6): A secure-world MODE_REQ for SERVICE enters SERVICE if SERVICE_EN is high. -/
  | modeReqService (src : Src) (level : Bool)
  /-- MODE_REQ_OTHER (R5): A MODE_REQ naming a transition not permitted is rejected with E_MODE. -/
  | modeReqOther (src : Src) (target : Nat)
  /-- ISLAND_DEGRADE_REQ (R46): The island's SAF MODE_REQ.DEGRADE requests RUN to DEGRADED, or is held under R7 or rejected under R50. -/
  | islandDegradeReq (src : Src)
  /-- ISLAND_AGREE_RUN (R47): The island posts its agreement to DEGRADED to RUN, completing the transition if the manager's agreement is pending. -/
  | islandAgreeRun (src : Src)
  /-- AGREE_EXPIRED (R47): A pending agreement reaches AGREE.WINDOW anchor frames and is discarded. -/
  | agreeExpired
  /-- WAKE_RISE (R46): A rising edge at WAKE leaves DORMANT for BOOT or wakes from VIGIL when enabled; it is ignored during BOOT. -/
  | wakeRise (vinValid : Bool)
  /-- VIN_RECOVERY (R46): VIN rising past 8.6 V after falling below 8.0 V leaves DORMANT for BOOT. -/
  | vinRecovery (fell : Bool)
  /-- POWER_UP_SEQUENCE (R61): From t0 Kiln builds the rails, latches the straps and releases the boot domains. -/
  | powerUpSequence (bootsel devid : Nat) (serviceEn ovg : Bool)
  /-- RAIL_STEP_TIMEOUT (R62): A rail that misses its step time makes Kiln remove all rails and return to DORMANT. -/
  | railStepTimeout (step rail : Nat)
  /-- ISLAND_IMAGE_LOADED (R66): The island image load from BOOT flash ends in a running island or in a halt for the island only. -/
  | islandImageLoaded (found : Bool) (tableA tableB : FlashTable) (copyA copyB : FlashImage)
  /-- EARLY_RETRY (R69): An HPD rising edge retries a skipped early DisplayPort or eDP output until the manager commits it. -/
  | earlyRetry (n : Nat)
  /-- CC_IMAGE_LOADED (R70): The boot ROM finishes loading and authenticating the first stage, arms the secure watchdog and enters it, or halts. -/
  | ccImageLoaded (copyA copyB sram : FlashImage)
  /-- BOOT_READY (R71): BOOT_CTRL.READY from the secure world requests BOOT to RUN, which the device enters within 10 µs. -/
  | bootReady (src : Src)
  /-- RECOVERY_LOAD (R64): BOOT_CTRL.LOAD marks the recovery image complete, ends the SRAM mapping and starts authentication. -/
  | recoveryLoad (src : Src)
  /-- PERSTN_DEASSERT (R72): Deassertion of a port's PERSTn starts its readiness timing. -/
  | perstnDeassert (port : Nat)
  /-- PCIE_PORT_READY (R72): A port becomes ready for link training 90 ms, and its configuration space populated within 250 ms, after t0 or PERSTn. -/
  | pciePortReady (port width speed : Nat)
  /-- PERSTN_ASSERT (R72): PERSTn assertion resets only its own port and resets its instances with cause 2. -/
  | perstnAssert (port : Nat)
  /-- VIGIL_ENTRY_DONE (R46): After the last domain has quiesced, DRAM enters self-refresh, the ledger is saved and the device is in VIGIL. -/
  | vigilEntryDone
  /-- VIGIL_WAKE (R74): An enabled wake source runs the warm resume: rails, self-refresh exit, island reload and resume digest check. -/
  | vigilWake (digest vector : Nat)
  /-- VIGIL_TIMEOUT (R51): VIGIL_CFG.TIMEOUT expiry moves the device from VIGIL to DORMANT. -/
  | vigilTimeout
  /-- SYS_RSTN (R51): SYS_RSTn low forces a cold entry to BOOT. -/
  | sysRstn
  /-- THERMAL_SHUTDOWN (R51): A sensor at or above 125 °C squashes work and forces DORMANT. -/
  | thermalShutdown (i : Nat) (tj : Int)
  /-- THERMAL_THROTTLE (R56): A compute-die sensor at 105 °C starts the GPU clock reduction, and a field-die sensor limits boost and class-D. -/
  | thermalThrottle (i : Nat) (t : Int)
  /-- THROTTLE_STEP (R56): Each 1 ms of throttling lowers the GPU clock by 50 MHz, or each 10 ms after release raises it. -/
  | throttleStep (t : Int)
  /-- THERMAL_RELEASE (R56): All sensors below 102 °C release the protection action. -/
  | thermalRelease (field : Bool) (temps : List Int)
  /-- POLICY_LOOP_STEP (R57): A hardware loop steps its value, saturating at FLOOR or CEIL or overridden by protection. -/
  | policyLoopStep (n : Nat) (want : Int)
  /-- PD_POWER_ON (R53): A PD_REQ GO with ON = 1 checks prerequisites and switches the domain on within 200 µs. -/
  | pdPowerOn (src : Src) (d : Nat)
  /-- PD_POWER_OFF (R54): A PD_REQ GO with ON = 0 starts the quiesce of the domain. -/
  | pdPowerOff (src : Src) (d : Nat)
  /-- PD_POWER_ON_DONE (R53): The requested domain is on and PD_DONE is raised. -/
  | pdPowerOnDone (d : Nat)
  /-- QUIESCE_DONE (R54): Every in-flight transfer reaches its boundary and the domain powers off within 20 µs. -/
  | quiesceDone
  /-- QUIESCE_REFUSED (R54): At 500 µs without reaching every boundary the power-off is refused and held work is released. -/
  | quiesceRefused
  /-- BRIDGE_FRAME_RX (R9): A field-bridge frame arrives and is accepted or retried on CRC error. -/
  | bridgeFrameRx (ok : Bool)
  /-- BRIDGE_DOWN (R11): 16 failed retries or 10 µs without a frame put the bridge down and the field die into hold. -/
  | bridgeDown
  /-- BRIDGE_RETRAINED (R11): The field bridge retrains without software action; field blocks stay in hold until their CTRL is written. -/
  | bridgeRetrained
  /-- LEDGER_LINE_ADVANCE (R19): The ledger's source begins a new line, incrementing the frame count at line 0. -/
  | ledgerLineAdvance
  /-- LOCK_LOST (R22): Phase error beyond limits for 2 frames makes a locked output LOST and free. -/
  | lockLost (out : Nat)
  /-- LOCK_ACQUIRED (R22): The acquiring frame ends at the new phase and the output is LOCKED. -/
  | lockAcquired (out : Nat)
  /-- SNAP_TAKE (R24): SNAP.TAKE captures frame, line, fraction and ledger ns in one clock. -/
  | snapTake (src : Src)
  /-- SLOT_ARM (R25): SS_ACT.ARM checks the target against the base counter and arms the slot or rejects it. -/
  | slotArm (src : Src) (slot : Nat) (data : Word)
  /-- SLOT_DISARM (R26): SS_ACT.DISARM returns a slot to IDLE. -/
  | slotDisarm (src : Src) (slot : Nat) (data : Word)
  /-- SLOT_FIRE (R25): An armed slot fires at its target line and dispatches its action within 100 ns, re-arming if periodic. -/
  | slotFire (k : Nat)
  /-- TOUCH_WINDOW_CLOSE (R290): LEN lines after opening, the scan window closes. -/
  | touchWindowClose (n : Nat)
  /-- RETRAIN_STEP_DONE (R258): A retraining step ends, keeping the previous training and recording RETRAIN_FAIL if it failed. -/
  | retrainStepDone (k : Nat) (ok : Bool)
  /-- LINK_SYNC_RX (R30): A SYNC message from D0 trims the follower's anchor and corrects its frame count and ledger ns. -/
  | linkSyncRx (frame ns : Nat) (err : Int) (matching : Bool)
  /-- LINK_HOLDOVER (R30): No sync for 3 frames, or phase error over 4 pixel clocks for 4 frames, puts the follower in HOLDOVER. -/
  | linkHoldover
  /-- SYNC_ERR_READ (R30): A read of SYNC_ERR returns MAX_ERR and clears it. -/
  | syncErrRead
  /-- VI_BIND (R77): A VI_BIND write binds or unbinds an instance to a port and VF. -/
  | viBind (src : Src) (vi : Nat) (data : Word)
  /-- VF_ENABLE_SET (R77): The host sets VF Enable, making bound instances ACTIVE. -/
  | vfEnableSet (port numVfs : Nat)
  /-- FLR (R82): Function Level Reset of a VF or of the port's PF resets the instances concerned. -/
  | flr (port func : Nat)
  /-- HOST_LINK_DOWN (R82): Link down on a host port resets its instances with cause 2. -/
  | hostLinkDown (port : Nat)
  /-- INSTANCE_RESET (R83): CTRL.RESET on IMX_VIn or the instance's window, or any other cause, starts the instance reset. -/
  | instanceReset (src : Src) (vi : Nat)
  /-- INSTANCE_RESET_DONE (R83): Once writes drain and GPU work aborts, ring indices return to 0, counts are recorded and RST_DONE is raised. -/
  | instanceResetDone (vi : Nat)
  /-- SHARE_WRITE (R80): A write to a share register is checked for exclusivity and sum, and the new share becomes pending. -/
  | shareWrite (src : Src) (vi off : Nat) (data : Word)
  /-- SHARE_APPLY (R79): A pending share takes effect at its epoch and SHARE_APPLIED is raised. -/
  | shareApply (vi kind : Nat)
  /-- WINDOW_WRITE (R81): A DRAM window register write is checked for state, range and secure overlap. -/
  | windowWrite (src : Src) (vi off : Nat) (data : Word)
  /-- ROUTE_WRITE (R86): A router entry write is checked for VF ownership, vector range and secure destinations. -/
  | routeWrite (src : Src) (n i : Nat) (data : Word)
  /-- RING_BIND (R88): A RING_BIND write sets a free pair's owner and class. -/
  | ringBind (src : Src) (r : Nat) (data : Word)
  /-- RING_REMOVE (R100): RING_BIND.OWNER = 0 frees a BOUND pair or makes a running or halted pair RETIRING. -/
  | ringRemove (src : Src) (r : Nat)
  /-- RING_ENABLE (R89): RING_CTRL.ENABLE = 1 clears the indices and makes a bound pair RUNNING. -/
  | ringEnable (src : Src) (r : Nat)
  /-- RING_DISABLE (R89): RING_CTRL.ENABLE = 0 disables an idle pair, or is rejected with E_BUSY. -/
  | ringDisable (src : Src) (r : Nat)
  /-- SQ_DB (R90): The owner writes a new submission tail, which is checked and enables fetch. -/
  | sqDb (src : Src) (r : Nat) (t : Word)
  /-- CQ_DB (R90): The owner writes a new completion head, which frees slots and moves overflow entries in. -/
  | cqDb (src : Src) (r : Nat) (h : Word)
  /-- SEL_WRITE (R102): A SEL write changes a ring's weight, priority or stall limit. -/
  | selWrite (src : Src) (r : Nat) (data : Word)
  /-- RING_FETCH (R91): Fetched submission entries arrive and SQ_HEAD advances, or a failed fetch faults the owner. -/
  | ringFetch (r : Nat) (data : List Byte) (ok : Bool)
  /-- ENTRY_ISSUE (R94): The class selector issues an issuable head entry after head checks. -/
  | entryIssue (cls : Nat)
  /-- FENCE_TIMEOUT (R94): A head entry's wait limit expires and it completes with FENCE_TIMEOUT without running. -/
  | fenceTimeout (r : Nat)
  /-- COMPLETION_RETIRE (R96): A finished entry retires in sequence order, advancing DONE_SEQ and writing a completion entry. -/
  | completionRetire (r : Nat)
  /-- EVENT_POST (R96): An engine event entry is placed in the completion ring, held, or dropped into EVT_LOST. -/
  | eventPost (r : Nat)
  /-- CQ_STALL_EXPIRY (R99): A pair STALLED for CQ_STALL_MAX lines faults its instance or becomes HALTED. -/
  | cqStallExpiry (r : Nat)
  /-- GFX_NOP (R103): A GFX NOP completes at issue. -/
  | gfxNop (r : Nat)
  /-- GFX_JOB (R105): A JOB is checked at issue, takes a context and starts binning. -/
  | gfxJob (r : Nat)
  /-- BIN_CHUNKS (R106): BIN_CHUNKS adds 1–5 chunks to the owner's bin pool, unparking waiting jobs. -/
  | binChunks (r : Nat)
  /-- POOL_FLUSH (R118): POOL_CFG.FLUSH removes every free chunk from a pool. -/
  | poolFlush (src : Src) (p : Nat)
  /-- BIN_GROW_WAIT_EXPIRY (R119): BIN_GROW_WAIT lines after parking, the job starts a partial render. -/
  | binGrowWaitExpiry (j : Nat)
  /-- PARTIAL_RENDER_DONE (R120): All partial-render stores are acknowledged, the job's chunks become spare and binning resumes. -/
  | partialRenderDone (j : Nat)
  /-- TILE_BOUNDARY (R123): A core finishes a tile or vertex batch and picks its next work, possibly joining a heavy tile as helper. -/
  | tileBoundary (k : Nat)
  /-- FRAGMENT_RETIRE (R136): A shaded fragment retires at the owner's blend unit once the scoreboard matches its ordinal. -/
  | fragmentRetire (k : Nat)
  /-- JOB_COMPLETE (R108): All tile stores of a job are acknowledged and the job completes with its RESULT. -/
  | jobComplete (j : Nat)
  /-- PKT_NOP (R110): A NOP packet is skipped. -/
  | pktNop (j : Nat)
  /-- PKT_END (R110): An END packet ends parsing of the command buffer. -/
  | pktEnd (j : Nat)
  /-- PKT_CALL (R110): A CALL packet runs another buffer and returns. -/
  | pktCall (j : Nat)
  /-- PKT_VPROG (R160): A VPROG packet binds and validates a vertex program. -/
  | pktVprog (j : Nat)
  /-- PKT_FPROG (R160): An FPROG packet binds and validates a fragment program. -/
  | pktFprog (j : Nat)
  /-- PKT_CONSTS (R110): A CONSTS packet binds a constant slot. -/
  | pktConsts (j : Nat)
  /-- PKT_VBUF (R111): A VBUF packet binds a vertex buffer slot. -/
  | pktVbuf (j : Nat)
  /-- PKT_VATTR (R111): A VATTR packet sets a vertex attribute format. -/
  | pktVattr (j : Nat)
  /-- PKT_IBUF (R110): An IBUF packet binds the index buffer. -/
  | pktIbuf (j : Nat)
  /-- PKT_PRIM (R113): A PRIM packet sets topology, culling and primitive state. -/
  | pktPrim (j : Nat)
  /-- PKT_VIEWPORT (R114): A VIEWPORT packet sets the viewport transform. -/
  | pktViewport (j : Nat)
  /-- PKT_SCISSOR (R110): A SCISSOR packet sets the scissor rectangle, clipped to the AREA. -/
  | pktScissor (j : Nat)
  /-- PKT_DEPTH (R132): A DEPTH packet sets depth test state. -/
  | pktDepth (j : Nat)
  /-- PKT_STENCIL (R132): A STENCIL packet sets front and back stencil state. -/
  | pktStencil (j : Nat)
  /-- PKT_BLEND (R133): A BLEND packet sets blending for an attachment. -/
  | pktBlend (j : Nat)
  /-- PKT_BLEND_CONST (R130): A BLEND_CONST packet sets the blend constant. -/
  | pktBlendConst (j : Nat)
  /-- PKT_CLEAR_COLOR (R130): A CLEAR_COLOR packet sets an attachment's clear value. -/
  | pktClearColor (j : Nat)
  /-- PKT_CLEAR_DS (R130): A CLEAR_DS packet sets depth and stencil clear values. -/
  | pktClearDs (j : Nat)
  /-- PKT_TEXTURE (R137): A TEXTURE packet reads and checks a texture descriptor into a slot. -/
  | pktTexture (j : Nat)
  /-- PKT_SAMPLER (R137): A SAMPLER packet sets a sampler slot. -/
  | pktSampler (j : Nat)
  /-- PKT_SAMPLE_MASK (R130): A SAMPLE_MASK packet sets the samples written. -/
  | pktSampleMask (j : Nat)
  /-- PKT_DRAW (R111): A DRAW packet fetches vertices, shades them and bins the primitives. -/
  | pktDraw (j : Nat)
  /-- PKT_DRAW_INDEXED (R111): A DRAW_INDEXED packet draws using the index buffer and base vertex. -/
  | pktDrawIndexed (j : Nat)
  /-- PROGRAM_LOAD (R160): A core loads a program into its instruction store and rechecks its CRC. -/
  | programLoad (core j st stage : Nat)
  /-- SHADER_NOP (R153): The shader NOP does nothing. -/
  | shaderNop (w : Nat)
  /-- MOV (R153): MOV copies a source into the destination. -/
  | mov (w : Nat)
  /-- SEL (R152): SEL picks one of two sources by a predicate. -/
  | sel (w : Nat)
  /-- FADD (R153): FADD adds two floating-point sources. -/
  | fadd (w : Nat)
  /-- FMUL (R153): FMUL multiplies two floating-point sources. -/
  | fmul (w : Nat)
  /-- FFMA (R153): FFMA computes a fused multiply-add rounded once. -/
  | ffma (w : Nat)
  /-- FMIN (R153): FMIN returns the floating-point minimum. -/
  | fmin (w : Nat)
  /-- FMAX (R153): FMAX returns the floating-point maximum. -/
  | fmax (w : Nat)
  /-- FFLOOR (R153): FFLOOR returns floor of the source. -/
  | ffloor (w : Nat)
  /-- FFRACT (R153): FFRACT returns the fractional part. -/
  | ffract (w : Nat)
  /-- FRCP (R153): FRCP returns the reciprocal. -/
  | frcp (w : Nat)
  /-- FRSQ (R153): FRSQ returns the reciprocal square root. -/
  | frsq (w : Nat)
  /-- FSQRT (R153): FSQRT returns the square root. -/
  | fsqrt (w : Nat)
  /-- FEXP2 (R153): FEXP2 returns two to the power of the source. -/
  | fexp2 (w : Nat)
  /-- FLOG2 (R153): FLOG2 returns the base-2 logarithm. -/
  | flog2 (w : Nat)
  /-- FSIN (R153): FSIN returns the sine of an argument in turns. -/
  | fsin (w : Nat)
  /-- FCOS (R153): FCOS returns the cosine of an argument in turns. -/
  | fcos (w : Nat)
  /-- IADD (R153): IADD adds integers modulo the width. -/
  | iadd (w : Nat)
  /-- ISUB (R153): ISUB subtracts integers modulo the width. -/
  | isub (w : Nat)
  /-- IMUL (R153): IMUL returns the low half of an integer product. -/
  | imul (w : Nat)
  /-- IMAD (R153): IMAD returns the low half of a product plus an addend. -/
  | imad (w : Nat)
  /-- IMIN (R153): IMIN returns the signed minimum. -/
  | imin (w : Nat)
  /-- IMAX (R153): IMAX returns the signed maximum. -/
  | imax (w : Nat)
  /-- UMIN (R153): UMIN returns the unsigned minimum. -/
  | umin (w : Nat)
  /-- UMAX (R153): UMAX returns the unsigned maximum. -/
  | umax (w : Nat)
  /-- AND (R153): AND computes a bitwise AND. -/
  | and (w : Nat)
  /-- OR (R153): OR computes a bitwise OR. -/
  | or (w : Nat)
  /-- XOR (R153): XOR computes a bitwise exclusive OR. -/
  | xor (w : Nat)
  /-- NOT (R153): NOT inverts the bits of its source. -/
  | not (w : Nat)
  /-- SHL (R153): SHL shifts left by the second source modulo the width. -/
  | shl (w : Nat)
  /-- SHR (R153): SHR shifts right logically. -/
  | shr (w : Nat)
  /-- ASR (R153): ASR shifts right arithmetically. -/
  | asr (w : Nat)
  /-- F16TOF32 (R153): F16TOF32 widens FP16 to FP32 exactly. -/
  | f16tof32 (w : Nat)
  /-- F32TOF16 (R153): F32TOF16 narrows FP32 to FP16 with rounding. -/
  | f32tof16 (w : Nat)
  /-- I16TOF16 (R153): I16TOF16 converts a signed integer to FP16. -/
  | i16tof16 (w : Nat)
  /-- U16TOF16 (R153): U16TOF16 converts an unsigned integer to FP16. -/
  | u16tof16 (w : Nat)
  /-- F16TOI16 (R153): F16TOI16 converts FP16 to a signed integer, saturating. -/
  | f16toi16 (w : Nat)
  /-- F16TOU16 (R153): F16TOU16 converts FP16 to an unsigned integer, saturating. -/
  | f16tou16 (w : Nat)
  /-- I32TOF32 (R153): I32TOF32 converts a signed 32-bit integer to FP32. -/
  | i32tof32 (w : Nat)
  /-- F32TOI32 (R153): F32TOI32 converts FP32 to a signed 32-bit integer, saturating. -/
  | f32toi32 (w : Nat)
  /-- I16TOI32 (R153): I16TOI32 sign-extends a 16-bit integer. -/
  | i16toi32 (w : Nat)
  /-- I32TOI16 (R153): I32TOI16 takes the low half of a 32-bit integer. -/
  | i32toi16 (w : Nat)
  /-- FCMP (R152): FCMP compares floating-point sources into a predicate. -/
  | fcmp (w : Nat)
  /-- ICMP (R152): ICMP compares integer sources into a predicate. -/
  | icmp (w : Nat)
  /-- DDX (R155): DDX gives the horizontal difference within each quad. -/
  | ddx (w : Nat)
  /-- DDY (R155): DDY gives the vertical difference within each quad. -/
  | ddy (w : Nat)
  /-- PLOP (R152): PLOP combines two predicates through a truth table. -/
  | plop (w : Nat)
  /-- BR (R156): BR moves the whole wave forward to its target. -/
  | br (w : Nat)
  /-- LDC (R158): LDC loads values from a constant slot. -/
  | ldc (w : Nat)
  /-- ATTR (R158): ATTR fetches a vertex attribute. -/
  | attr (w : Nat)
  /-- VARY (R158): VARY interpolates a varying at the pixel centre. -/
  | vary (w : Nat)
  /-- TEX (R158): TEX takes a filtered texture sample. -/
  | tex (w : Nat)
  /-- TEXF (R158): TEXF fetches a texel without filtering. -/
  | texf (w : Nat)
  /-- SHADER_OUT (R159): OUT writes a program output. -/
  | shaderOut (w : Nat)
  /-- KILL (R157): KILL marks the executing lanes killed. -/
  | kill (w : Nat)
  /-- SHADER_END (R156): END ends the wave. -/
  | shaderEnd (w : Nat)
  /-- CMP_NOP (R182): A CMP NOP completes at issue. -/
  | cmpNop (r : Nat)
  /-- LAYER (R183): A LAYER entry adds a checked layer record to the ring's open set. -/
  | layer (r : Nat)
  /-- CMP_COMMIT (R185): A ring COMMIT closes the open set and validates it for a pipe. -/
  | cmpCommit (r : Nat)
  /-- SLICE_START (R164): When the beam reaches the lead point, Lauter starts composing a slice. -/
  | sliceStart (n : Nat)
  /-- LINE_COMPOSE (R164): Lauter composes one line once slice-buffer space is free, or skips it if scan-out has begun it. -/
  | lineCompose (n : Nat)
  /-- LAYER_FETCH_ERROR (R180): A layer fetch returning an error makes the layer contribute (0, 0) and counts FETCH_ERR. -/
  | layerFetchError (u row : Nat)
  /-- TIMING_GEN_STOP (R192): After OFF_DELAY frames the lanes idle and the timing generator stops at line 0, rejecting slots on it. -/
  | timingGenStop (n : Nat)
  /-- OUTPUT_LINE_START (R194): An output begins a line, updating its fetch class and detecting underrun. -/
  | outputLineStart (n : Nat)
  /-- WM_EFF_ADJUST (R196): At a frame end WM_EFF rises after an ISOCHRONOUS frame, or falls after 64 NORMAL frames. -/
  | wmEffAdjust (n : Nat)
  /-- UR_REARM (R197): UR_REARM clears UR_FIRST and re-arms the capture. -/
  | urRearm (src : Src) (n : Nat)
  /-- LINK_TRAINING (R201): A DisplayPort or eDP link starts training on enable, connect or retrain. -/
  | linkTraining (sink : LinkSink)
  /-- LINK_TRAINING_END (R201): Training ends in SENDING or LINK_IDLE with a cause. -/
  | linkTrainingEnd (n err cr eq : Nat) (drive : TrainDrive)
  /-- HPD_CONNECT (R204): HPD high for 2 ms counts as connected and starts training with AUTO_RETRAIN. -/
  | hpdConnect (n : Nat)
  /-- IRQ_HPD (R204): A short HPD low pulse reads DPCD status and retrains once if needed. -/
  | irqHpd (n : Nat) (lost : Bool)
  /-- HPD_LOSS (R204): HPD low beyond 2 ms puts the output in LINK_IDLE and drops the backlight. -/
  | hpdLoss (n : Nat)
  /-- LANE_SHORT (R205): A leg below 50 mV for 1 µs switches the lane off and enters LINK_IDLE. -/
  | laneShort (n lane : Nat)
  /-- LVDS_OPEN_CHECK (R205): Once per second while sending, LVDS lanes are checked for open termination. -/
  | lvdsOpenCheck (n opens : Nat)
  /-- LANE_TEST (R205): LANE_TEST.GO runs a termination check on every lane and may restart the link. -/
  | laneTest (src : Src) (n : Nat)
  /-- LANE_TEST_DONE (R205): The termination check ends, refreshing SHORT and OPEN and raising TEST_DONE. -/
  | laneTestDone (n shorts opens : Nat)
  /-- AUX_NATIVE_WRITE (R202): AUX_CMD starts a native DPCD write. -/
  | auxNativeWrite (src : Src) (n : Nat) (data : Word)
  /-- AUX_NATIVE_READ (R202): AUX_CMD starts a native DPCD read. -/
  | auxNativeRead (src : Src) (n : Nat) (data : Word)
  /-- AUX_I2C_WRITE (R202): AUX_CMD starts an I2C-over-AUX write. -/
  | auxI2cWrite (src : Src) (n : Nat) (mot : Bool) (data : Word)
  /-- AUX_I2C_READ (R202): AUX_CMD starts an I2C-over-AUX read. -/
  | auxI2cRead (src : Src) (n : Nat) (mot : Bool) (data : Word)
  /-- AUX_REPLY (R202): An AUX reply arrives and ends the transfer, or DEFER is retried. -/
  | auxReply (n reply : Nat) (data : List Byte)
  /-- AUX_TIMEOUT (R202): No reply within 400 µs ends the transfer with TIMEOUT. -/
  | auxTimeout (n : Nat)
  /-- BACKLIGHT_ENABLE (R206): After ON_DELAY consecutive SENDING frames with BL.ON, BLn_EN rises. -/
  | backlightEnable (n : Nat)
  /-- ISLAND_FAULT_RESET (R209): A lockstep mismatch, watchdog fault, clock fault, ECC error or ISL_CTRL.RESET drops SAFE_OK and reloads the island. -/
  | islandFaultReset (src : Src) (cause : Nat)
  /-- ISLAND_RELOAD_DONE (R209): The island image is reloaded and the island runs again, or enters FAULT after the third reset in 60 s. -/
  | islandReloadDone (images : List FlashImage)
  /-- SRAM_SCRUB (R208): Every 100 ms the scrubber reads and corrects the island SRAM. -/
  | sramScrub (single double : Nat)
  /-- PLANE_SWAP (R210): PLANE_CTRL.SWAP validates the shadow plane set for the next flip line. -/
  | planeSwap (src : Src) (n : Nat)
  /-- PLANE_CANCEL (R210): PLANE_CTRL.CANCEL discards the pending plane set. -/
  | planeCancel (src : Src) (n : Nat)
  /-- PIPE_DEGR_WRITE (R218): The island sets or clears PIPE_DEGR bits, starting or releasing Degraded composition. -/
  | pipeDegrWrite (src : Src) (data : Word)
  /-- WDOG_ARM (R219): WDOG_CFG.ARM arms and locks the island watchdog. -/
  | wdogArm (src : Src) (data : Word)
  /-- WDOG_SELF_ARM (R219): 150 ms after the island starts unarmed, the watchdog arms itself. -/
  | wdogSelfArm
  /-- WDOG_KICK (R219): A WDOG_KICK write restarts the window, or causes a fault reset if early or wrong. -/
  | wdogKick (src : Src) (data : Word)
  /-- WDOG_EXPIRY (R219): Reaching WIN_MAX without a kick causes an island fault reset. -/
  | wdogExpiry
  /-- CLOCK_MONITOR_WINDOW (R220): Each 20 µs window checks the monitored clocks and raises a clock fault after two bad windows. -/
  | clockMonitorWindow (isl cmp ref : Nat)
  /-- SAFE_OK_ENABLE (R221): Writing EN_A or EN_B drives SAFE_OK active, unless a forcing condition holds. -/
  | safeOkEnable (src : Src) (data : Word)
  /-- LK_ACQ (R235): An acquire grants, queues or refuses a lock, with cycle detection at the next evaluation. -/
  | lkAcq (src : Src) (r : Nat) (data : Word)
  /-- LK_REL (R236): A release frees one or all held locks and grants each to the next waiter. -/
  | lkRel (src : Src) (r : Nat) (data : Word)
  /-- LK_CANCEL (R236): LK_CANCEL ends the requester's wait. -/
  | lkCancel (src : Src) (r : Nat) (data : Word)
  /-- HOLD_EXPIRED (R239): A lock held for LCK_HOLD_MAX lines is marked EXPIRED and recorded. -/
  | holdExpired (k : Nat)
  /-- PROGRESS_STALL (R228): A class moving nothing for LIMIT × 1,024 clocks raises PROGRESS_STALL. -/
  | progressStall (cls : Nat)
  /-- ARB_SNAP (R232): ARB_SEL.SNAP captures the selected requester's counters. -/
  | arbSnap (src : Src) (data : Word)
  /-- ARB_CLEAR (R232): ARB_SEL.CLEAR clears the selected requester's counters. -/
  | arbClear (src : Src) (data : Word)
  /-- DRAM_REQUEST_ADMIT (R245): A fabric request is admitted to a bank queue, waking the channel from self-refresh if needed. -/
  | dramRequestAdmit (port : Nat) (who : DramWho) (write : Bool) (off len : Nat) (rest : DramRest)
  /-- DRAM_COLUMN_ISSUE (R246): A channel picks a ready entry and issues its command once timing and hazards allow. -/
  | dramColumnIssue (k : Nat) (iso : Bool) (busy : List Nat) (link : Nat)
  /-- REFRESH_DEBT_TICK (R249): Each tREFI adds one unit of debt, paid mid-line when it would exceed the limit. -/
  | refreshDebtTick (k : Nat)
  /-- MR4_POLL (R250): Each millisecond the channel reads MR4, rescaling debt and forcing catch-up on a rate rise. -/
  | mr4Poll (k rate temp : Nat)
  /-- SR_IDLE_EXPIRY (R252): After SR_IDLE µs of empty queues the channel enters self-refresh. -/
  | srIdleExpiry (k : Nat)
  /-- TRAIN_GO (R257): TRAIN.GO starts DRAM training on all channels. -/
  | trainGo (src : Src)
  /-- TRAIN_DONE (R257): Training ends with DONE and MEM_CFG locked, or with FAIL. -/
  | trainDone (failed unitPs : Nat)
  /-- ECC_REGION_ENABLE (R255): Enabling an ECC region checks it and starts its zero-fill when INIT is set. -/
  | eccRegionEnable (src : Src) (k : Nat) (data : Word)
  /-- ECC_INIT_DONE (R255): The zero-fill of a region ends and held requests proceed. -/
  | eccInitDone (k : Nat)
  /-- DMA_NOP (R261): A DMA NOP completes at issue. -/
  | dmaNop (r : Nat)
  /-- COPY (R262): A COPY descriptor is checked and queued on its channel for a 2D copy. -/
  | copy (r : Nat)
  /-- FILL (R262): A FILL descriptor is checked and queued to write a repeated pattern. -/
  | fill (r : Nat)
  /-- COMPARE (R262): A COMPARE descriptor is checked and queued to compare two buffers. -/
  | compare (r : Nat)
  /-- DMA_STOP (R269): A STOP entry stops a channel at its next descriptor boundary. -/
  | dmaStop (r : Nat)
  /-- CH_STOP (R269): CH_CTRL.STOP from the manager or control world stops a channel. -/
  | chStop (src : Src) (k : Nat)
  /-- DESCRIPTOR_START (R268): A head descriptor begins immediately or arms a pool slot for a line start. -/
  | descriptorStart (k : Nat)
  /-- DMA_BURST_ISSUE (R266): The engine grants a burst to a channel that has a free slot, in its sharing mode. -/
  | dmaBurstIssue (burst : DmaBurst)
  /-- DESCRIPTOR_COMPLETE (R270): A descriptor completes after its last write, fence or mismatch, with its RESULT. -/
  | descriptorComplete (k : Nat)
  /-- GATE (R279): GATE enters the secure world at a valid entry target, or raises a gate fault. -/
  | gate (k rd imm target pc priv : Nat) (delegated : Bool)
  /-- GRET (R279): GRET returns the core from the secure to the normal world. -/
  | gret (k rd imm target pc priv : Nat) (delegated : Bool)
  /-- WSTAT (R279): WSTAT returns the world bit and core number. -/
  | wstat (k rd rs1 imm pc priv : Nat) (delegated : Bool)
  /-- GMARK (R279): GMARK is a no-op marking an entry point. -/
  | gmark (k rd rs1 imm pc priv : Nat) (delegated : Bool)
  /-- SECURE_INTERRUPT (R281): A secure interrupt during normal execution enters the secure world at SIRQ_VEC. -/
  | secureInterrupt (k pc priv : Nat) (enabled : Bool)
  /-- CLAIM_BLOCK_SET (R282): CLAIM_BLOCK.SET claims every page of a block. -/
  | claimBlockSet (src : Src) (block : Nat)
  /-- CLAIM_BLOCK_CLEAR (R282): CLAIM_BLOCK.CLEAR releases every page of a block. -/
  | claimBlockClear (src : Src) (block : Nat)
  /-- AUTH_FAIL (R285): AUTH.FAIL reports a failed SERVICE authentication with E_KEY. -/
  | authFail (src : Src)
  /-- WD_KICK (R284): A secure-world WD_KICK restarts the secure watchdog, or expires it on a wrong key. -/
  | wdKick (src : Src) (data : Word)
  /-- WD_WARN (R284): At 75 % of TIMEOUT without a kick, WARN is raised as a secure interrupt. -/
  | wdWarn
  /-- SECURE_WDOG_EXPIRY (R284): At TIMEOUT without a kick the device records and performs a whole-chip reset into BOOT. -/
  | secureWdogExpiry
  /-- CC_RELEASE (R275): CC_CTRL.RELEASE takes a core out of reset in the secure world at its vector. -/
  | ccRelease (src : Src) (release : Nat)
  /-- CC_RESET (R275): CC_CTRL.RESET resets a core into the secure world. -/
  | ccReset (src : Src) (mask : Nat)
  /-- ROLLBACK_ADVANCE (R66): ADVANCE blows one more rollback fuse, raising COUNT by 1. -/
  | rollbackAdvance (src : Src) (cc : Bool)
  /-- TCH_NOP (R295): A TCH NOP completes at issue. -/
  | tchNop (r : Nat)
  /-- SUBSCRIBE (R295): SUBSCRIBE directs a front end's reports to the ring and triggers a resync. -/
  | subscribe (r : Nat)
  /-- LOAD_REF (R296): LOAD_REF reads and checks a reference block and stores it on the field die. -/
  | loadRef (r : Nat)
  /-- RECAL (R293): RECAL discards baselines, lifts live contacts and runs settling. -/
  | recal (r : Nat)
  /-- TCH_SELF_TEST (R300): A SELF_TEST entry or TF_CMD runs the connection self-test. -/
  | tchSelfTest (r : Nat)
  /-- SELF_TEST_DONE (R300): The connection self-test ends, marking faults and resuming or halting scanning. -/
  | selfTestDone (n : Nat) (levels : List Int) (pairs : List (Nat × Nat)) (opn self : List Nat)
  /-- RAW (R295): RAW writes the next scan frame's raw, baseline or delta values to memory. -/
  | raw (r : Nat)
  /-- SCAN_FRAME_START (R290): In FREE mode a scan frame starts every 1 / RATE_HZ s. -/
  | scanFrameStart (n : Nat)
  /-- SCAN_FRAME_END (R294): At the end of measurement contacts are formed, baselines tracked and events written. -/
  | scanFrameEnd (n : Nat) (nodes lines : List Nat)
  /-- STUCK_TOUCH (R293): A contact held for HOLD_S raises STUCK_TOUCH and writes an event. -/
  | stuckTouch (n k : Nat)
  /-- TOUCH_CURRENT_LIMIT (R362): A drive line in current limit for 3 steps is marked SHORT_GND and starts the self-test. -/
  | touchCurrentLimit (n line : Nat)
  /-- HAP_NOP (R311): A HAP NOP completes at issue. -/
  | hapNop (r : Nat)
  /-- PLAY (R311): PLAY triggers an effect on the masked channels with delays and gains. -/
  | play (r : Nat)
  /-- HAP_STOP (R311): STOP sends each masked channel to its brake and drops pending triggers. -/
  | hapStop (r : Nat)
  /-- LOAD_EFFECT (R311): LOAD_EFFECT checks an effect image into a RAM slot's shadow. -/
  | loadEffect (r : Nat)
  /-- EFFECT_SLOT_SWAP (R311): The shadow image replaces the slot at the first tick no channel uses it. -/
  | effectSlotSwap (slot : Nat)
  /-- HAP_TEST (R314): A TEST entry or CH_CMD.TEST tests the actuator channels one by one. -/
  | hapTest (r : Nat)
  /-- HAP_TEST_DONE (R314): A channel test ends, clearing or setting its fault. -/
  | hapTestDone (gnd vin : Bool) (pair : Option Nat) (opn lobe : Bool)
  /-- READ_EFFECT (R311): READ_EFFECT writes an effect image to DRAM. -/
  | readEffect (r : Nat)
  /-- ISL_PLAY (R306): The island's ISL_PLAY triggers an effect at priority 4 on the masked channels. -/
  | islPlay (src : Src) (data : Word)
  /-- ACTUATOR_DELAY_EXPIRY (R306): A channel's focus delay ends and its copy of the effect starts. -/
  | actuatorDelayExpiry (k : Nat)
  /-- HALF_CYCLE_BOUNDARY (R305): A half-cycle boundary advances segments and cuts or starts pending effects. -/
  | halfCycleBoundary (k : Nat)
  /-- HAP_THERMAL_STEP (R310): Every 10 ms the haptic thermal model updates its derating value. -/
  | hapThermalStep
  /-- ACTUATOR_OVERCURRENT (R313): A bridge leg above 3 A for 1 µs turns the bridge off and faults the channel. -/
  | actuatorOvercurrent (k : Nat) (high : Bool)
  /-- BOOST_RAIL_CHECK (R313): 5 ms after enabling, a boost rail out of tolerance faults every BRIDGE channel. -/
  | boostRailCheck (volts : Nat)
  /-- AUD_NOP (R323): An AUD NOP completes at issue. -/
  | audNop (r : Nat)
  /-- BUFFER (R323): BUFFER queues a playback buffer on a stream. -/
  | buffer (r : Nat)
  /-- CAPTURE (R323): CAPTURE queues a capture buffer for a sink. -/
  | capture (r : Nat)
  /-- CHIME (R325): A CHIME entry requests a chime at rank 0 on a tone generator. -/
  | chime (r : Nat)
  /-- ISL_CHIME (R325): The island's ISL_CHIME requests a chime at rank 2. -/
  | islChime (src : Src) (data : Word)
  /-- AUDIO_SAMPLE (R317): Each 48 kHz period mixes inputs into buses, processes them and feeds the sinks. -/
  | audioSample (tdm mic host : List Nat)
  /-- CHIME_SEGMENT_END (R324): A chime segment's duration ends and the next segment or the end follows. -/
  | chimeSegmentEnd (t : Nat)
  /-- ZC_TIMEOUT (R320): A gain change without a zero crossing takes effect after ZC_TIMEOUT. -/
  | zcTimeout (i b : Nat)
  /-- DUCK_HOLD_EXPIRY (R319): DUCK_HOLD after the last ALERT bus falls inactive, ducking ends. -/
  | duckHoldExpiry (b : Nat)
  /-- SILENCE_DETECT (R322): An input at or below SIL_TH for SIL_MS becomes silent. -/
  | silenceDetect (i : Nat)
  /-- AMP_POWER_DOWN (R327): A class-D stage silent for AMP_OFF stops switching. -/
  | ampPowerDown (a : Nat)
  /-- EQ_COEF_WRITE (R321): An unstaged EQ coefficient write takes effect from the next sample. -/
  | eqCoefWrite (src : Src) (b k j : Nat) (data : Word)
  /-- AMP_TEST (R329): AMP_CMD.TEST runs the speaker fault test. -/
  | ampTest (src : Src) (a : Nat)
  /-- SPEAKER_OVERCURRENT (R329): A speaker leg over-current faults and mutes the channel. -/
  | speakerOvercurrent (a : Nat) (high : Bool)
  /-- EVENT_ADMIT (R334): An event is admitted to Cask staging, taking the next SEQ, or is lost if staging is full. -/
  | eventAdmit
  /-- RECORD_COMMIT (R336): A staged record is written to the medium at WPTR, verified and retired. -/
  | recordCommit (ok1 ok2 : Bool)
  /-- CASK_LOCATE (R337): When PD_AON comes up, Cask reads the medium to find the newest record. -/
  | caskLocate
  /-- CASK_LOCATE_DONE (R337): Locating ends, setting NEXT_SEQ, BOOT_COUNT and WPTR and numbering waiting records. -/
  | caskLocateDone (answers : Bool) (slotsLog2 : Nat) (gaps : Bool)
  /-- CASK_FREEZE (R340): FREEZE stops committing after the record in progress. -/
  | caskFreeze (src : Src) (data : Word)
  /-- FREEZE_TIMEOUT (R340): FREEZE clears itself FREEZE_MAX ms after it was set. -/
  | freezeTimeout
  /-- CASK_READ (R340): RD_CTRL.GO reads one record from the medium or staging into RD_DATA. -/
  | caskRead (src : Src) (data : Word)
  /-- CASK_CLEAR (R341): CSK_CTRL.CLEAR sets OLDEST to WPTR. -/
  | caskClear (src : Src) (data : Word)
  /-- LOG_EVENT (R341): LOG_EVENT.GO stages a software record. -/
  | logEvent (src : Src) (data : Word)
  /-- RTC_SET (R331): RTC_CTRL.SET loads the held time and sets VALID. -/
  | rtcSet (src : Src)
  /-- RTC_FRAC_READ (R331): A read of RTC_FRAC captures the seconds registers in the same tick. -/
  | rtcFracRead (src : Src)
  /-- RTC_ALARM (R46): The RTC seconds matching RTC_ALARM wakes the device from VIGIL. -/
  | rtcAlarm
  /-- TEMP_PEAK_READ (R364): A read of a TEMP register returns PEAK and clears it. -/
  | tempPeakRead (src : Src) (i : Nat)
  /-- LINK_PORT_ENABLE (R344): PORT_CFG.EN starts or stops a Jenpin port's training. -/
  | linkPortEnable (src : Src) (port : Nat) (data : Word)
  /-- LINK_PORT_UP (R344): Training and HELLO complete and the port is UP. -/
  | linkPortUp (port lanes rate : Nat)
  /-- LINK_RETRAIN_TIMER (R344): Every 100 ms a DOWN port with EN = 1 retries training. -/
  | linkRetrainTimer (port : Nat)
  /-- HELLO (R343): A HELLO message updates reach, hop latency and DACC range, or faults on duplicate DEVID. -/
  | hello (port dev reach hop d0 : Nat) (direct dup : Bool) (base size : Nat)
  /-- HAP_TRIG (R351): A forwarded HAP_TRIG plays the effect through the local focus page. -/
  | hapTrig (dev tf z eff prio : Nat)
  /-- TCH_EVT (R351): A forwarded TCH_EVT is written to the receiving ring. -/
  | tchEvt (dev : Nat) (e : List Byte)
  /-- LAYER_RD (R350): A LAYER_RD message requests remote layer pixels from the target DRAM. -/
  | layerRd (dev tag a n : Nat)
  /-- LAYER_DATA (R350): LAYER_DATA delivers remote layer pixels to the fetching pipe. -/
  | layerData (tag : Nat) (ok : Bool) (data : List Byte)
  /-- RSP (R346): An RSP message returns read data or a write status to the requester. -/
  | rsp (dev tag : Nat) (ok : Bool) (data : List Byte)
  /-- REG_WR (R349): A remote register write is checked and applied on the target. -/
  | regWr (dev tag page off : Nat) (data : List Byte)
  /-- MEM_WR (R349): A remote DRAM write is checked against DACC and the watermark. -/
  | memWr (dev tag a : Nat) (data : List Byte)
  /-- REG_RD (R349): A remote register read is checked and answered. -/
  | regRd (dev tag page off size : Nat)
  /-- MEM_RD (R349): A remote DRAM read is checked and answered. -/
  | memRd (dev tag a n : Nat)
  /-- LINK_MSG_RESERVED (R346): A message of reserved TYPE is discarded and counted in RX_BAD. -/
  | linkMsgReserved
  /-- REMOTE_WINDOW_ACCESS (R348): A control-core access to an open remote window is sent over the link. -/
  | remoteWindowAccess (k : Nat) (write : Bool) (a n : Nat) (data : List Byte) (pc priv : Nat) (delegated : Bool)
  /-- REMOTE_READ_TIMEOUT (R348): A remote read without response after 100 µs faults the core. -/
  | remoteReadTimeout (tag : Nat)
  /-- LINK_LOSS (R352): 16 failed replays or 10 µs silence put the port DOWN and recompute routes. -/
  | linkLoss (port : Nat) (silent : Bool) (events : Nat)
  /-- SURGE_CLAMP (R354): VIN above 62 V makes the clamp FET regulate VSYS. -/
  | surgeClamp (vin : Nat)
  /-- SURGE_TRIP (R354): Clamp time limit or VIN above 74 V, or surge without clamp, turns off and asserts PFWn. -/
  | surgeTrip (vin : Nat)
  /-- REVERSE_CURRENT (R354): Current from VSYS back to VIN turns REVG off within 2 µs. -/
  | reverseCurrent (vin vsys : Nat)
  /-- RAIL_FAULT (R356): A rail out of window for 10 µs asserts PFWn, or fails the boot step. -/
  | railFault (rail vin : Nat)
  /-- RAIL_WARN (R355): A rail between ±3 % and ±8 % sets its WARN bit. -/
  | railWarn (rail : Nat)
  /-- INPUT_LOSS (R357): VIN 1 V below VSYS for 20 µs starts PFW_DELAY. -/
  | inputLoss (vin vsys : Nat)
  /-- PFW_DELAY_EXPIRY (R357): An input loss still present when PFW_DELAY has elapsed asserts PFWn, or a recovered one counts a dip. -/
  | pfwDelayExpiry (vin vsys : Nat)
  /-- VSYS_LOW (R357): VSYS below PFW_TH for 2 µs asserts PFWn. -/
  | vsysLow (vin vsys : Nat)
  /-- EXTERNAL_PFWN (R357): PFWn held low from outside for 2 µs asserts the warning when EXT_EN is set. -/
  | externalPfwn (vin : Nat)
  /-- PFWN_ASSERT (R51): PFWn assertion sheds load, commits Cask and removes the rails into DORMANT. -/
  | pfwnAssert (written : Nat)
  /-- SAFE_OK_READBACK (R363): A SAFE_OK level differing from the driven level for 10 µs is recorded. -/
  | safeOkReadback (b : Bool)
  /-- VBUS5_PHASE_SHED (R355): VBUS5 sheds phase 1 below 3 A and restores it above 4 A. -/
  | vbus5PhaseShed (ma : Nat)
  /-- SERVICE_EN_FALL (R46): SERVICE_EN falling leaves SERVICE. -/
  | serviceEnFall
  /-- PROOF_LOCKSTEP (R369): Proof test 0x01 feeds a lockstep difference and expects a fault reset. -/
  | proofLockstep (src : Src)
  /-- PROOF_WDOG (R369): Proof test 0x02 delivers a wrong kick and expects a fault reset. -/
  | proofWdog (src : Src)
  /-- PROOF_SIG_PATH (R369): Proof test 0x03 injects into a region and expects its action at THRESH. -/
  | proofSigPath (src : Src) (arg : Nat)
  /-- PROOF_SAFE_OK (R369): Proof test 0x04 clears SAFE_OK and checks readback low. -/
  | proofSafeOk (src : Src)
  /-- PROOF_CLKMON (R369): Proof test 0x05 presents a low composition clock to the monitor. -/
  | proofClkmon (src : Src)
  /-- PROOF_ECC_ISL (R369): Proof test 0x06 places a double-bit error in island SRAM for the scrubber. -/
  | proofEccIsl (src : Src)
  /-- PROOF_ECC_DRAM (R369): Proof test 0x07 corrupts and reads a region granule, expecting an uncorrectable error. -/
  | proofEccDram (src : Src) (k : Nat)
  /-- PROOF_LANES (R369): Proof test 0x08 runs LANE_TEST on every enabled output. -/
  | proofLanes (src : Src)
  /-- PROOF_TOUCH (R369): Proof test 0x09 runs the touch self-test on the masked front ends. -/
  | proofTouch (src : Src) (mask : Nat)
  /-- PROOF_OUTPUTS (R369): Proof test 0x0A tests every enabled actuator and amplifier. -/
  | proofOutputs (src : Src)
  /-- PROOF_SUPPLY (R369): Proof test 0x0B offsets the supply comparators against a reference. -/
  | proofSupply (src : Src)
  /-- PROOF_TEST_END (R368): A proof test reaches its pass condition or bound and reports its outcome. -/
  | proofTestEnd (measured : Nat)
  /-- FAB_STALL (R371): Enabling FAB_STALL holds selected fabric ports periodically. -/
  | fabStall (src : Src) (data : Word)
  /-- DRAM_DELAY (R371): Enabling DRAM_DELAY delays read completions on selected channels. -/
  | dramDelay (src : Src) (data : Word)
  /-- BACKPRESS (R371): BACKPRESS.GO holds selected classes full for LEN × 1,024 clocks. -/
  | backpress (src : Src) (data : Word)
  /-- WM_FORCE (R371): Enabling WM_FORCE holds selected pipes' fetch class. -/
  | wmForce (src : Src) (data : Word)
  /-- SIG_INJ (R371): SIG_INJ.GO inverts a region's first pixel bit in the CRC for FRAMES frames. -/
  | sigInj (src : Src) (data : Word)
  /-- ECC_INJ (R371): ECC_INJ.ARM corrupts the next write to the addressed word. -/
  | eccInj (src : Src) (data : Word)
  /-- TCH_INJ (R371): Enabling TCH_INJ adds DELTA to one node's raw value each scan frame. -/
  | tchInj (src : Src) (data : Word)
  /-- VF_ENABLE_CLEAR (R82): The host clears VF Enable on a port, resetting its bound instances with cause 1 and leaving them BOUND. -/
  | vfEnableClear (port : Nat)
  /-- WAKE_GPIO (R46): The wake GPIO, enabled by VIGIL_CFG.WK_GPIO, wakes the device from VIGIL. -/
  | wakeGpio
  /-- VBAT_RISE (R331): VBAT rising after loss leaves the RTC time unset, so RTC_CTRL.VALID reads 0 and records carry TIME_UNSET until RTC_SET. -/
  | vbatRise
  /-- CORE_MEMORY_ACCESS (R42): A control-core load or store to SRAM, DRAM or the safety SRAM window is served, or raises an access fault with WMARK_FAULT, FAULT_ADDR, SRAM_UE or SAF PAGE_ERR recorded. -/
  | coreMemoryAccess (k : Nat) (op : CoreOp) (a n : Nat) (data : List Byte) (pc priv : Nat) (delegated : Bool)
  /-- REGISTER_READ (R36): A misaligned register read, a field-die read while the bridge is down, or a pre-RUN BAR read returns 0 or Unsupported Request and is recorded in PAGE_ERR where the rules say so. -/
  | registerRead (src : Src) (page off size : Nat)
  /-- AMP_TEST_DONE (R329): A speaker channel's fault test ends, clearing its fault or setting AMP_STAT.FAULT, muting it and recording AMP_FAULT. -/
  | ampTestDone (a : Nat) (gnd vin pair opn lobe : Bool)
  /-- BOOST_RAIL_OVERCURRENT (R313): Over-current on the haptic boost rail turns the boost off and faults every BRIDGE channel. -/
  | boostRailOvercurrent
  /-- CLAMP_RELEASE (R354): VIN falls back to 62 V or below, the clamp FET stops regulating and CLAMPING reads 0. -/
  | clampRelease (vin : Nat)
  /-- THERMAL_BOOT_RELEASE (R46): After a thermal shutdown, a wake held back waits until Tj is at or below 100 °C and then BOOT proceeds. -/
  | thermalBootRelease (tj : Int)
  /-- PFW_WAKE_HOLDOFF_EXPIRY (R359): 50 ms after the rails were removed following PFWn, a device whose VIN is past 8.6 V leaves DORMANT for BOOT. -/
  | pfwWakeHoldoffExpiry (vin : Nat)
  /-- DEBUG_HALT (R365): The debugger halts or resumes a control core in SERVICE, updating CC_STAT.HALTED and pausing the secure watchdog with DBG_PAUSE. -/
  | debugHalt (k : Nat) (halt : Bool)
  /-- LINK_LANE_FAIL (R342): A Jenpin lane that errors after training leaves the port running on 2 lanes, setting X2 and counting LANE_FAIL. -/
  | linkLaneFail (port : Nat)
  /-- LINK_CRC_ERROR (R346): A Jenpin message that fails its CRC is replayed by the sending hop and counted in CRC_ERR and REPLAY. -/
  | linkCrcError (port : Nat) (again : Bool)
  /-- DMA_READ_COMPLETION (R266): Read data of a Sparge burst returns into its slot, is compared for COMPARE, or on error stops the descriptor with E_HOSTERR or E_MEMERR. -/
  | dmaReadCompletion (k : Nat) (data : List Byte) (ok : Bool)
  deriving DecidableEq, Repr

end Sys2Proof
end

