-- ==== Sys2Proof/Decode.lean ====
section
/-! DEFINITION. Words of the opcode table. -/

namespace Sys2Proof

/-- The command that a word spells by the opcode table's bits. The table gives no row of this block any bits: its commands are register accesses, ring
entries, packets and events, and no word of `nbits` bits spells one. -/
def decodeTableWord (_nbits _w : Nat) : Option Instr := none

end Sys2Proof
end

