-- ==== Sys2Proof/Config.lean ====
section
/-! DEFINITION. What the spec leaves open: free values and functions of the operands that no proof can see into. -/

namespace Sys2Proof

/-- The `k`-th free value: a value the spec leaves open and does not bound (log entry 1). -/
opaque Config.freeValue (k : Nat) : BitVec 64

/-- The content of ROM effect `e` of the haptics, item `i` (R304 gives kinds only; log entry 21). -/
opaque Config.romEffect (e i : Nat) : BitVec 16

/-- Sample `n` of a tone of `freq` × 4 Hz at LEVEL `level` (R324 gives no rounding; log entry 113). -/
opaque Config.tone (level freq n : Nat) : BitVec 16

/-- The peak detector of the dynamics stage (R321): its level after a sample of magnitude `x`, FP32 words. -/
opaque Config.dynLevel (level x attack release : Nat) : BitVec 32

/-- The gain of the dynamics stage at a level, an FP32 word (R321 gives the curve in dB and no rounding). -/
opaque Config.dynGain (level thresh ratio : Nat) : BitVec 32

/-- The SERVICE banner's pattern (R367: 128 × 16 pixels, lettering or ground; the spec gives no bitmap). -/
opaque Config.bannerInk (x y : Nat) : Bool

/-- The banner's yellow as three FP16 components of linear light, red lowest (R367 gives no code; log entry 23). -/
opaque Config.bannerYellow : BitVec 48

/-- x^2.4 of a negative FP32 word, of which R173 and R392 state no value (log entry 22). -/
opaque Config.pow24Neg (x : Nat) : BitVec 32

/-- Which neighbour of the exact value a rounding gives that the spec does not fix (R173 step 2, R174), by its operands. -/
opaque Config.roundPick (a b c : Nat) : Nat

/-- Whether a Catmull-Rom coefficient that has no exact 14-bit value is taken above it (R174). -/
opaque Config.cubicUp (phase tap : Nat) : Bool

/-- Whether NEAREST takes the later of two source pixels at equal distance (R174). -/
opaque Config.nearestUp : Bool

/-- Which of two enabled units of a pipe with equal ZPOS lies below, where commits of two owners have given them the same (R167, R185). -/
opaque Config.tieBelow (u v : Nat) : Bool

/-- Which of the values that R154's accuracy allows operation `op` of the shader cores gives for argument word `x`. -/
opaque Config.approx (op x : Nat) : BitVec 32

/-- SHA-384 of the first `size` bytes of a memory whose cells these are (R74; FIPS 180-4 defines it, not the spec). -/
opaque Config.sha384 (cells : List (Nat × BitVec 8)) (size : Nat) : Nat

/-- Picoseconds from a port's readiness instant until the boot ROM has populated its configuration space, if less than 250 ms (R72). -/
opaque Config.configSpace : Nat

/-- Whether clip-space y points up the screen (R114 gives no direction). -/
opaque Config.yUp : Bool

/-- Which neighbour a snapped coordinate that is no multiple of 1/256 pixel takes (R114), by its exact value. -/
opaque Config.snapUp (num den : Int) : Bool

/-- Interpolation inside a primitive (R158): which FP32 value near the exact one (`exact` is that rounded) the setup unit gives; `key` names the
primitive's vertices, the component and the sample point. -/
opaque Config.interp (exact : Nat) (key : List Int) : BitVec 32

/-- Analytic coverage of a pixel (R114, R115), for the boundary points of the primitive and the pixel. -/
opaque Config.coverage (key : List Int) : BitVec 16

/-- Contents of an attachment pixel loaded with DONTCARE (R131). -/
opaque Config.dontCare (key : List Nat) : BitVec 64

/-- Which neighbour a filter coordinate or weight with more than 8 fractional bits takes, and how a filtered sum rounds (R138). -/
opaque Config.texelUp (num den : Int) : Bool

/-- Counter `i` of a control core's bank (2 instret, 3–31 hpmcounters) after `cycles` clocks in its world: which instructions retire and which events
the hpmcounters count is not stated (log entry 87). -/
opaque Config.coreCount (i cycles : Nat) : BitVec 64

/-- The reserved word of the island SRAM in which the ECC_ISL proof test places its error (R369). -/
opaque Config.reservedWord : BitVec 21

end Sys2Proof
end

