-- ==== Sys2Proof/Machine/State.lean ====
section
/-! DEFINITION. The state of the block as plain data. -/

namespace Sys2Proof.Machine

/-- A sparse table: keys strictly rising, an unlisted key holds the default of its reader. -/
abbrev SMap (α : Type) := List (Nat × α)

/-- A register field: its page, byte offset, lowest bit, width and reset value (R33). -/
structure Fld where
  page : Nat
  off : Nat
  lo : Nat
  w : Nat
  rst : Nat
  deriving DecidableEq, Repr

/-- How a field answers writes (R34, R36, R38 and the chapters' own rules). -/
inductive Access where
  | ro | rw | wo | w1c | w1cbits | w1s | rws | rwl | rwt
  deriving DecidableEq, Repr

/-- The values a field admits at the write (R38 check 8). -/
inductive Legal where
  | any
  | atLeast (n : Nat)
  | atMost (n : Nat)
  | within (lo hi : Nat)
  | oneOf (vs : List Nat)
  | permutation
  | toneFreq
  deriving DecidableEq, Repr

/-- A field as the register map lists it. -/
structure FSpec where
  fld : Fld
  acc : Access
  staged : Bool
  legal : Legal
  deriving DecidableEq, Repr

/-- An interrupt sent on a rising edge (R41): the line (a page number, or 512 + ring pair) and the destination
of its router entry (R86). -/
structure Delivery where
  line : Nat
  kind : Nat
  port : Nat
  func : Nat
  vector : Nat
  core : Nat
  world : Nat
  deriving DecidableEq, Repr

/-- The shadow of one staged set (R39), named by its page (for LDG, AUD and HAP the page that holds the COMMIT). `shadow` holds the fields
written since the last latch, oldest first; `pending` an accepted set. -/
structure StageSet where
  page : Nat
  owner : Option Src := none
  shadow : List (Fld × Nat) := []
  pending : List (Fld × Nat) := []
  /-- The page whose COMMIT is validating the shadow. -/
  busyBy : Option Nat := none
  /-- The source of that COMMIT's GO, kept on the COMMIT page's own set. -/
  goBy : Option Src := none
  /-- The page whose COMMIT accepted `pending`. -/
  pendBy : Option Nat := none
  deriving DecidableEq, Repr

/-- An event on its way to Cask (R333, R334): its code, unit, parameter bytes and ledger nanoseconds. -/
structure CaskEv where
  event : Nat
  unit : Nat
  params : List Nat
  ns : Nat
  source : Nat
  extrap : Bool := false
  deriving DecidableEq, Repr

/-- Why the machine stops. -/
inductive Fault where
  /-- Raised by a command that names a unit the part does not have (an output above 7, a ring pair above 63).
  Safe: no such command exists on the part. -/
  | noSuchUnit
  deriving DecidableEq, Repr

/-- What the model does not run. -/
inductive Refusal where
  /-- Raised by the dispatcher for a command with no meaning yet. Safe. -/
  | notModelled (mnemonic : String)
  deriving DecidableEq, Repr

/-- The field bridge (R9–R11): whether it is up, the retries of the frame in progress, the time of the last frame,
and the field-die pages still in their hold state. -/
structure Bridge where
  up : Bool := true
  retries : Nat := 0
  lastFrame : Nat := 0
  hold : List Nat := []
  deriving DecidableEq, Repr

/-- Hidden state of the line ledger (R19–R23): the ledger-nanosecond counter, the time at which the present line
began, and what VIGIL saved (R31). -/
structure Ledger where
  ns : Nat := 0
  /-- Anchor lines begun since the part's time began. -/
  lineNo : Nat := 0
  /-- Picoseconds of the current nanosecond already counted. -/
  nsRem : Nat := 0
  /-- `ps` at which the ledger's present line began. -/
  lineStart : Nat := 0
  /-- Nanoseconds still to run at half rate, and the half nanosecond so far withheld (R30). -/
  slow : Nat := 0
  odd : Nat := 0
  /-- Correction of later syncs still to be made, in ns, and nanoseconds since its last step: at most one per µs (R30). -/
  slew : Int := 0
  slewAge : Nat := 0
  savedFrame : Nat := 0
  savedNs : Nat := 0
  savedRtc : Nat := 0
  /-- Frames since the last sync (R30). -/
  sinceSync : Nat := 0
  /-- D0's frame count where the follower's differs from it, and picoseconds by which the anchor's trimmed pixel clock lengthens each of
  its frames (R30). -/
  adopt : Option Nat := none
  trim : Int := 0
  /-- Ledger stamp of the last firing, by slot (R24). -/
  fireStamp : SMap Nat := []
  /-- Consecutive syncs with a phase error above 4 pixel clocks. -/
  badPhase : Nat := 0
  /-- Per output: consecutive frames with a phase error beyond the limits (R22). -/
  phaseBad : SMap Nat := []
  /-- Outputs whose next frame is the acquiring frame, and per output in its acquiring frame the instant (`ps`) of the new phase at which
  that frame ends (R22). -/
  lockNext : List Nat := []
  acquiring : SMap Nat := []
  /-- Slots held by an engine request: (slot, requester's channel) (R27). -/
  held : SMap Nat := []
  deriving DecidableEq, Repr

/-- Hidden state of modes and power domains (R46–R58). -/
structure Power where
  /-- Domains quiescing (R54), and `ps` at GO. -/
  quiesce : List Nat := []
  quFrom : Nat := 0
  /-- The power request in progress: its domain, and whether it powers it on (R53). -/
  req : Option (Nat × Bool) := none
  /-- `ps` of the last step of thermal protection, or of its release (R56). -/
  stepAt : Nat := 0
  /-- Policy loops that climb back after protection has released (R57). -/
  recover : List Nat := []
  /-- Protection acts on the compute die, on the field die (R56). -/
  gpuHot : Bool := false
  fieldHot : Bool := false
  /-- A wake source that has been seen (R73: its code). -/
  wake : Option Nat := none
  /-- Outputs that already show Degraded composition while RUN → DEGRADED is in progress (R46). -/
  switched : List Nat := []
  /-- The island's request held in SERVICE (R7), and anchor frames a pending agreement has left (R47). -/
  islandHeld : Bool := false
  agreeLeft : Nat := 0
  /-- `ps` at t0 or at the wake event, and at the entry to VIGIL. -/
  t0 : Nat := 0
  vigilAt : Nat := 0
  /-- Domains that were on when the device last left RUN (R52). -/
  savedPd : Nat := 0x1FFFFFF
  /-- Entries of the early timing table that no commit has replaced, by output (R68, R69). -/
  early : SMap (List Byte) := []
  /-- Outputs with an illegal entry in the early timing table (R68), and whether the table leaves the early anchor to the lowest lit output (R69). -/
  earlyBad : Nat := 0
  anchorOpen : Bool := false
  /-- The partition table that the boot ROM uses (R65): its entries up to the end mark. -/
  part : List (List Byte) := []
  /-- The island stays in FAULT until the next entry to BOOT (R67, R209). -/
  islDead : Bool := false
  /-- BOOT_CTRL.LOAD has been set (R64). -/
  loaded : Bool := false
  /-- PD_CMP is being powered on as part of DEGRADED → RUN (R49). -/
  cmpRising : Bool := false
  /-- After a thermal shutdown BOOT waits for Tj ≤ 100 °C, with the cause of a wake held back (R46). -/
  hot : Bool := false
  bootHeld : Option Nat := none
  /-- `ps` at which PFWn removed the rails where DORMANT counts as VIN below 8.0 V (R359). -/
  railsOff : Option Nat := none
  /-- The control cores run at 800 MHz and GPU DRAM traffic is held to half (R56). -/
  halved : Bool := false
  /-- `ps` at which an input loss was detected (R357), the clamp began to regulate, and clamp periods of the last 10 s (begin, end) (R354). -/
  lossAt : Option Nat := none
  clampAt : Option Nat := none
  clamps : List (Nat × Nat) := []
  /-- Blocks (by code) that software has enabled since t0: their pins have left the state of R73. -/
  started : List Nat := []
  /-- Loops that protection now holds below FLOOR (R57). -/
  below : List Nat := []
  /-- `ps` at which PFWn asserted (R357). -/
  pfwAt : Nat := 0
  deriving DecidableEq, Repr

/-- A fetched submission entry: its sequence number and its 64 bytes (R93). -/
structure RingEnt where
  seq : Nat
  bytes : List Byte
  deriving DecidableEq, Repr

/-- How an issued entry ended: status, the 12 RESULT bytes and the ledger stamp (R95). -/
structure Ending where
  status : Nat
  result : List Byte
  stamp : Nat
  deriving DecidableEq, Repr

/-- An issued entry that has not retired. `fresh` until its engine has taken it up. -/
structure Issued where
  seq : Nat
  bytes : List Byte
  fresh : Bool
  done : Option Ending
  deriving DecidableEq, Repr

/-- Hidden state of a ring pair (R91–R101). -/
structure Ring where
  /-- Entries fetched and not issued, oldest first (at most 8). -/
  fetched : List RingEnt := []
  /-- Entries issued and not retired, in sequence order. -/
  issued : List Issued := []
  /-- The overflow slot (R98): completion entries of 32 bytes. -/
  ovf : List (List Byte) := []
  /-- Anchor lines stalled since the last accepted CQ_DB write (R99). -/
  stall : Nat := 0
  /-- Selector credits left (R101). -/
  credit : Nat := 0
  /-- The anchor line at which the present head became the head, and the wait limit then in force (R94). -/
  headAt : Nat := 0
  headLimit : Nat := 0
  /-- A HALTED pair being retired fetches and issues nothing more (R100). -/
  dead : Bool := false
  deriving DecidableEq, Repr

/-- An event of an engine class, waiting to be placed in a completion ring (R96). -/
structure RingEvent where
  ring : Nat
  status : Nat
  result : List Byte
  stamp : Nat
  /-- DONE_SEQ at the time of the event. -/
  seq : Nat := 0
  /-- The engine holds the event when it cannot be placed. -/
  stalls : Bool
  deriving DecidableEq, Repr

/-- A request to host memory (R76, R85): the port, the function whose Requester ID it carries (0 the physical function, 1–8 a VF), and its No Snoop attribute. -/
structure HostReq where
  port : Nat
  func : Nat
  write : Bool
  addr : Nat
  len : Nat
  noSnoop : Bool
  deriving DecidableEq, Repr

/-- The shares of an instance that are in force (R79). -/
structure Share where
  gfxMask : Nat := 0
  gfxMode : Nat := 0
  gfxWeight : Nat := 0
  bw : Nat := 0
  layers : Nat := 0
  dma : Nat := 0
  aud : Nat := 0
  tch : Nat := 0
  hap : Nat := 0
  deriving DecidableEq, Repr

/-- A reset of an instance in progress (R82, R83). -/
structure VReset where
  cause : Nat
  start : Nat
  squashed : Nat
  drained : Nat
  deriving DecidableEq, Repr

/-- Hidden state of ring exchange and instance manager. -/
structure Imx where
  rings : SMap Ring := []
  events : List RingEvent := []
  shares : SMap Share := []
  /-- When a pending share was written: anchor line count or sample count, by 16 × instance + kind. -/
  shareAt : SMap Nat := []
  resets : SMap VReset := []
  /-- Per port: VF Enable and NumVFs (R77), and PERSTn asserted (R72). -/
  vfEn : SMap Nat := []
  numVfs : SMap Nat := []
  perst : List Nat := []
  /-- Per port: the time of PERSTn's deassertion or t0, in ps; and the ports ready for link training. -/
  perstAt : SMap Nat := []
  ready : List Nat := []
  /-- Touch rings with a dropped event: the next event placed carries RESYNC; the front end owes the full set (R298). -/
  dropped : List Nat := []
  /-- The last request issued to host memory. -/
  last : Option HostReq := none
  resync : List Nat := []
  deriving DecidableEq, Repr

/-- A bound program (R146, R160): where its image lies, the image, and the offset of the packet that bound it. -/
structure GProg where
  addr : Nat
  image : List Byte
  pkt : Nat
  deriving DecidableEq, Repr

/-- State that draws see (R110, R130), with the reset values of the packet tables. Constants by 4 × stage + slot (address, size), vertex
buffers by slot (address, size, stride word), attribute words, index buffer (address, word), blend words by attachment, texture
descriptors and sampler words by 16 × stage + slot. -/
structure GState where
  vprog : Option GProg := none
  fprog : Option GProg := none
  consts : SMap (Nat × Nat) := []
  vbufs : SMap (Nat × Nat × Nat) := []
  vattr : SMap Nat := []
  ibuf : Option (Nat × Nat) := none
  prim : Nat := 3
  viewport : List Nat := []
  scissor : Option (Nat × Nat) := none
  depth : Nat := 2
  stencil : List Nat := [0x0E, 0xFFFF00, 0x0E, 0xFFFF00]
  blend : SMap Nat := []
  blendConst : List Nat := [0, 0, 0, 0]
  textures : SMap (List Byte) := []
  samplers : SMap Nat := []
  sampleMask : Nat := 15
  deriving DecidableEq, Repr

/-- A transformed vertex (R112, R159): position (none if unwritten), the 16-bit words of its varyings by 4 × vector + component, and
the point size it wrote. -/
structure GVert where
  pos : Option (List Nat) := none
  vary : SMap Nat := []
  psize : Option Nat := none
  deriving DecidableEq, Repr

/-- A primitive that setup has let through (R113–R116): its index, the draw state it belongs to, its topology code, its corners in 1/256
pixel, its vertices, facing, the vertex it takes flat values from, its size or width in 1/256 pixel, its tile rectangle (x0, y0, x1, y1)
and whether it is in the wide list. -/
structure GPrim where
  idx : Nat
  st : Nat
  kind : Nat
  poly : List (Int × Int)
  verts : List GVert
  front : Bool
  prov : Nat := 0
  size : Nat := 0
  rect : Nat × Nat × Nat × Nat
  wide : Bool
  deriving DecidableEq, Repr

/-- A draw in progress: its draw state, the vertices to shade (vertex index and instance index), its vertices in order by their places
among those (none at a restart), the count per instance, how many have gone to a core, the transformed ones, and the primitives not yet
binned once all are. -/
structure GDraw where
  st : Nat
  shade : List (Nat × Nat)
  items : List (Option Nat)
  perInst : Nat
  sent : Nat := 0
  done : SMap GVert := []
  left : Option (List (List Nat)) := none
  deriving DecidableEq, Repr

/-- A job context (R103–R124). `code` is the buffer being parsed (address, length, offset) and `ret` where a CALL returns to; `pkt` the
offset of the present packet in the command buffer. `phase`: 0 binning, 1 rendering, 2 partial render. `room` bytes are left in the newest
chunk and `segs` counts references in the last segment of each tile's list (65536 for the wide list). `failed` is the error (status, offset of its
packet if any). -/
structure GJob where
  ring : Nat
  seq : Nat
  own : Nat
  no : Nat
  entry : List Byte
  target : List Byte
  code : Nat × Nat × Nat
  ret : Option (Nat × Nat × Nat) := none
  pkt : Nat := 0
  ended : Bool := false
  st : GState := {}
  clearC : SMap (Nat × Nat) := []
  clearZ : Nat := 0x3F800000
  clearS : Nat := 0
  states : List GState := []
  draw : Option GDraw := none
  prims : List GPrim := []
  binned : Nat := 0
  nextIdx : Nat := 0
  wideAt : Nat
  held : List Nat := []
  spare : List Nat := []
  room : Nat := 0
  segs : SMap Nat := []
  parked : Option Nat := none
  growWait : Nat := 0
  phase : Nat := 0
  tiles : List Nat := []
  out : Nat := 0
  spilled : List Nat := []
  stored : Nat := 0
  partials : Nat := 0
  escalated : Option Nat := none
  failed : Option (Nat × Option Nat) := none
  deriving DecidableEq, Repr

/-- A lane of a wave. Vertex: `a` its place in the draw, `b` vertex index, `i` instance index. Fragment: pixel (`a`, `b`), `i` the place of its
primitive in the tile's list, its ordinal, covered samples, analytic coverage, the samples it may still write, and whether its tests have run already. -/
structure GLane where
  a : Nat
  b : Nat
  i : Nat
  ord : Nat := 0
  mask : Nat := 0
  cov : Nat := 0xFFFF
  pass : Nat := 0
  early : Bool := false
  deriving DecidableEq, Repr

/-- A wave in flight (R148): the shading core, the core that owns its tile (itself for a vertex wave), its job context, stage, draw state,
program, registers by 64 × lane + register, predicates by 4 × lane + predicate, outputs by 512 × lane + word. -/
structure GWave where
  core : Nat
  home : Nat
  ctx : Nat
  frag : Bool
  st : Nat
  code : List Nat
  nreg : Nat
  pc : Nat := 0
  active : Nat
  helper : Nat := 0
  killed : Nat := 0
  lanes : List GLane
  regs : SMap Nat := []
  preds : SMap Nat := []
  outs : SMap Nat := []
  deriving DecidableEq, Repr

/-- A shaded fragment in the retire queue (R136). -/
structure GFrag where
  x : Nat
  y : Nat
  i : Nat
  ord : Nat
  mask : Nat
  killed : Bool
  pass : Nat := 0
  early : Bool := false
  outs : SMap Nat
  deriving DecidableEq, Repr

/-- A wave that waits to start on a core: its draw state, its lanes, its helper lanes. -/
structure GNext where
  core : Nat
  st : Nat
  lanes : List (Option GLane)
  helper : Nat
  deriving DecidableEq, Repr

/-- The work of a core (R123, R131, R135): a vertex batch, or a tile with its merged list, the list position of the next run to deal, the
first quad place of that run still to rasterise (256 × primitive + quad), waves to start, samples written by (pixel × 8 + attachment) × 4 + sample, tallies, scoreboard and retire queue, its helper and the first
run the helper shades; or the core whose tile it helps. For its account: when the clocks not yet counted begin (ps), the GPU clocks counted
since it took the work up, and the issue clocks of its waves in that time. -/
structure GCore where
  ctx : Nat
  tile : Option Nat := none
  helps : Option Nat := none
  list : List GPrim := []
  pos : Nat := 0
  quad : Nat := 0
  queue : List GNext := []
  mem : SMap Nat := []
  tally : SMap Nat := []
  board : SMap Nat := []
  frags : List GFrag := []
  helper : Option Nat := none
  joined : Nat := 0
  heavy : Bool := false
  early : Bool := false
  since : Nat := 0
  ran : Nat := 0
  spent : Nat := 0
  deriving DecidableEq, Repr

/-- Hidden state of the raster pipeline (R103–R145): the lines of the GPU L2 and of the texture units' read caches, 64 bytes each, by cache, owner
and address (R140); job contexts, jobs issued and escalations so far, bin pools (free chunks, oldest first),
the work of the cores, waves, service accounts of R123 (GPU clocks by 32 × core + owner), and per output the frame up to which escalation has
fired. -/
structure Gfx where
  lines : SMap (List Byte) := []
  jobs : SMap GJob := []
  issued : Nat := 0
  escs : Nat := 0
  pools : SMap (List Nat) := []
  cores : SMap GCore := []
  waves : SMap GWave := []
  served : SMap Nat := []
  fired : SMap Nat := []
  deriving DecidableEq, Repr

/-- A composition pipe (R162–R166): whether it composes, the output frame it composes for, the slices it has started, the next line, the
beam line at which it last counted a wait for space, the composed lines not yet sent (line and 10:10:10 codes), whether this frame is
Degraded composition, and whether the pending register set was accepted while full composition was allowed (R46, R218) and came from the secure
world. -/
structure CmpPipe where
  on : Bool := false
  frame : Nat := 0
  slices : Nat := 0
  next : Nat := 0
  waitAt : Option Int := none
  buf : List (Nat × List Nat) := []
  degraded : Bool := false
  regOk : Bool := false
  regSec : Bool := false
  /-- This frame carries the SERVICE banner (R367). -/
  banner : Bool := false
  deriving DecidableEq, Repr

/-- The open set of a CMP ring (R182, R183): its records, unit and 64 bytes, in order; discarded after a failed record. -/
structure CmpOpen where
  recs : List (Nat × List Byte) := []
  failed : Bool := false
  deriving DecidableEq, Repr

/-- An accepted ring COMMIT that waits for its flip line (R184–R186). -/
structure RingCommit where
  ring : Nat
  seq : Nat
  own : Nat
  pipe : Nat
  recs : List (Nat × List Byte)
  frameEn : Bool
  frame : Nat
  /-- Accepted while full composition was allowed. -/
  ok : Bool
  deriving DecidableEq, Repr

/-- Pixels of a remote source that have arrived for a unit (R350). -/
structure RemoteData where
  unit : Nat
  addr : Nat
  bytes : List Byte
  deriving DecidableEq, Repr

/-- Hidden state of composition: pipes, open sets by ring, accepted ring commits in order of acceptance, OUT_FRAME of the last latched commit
by 8 × instance + pipe, per unit the source lines already fetched in this frame (all below) and those that failed, pipes kept in Degraded
composition until a commit, units last configured by the secure world, and remote data. -/
structure Cmp where
  pipe : SMap CmpPipe := []
  opens : SMap CmpOpen := []
  commits : List RingCommit := []
  outFrame : SMap Nat := []
  rows : SMap Nat := []
  bad : SMap (List Nat) := []
  hold : List Nat := []
  secure : List Nat := []
  remote : List RemoteData := []
  deriving DecidableEq, Repr

/-- An AUX transfer of software (R202): its command, DEFER replies so far, and when the sink was last asked (`ps`). -/
structure AuxReq where
  cmd : Nat
  len : Nat
  addr : Nat
  defers : Nat := 0
  since : Nat
  deriving DecidableEq, Repr

/-- Hidden state of an output (R189–R206). -/
structure ScnOut where
  /-- In the lead-in that follows an enable (R192). -/
  leadIn : Bool := false
  /-- It has been enabled before. -/
  ran : Bool := false
  /-- An accepted enable of a locked output waits for this instant (`ps`) to begin its lead-in. -/
  startAt : Option Nat := none
  /-- `ps` at which its present line began, and the 10:10:10 codes the line sends. -/
  lineAt : Nat := 0
  cur : List Nat := []
  /-- Link state of R201 (what OUT_STAT.STATE shows unless it shows FOLLOWER). -/
  link : Nat := 0
  /-- A disable has latched: frames still to be sent. -/
  offLeft : Option Nat := none
  /-- Own class of the pipe, before a split pair takes the higher (R194). -/
  cls : Nat := 0
  /-- This frame entered ISOCHRONOUS; spent wholly in NORMAL so far; consecutive NORMAL frames; a frame has ended and is not yet judged
  (R196). -/
  iso : Bool := false
  normal : Bool := true
  normalRun : Nat := 0
  judged : Bool := true
  lastIso : Bool := false
  lastNormal : Bool := false
  /-- This frame holds an underrun; UR_FIRST holds a capture (R197). -/
  ur : Bool := false
  captured : Bool := false
  /-- The last pixel read from the slice buffer, as a 10:10:10 code, since the generator started. -/
  lastPx : Option Nat := none
  /-- The line last put on the wire: dithered codes, blue in [9:0], green in [19:10], red in [29:20]. In an LVDS mode, `lanes` holds the present line as the
  7-bit words of data lanes 0–3, one list for each pixel clock of this PHY (R199, R200). -/
  wire : List Nat := []
  lanes : List (List Nat) := []
  /-- What the present frame's MSA carries: the timing, BPC (R200). -/
  msa : List Nat := []
  /-- The audio sample pair last sent, and Maud and Naud (R203). -/
  sdp : Option (Int × Int) := none
  maud : Option (Nat × Nat) := none
  /-- Picoseconds by which the trimmed pixel clock of a locked output lengthens the present frame (R22). -/
  trim : Int := 0
  /-- Consecutive whole frames spent SENDING; BLn_EN (R206). -/
  sending : Nat := 0
  blEn : Bool := false
  /-- A link training is in progress; attempts are counted on the PHY page. The retrain follows an IRQ_HPD. -/
  training : Bool := false
  retrain : Bool := false
  /-- Of the last training (R201): DPCD 0x00000–0x0000F of the sink, the pattern that equalisation uses, DPCD 0x0010A written for ASSR, and the voltage
  swing and pre-emphasis levels reached. -/
  caps : List Byte := []
  eqTps : Nat := 2
  assr : Bool := false
  drive : Nat × Nat := (0, 0)
  /-- BLn_PWM (R206): `ps` at which a period began, and the duty that is in force until `ps` reaches `pwmFrom`. -/
  pwmAt : Nat := 0
  pwmOld : Nat := 255
  pwmFrom : Nat := 0
  /-- Lanes whose driver a short has switched off (R205). -/
  offLanes : Nat := 0
  aux : Option AuxReq := none
  testAt : Nat := 0
  deriving DecidableEq, Repr

/-- Hidden state of the safety island, its planes and signatures (R208–R221). -/
structure Saf where
  /-- `ps` at which the island began to run. -/
  startedAt : Nat := 0
  /-- `ps` of the last kick or of arming, and the key due. -/
  wdBase : Nat := 0
  wdKey : Nat := 0x5A
  /-- `ps` of the fault resets of the last 60 s. -/
  resets : List Nat := []
  /-- Per clock (0 island, 1 composition, 2 REFCLK): consecutive windows that speak against its present state; the clocks that
  are faulty. -/
  clkRun : SMap Nat := []
  clkBad : List Nat := []
  /-- Planes that stay transparent and unchecked since a fault reset (R209). -/
  clear : List Nat := []
  /-- The plane blocks copied at the latch (R210). -/
  blocks : SMap (List Byte) := []
  /-- STABLE references and running CRCs, by 16 × output + region. -/
  ref : SMap Nat := []
  crc : SMap Nat := []
  /-- A region that acts with ACT 2 or 3 at the end of the present line asks for DEGRADED (R217). -/
  ask : Bool := false
  deriving DecidableEq, Repr

/-- Hidden state of the fabric, its arbiters and the lock unit (R224–R239). -/
structure Fab where
  /-- Rotating pointer of each arbiter that has granted (R231). -/
  ptr : SMap Nat := []
  /-- Counters of each arbiter's requesters (R232), keyed by `arbKey`. -/
  cnt : SMap Nat := []
  /-- The lock each waiting requester waits on. -/
  waiting : SMap Nat := []
  /-- Message classes a BACKPRESS holds full, and until when in ps (R371). -/
  pressed : Nat := 0
  pressedUntil : Nat := 0
  /-- Up to when ALL_FULL_CNT has been counted, and when FAB_STALL was last enabled, in ps. -/
  pressedFrom : Nat := 0
  stallAt : Nat := 0
  deriving DecidableEq, Repr

/-- A request in a bank queue of a DRAM channel (R245): direction, class (0 ISO, 1 urgent, 2 normal, 3 background), fabric port,
DRAM offset, length, bytes already transferred, the data of a write, `ps` at admission, and whether R248 has held it. -/
structure DramEnt where
  write : Bool
  cls : Nat
  port : Nat
  off : Nat
  len : Nat
  sent : Nat := 0
  data : List Byte := []
  since : Nat
  held : Bool := false
  /-- World tag: secure traffic is counted nowhere (R283). -/
  sec : Bool := false
  deriving DecidableEq, Repr

/-- An open row of a bank: the row, the column commands of its run, and when the run began (a running number). -/
structure DramRow where
  row : Nat
  run : Nat
  since : Nat
  deriving DecidableEq, Repr

/-- Hidden state of a DRAM channel: its queues in order of arrival, the rotating pointer, open rows by bank, the time up to which
refresh debt has been counted with its remainder, what the last retraining step saw, and the starts of idleness, of a self-refresh
entry and of a retraining step (`ps`). -/
structure DramChan where
  ents : List DramEnt := []
  /-- What admission in the normal level still grants each owner (16 is the manager with the control cluster) before the weights count anew (R80, R245). -/
  credit : SMap Nat := []
  pointer : Nat := 31
  rows : SMap DramRow := []
  runs : Nat := 0
  upTo : Nat := 0
  rem : Nat := 0
  stepFrame : Nat := 0
  stepTemp : Nat := 0
  idleAt : Nat := 0
  srAt : Nat := 0
  rtAt : Nat := 0
  /-- Command slots of the present window of 64 that have gone by, and those of them that were ISO slots (R226). -/
  slot : Nat := 0
  isoSlot : Nat := 0
  deriving DecidableEq, Repr

/-- What a served request answers to its fabric port: its data, or an error, and the `ps` up to which a perturbation holds the answer
back (R371). -/
structure DramAns where
  port : Nat
  off : Nat
  ok : Bool
  data : List Byte
  due : Nat := 0
  deriving DecidableEq, Repr

/-- Hidden state of the DRAM controller (R242–R259): anchor frames seen, whether the vertical-blank refresh period runs, the time of one
refresh unit of the fitted devices in ps, and whether a pipe was ISOCHRONOUS in the present anchor line. -/
structure Drc where
  ch : SMap DramChan := []
  answers : List DramAns := []
  frames : Nat := 0
  blank : Bool := false
  unitPs : Nat := 0
  iso : Bool := false
  /-- RESERVE in force: that of the last anchor line (R226). -/
  reserve : Nat := 16
  /-- What the bandwidth governor still lets ports 0 and 1 have, in 10⁻⁴ bytes, as of `govAt` ps (R259). -/
  gov : Nat := 40960000
  govAt : Nat := 0
  deriving DecidableEq, Repr

/-- A queued descriptor of Sparge (R262): the ring entry it came from, its owner (0–15 an instance, 16 the manager or the
control world) and its 64 bytes. -/
structure DmaDesc where
  ring : Nat
  seq : Nat
  own : Nat
  bytes : List Byte
  deriving DecidableEq, Repr

/-- A read burst on its way: the side (false source, true destination), its first byte as an index into the
descriptor's bytes, and its length. -/
structure DmaRead where
  dst : Bool
  start : Nat
  len : Nat
  /-- It continues a burst that was pre-empted at a beat, in the same burst slot (R267). -/
  join : Bool := false
  deriving DecidableEq, Repr

/-- A descriptor in progress (R266–R272). `held` are bytes that have arrived and not left, in order: of the source, and of
the destination side of a COMPARE. -/
structure DmaRun where
  srcNext : Nat := 0
  dstNext : Nat := 0
  /-- The last read of the source, or of the destination, was pre-empted within its burst (R267). -/
  cutSrc : Bool := false
  cutDst : Bool := false
  reads : List DmaRead := []
  /-- Bytes left in each slot that has arrived, per side. -/
  slotsSrc : List Nat := []
  slotsDst : List Nat := []
  held : List Byte := []
  heldDst : List Byte := []
  /-- Bytes written, or compared. -/
  done : Nat := 0
  /-- Status and source and destination byte, once the descriptor has stopped early. -/
  stopped : Option (Nat × Nat × Nat) := none
  deriving DecidableEq, Repr

/-- A channel of Sparge: its queue (the head is the present descriptor), what it runs, whether the head waits for a start
and on which pool slot, and a stop in progress with its STOP entries and the descriptors it will stop. -/
structure DmaChan where
  queue : List DmaDesc := []
  run : Option DmaRun := none
  waiting : Bool := false
  slot : Option Nat := none
  /-- A start that fired while the domain was held. -/
  fired : Bool := false
  /-- The anchor line on which a firing last started a descriptor. -/
  startedAt : Option Nat := none
  preempted : Bool := false
  stopping : Bool := false
  stopRefs : List (Nat × Nat) := []
  /-- Descriptors behind the running one that the stop removes. -/
  stopCount : Nat := 0
  /-- Bytes moved in all. -/
  moved : Nat := 0
  deriving DecidableEq, Repr

/-- Hidden state of Sparge: its channels, and per priority level the channel that holds it (PREEMPT, R267). -/
structure Dma where
  ch : SMap DmaChan := []
  holder : SMap Nat := []
  ptr : SMap Nat := []
  /-- The channel granted last. -/
  last : Option Nat := none
  deriving DecidableEq, Repr

/-- A bank of machine-mode state of a control core (R276), with the supervisor registers a gate fault writes and the counters of R283:
CSRs by number (PMP registers and satp among them). -/
structure CoreBank where
  csr : SMap Nat := []
  /-- How long the core has run in this world, in half picoseconds at its full clock rate of 1.6 GHz: what the cycle counter counts (R283). -/
  ran : Nat := 0
  deriving DecidableEq, Repr

/-- A control core (R275–R281): integer registers by number, pc, privilege mode (3 M, 1 S, 0 U), the privilege mode of the normal world
while the core is in the secure one, and the two banks. -/
structure CoreSt where
  x : SMap Nat := []
  pc : Nat := 0
  priv : Nat := 3
  normPriv : Nat := 3
  norm : CoreBank := {}
  sec : CoreBank := {}
  deriving DecidableEq, Repr

/-- A line of the control cluster's caches (R275), which are coherent among the cores: its bytes, and whether a core has written it since it was last written
back. -/
structure CacheLine where
  bytes : List Byte
  dirty : Bool := false
  deriving DecidableEq, Repr

/-- Hidden state of the control cluster (R275–R285): its cores; the secure watchdog: picoseconds counted since the last kick, the timeout in force in
ms, and whether it has warned; and whether FAULT_ADDR holds a fault (R277). -/
structure Ctl where
  core : SMap CoreSt := []
  /-- Cached lines of on-chip SRAM and DRAM, by address in the cores' map divided by the line size. -/
  cache : SMap CacheLine := []
  wdAge : Nat := 0
  wdLimit : Nat := 2000
  wdWarned : Bool := false
  wmLogged : Bool := false
  deriving DecidableEq, Repr
/-- A contact (R294): its slot is its key. `lastX`, `lastY`: as last reported; `since`: `ps` at its touch-down. -/
structure Contact where
  x : Nat
  y : Nat
  area : Nat
  peak : Int
  heldStart : Bool := false
  lastX : Nat
  lastY : Nat
  since : Nat
  stuck : Bool := false
  /-- STATE code last reported. -/
  st : Nat := 0
  /-- Nodes of its region in the last scan frame. -/
  nodes : List Nat := []
  deriving DecidableEq, Repr

/-- A reference block that LOAD_REF has stored (R296). -/
structure TchRef where
  nd : Nat
  swing : Nat
  stepUs : Nat
  selfUs : Nat
  nodes : List Nat
  self : List Nat
  deriving DecidableEq, Repr

/-- A RAW request: its entry, KIND and ADDR (R295). -/
structure TchRaw where
  ring : Nat
  seq : Nat
  kind : Nat
  addr : Nat
  deriving DecidableEq, Repr

/-- Hidden state of a front end (R287–R301). -/
structure Tch where
  /-- 0 off, 1 testing, 2 settling, 3 scanning, 5 fault; STATE shows HOLD over the middle two (R11). -/
  phase : Nat := 0
  /-- A scan frame is being measured. -/
  measuring : Bool := false
  /-- A scan window is open, and the anchor-line number or output line count at which it closes (R290). -/
  window : Bool := false
  winEnd : Nat := 0
  /-- `ps` at which the present or last scan frame began. -/
  startAt : Option Nat := none
  /-- Measurement of the present frame done in earlier windows, in ps, and `ps` at which its present stretch began (R290). -/
  done : Nat := 0
  runAt : Nat := 0
  /-- Settling: frames averaged so far, their sums, and whether the start check applies (R291). -/
  settled : Nat := 0
  sumM : List Nat := []
  sumS : List Nat := []
  startCheck : Bool := true
  /-- Baselines of nodes and of self lines, once set. -/
  baseM : List Int := []
  baseS : List Int := []
  /-- Nodes and lines below −NEG_TH in the frame before. -/
  negM : List Nat := []
  negS : List Nat := []
  contacts : SMap Contact := []
  ref : Option TchRef := none
  /-- Fraction of a count that tracking has earned (R292). -/
  credit : Nat := 0
  lastEnd : Nat := 0
  /-- Lines never driven (SHORT_V), and lines whose nodes read delta 0, as connector positions. -/
  faulty : List Nat := []
  /-- Lines shorted to a voltage, which are never driven until the next test clears them (R300). -/
  dead : List Nat := []
  raws : List TchRaw := []
  recals : List (Nat × Nat) := []
  tests : List (Nat × Nat) := []
  /-- The next frame is followed by the full set of live contacts (R298). -/
  resync : Bool := false
  /-- Gesture detection in VIGIL (R301): contacts to ignore, the start of the present palm, the last tap (`ps`, x, y),
  and the trail of the last 500 ms (slot, `ps`, x). -/
  ignore : List Nat := []
  gFrom : Option Nat := none
  tap : Option (Nat × Nat × Nat) := none
  swipe : List (Nat × Nat × Nat) := []
  deriving DecidableEq, Repr

/-- A trigger on its way to a haptic channel (R306): effect, priority 0–4, gain, and the PLAY entry it belongs to. -/
structure HapTrig where
  effect : Nat
  prio : Nat
  gain : Nat
  ref : Option (Nat × Nat) := none
  deriving DecidableEq, Repr

/-- A copy of an effect on a channel (R305, R307). `stage`: 0 delay, 1 overdrive, 2 body, 3 brake. `idx` counts half-cycles
of the stage, or body samples; `pol` is the polarity of the half-cycle being driven. -/
structure HapCopy where
  trig : HapTrig
  stage : Nat
  idx : Nat := 0
  pol : Bool := true
  /-- `ps` at which a delayed copy starts (R306), and at which the present half-cycle began. -/
  due : Nat := 0
  at_ : Nat := 0
  /-- STOP: to the brake at the next boundary (R311). -/
  toBrake : Bool := false
  /-- A test waits for the next boundary (R314). -/
  toTest : Bool := false
  deriving DecidableEq, Repr

/-- A bucket of the budget window (R309): its number, drive time in ns and voltage-time in nV·s. -/
structure HapBucket where
  no : Nat
  onNs : Nat
  vt : Nat
  deriving DecidableEq, Repr

/-- Hidden state of a haptic channel. -/
structure HapChan where
  play : Option HapCopy := none
  pend : Option HapTrig := none
  buckets : List HapBucket := []
  /-- Faulted by the boost rail, which no FAULT bit names (R313). -/
  boostFault : Bool := false
  testing : Bool := false
  /-- Temperature rise in 10⁻⁹ °C and voltage-time of the present step in nV·s (R310). -/
  dT : Nat := 0
  vtStep : Nat := 0
  deriving DecidableEq, Repr

/-- A PLAY entry in flight: the channels still waited for, and how the others ended. -/
structure HapPlay where
  ring : Nat
  seq : Nat
  waiting : Nat
  played : Nat := 0
  cut : Nat := 0
  dropped : Nat := 0
  faulted : Nat := 0
  deriving DecidableEq, Repr

/-- A loaded image waiting for its slot, with the entries that loaded it (R311). -/
structure HapShadow where
  image : List Byte
  refs : List (Nat × Nat)
  deriving DecidableEq, Repr

/-- Hidden state of the haptics (R303–R315). -/
structure Hap where
  ch : SMap HapChan := []
  /-- RAM slots 0–15 that hold an image, and the shadows. -/
  ram : SMap (List Byte) := []
  shadow : SMap HapShadow := []
  plays : List HapPlay := []
  /-- Channels whose test is due, each with the TEST entry that asked for it. -/
  tests : List (Nat × Option (Nat × Nat)) := []
  /-- The boost rail has been turned off by a fault or by protection. -/
  railOff : Bool := false
  deriving DecidableEq, Repr

/-- A playback or capture buffer (R323). `part`: 0 mono, 1 left of a stereo pair, 2 its right. `gap`: silent or lost samples
right before it. -/
structure AudBuf where
  ring : Nat
  seq : Nat
  own : Nat
  addr : Nat
  host : Bool
  /-- The No Snoop attribute of its accesses (R85). -/
  noSnoop : Bool := false
  frames : Nat
  pos : Nat := 0
  part : Nat := 0
  gap : Nat := 0
  /-- A sample of it met an uncorrectable error. -/
  bad : Bool := false
  deriving DecidableEq, Repr

/-- A stream: its buffers, whether it has ever had one, and the samples since the last one ended. -/
structure AudStream where
  bufs : List AudBuf := []
  used : Bool := false
  gap : Nat := 0
  deriving DecidableEq, Repr

/-- A tone generator that plays (R324, R325): the chime, its rank, its segments as they were at its start, the segment and
the sample inside it, and the CHIME entry that asked for it. -/
structure ToneGen where
  chime : Nat
  rank : Nat
  segs : List Nat
  seg : Nat := 0
  phase : Nat := 0
  ref : Option (Nat × Nat) := none
  deriving DecidableEq, Repr

/-- A bus (R317–R320). `aDue`, `dDue`: the sample at which a change of A_auto or D became due. `win` holds the last 48 sums of
an ALERT bus, the newest first; the limiter dropped to 32767 / `limPeak` and has recovered for `limN` samples. -/
structure AudBus where
  aAuto : Nat := 256
  aDue : Option Nat := none
  dGain : Nat := 256
  dDue : Option Nat := none
  prevS : Int := 0
  ducked : Bool := false
  /-- Samples since the last ALERT bus it shares a sink with stopped being active. -/
  hold : Nat := 0
  win : List Int := []
  limPeak : Nat := 0
  limN : Nat := 0
  /-- A MEDIA bus's sample of the last period, and what the bus gives its sinks now. -/
  last : Int := 0
  out : Int := 0
  /-- Peak detector of the dynamics stage (FP32). -/
  level : Nat := 0
  deriving DecidableEq, Repr

/-- A class-D channel (R327): its delay line of 96 samples, the newest first, its output, the quiet samples of its sink,
and whether it switches, is muted by the bridge's hold, and is under test. -/
structure AudAmp where
  line : List Int := []
  out : Int := 0
  quiet : Nat := 0
  off : Bool := false
  held : Bool := false
  testing : Bool := false
  deriving DecidableEq, Repr

/-- Hidden state of audio (R316–R330). -/
structure Aud where
  /-- Sample periods since the part's time began. -/
  n : Nat := 0
  streams : SMap AudStream := []
  caps : SMap AudStream := []
  tg : SMap ToneGen := []
  /-- The last sample of each input, its samples at or below SIL_TH, and the inputs that are not silent. -/
  prev : SMap Int := []
  quiet : SMap Nat := []
  loud : List Nat := []
  /-- Node gains in force, by 16 × input + bus, and since when a change is due. -/
  gain : SMap Nat := []
  gainDue : SMap Nat := []
  bus : SMap AudBus := []
  /-- State of the equaliser bands, by 8 × bus + band (FP32 words). -/
  eq : SMap (Nat × Nat) := []
  sink : List Int := []
  amp : SMap AudAmp := []
  deriving DecidableEq, Repr

/-- A record in staging (R331). While `numbered` is false, `seq` counts admissions since locating began and the
BOOT_COUNT is still open (R332). -/
structure CaskRec where
  ev : CaskEv
  calTime : Nat
  rflags : Nat
  ctx : Nat
  seq : Nat
  boots : Nat
  numbered : Bool
  deriving DecidableEq, Repr

/-- Hidden state of Cask (R331–R340). -/
structure Cask where
  /-- Events that have reached no staging yet, oldest first. -/
  waiting : List CaskEv := []
  /-- Events of the compute die held while the bridge is down (at most 32), and those lost there. -/
  bridgeBuf : List CaskEv := []
  bridgeLost : Nat := 0
  staging : List CaskRec := []
  /-- Events lost to a full staging area since the last CASK_LOST record. -/
  lost : Nat := 0
  boots : Nat := 0
  /-- Records the medium retains. -/
  retained : Nat := 0
  /-- Slots whose write failed twice. -/
  bad : List Nat := []
  frozenAt : Nat := 0
  /-- Time held for RTC_CTRL.SET, and what is added to the tick count to give the RTC (1/1024 s). -/
  heldFrac : Nat := 0
  heldLo : Nat := 0
  heldHi : Nat := 0
  rtcBase : Nat := 0
  rtcFrom : Nat := 0
  deriving DecidableEq, Repr

/-- A message of the Jenpin link (R346): the port it takes, TYPE, source and destination device, TAG, ADDR and payload. -/
structure LinkMsg where
  port : Nat := 0
  kind : Nat
  src : Nat
  dst : Nat
  tag : Nat := 0
  addr : Nat := 0
  body : List Byte
  deriving DecidableEq, Repr

/-- A remote window access that has no response yet (R348): its TAG, target device, port, the core with the instruction's pc, privilege mode and
delegation, its address, and `ps` of its issue. -/
structure LinkReq where
  tag : Nat
  dev : Nat
  port : Nat
  write : Bool
  core : Nat
  addr : Nat
  pc : Nat
  priv : Nat
  delegated : Bool
  since : Nat
  deriving DecidableEq, Repr

/-- A read of remote layer pixels on its way (R350): its TAG, device and port, the pipe and unit it is for, the source row, address and length. -/
structure LayerReq where
  tag : Nat
  dev : Nat
  port : Nat
  pipe : Nat
  unit : Nat
  row : Nat
  addr : Nat
  len : Nat
  deriving DecidableEq, Repr

/-- Hidden state of the link (R342–R352): messages sent, oldest first; the DACC range (base and length in 2 MiB units) of every device as learnt at
its HELLO; accesses and layer reads that have no response yet, with the next TAG; and per port whether HELLO has been exchanged, the devices
reachable through the neighbour, the latency to D0 that it reports, `ps` at which the port went DOWN, and failed replays in a row. -/
structure Lnk where
  out : List LinkMsg := []
  dacc : SMap (Nat × Nat) := []
  reqs : List LinkReq := []
  layers : List LayerReq := []
  tag : Nat := 0
  hello : List Nat := []
  reach : SMap Nat := []
  d0 : SMap Nat := []
  downAt : SMap Nat := []
  replays : SMap Nat := []
  deriving DecidableEq, Repr

/-- A proof test in progress (R368): its code, argument and start; `stage` and `seen` follow what it waits for. -/
structure Proof where
  test : Nat
  arg : Nat
  start : Nat
  /-- Frame and line of the output of SIG_PATH at GO. -/
  frame0 : Nat := 0
  line0 : Nat := 0
  stage : Nat := 0
  seen : Nat := 0
  deriving DecidableEq, Repr

/-- Hidden state of service mode (R365–R371). -/
structure Ptb where
  proof : Option Proof := none
  /-- SIG_INJ: waiting for line 0, and frames still to be disturbed, with output and region. -/
  sigWait : Bool := false
  sigLeft : Nat := 0
  sigOut : Nat := 0
  sigReg : Nat := 0
  /-- Control cores that the debugger has halted. -/
  halted : List Nat := []
  deriving DecidableEq, Repr

/-- Everything of the block but its addressed memories and its queue. -/
structure Chip where
  /-- Register fields whose value differs from their reset value. -/
  rf : SMap Nat := []
  /-- Picoseconds since the part's time began. -/
  ps : Nat := 0
  /-- Counter of the free values taken so far (the model's own). -/
  free : Nat := 0
  /-- The answer of the last read access. -/
  readData : Nat := 0
  /-- Interrupts sent, oldest first. -/
  deliveries : List Delivery := []
  stg : List StageSet := []
  brg : Bridge := {}
  led : Ledger := {}
  fab : Fab := {}
  drc : Drc := {}
  cmp : Cmp := {}
  gfx : Gfx := {}
  scn : SMap ScnOut := []
  imx : Imx := {}
  pow : Power := {}
  ctl : Ctl := {}
  dma : Dma := {}
  hap : Hap := {}
  aud : Aud := {}
  tch : SMap Tch := []
  lnk : Lnk := {}
  saf : Saf := {}
  ptb : Ptb := {}
  /-- Flipped bits in ECC-protected memories (R371), by target × 2^48 + address of the word or granule: 1 or 2 bits. -/
  flaws : SMap Nat := []
  csk : Cask := {}
  deriving DecidableEq, Repr

/-- The addressed memories: an unlisted byte reads 0. `host` holds what the device has written to host memory. -/
structure Mems where
  dram : List Host.Cell := []
  sram : List Host.Cell := []
  isl : List Host.Cell := []
  host : List Host.Cell := []
  cask : List Host.Cell := []
  deriving DecidableEq, Repr

/-- The block: its chip state, its memories, and the commands that wait, first in first out. -/
structure State where
  chip : Chip := {}
  mem : Mems := {}
  pending : List Instr := []
  deriving DecidableEq, Repr

/-- The block right after reset. -/
def State.reset : State := {}

end Sys2Proof.Machine
end

