-- ==== Sys2Proof/Machine/Regs.lean ====
section
/-! DEFINITION. Every register field the spec's page chapters name (R33, R45 and each chapter's register
reference): its page, offset, lowest bit, width and reset value. `n` is the page instance, `i` the index
in a register array, `j` the index of a repeated field in one register. -/

namespace Sys2Proof.Machine.R

/-- Lower end of the range of policy loop `i` (R58). -/
def loopMin (i : Nat) : Nat :=
  if i = 0 then 550 else if i = 1 then 300 else if i = 3 then 4 else 0

/-- Upper end of the range of policy loop `i` (R58). -/
def loopMax (i : Nat) : Nat :=
  if i = 0 then 850 else if i = 1 then 1100 else if i = 2 then 2048 else if i = 3 then 64
  else if i = 4 then 255 else 256

/-- Value of policy loop `i` at reset. The spec states none: the loop stands at its ceiling, loop 0 at the
reset setting of VCORE (DESIGN CHOICE, log entry 3; unsafe). -/
def loopReset (i : Nat) : Nat := if i = 0 then 750 else if i = 3 then 12 else loopMax i

/-- Reset of entry `i` of the output curve: round(1023 × i / 256). -/
def gammaReset (i : Nat) : Nat := (1023 * i + 128) / 256

/-- Reset of a crosspoint node (R317): unity from tone generator b into bus b, else 0. -/
def xpReset (n i : Nat) : Nat := if n = 3 ∧ 6 ≤ i / 16 ∧ i / 16 - 6 = i % 16 then 0x4000 else 0

/-- Reset of an equaliser coefficient: 1.0 for b0, else 0. -/
def eqReset (i : Nat) : Nat := if i % 5 = 0 then 0x3F800000 else 0


/-! ### LDG (chapter file 02_*) -/

def LDG.ANCHOR.ANCHOR : Fld := ⟨0x10, 0x40, 0, 3, 0⟩
def LDG.ANCHOR.SOURCE : Fld := ⟨0x10, 0x40, 4, 2, 0⟩
def LDG.IDLE_TIMING.V_TOTAL : Fld := ⟨0x10, 0x44, 0, 16, 0x08CA⟩
def LDG.IDLE_TIMING.LINE_PERIOD : Fld := ⟨0x10, 0x44, 16, 16, 0x0B93⟩
def LDG.LIVE_FRAME.FRAME : Fld := ⟨0x10, 0x48, 0, 32, 0⟩
def LDG.LIVE_LINE.LINE : Fld := ⟨0x10, 0x4C, 0, 16, 0⟩
def LDG.LIVE_LINE.FRAC : Fld := ⟨0x10, 0x4C, 16, 16, 0⟩
def LDG.SNAP.TAKE : Fld := ⟨0x10, 0x50, 0, 1, 0⟩
def LDG.SNAP_FRAME.VALUE : Fld := ⟨0x10, 0x54, 0, 32, 0⟩
def LDG.SNAP_LINE.LINE : Fld := ⟨0x10, 0x58, 0, 16, 0⟩
def LDG.SNAP_LINE.FRAC : Fld := ⟨0x10, 0x58, 16, 16, 0⟩
def LDG.SNAP_NS_LO.VALUE : Fld := ⟨0x10, 0x5C, 0, 32, 0⟩
def LDG.SNAP_NS_HI.VALUE : Fld := ⟨0x10, 0x60, 0, 32, 0⟩
def LDG.SLOT_POOL.POOL (i : Nat) : Fld := ⟨0x10, 0x64 + 4 * i, 0, 32, 0xFFFFFFFF⟩
def LDG.SLOT_IRQ.BITS : Fld := ⟨0x10, 0x70, 0, 32, 0⟩
def LDG.IDLE_ACTIVE.V_ACTIVE : Fld := ⟨0x10, 0x74, 0, 16, 0x0870⟩
def LDG.LATE_CNT.COUNT : Fld := ⟨0x10, 0x800, 0, 32, 0⟩
def LDG.SHORT_CNT.COUNT : Fld := ⟨0x10, 0x804, 0, 32, 0⟩

/-! ### LDG_OUTS (chapter file 02_*) -/

def LDG_OUTS.LOCK.LOCK_OFFSET (i : Nat) : Fld := ⟨0x11, 0x40 + 0x10 * i, 0, 16, 0⟩
def LDG_OUTS.LOCK.LOCK_EN (i : Nat) : Fld := ⟨0x11, 0x40 + 0x10 * i, 16, 1, 0⟩
def LDG_OUTS.FRAME.FRAME (i : Nat) : Fld := ⟨0x11, 0x44 + 0x10 * i, 0, 32, 0⟩
def LDG_OUTS.LINE.LINE (i : Nat) : Fld := ⟨0x11, 0x48 + 0x10 * i, 0, 16, 0⟩
def LDG_OUTS.LINE.RUNNING (i : Nat) : Fld := ⟨0x11, 0x48 + 0x10 * i, 16, 1, 0⟩
def LDG_OUTS.LINE.LOCK_STATE (i : Nat) : Fld := ⟨0x11, 0x48 + 0x10 * i, 17, 2, 0⟩
def LDG_OUTS.FLIP_AT.ANCHOR_LINE (i : Nat) : Fld := ⟨0x11, 0x4C + 0x10 * i, 0, 16, 0⟩

/-! ### LDG_SLOTS (chapter file 02_*) -/

def LDG_SLOTS.SS_TGT.LINE (n : Nat) (i : Nat) : Fld := ⟨0x12 + n, 0x40 + 0x10 * i, 0, 16, 0⟩
def LDG_SLOTS.SS_TGT.BASE (n : Nat) (i : Nat) : Fld := ⟨0x12 + n, 0x40 + 0x10 * i, 16, 4, 0⟩
def LDG_SLOTS.SS_TGT.MODE (n : Nat) (i : Nat) : Fld := ⟨0x12 + n, 0x40 + 0x10 * i, 20, 1, 0⟩
def LDG_SLOTS.SS_TGT.PERIOD (n : Nat) (i : Nat) : Fld := ⟨0x12 + n, 0x40 + 0x10 * i, 24, 8, 1⟩
def LDG_SLOTS.SS_FRAME.FRAME (n : Nat) (i : Nat) : Fld := ⟨0x12 + n, 0x44 + 0x10 * i, 0, 32, 0⟩
def LDG_SLOTS.SS_ACT.ACTION (n : Nat) (i : Nat) : Fld := ⟨0x12 + n, 0x48 + 0x10 * i, 0, 8, 0⟩
def LDG_SLOTS.SS_ACT.ARG (n : Nat) (i : Nat) : Fld := ⟨0x12 + n, 0x48 + 0x10 * i, 8, 16, 0⟩
def LDG_SLOTS.SS_ACT.DISARM (n : Nat) (i : Nat) : Fld := ⟨0x12 + n, 0x48 + 0x10 * i, 30, 1, 0⟩
def LDG_SLOTS.SS_ACT.ARM (n : Nat) (i : Nat) : Fld := ⟨0x12 + n, 0x48 + 0x10 * i, 31, 1, 0⟩
def LDG_SLOTS.SS_STAT.STATE (n : Nat) (i : Nat) : Fld := ⟨0x12 + n, 0x4C + 0x10 * i, 0, 2, 0⟩
def LDG_SLOTS.SS_STAT.ERR (n : Nat) (i : Nat) : Fld := ⟨0x12 + n, 0x4C + 0x10 * i, 8, 8, 0⟩
def LDG_SLOTS.SS_STAT.FIRES (n : Nat) (i : Nat) : Fld := ⟨0x12 + n, 0x4C + 0x10 * i, 16, 16, 0⟩

/-! ### LDG_SYNC (chapter file 02_*) -/

def LDG_SYNC.SYNC_STATE.STATE : Fld := ⟨0x14, 0x40, 0, 3, 0⟩
def LDG_SYNC.SYNC_STATE.DEVID : Fld := ⟨0x14, 0x40, 3, 2, 0⟩
def LDG_SYNC.SYNC_ERR.ERR : Fld := ⟨0x14, 0x44, 0, 16, 0⟩
def LDG_SYNC.SYNC_ERR.MAX_ERR : Fld := ⟨0x14, 0x44, 16, 16, 0⟩
def LDG_SYNC.SYNC_PATH.LATENCY : Fld := ⟨0x14, 0x48, 0, 20, 0⟩

/-! ### SYS_MODE (chapter file 04_*) -/

def SYS_MODE.MODE_STAT.MODE : Fld := ⟨1, 0x40, 0, 3, 2⟩
def SYS_MODE.MODE_STAT.BUSY : Fld := ⟨1, 0x40, 3, 1, 0⟩
def SYS_MODE.MODE_STAT.TARGET : Fld := ⟨1, 0x40, 4, 3, 0⟩
def SYS_MODE.MODE_STAT.LAST_ERR : Fld := ⟨1, 0x40, 8, 8, 0⟩
def SYS_MODE.MODE_STAT.CAUSE : Fld := ⟨1, 0x40, 16, 4, 0⟩
def SYS_MODE.MODE_STAT.DCAUSE : Fld := ⟨1, 0x40, 20, 4, 0⟩
def SYS_MODE.MODE_REQ.TARGET : Fld := ⟨1, 0x44, 0, 3, 0⟩
def SYS_MODE.AGREE.MGR : Fld := ⟨1, 0x48, 0, 1, 0⟩
def SYS_MODE.AGREE.SAF : Fld := ⟨1, 0x48, 1, 1, 0⟩
def SYS_MODE.AGREE.WINDOW : Fld := ⟨1, 0x48, 8, 8, 0x3C⟩
def SYS_MODE.VIGIL_CFG.WK_PIN : Fld := ⟨1, 0x4C, 0, 1, 1⟩
def SYS_MODE.VIGIL_CFG.WK_TOUCH : Fld := ⟨1, 0x4C, 1, 1, 0⟩
def SYS_MODE.VIGIL_CFG.WK_RTC : Fld := ⟨1, 0x4C, 2, 1, 0⟩
def SYS_MODE.VIGIL_CFG.WK_GPIO : Fld := ⟨1, 0x4C, 3, 1, 0⟩
def SYS_MODE.VIGIL_CFG.TIMEOUT : Fld := ⟨1, 0x4C, 16, 16, 0⟩
def SYS_MODE.TRANS_CNT.COUNT : Fld := ⟨1, 0x800, 0, 32, 0⟩
def SYS_MODE.REJECT_CNT.COUNT : Fld := ⟨1, 0x804, 0, 32, 0⟩
def SYS_MODE.EXPIRE_CNT.COUNT : Fld := ⟨1, 0x808, 0, 32, 0⟩

/-! ### SYS_POWER (chapter file 04_*) -/

def SYS_POWER.PD_ON.ON : Fld := ⟨2, 0x40, 0, 25, 0x1FC000F⟩
def SYS_POWER.PD_REQ.DOMAIN : Fld := ⟨2, 0x44, 0, 5, 0⟩
def SYS_POWER.PD_REQ.ON : Fld := ⟨2, 0x44, 8, 1, 0⟩
def SYS_POWER.PD_REQ.GO : Fld := ⟨2, 0x44, 31, 1, 0⟩
def SYS_POWER.PD_RESULT.CODE : Fld := ⟨2, 0x48, 0, 8, 0⟩
def SYS_POWER.PD_RESULT.BUSY : Fld := ⟨2, 0x48, 8, 1, 0⟩
def SYS_POWER.PD_RESULT.QUIESCE_US : Fld := ⟨2, 0x48, 16, 16, 0⟩
def SYS_POWER.ABORT_CNT.COUNT : Fld := ⟨2, 0x800, 0, 32, 0⟩
def SYS_POWER.REFUSE_CNT.COUNT : Fld := ⟨2, 0x804, 0, 32, 0⟩

/-! ### SYS_POLICY (chapter file 04_*) -/

def SYS_POLICY.BOUNDS.FLOOR (i : Nat) : Fld := ⟨3, 0x40 + 0x10 * i, 0, 16, (loopMin i)⟩
def SYS_POLICY.BOUNDS.CEIL (i : Nat) : Fld := ⟨3, 0x40 + 0x10 * i, 16, 16, (loopMax i)⟩
def SYS_POLICY.STAT.VALUE (i : Nat) : Fld := ⟨3, 0x44 + 0x10 * i, 0, 16, (loopReset i)⟩
def SYS_POLICY.STAT.CLAMP (i : Nat) : Fld := ⟨3, 0x44 + 0x10 * i, 16, 1, 0⟩
def SYS_POLICY.STAT.OVERRIDE (i : Nat) : Fld := ⟨3, 0x44 + 0x10 * i, 17, 1, 0⟩
def SYS_POLICY.STAT.PROTECT (i : Nat) : Fld := ⟨3, 0x44 + 0x10 * i, 18, 1, 0⟩
def SYS_POLICY.THERM_TARGET.TARGET : Fld := ⟨3, 0xC0, 0, 8, 0x5F⟩
def SYS_POLICY.CLAMP_CNT.COUNT (i : Nat) : Fld := ⟨3, 0x800 + 4 * i, 0, 32, 0⟩
def SYS_POLICY.OVERRIDE_CNT.COUNT (i : Nat) : Fld := ⟨3, 0x820 + 4 * i, 0, 32, 0⟩

/-! ### SYS_BOOT (chapter file 05_*) -/

def SYS_BOOT.BOOT_STAT.STAGE : Fld := ⟨4, 0x40, 0, 4, 0⟩
def SYS_BOOT.BOOT_STAT.ERR : Fld := ⟨4, 0x40, 8, 8, 0⟩
def SYS_BOOT.BOOT_STAT.ISL_COPY : Fld := ⟨4, 0x40, 16, 1, 0⟩
def SYS_BOOT.BOOT_STAT.CC_COPY : Fld := ⟨4, 0x40, 17, 1, 0⟩
def SYS_BOOT.STRAPS.BOOTSEL : Fld := ⟨4, 0x44, 0, 3, 0⟩
def SYS_BOOT.STRAPS.DEVID : Fld := ⟨4, 0x44, 3, 2, 0⟩
def SYS_BOOT.STRAPS.SERVICE_EN : Fld := ⟨4, 0x44, 5, 1, 0⟩
def SYS_BOOT.EARLY.LIT : Fld := ⟨4, 0x48, 0, 8, 0⟩
def SYS_BOOT.EARLY.SKIPPED : Fld := ⟨4, 0x48, 8, 8, 0⟩
def SYS_BOOT.EARLY.ANCHOR : Fld := ⟨4, 0x48, 16, 3, 0⟩
def SYS_BOOT.BOOT_MS.EARLY_MS : Fld := ⟨4, 0x4C, 0, 16, 0⟩
def SYS_BOOT.BOOT_MS.READY_MS : Fld := ⟨4, 0x4C, 16, 16, 0⟩
def SYS_BOOT.BOOT_CTRL.READY : Fld := ⟨4, 0x50, 0, 1, 0⟩
def SYS_BOOT.BOOT_CTRL.LOAD : Fld := ⟨4, 0x50, 1, 1, 0⟩

/-! ### IMX (chapter file 06_*) -/

def IMX.MANAGER.MGR : Fld := ⟨0x50, 0x40, 0, 3, 0⟩
def IMX.PORT_LINK.WIDTH (j : Nat) : Fld := ⟨0x50, 0x44, 0 + 8 * j, 3, 0⟩
def IMX.PORT_LINK.SPEED (j : Nat) : Fld := ⟨0x50, 0x44, 3 + 8 * j, 3, 0⟩
def IMX.BW_SUM.SUM : Fld := ⟨0x50, 0x48, 0, 9, 0⟩

/-! ### IMX_ROUTE (chapter file 06_*) -/

def IMX_ROUTE.ROUTE.KIND (n : Nat) (i : Nat) : Fld := ⟨0x51 + n, 0x40 + 4 * i, 0, 2, 0⟩
def IMX_ROUTE.ROUTE.PORT (n : Nat) (i : Nat) : Fld := ⟨0x51 + n, 0x40 + 4 * i, 2, 2, 0⟩
def IMX_ROUTE.ROUTE.FUNC (n : Nat) (i : Nat) : Fld := ⟨0x51 + n, 0x40 + 4 * i, 4, 4, 0⟩
def IMX_ROUTE.ROUTE.VECTOR (n : Nat) (i : Nat) : Fld := ⟨0x51 + n, 0x40 + 4 * i, 8, 4, 0⟩
def IMX_ROUTE.ROUTE.CORE (n : Nat) (i : Nat) : Fld := ⟨0x51 + n, 0x40 + 4 * i, 12, 2, 0⟩
def IMX_ROUTE.ROUTE.WORLD (n : Nat) (i : Nat) : Fld := ⟨0x51 + n, 0x40 + 4 * i, 14, 1, 0⟩

/-! ### IMX_VI (chapter file 06_*) -/

def IMX_VI.VI_BIND.PORT (n : Nat) : Fld := ⟨0x60 + n, 0x40, 0, 2, 0⟩
def IMX_VI.VI_BIND.VF (n : Nat) : Fld := ⟨0x60 + n, 0x40, 2, 4, 0⟩
def IMX_VI.VI_BIND.BOUND (n : Nat) : Fld := ⟨0x60 + n, 0x40, 6, 1, 0⟩
def IMX_VI.VI_STAT.STATE (n : Nat) : Fld := ⟨0x60 + n, 0x44, 0, 3, 0⟩
def IMX_VI.VI_STAT.PEND (n : Nat) : Fld := ⟨0x60 + n, 0x44, 4, 8, 0⟩
def IMX_VI.VI_STAT.FAULT (n : Nat) : Fld := ⟨0x60 + n, 0x44, 12, 8, 0⟩
def IMX_VI.RING.RINGS (n : Nat) (i : Nat) : Fld := ⟨0x60 + n, 0x48 + 4 * i, 0, 32, 0⟩
def IMX_VI.SH_GFX.MASK (n : Nat) : Fld := ⟨0x60 + n, 0x50, 0, 12, 0⟩
def IMX_VI.SH_GFX.MODE (n : Nat) : Fld := ⟨0x60 + n, 0x50, 12, 1, 0⟩
def IMX_VI.SH_GFX.WEIGHT (n : Nat) : Fld := ⟨0x60 + n, 0x50, 16, 9, 0⟩
def IMX_VI.SH_BW.WEIGHT (n : Nat) : Fld := ⟨0x60 + n, 0x54, 0, 9, 0⟩
def IMX_VI.SH_LAYER.UNITS (n : Nat) (i : Nat) : Fld := ⟨0x60 + n, 0x58 + 4 * i, 0, 32, 0⟩
def IMX_VI.SH_DMA.CH (n : Nat) : Fld := ⟨0x60 + n, 0x60, 0, 32, 0⟩
def IMX_VI.SH_IO.AUD (n : Nat) : Fld := ⟨0x60 + n, 0x64, 0, 16, 0⟩
def IMX_VI.SH_IO.TCH (n : Nat) : Fld := ⟨0x60 + n, 0x64, 16, 4, 0⟩
def IMX_VI.SH_IO.HAP (n : Nat) : Fld := ⟨0x60 + n, 0x64, 20, 8, 0⟩
def IMX_VI.RST_RESULT.SQUASHED (n : Nat) : Fld := ⟨0x60 + n, 0x68, 0, 10, 0⟩
def IMX_VI.RST_RESULT.DRAINED (n : Nat) : Fld := ⟨0x60 + n, 0x68, 10, 8, 0⟩
def IMX_VI.RST_RESULT.CAUSE (n : Nat) : Fld := ⟨0x60 + n, 0x68, 18, 3, 0⟩
def IMX_VI.RST_RESULT.US (n : Nat) : Fld := ⟨0x60 + n, 0x68, 21, 11, 0⟩
def IMX_VI.WIN_BASE.EN (n : Nat) (i : Nat) : Fld := ⟨0x60 + n, 0x70 + 8 * i, 0, 1, 0⟩
def IMX_VI.WIN_BASE.ADDR (n : Nat) (i : Nat) : Fld := ⟨0x60 + n, 0x70 + 8 * i, 1, 15, 0⟩
def IMX_VI.WIN_SIZE.ADDR (n : Nat) (i : Nat) : Fld := ⟨0x60 + n, 0x74 + 8 * i, 1, 15, 0⟩
def IMX_VI.RESET_CNT.COUNT (n : Nat) : Fld := ⟨0x60 + n, 0x800, 0, 32, 0⟩
def IMX_VI.FAULT_CNT.COUNT (n : Nat) : Fld := ⟨0x60 + n, 0x804, 0, 32, 0⟩

/-! ### RNG (chapter file 07_*) -/

def RNG.RING_BIND.OWNER (n : Nat) (i : Nat) : Fld := ⟨0x70 + n, 0x40 + 0x100 * i, 0, 2, 0⟩
def RNG.RING_BIND.VI (n : Nat) (i : Nat) : Fld := ⟨0x70 + n, 0x40 + 0x100 * i, 2, 4, 0⟩
def RNG.RING_BIND.CLASS (n : Nat) (i : Nat) : Fld := ⟨0x70 + n, 0x40 + 0x100 * i, 6, 3, 0⟩
def RNG.RING_CFG.SQ_LOG2 (n : Nat) (i : Nat) : Fld := ⟨0x70 + n, 0x44 + 0x100 * i, 0, 5, 4⟩
def RNG.RING_CFG.CQ_LOG2 (n : Nat) (i : Nat) : Fld := ⟨0x70 + n, 0x44 + 0x100 * i, 8, 5, 4⟩
def RNG.RING_CFG.LOC (n : Nat) (i : Nat) : Fld := ⟨0x70 + n, 0x44 + 0x100 * i, 16, 1, 0⟩
def RNG.SQ_BASE_LO.ADDR (n : Nat) (i : Nat) : Fld := ⟨0x70 + n, 0x48 + 0x100 * i, 0, 32, 0⟩
def RNG.SQ_BASE_HI.ADDR (n : Nat) (i : Nat) : Fld := ⟨0x70 + n, 0x4C + 0x100 * i, 0, 32, 0⟩
def RNG.CQ_BASE_LO.ADDR (n : Nat) (i : Nat) : Fld := ⟨0x70 + n, 0x50 + 0x100 * i, 0, 32, 0⟩
def RNG.CQ_BASE_HI.ADDR (n : Nat) (i : Nat) : Fld := ⟨0x70 + n, 0x54 + 0x100 * i, 0, 32, 0⟩
def RNG.RING_CTRL.ENABLE (n : Nat) (i : Nat) : Fld := ⟨0x70 + n, 0x58 + 0x100 * i, 0, 1, 0⟩
def RNG.SQ_DB.INDEX (n : Nat) (i : Nat) : Fld := ⟨0x70 + n, 0x5C + 0x100 * i, 0, 32, 0⟩
def RNG.CQ_DB.INDEX (n : Nat) (i : Nat) : Fld := ⟨0x70 + n, 0x60 + 0x100 * i, 0, 32, 0⟩
def RNG.SQ_HEAD.INDEX (n : Nat) (i : Nat) : Fld := ⟨0x70 + n, 0x64 + 0x100 * i, 0, 32, 0⟩
def RNG.SQ_TAIL.INDEX (n : Nat) (i : Nat) : Fld := ⟨0x70 + n, 0x68 + 0x100 * i, 0, 32, 0⟩
def RNG.DONE_SEQ.INDEX (n : Nat) (i : Nat) : Fld := ⟨0x70 + n, 0x6C + 0x100 * i, 0, 32, 0xFFFFFFFF⟩
def RNG.CQ_TAIL.INDEX (n : Nat) (i : Nat) : Fld := ⟨0x70 + n, 0x70 + 0x100 * i, 0, 32, 0⟩
def RNG.CQ_HEAD.INDEX (n : Nat) (i : Nat) : Fld := ⟨0x70 + n, 0x74 + 0x100 * i, 0, 32, 0⟩
def RNG.RING_STAT.STATE (n : Nat) (i : Nat) : Fld := ⟨0x70 + n, 0x78 + 0x100 * i, 0, 3, 0⟩
def RNG.RING_STAT.OVF_USED (n : Nat) (i : Nat) : Fld := ⟨0x70 + n, 0x78 + 0x100 * i, 3, 3, 0⟩
def RNG.RING_STAT.LAST_ERR (n : Nat) (i : Nat) : Fld := ⟨0x70 + n, 0x78 + 0x100 * i, 8, 8, 0⟩
def RNG.RING_STAT.OUTSTANDING (n : Nat) (i : Nat) : Fld := ⟨0x70 + n, 0x78 + 0x100 * i, 16, 8, 0⟩
def RNG.SEL.WEIGHT (n : Nat) (i : Nat) : Fld := ⟨0x70 + n, 0x7C + 0x100 * i, 0, 4, 1⟩
def RNG.SEL.PRIO (n : Nat) (i : Nat) : Fld := ⟨0x70 + n, 0x7C + 0x100 * i, 4, 2, 1⟩
def RNG.SEL.CQ_STALL_MAX (n : Nat) (i : Nat) : Fld := ⟨0x70 + n, 0x7C + 0x100 * i, 16, 16, 0x1194⟩
def RNG.WAIT_DEFAULT.LINES (n : Nat) (i : Nat) : Fld := ⟨0x70 + n, 0x80 + 0x100 * i, 0, 16, 0x08CA⟩
def RNG.SUBMIT_CNT.COUNT (n : Nat) (i : Nat) : Fld := ⟨0x70 + n, 0x800 + 0x20 * i, 0, 32, 0⟩
def RNG.CMPL_CNT.COUNT (n : Nat) (i : Nat) : Fld := ⟨0x70 + n, 0x804 + 0x20 * i, 0, 32, 0⟩
def RNG.OVF_CNT.COUNT (n : Nat) (i : Nat) : Fld := ⟨0x70 + n, 0x808 + 0x20 * i, 0, 32, 0⟩
def RNG.EVT_LOST.COUNT (n : Nat) (i : Nat) : Fld := ⟨0x70 + n, 0x80C + 0x20 * i, 0, 32, 0⟩
def RNG.CQ_DROP.COUNT (n : Nat) (i : Nat) : Fld := ⟨0x70 + n, 0x810 + 0x20 * i, 0, 32, 0⟩
def RNG.DB_REJECT.COUNT (n : Nat) (i : Nat) : Fld := ⟨0x70 + n, 0x814 + 0x20 * i, 0, 32, 0⟩

/-! ### GFX (chapter file 08_*) -/

def GFX.GFX_CFG.CTX_PER_OWNER : Fld := ⟨0xA0, 0x40, 0, 3, 2⟩
def GFX.CTX_STAT.USED : Fld := ⟨0xA0, 0x44, 0, 5, 0⟩
def GFX.CTX_STAT.PARKED : Fld := ⟨0xA0, 0x44, 8, 5, 0⟩
def GFX.CTX_STAT.ESCALATED : Fld := ⟨0xA0, 0x44, 16, 5, 0⟩
def GFX.ESCALATE.LINES (i : Nat) : Fld := ⟨0xA0, 0x48 + 4 * i, 0, 16, 0⟩
def GFX.JOB_CNT.COUNT : Fld := ⟨0xA0, 0x800, 0, 32, 0⟩
def GFX.PR_CNT.COUNT : Fld := ⟨0xA0, 0x804, 0, 32, 0⟩
def GFX.ESC_CNT.COUNT : Fld := ⟨0xA0, 0x808, 0, 32, 0⟩
def GFX.LATE_CNT.COUNT : Fld := ⟨0xA0, 0x80C, 0, 32, 0⟩
def GFX.ERR_CNT.COUNT : Fld := ⟨0xA0, 0x810, 0, 32, 0⟩

/-! ### GRIST (chapter file 08_*) -/

def GRIST.BIN_CFG.BIN_GROW_WAIT : Fld := ⟨0xA1, 0x40, 0, 16, 0x0100⟩
def GRIST.BIN_CFG.WIDE_THRESH : Fld := ⟨0xA1, 0x40, 16, 8, 0x40⟩
def GRIST.GRIST_STAT.BINNING : Fld := ⟨0xA1, 0x44, 0, 5, 0⟩
def GRIST.GRIST_STAT.PARKED : Fld := ⟨0xA1, 0x44, 8, 5, 0⟩
def GRIST.PRIM_IN.COUNT : Fld := ⟨0xA1, 0x800, 0, 32, 0⟩
def GRIST.PRIM_CULLED.COUNT : Fld := ⟨0xA1, 0x804, 0, 32, 0⟩
def GRIST.CURVE_DISCARD.COUNT : Fld := ⟨0xA1, 0x808, 0, 32, 0⟩
def GRIST.BIN_GROW_CNT.COUNT : Fld := ⟨0xA1, 0x80C, 0, 32, 0⟩
def GRIST.PARK_LINES.COUNT : Fld := ⟨0xA1, 0x810, 0, 32, 0⟩

/-! ### POOL (chapter file 08_*) -/

def POOL.POOL_CFG.LOW (i : Nat) : Fld := ⟨0xA2, 0x40 + 8 * i, 0, 11, 0x010⟩
def POOL.POOL_CFG.FLUSH (i : Nat) : Fld := ⟨0xA2, 0x40 + 8 * i, 31, 1, 0⟩
def POOL.POOL_STAT.FREE (i : Nat) : Fld := ⟨0xA2, 0x44 + 8 * i, 0, 11, 0⟩
def POOL.POOL_STAT.HELD (i : Nat) : Fld := ⟨0xA2, 0x44 + 8 * i, 16, 11, 0⟩

/-! ### GFX_SC (chapter file 09_*) -/

def GFX_SC.SC_STAT.OWNER (n : Nat) : Fld := ⟨0xB0 + n, 0x40, 0, 5, 0x1F⟩
def GFX_SC.SC_STAT.HELPING (n : Nat) : Fld := ⟨0xB0 + n, 0x40, 5, 1, 0⟩
def GFX_SC.SC_STAT.SPLIT (n : Nat) : Fld := ⟨0xB0 + n, 0x40, 6, 1, 0⟩
def GFX_SC.SC_STAT.EARLY (n : Nat) : Fld := ⟨0xB0 + n, 0x40, 7, 1, 0⟩
def GFX_SC.SC_STAT.PARTNER (n : Nat) : Fld := ⟨0xB0 + n, 0x40, 8, 4, 0xF⟩
def GFX_SC.SPLIT_CFG.THRESH (n : Nat) : Fld := ⟨0xB0 + n, 0x44, 0, 12, 0x100⟩
def GFX_SC.TILE_CNT.COUNT (n : Nat) : Fld := ⟨0xB0 + n, 0x800, 0, 32, 0⟩
def GFX_SC.SPLIT_CNT.COUNT (n : Nat) : Fld := ⟨0xB0 + n, 0x804, 0, 32, 0⟩
def GFX_SC.HELP_CNT.COUNT (n : Nat) : Fld := ⟨0xB0 + n, 0x808, 0, 32, 0⟩
def GFX_SC.QUAD_CNT.COUNT (n : Nat) : Fld := ⟨0xB0 + n, 0x80C, 0, 32, 0⟩
def GFX_SC.ORDER_STALL.COUNT (n : Nat) : Fld := ⟨0xB0 + n, 0x810, 0, 32, 0⟩

/-! ### GFX_TX (chapter file 09_*) -/

def GFX_TX.BILERP_CNT.COUNT (n : Nat) : Fld := ⟨0xC0 + n, 0x800, 0, 32, 0⟩
def GFX_TX.L1_MISS.COUNT (n : Nat) : Fld := ⟨0xC0 + n, 0x804, 0, 32, 0⟩
def GFX_TX.ASTC_ERR.COUNT (n : Nat) : Fld := ⟨0xC0 + n, 0x808, 0, 32, 0⟩
def GFX_TX.NFR_BAD.COUNT (n : Nat) : Fld := ⟨0xC0 + n, 0x80C, 0, 32, 0⟩

/-! ### GFX_L2 (chapter file 09_*) -/

def GFX_L2.L2_STAT.VALID_KIB : Fld := ⟨0xD0, 0x40, 0, 13, 0⟩
def GFX_L2.HIT_CNT.COUNT : Fld := ⟨0xD0, 0x800, 0, 32, 0⟩
def GFX_L2.MISS_CNT.COUNT : Fld := ⟨0xD0, 0x804, 0, 32, 0⟩
def GFX_L2.INVAL_CNT.COUNT : Fld := ⟨0xD0, 0x808, 0, 32, 0⟩
def GFX_L2.ECC_CNT.COUNT : Fld := ⟨0xD0, 0x80C, 0, 32, 0⟩

/-! ### CMP_P (chapter file 11_*) -/

def CMP_P.PIPE_CFG.LEAD (n : Nat) : Fld := ⟨0xE0 + n, 0x40, 0, 7, 0x20⟩
def CMP_P.PIPE_CFG.XFER (n : Nat) : Fld := ⟨0xE0 + n, 0x40, 8, 2, 1⟩
def CMP_P.PIPE_CFG.DITHER (n : Nat) : Fld := ⟨0xE0 + n, 0x40, 10, 2, 1⟩
def CMP_P.PIPE_CFG.DEPTH (n : Nat) : Fld := ⟨0xE0 + n, 0x40, 12, 2, 0⟩
def CMP_P.BG.B (n : Nat) : Fld := ⟨0xE0 + n, 0x44, 0, 10, 0⟩
def CMP_P.BG.G (n : Nat) : Fld := ⟨0xE0 + n, 0x44, 10, 10, 0⟩
def CMP_P.BG.R (n : Nat) : Fld := ⟨0xE0 + n, 0x44, 20, 10, 0⟩
def CMP_P.PIPE_STAT.CAP (n : Nat) : Fld := ⟨0xE0 + n, 0x48, 0, 8, 0⟩
def CMP_P.PIPE_STAT.BUFFERED (n : Nat) : Fld := ⟨0xE0 + n, 0x48, 8, 8, 0⟩
def CMP_P.PIPE_STAT.SPLIT (n : Nat) : Fld := ⟨0xE0 + n, 0x48, 16, 1, 0⟩
def CMP_P.PIPE_STAT.LEAD_CLIP (n : Nat) : Fld := ⟨0xE0 + n, 0x48, 17, 1, 0⟩
def CMP_P.PIPE_STAT.DEGRADED (n : Nat) : Fld := ⟨0xE0 + n, 0x48, 18, 1, 0⟩
def CMP_P.PIPE_STAT.UNITS (n : Nat) : Fld := ⟨0xE0 + n, 0x48, 24, 4, 0⟩
def CMP_P.UNITS.UNITS (n : Nat) (i : Nat) : Fld := ⟨0xE0 + n, 0x4C + 4 * i, 0, 32, 0⟩
def CMP_P.GAMMA.R (n : Nat) (i : Nat) : Fld := ⟨0xE0 + n, 0x100 + 4 * i, 0, 10, (gammaReset i)⟩
def CMP_P.GAMMA.G (n : Nat) (i : Nat) : Fld := ⟨0xE0 + n, 0x100 + 4 * i, 10, 10, (gammaReset i)⟩
def CMP_P.GAMMA.B (n : Nat) (i : Nat) : Fld := ⟨0xE0 + n, 0x100 + 4 * i, 20, 10, (gammaReset i)⟩
def CMP_P.SLICE_CNT.COUNT (n : Nat) : Fld := ⟨0xE0 + n, 0x800, 0, 32, 0⟩
def CMP_P.SPACE_WAIT.COUNT (n : Nat) : Fld := ⟨0xE0 + n, 0x804, 0, 32, 0⟩
def CMP_P.LINE_SKIP.COUNT (n : Nat) : Fld := ⟨0xE0 + n, 0x808, 0, 32, 0⟩
def CMP_P.LATCH_CNT.COUNT (n : Nat) : Fld := ⟨0xE0 + n, 0x80C, 0, 32, 0⟩
def CMP_P.DROP_CNT.COUNT (n : Nat) : Fld := ⟨0xE0 + n, 0x810, 0, 32, 0⟩
def CMP_P.FETCH_ERR.COUNT (n : Nat) : Fld := ⟨0xE0 + n, 0x814, 0, 32, 0⟩

/-! ### CMP_L (chapter file 11_*) -/

def CMP_L.LAYER_MGR.PIPE (n : Nat) : Fld := ⟨0xE8 + n, 0x40, 0, 4, 0xF⟩
def CMP_L.LAYER_MGR.ZPOS (n : Nat) : Fld := ⟨0xE8 + n, 0x40, 4, 4, 0⟩
def CMP_L.LAYER_MGR.GANG (n : Nat) : Fld := ⟨0xE8 + n, 0x40, 8, 2, 0⟩
def CMP_L.BOUND_XY.X (n : Nat) : Fld := ⟨0xE8 + n, 0x44, 0, 16, 0⟩
def CMP_L.BOUND_XY.Y (n : Nat) : Fld := ⟨0xE8 + n, 0x44, 16, 16, 0⟩
def CMP_L.BOUND_WH.W (n : Nat) : Fld := ⟨0xE8 + n, 0x48, 0, 16, 0⟩
def CMP_L.BOUND_WH.H (n : Nat) : Fld := ⟨0xE8 + n, 0x48, 16, 16, 0⟩
def CMP_L.LAYER_CTRL.ENABLE (n : Nat) : Fld := ⟨0xE8 + n, 0x4C, 0, 1, 0⟩
def CMP_L.LAYER_CTRL.FORMAT (n : Nat) : Fld := ⟨0xE8 + n, 0x4C, 1, 6, 0⟩
def CMP_L.LAYER_CTRL.LAYOUT (n : Nat) : Fld := ⟨0xE8 + n, 0x4C, 7, 2, 0⟩
def CMP_L.LAYER_CTRL.ALPHA_MODE (n : Nat) : Fld := ⟨0xE8 + n, 0x4C, 9, 2, 0⟩
def CMP_L.LAYER_CTRL.TRANSFER (n : Nat) : Fld := ⟨0xE8 + n, 0x4C, 11, 2, 0⟩
def CMP_L.LAYER_CTRL.CSC (n : Nat) : Fld := ⟨0xE8 + n, 0x4C, 13, 1, 0⟩
def CMP_L.LAYER_CTRL.FULL (n : Nat) : Fld := ⟨0xE8 + n, 0x4C, 14, 1, 0⟩
def CMP_L.LAYER_CTRL.HFILT (n : Nat) : Fld := ⟨0xE8 + n, 0x4C, 15, 2, 0⟩
def CMP_L.LAYER_CTRL.VFILT (n : Nat) : Fld := ⟨0xE8 + n, 0x4C, 17, 2, 0⟩
def CMP_L.LAYER_CTRL.GA (n : Nat) : Fld := ⟨0xE8 + n, 0x4C, 19, 8, 0xFF⟩
def CMP_L.LAYER_CTRL.REMOTE (n : Nat) : Fld := ⟨0xE8 + n, 0x4C, 27, 1, 0⟩
def CMP_L.LAYER_CTRL.DEV (n : Nat) : Fld := ⟨0xE8 + n, 0x4C, 28, 2, 0⟩
def CMP_L.LAYER_CTRL.FORMAT_HI (n : Nat) : Fld := ⟨0xE8 + n, 0x4C, 30, 1, 0⟩
def CMP_L.ADDR_LO.VALUE (n : Nat) : Fld := ⟨0xE8 + n, 0x50, 0, 32, 0⟩
def CMP_L.ADDR_HI.VALUE (n : Nat) : Fld := ⟨0xE8 + n, 0x54, 0, 32, 0⟩
def CMP_L.CHROMA_OFF.VALUE (n : Nat) : Fld := ⟨0xE8 + n, 0x58, 0, 32, 0⟩
def CMP_L.PITCH.VALUE (n : Nat) : Fld := ⟨0xE8 + n, 0x5C, 0, 16, 0⟩
def CMP_L.SRC_XY.X (n : Nat) : Fld := ⟨0xE8 + n, 0x60, 0, 16, 0⟩
def CMP_L.SRC_XY.Y (n : Nat) : Fld := ⟨0xE8 + n, 0x60, 16, 16, 0⟩
def CMP_L.SRC_WH.W (n : Nat) : Fld := ⟨0xE8 + n, 0x64, 0, 16, 0⟩
def CMP_L.SRC_WH.H (n : Nat) : Fld := ⟨0xE8 + n, 0x64, 16, 16, 0⟩
def CMP_L.DST_XY.X (n : Nat) : Fld := ⟨0xE8 + n, 0x68, 0, 16, 0⟩
def CMP_L.DST_XY.Y (n : Nat) : Fld := ⟨0xE8 + n, 0x68, 16, 16, 0⟩
def CMP_L.DST_WH.W (n : Nat) : Fld := ⟨0xE8 + n, 0x6C, 0, 16, 0⟩
def CMP_L.DST_WH.H (n : Nat) : Fld := ⟨0xE8 + n, 0x6C, 16, 16, 0⟩
def CMP_L.LAYER_STAT.NEED_KIB (n : Nat) : Fld := ⟨0xE8 + n, 0x70, 0, 10, 0⟩
def CMP_L.LAYER_STAT.OWNER (n : Nat) : Fld := ⟨0xE8 + n, 0x70, 10, 5, 0x10⟩
def CMP_L.FETCH_ERR.COUNT (n : Nat) : Fld := ⟨0xE8 + n, 0x800, 0, 32, 0⟩
def CMP_L.LINES_FETCHED.COUNT (n : Nat) : Fld := ⟨0xE8 + n, 0x804, 0, 32, 0⟩

/-! ### CMP (chapter file 11_*) -/

def CMP.ATTACH.UNITS (i : Nat) : Fld := ⟨0x118, 0x40 + 4 * i, 0, 32, 0⟩

/-! ### SCN_OUT (chapter file 12_*) -/

def SCN_OUT.OUT_CFG.ENABLE (n : Nat) : Fld := ⟨0x120 + n, 0x40, 0, 1, 0⟩
def SCN_OUT.OUT_CFG.MODE (n : Nat) : Fld := ⟨0x120 + n, 0x40, 1, 2, 0⟩
def SCN_OUT.OUT_CFG.LANES (n : Nat) : Fld := ⟨0x120 + n, 0x40, 3, 3, 4⟩
def SCN_OUT.OUT_CFG.RATE (n : Nat) : Fld := ⟨0x120 + n, 0x40, 6, 2, 2⟩
def SCN_OUT.OUT_CFG.BPC (n : Nat) : Fld := ⟨0x120 + n, 0x40, 8, 2, 1⟩
def SCN_OUT.OUT_CFG.LVDS_MAP (n : Nat) : Fld := ⟨0x120 + n, 0x40, 10, 2, 0⟩
def SCN_OUT.OUT_CFG.SPLIT (n : Nat) : Fld := ⟨0x120 + n, 0x40, 12, 1, 0⟩
def SCN_OUT.OUT_CFG.AUDIO_EN (n : Nat) : Fld := ⟨0x120 + n, 0x40, 13, 1, 0⟩
def SCN_OUT.OUT_CFG.ASSR (n : Nat) : Fld := ⟨0x120 + n, 0x40, 14, 1, 0⟩
def SCN_OUT.OUT_CFG.SSC (n : Nat) : Fld := ⟨0x120 + n, 0x40, 15, 1, 0⟩
def SCN_OUT.OUT_CFG.AUTO_RETRAIN (n : Nat) : Fld := ⟨0x120 + n, 0x40, 16, 1, 1⟩
def SCN_OUT.H_TIMING.ACTIVE (n : Nat) : Fld := ⟨0x120 + n, 0x44, 0, 16, 0x0F00⟩
def SCN_OUT.H_TIMING.TOTAL (n : Nat) : Fld := ⟨0x120 + n, 0x44, 16, 16, 0x1130⟩
def SCN_OUT.H_SYNC.START (n : Nat) : Fld := ⟨0x120 + n, 0x48, 0, 16, 0x0FB0⟩
def SCN_OUT.H_SYNC.WIDTH (n : Nat) : Fld := ⟨0x120 + n, 0x48, 16, 16, 0x0058⟩
def SCN_OUT.V_TIMING.ACTIVE (n : Nat) : Fld := ⟨0x120 + n, 0x4C, 0, 16, 0x0870⟩
def SCN_OUT.V_TIMING.TOTAL (n : Nat) : Fld := ⟨0x120 + n, 0x4C, 16, 16, 0x08CA⟩
def SCN_OUT.V_SYNC.START (n : Nat) : Fld := ⟨0x120 + n, 0x50, 0, 16, 0x0878⟩
def SCN_OUT.V_SYNC.WIDTH (n : Nat) : Fld := ⟨0x120 + n, 0x50, 16, 16, 0x000A⟩
def SCN_OUT.PCLK.KHZ (n : Nat) : Fld := ⟨0x120 + n, 0x54, 0, 20, 0x91050⟩
def SCN_OUT.PCLK.HSYNC_POS (n : Nat) : Fld := ⟨0x120 + n, 0x54, 20, 1, 1⟩
def SCN_OUT.PCLK.VSYNC_POS (n : Nat) : Fld := ⟨0x120 + n, 0x54, 21, 1, 1⟩
def SCN_OUT.FLIP.FLIP_LINE (n : Nat) : Fld := ⟨0x120 + n, 0x58, 0, 16, 0x0870⟩
def SCN_OUT.WATERMARK.WM_URGENT (n : Nat) : Fld := ⟨0x120 + n, 0x5C, 0, 7, 0x0C⟩
def SCN_OUT.WATERMARK.WM_CRIT (n : Nat) : Fld := ⟨0x120 + n, 0x5C, 8, 7, 4⟩
def SCN_OUT.WATERMARK.WM_ADAPT (n : Nat) : Fld := ⟨0x120 + n, 0x5C, 15, 1, 1⟩
def SCN_OUT.BL.ON (n : Nat) : Fld := ⟨0x120 + n, 0x60, 0, 1, 0⟩
def SCN_OUT.BL.LINE_SYNC (n : Nat) : Fld := ⟨0x120 + n, 0x60, 1, 1, 0⟩
def SCN_OUT.BL.DUTY (n : Nat) : Fld := ⟨0x120 + n, 0x60, 2, 8, 0xFF⟩
def SCN_OUT.BL.FREQ (n : Nat) : Fld := ⟨0x120 + n, 0x60, 10, 13, 0x64⟩
def SCN_OUT.BL.ON_DELAY (n : Nat) : Fld := ⟨0x120 + n, 0x60, 23, 4, 2⟩
def SCN_OUT.BL.OFF_DELAY (n : Nat) : Fld := ⟨0x120 + n, 0x60, 27, 4, 2⟩
def SCN_OUT.OUT_STAT.STATE (n : Nat) : Fld := ⟨0x120 + n, 0x64, 0, 3, 0⟩
def SCN_OUT.OUT_STAT.HPD (n : Nat) : Fld := ⟨0x120 + n, 0x64, 3, 1, 0⟩
def SCN_OUT.OUT_STAT.IDLE_CAUSE (n : Nat) : Fld := ⟨0x120 + n, 0x64, 4, 4, 0⟩
def SCN_OUT.OUT_STAT.CLASS (n : Nat) : Fld := ⟨0x120 + n, 0x64, 8, 2, 0⟩
def SCN_OUT.OUT_STAT.WM_EFF (n : Nat) : Fld := ⟨0x120 + n, 0x64, 16, 7, 0x0C⟩
def SCN_OUT.OUT_STAT.MARGIN (n : Nat) : Fld := ⟨0x120 + n, 0x64, 24, 8, 0⟩
def SCN_OUT.LAST_FLIP_LO.STAMP (n : Nat) : Fld := ⟨0x120 + n, 0x68, 0, 32, 0⟩
def SCN_OUT.LAST_FLIP_HI.STAMP (n : Nat) : Fld := ⟨0x120 + n, 0x6C, 0, 32, 0⟩
def SCN_OUT.FLIP_FRAME.FRAME (n : Nat) : Fld := ⟨0x120 + n, 0x70, 0, 32, 0⟩
def SCN_OUT.UR_FIRST_LO.STAMP (n : Nat) : Fld := ⟨0x120 + n, 0x74, 0, 32, 0⟩
def SCN_OUT.UR_FIRST_HI.STAMP (n : Nat) : Fld := ⟨0x120 + n, 0x78, 0, 32, 0⟩
def SCN_OUT.UR_REARM.REARM (n : Nat) : Fld := ⟨0x120 + n, 0x7C, 0, 1, 0⟩
def SCN_OUT.FRAMES_SENT.COUNT (n : Nat) : Fld := ⟨0x120 + n, 0x800, 0, 32, 0⟩
def SCN_OUT.UR_PIXELS.COUNT (n : Nat) : Fld := ⟨0x120 + n, 0x804, 0, 32, 0⟩
def SCN_OUT.UR_LINES.COUNT (n : Nat) : Fld := ⟨0x120 + n, 0x808, 0, 32, 0⟩
def SCN_OUT.UR_FRAMES.COUNT (n : Nat) : Fld := ⟨0x120 + n, 0x80C, 0, 32, 0⟩
def SCN_OUT.URGENT_LINES.COUNT (n : Nat) : Fld := ⟨0x120 + n, 0x810, 0, 32, 0⟩
def SCN_OUT.ISO_LINES.COUNT (n : Nat) : Fld := ⟨0x120 + n, 0x814, 0, 32, 0⟩
def SCN_OUT.HPD_LOSS.COUNT (n : Nat) : Fld := ⟨0x120 + n, 0x818, 0, 32, 0⟩
def SCN_OUT.RETRAIN.COUNT (n : Nat) : Fld := ⟨0x120 + n, 0x81C, 0, 32, 0⟩

/-! ### SCN_PHY (chapter file 12_*) -/

def SCN_PHY.PHY_CFG.LANE_MAP (n : Nat) : Fld := ⟨0x128 + n, 0x40, 0, 8, 0xE4⟩
def SCN_PHY.PHY_CFG.POL (n : Nat) : Fld := ⟨0x128 + n, 0x40, 8, 4, 0⟩
def SCN_PHY.PHY_CFG.AUX_POL (n : Nat) : Fld := ⟨0x128 + n, 0x40, 12, 1, 0⟩
def SCN_PHY.PHY_CFG.VOD (n : Nat) : Fld := ⟨0x128 + n, 0x40, 13, 2, 1⟩
def SCN_PHY.PHY_CFG.MAX_SWING (n : Nat) : Fld := ⟨0x128 + n, 0x40, 15, 2, 3⟩
def SCN_PHY.PHY_CFG.MAX_PRE (n : Nat) : Fld := ⟨0x128 + n, 0x40, 17, 2, 3⟩
def SCN_PHY.PHY_STAT.SHORT (n : Nat) : Fld := ⟨0x128 + n, 0x44, 0, 5, 0⟩
def SCN_PHY.PHY_STAT.OPEN (n : Nat) : Fld := ⟨0x128 + n, 0x44, 5, 5, 0⟩
def SCN_PHY.PHY_STAT.CR_DONE (n : Nat) : Fld := ⟨0x128 + n, 0x44, 10, 4, 0⟩
def SCN_PHY.PHY_STAT.EQ_DONE (n : Nat) : Fld := ⟨0x128 + n, 0x44, 14, 4, 0⟩
def SCN_PHY.PHY_STAT.TRAIN_ERR (n : Nat) : Fld := ⟨0x128 + n, 0x44, 18, 3, 0⟩
def SCN_PHY.PHY_STAT.HPD_RAW (n : Nat) : Fld := ⟨0x128 + n, 0x44, 21, 1, 0⟩
def SCN_PHY.LANE_TEST.GO (n : Nat) : Fld := ⟨0x128 + n, 0x48, 0, 1, 0⟩
def SCN_PHY.LANE_TEST.BUSY (n : Nat) : Fld := ⟨0x128 + n, 0x48, 1, 1, 0⟩
def SCN_PHY.AUX_CMD.CMD (n : Nat) : Fld := ⟨0x128 + n, 0x4C, 0, 4, 9⟩
def SCN_PHY.AUX_CMD.LEN_M1 (n : Nat) : Fld := ⟨0x128 + n, 0x4C, 4, 4, 0⟩
def SCN_PHY.AUX_CMD.ADDR (n : Nat) : Fld := ⟨0x128 + n, 0x4C, 8, 20, 0⟩
def SCN_PHY.AUX_CMD.GO (n : Nat) : Fld := ⟨0x128 + n, 0x4C, 31, 1, 0⟩
def SCN_PHY.AUX_STAT.BUSY (n : Nat) : Fld := ⟨0x128 + n, 0x50, 0, 1, 0⟩
def SCN_PHY.AUX_STAT.REPLY (n : Nat) : Fld := ⟨0x128 + n, 0x50, 1, 2, 0⟩
def SCN_PHY.AUX_STAT.BYTES (n : Nat) : Fld := ⟨0x128 + n, 0x50, 4, 5, 0⟩
def SCN_PHY.AUX_DATA.DATA (n : Nat) (i : Nat) : Fld := ⟨0x128 + n, 0x54 + 4 * i, 0, 32, 0⟩
def SCN_PHY.TRAIN_ATTEMPTS.COUNT (n : Nat) : Fld := ⟨0x128 + n, 0x800, 0, 32, 0⟩
def SCN_PHY.AUX_ERR.COUNT (n : Nat) : Fld := ⟨0x128 + n, 0x804, 0, 32, 0⟩
def SCN_PHY.LANE_FAULT_CNT.COUNT (n : Nat) : Fld := ⟨0x128 + n, 0x808, 0, 32, 0⟩
def SCN_PHY.HPD_IRQ_CNT.COUNT (n : Nat) : Fld := ⟨0x128 + n, 0x80C, 0, 32, 0⟩

/-! ### SAF (chapter file 13_*) -/

def SAF.ISL_STAT.STATE : Fld := ⟨0x130, 0x40, 0, 2, 0⟩
def SAF.ISL_STAT.CAUSE : Fld := ⟨0x130, 0x40, 2, 3, 0⟩
def SAF.ISL_STAT.RECENT : Fld := ⟨0x130, 0x40, 5, 2, 0⟩
def SAF.ISL_CTRL.RESET : Fld := ⟨0x130, 0x44, 0, 1, 0⟩
def SAF.ISL_DWIN.EN : Fld := ⟨0x130, 0x48, 0, 1, 0⟩
def SAF.WDOG_CFG.WIN_MIN : Fld := ⟨0x130, 0x4C, 0, 16, 0⟩
def SAF.WDOG_CFG.WIN_MAX : Fld := ⟨0x130, 0x4C, 16, 15, 0x2710⟩
def SAF.WDOG_CFG.ARM : Fld := ⟨0x130, 0x4C, 31, 1, 0⟩
def SAF.WDOG_KICK.KEY : Fld := ⟨0x130, 0x50, 0, 8, 0⟩
def SAF.SAFE_OK.EN_A : Fld := ⟨0x130, 0x54, 0, 1, 0⟩
def SAF.SAFE_OK.EN_B : Fld := ⟨0x130, 0x54, 1, 1, 0⟩
def SAF.SAFE_OK.DYN_A : Fld := ⟨0x130, 0x54, 2, 1, 0⟩
def SAF.SAFE_OK.DYN_B : Fld := ⟨0x130, 0x54, 3, 1, 0⟩
def SAF.SAFE_OK.FIELD_DROP : Fld := ⟨0x130, 0x54, 4, 1, 1⟩
def SAF.SAFE_OK.FORCED : Fld := ⟨0x130, 0x54, 16, 6, 0⟩
def SAF.CLK_STAT.ISL : Fld := ⟨0x130, 0x58, 0, 1, 0⟩
def SAF.CLK_STAT.CMP : Fld := ⟨0x130, 0x58, 1, 1, 0⟩
def SAF.CLK_STAT.REF : Fld := ⟨0x130, 0x58, 2, 1, 0⟩
def SAF.MODE_REQ.DEGRADE : Fld := ⟨0x130, 0x5C, 0, 1, 0⟩
def SAF.MODE_REQ.AGREE_RUN : Fld := ⟨0x130, 0x5C, 1, 1, 0⟩
def SAF.PIPE_DEGR.PIPES : Fld := ⟨0x130, 0x60, 0, 8, 0⟩
def SAF.DWIN_BASE.BASE : Fld := ⟨0x130, 0x64, 0, 8, 0⟩
def SAF.LOCKSTEP_ERR.COUNT : Fld := ⟨0x130, 0x800, 0, 32, 0⟩
def SAF.ECC_CORR.COUNT : Fld := ⟨0x130, 0x804, 0, 32, 0⟩
def SAF.ECC_UNCORR.COUNT : Fld := ⟨0x130, 0x808, 0, 32, 0⟩
def SAF.WDOG_FAULT.COUNT : Fld := ⟨0x130, 0x80C, 0, 32, 0⟩
def SAF.CLK_FAULT_CNT.COUNT : Fld := ⟨0x130, 0x810, 0, 32, 0⟩

/-! ### SAF_P (chapter file 13_*) -/

def SAF_P.PLANE_CTRL.SWAP (n : Nat) : Fld := ⟨0x131 + n, 0x40, 0, 1, 0⟩
def SAF_P.PLANE_CTRL.CANCEL (n : Nat) : Fld := ⟨0x131 + n, 0x40, 1, 1, 0⟩
def SAF_P.PLANE_STAT.PENDING (n : Nat) : Fld := ⟨0x131 + n, 0x44, 0, 1, 0⟩
def SAF_P.PLANE_STAT.RESULT (n : Nat) : Fld := ⟨0x131 + n, 0x44, 8, 8, 0⟩
def SAF_P.TABLE.ADDR (n : Nat) : Fld := ⟨0x131 + n, 0x48, 0, 21, 0⟩
def SAF_P.TABLE.EN (n : Nat) : Fld := ⟨0x131 + n, 0x48, 31, 1, 0⟩
def SAF_P.DEG_BG.RGB (n : Nat) : Fld := ⟨0x131 + n, 0x4C, 0, 30, 0⟩
def SAF_P.DEG_BG.USE (n : Nat) : Fld := ⟨0x131 + n, 0x4C, 31, 1, 0⟩
def SAF_P.RG_XY.X (n : Nat) (i : Nat) : Fld := ⟨0x131 + n, 0x100 + 0x20 * i, 0, 16, 0⟩
def SAF_P.RG_XY.Y (n : Nat) (i : Nat) : Fld := ⟨0x131 + n, 0x100 + 0x20 * i, 16, 16, 0⟩
def SAF_P.RG_WH.W (n : Nat) (i : Nat) : Fld := ⟨0x131 + n, 0x104 + 0x20 * i, 0, 16, 0⟩
def SAF_P.RG_WH.H (n : Nat) (i : Nat) : Fld := ⟨0x131 + n, 0x104 + 0x20 * i, 16, 16, 0⟩
def SAF_P.RG_CFG.EN (n : Nat) (i : Nat) : Fld := ⟨0x131 + n, 0x108 + 0x20 * i, 0, 1, 0⟩
def SAF_P.RG_CFG.MODE (n : Nat) (i : Nat) : Fld := ⟨0x131 + n, 0x108 + 0x20 * i, 1, 1, 0⟩
def SAF_P.RG_CFG.THRESH (n : Nat) (i : Nat) : Fld := ⟨0x131 + n, 0x108 + 0x20 * i, 2, 4, 1⟩
def SAF_P.RG_CFG.ACT (n : Nat) (i : Nat) : Fld := ⟨0x131 + n, 0x108 + 0x20 * i, 6, 2, 0⟩
def SAF_P.RG_EXPECT.CRC (n : Nat) (i : Nat) : Fld := ⟨0x131 + n, 0x10C + 0x20 * i, 0, 32, 0⟩
def SAF_P.RG_CRC.CRC (n : Nat) (i : Nat) : Fld := ⟨0x131 + n, 0x110 + 0x20 * i, 0, 32, 0⟩
def SAF_P.RG_STAT.RUN (n : Nat) (i : Nat) : Fld := ⟨0x131 + n, 0x114 + 0x20 * i, 0, 4, 0⟩
def SAF_P.RG_STAT.VALID (n : Nat) (i : Nat) : Fld := ⟨0x131 + n, 0x114 + 0x20 * i, 4, 1, 0⟩
def SAF_P.RG_STAT.HAVE_REF (n : Nat) (i : Nat) : Fld := ⟨0x131 + n, 0x114 + 0x20 * i, 5, 1, 0⟩
def SAF_P.RG_STAT.LAST_OK (n : Nat) (i : Nat) : Fld := ⟨0x131 + n, 0x114 + 0x20 * i, 6, 1, 0⟩
def SAF_P.MISMATCH_CNT.COUNT (n : Nat) (i : Nat) : Fld := ⟨0x131 + n, 0x800 + 4 * i, 0, 32, 0⟩
def SAF_P.FRAMES_CHECKED.COUNT (n : Nat) : Fld := ⟨0x131 + n, 0x840, 0, 32, 0⟩
def SAF_P.PLANE_ECC_CNT.COUNT (n : Nat) : Fld := ⟨0x131 + n, 0x844, 0, 32, 0⟩

/-! ### FAB (chapter file 14_*) -/

def FAB.ISO_CFG.RESERVE : Fld := ⟨0x140, 0x40, 0, 6, 0x10⟩
def FAB.CREDIT_STAT.FULL : Fld := ⟨0x140, 0x44, 0, 4, 0⟩
def FAB.PROGRESS.LIMIT : Fld := ⟨0x140, 0x48, 0, 16, 0x03E8⟩
def FAB.PROGRESS.LAST : Fld := ⟨0x140, 0x48, 16, 4, 0⟩
def FAB.ALL_FULL_CNT.COUNT : Fld := ⟨0x140, 0x800, 0, 32, 0⟩
def FAB.STALL_CNT.COUNT : Fld := ⟨0x140, 0x804, 0, 32, 0⟩
def FAB.ISO_SLOT_CNT.COUNT : Fld := ⟨0x140, 0x808, 0, 32, 0⟩

/-! ### FAB_ARB (chapter file 14_*) -/

def FAB_ARB.ARB_SEL.ARB : Fld := ⟨0x141, 0x40, 0, 8, 0⟩
def FAB_ARB.ARB_SEL.REQ : Fld := ⟨0x141, 0x40, 8, 8, 0⟩
def FAB_ARB.ARB_SEL.CLEAR : Fld := ⟨0x141, 0x40, 30, 1, 0⟩
def FAB_ARB.ARB_SEL.SNAP : Fld := ⟨0x141, 0x40, 31, 1, 0⟩
def FAB_ARB.ARB_GRANTS.COUNT : Fld := ⟨0x141, 0x44, 0, 32, 0⟩
def FAB_ARB.ARB_WAITS.COUNT : Fld := ⟨0x141, 0x48, 0, 32, 0⟩
def FAB_ARB.ARB_LONGEST.CYCLES : Fld := ⟨0x141, 0x4C, 0, 16, 0⟩

/-! ### LCK (chapter file 14_*) -/

def LCK.HOLD_MAX.LINES : Fld := ⟨0x90, 0x40, 0, 16, 0x08CA⟩
def LCK.INST.LOCKS (i : Nat) : Fld := ⟨0x90, 0x44 + 4 * i, 0, 32, 0xFFFFFFFF⟩
def LCK.ACQ_CNT.COUNT : Fld := ⟨0x90, 0x800, 0, 32, 0⟩
def LCK.CYCLE_CNT.COUNT : Fld := ⟨0x90, 0x804, 0, 32, 0⟩
def LCK.POISON_CNT.COUNT : Fld := ⟨0x90, 0x808, 0, 32, 0⟩
def LCK.HOLD_EXP_CNT.COUNT : Fld := ⟨0x90, 0x80C, 0, 32, 0⟩

/-! ### LCK_TABLE (chapter file 14_*) -/

def LCK_TABLE.LK_STATE.STATE (i : Nat) : Fld := ⟨0x91, 0x40 + 4 * i, 0, 2, 0⟩
def LCK_TABLE.LK_STATE.EXPIRED (i : Nat) : Fld := ⟨0x91, 0x40 + 4 * i, 2, 1, 0⟩
def LCK_TABLE.LK_STATE.OWNER (i : Nat) : Fld := ⟨0x91, 0x40 + 4 * i, 3, 5, 0x1F⟩
def LCK_TABLE.LK_STATE.WAITERS (i : Nat) : Fld := ⟨0x91, 0x40 + 4 * i, 8, 5, 0⟩
def LCK_TABLE.LK_STATE.MINE (i : Nat) : Fld := ⟨0x91, 0x40 + 4 * i, 13, 1, 0⟩
def LCK_TABLE.LK_STATE.HELD_LINES (i : Nat) : Fld := ⟨0x91, 0x40 + 4 * i, 16, 16, 0⟩

/-! ### LCK_PORTS (chapter file 14_*) -/

def LCK_PORTS.LK_ACQ.LOCK (i : Nat) : Fld := ⟨0x92, 0x40 + 0x20 * i, 0, 6, 0⟩
def LCK_PORTS.LK_ACQ.BLOCK (i : Nat) : Fld := ⟨0x92, 0x40 + 0x20 * i, 8, 1, 0⟩
def LCK_PORTS.LK_REL.LOCK (i : Nat) : Fld := ⟨0x92, 0x44 + 0x20 * i, 0, 6, 0⟩
def LCK_PORTS.LK_REL.ALL (i : Nat) : Fld := ⟨0x92, 0x44 + 0x20 * i, 31, 1, 0⟩
def LCK_PORTS.LK_CANCEL.CANCEL (i : Nat) : Fld := ⟨0x92, 0x48 + 0x20 * i, 0, 1, 0⟩
def LCK_PORTS.LK_RESULT.CODE (i : Nat) : Fld := ⟨0x92, 0x4C + 0x20 * i, 0, 8, 0⟩
def LCK_PORTS.LK_RESULT.WAITING (i : Nat) : Fld := ⟨0x92, 0x4C + 0x20 * i, 8, 1, 0⟩
def LCK_PORTS.LK_RESULT.LOCK (i : Nat) : Fld := ⟨0x92, 0x4C + 0x20 * i, 9, 6, 0⟩
def LCK_PORTS.LK_RESULT.SEQ (i : Nat) : Fld := ⟨0x92, 0x4C + 0x20 * i, 16, 16, 0⟩
def LCK_PORTS.LK_HELD_LO.LOCKS (i : Nat) : Fld := ⟨0x92, 0x50 + 0x20 * i, 0, 32, 0⟩
def LCK_PORTS.LK_HELD_HI.LOCKS (i : Nat) : Fld := ⟨0x92, 0x54 + 0x20 * i, 0, 32, 0⟩

/-! ### DRC (chapter file 15_*) -/

def DRC.MEM_CFG.DENSITY : Fld := ⟨0x160, 0x40, 0, 1, 0⟩
def DRC.MEM_CFG.RANKS : Fld := ⟨0x160, 0x40, 1, 1, 0⟩
def DRC.MEM_CFG.PICK : Fld := ⟨0x160, 0x40, 4, 1, 0⟩
def DRC.MEM_CFG.ROW_RUN_MAX : Fld := ⟨0x160, 0x40, 8, 4, 8⟩
def DRC.CAPACITY.GIB : Fld := ⟨0x160, 0x44, 0, 6, 0⟩
def DRC.CAPACITY.USABLE_2M : Fld := ⟨0x160, 0x44, 16, 16, 0⟩
def DRC.REF_CFG.POSTPONE_MAX : Fld := ⟨0x160, 0x48, 0, 4, 8⟩
def DRC.TRAIN.GO : Fld := ⟨0x160, 0x4C, 0, 1, 0⟩
def DRC.TRAIN.BUSY : Fld := ⟨0x160, 0x4C, 1, 1, 0⟩
def DRC.TRAIN.DONE : Fld := ⟨0x160, 0x4C, 2, 1, 0⟩
def DRC.TRAIN.FAIL : Fld := ⟨0x160, 0x4C, 3, 1, 0⟩
def DRC.TRAIN.FAILED : Fld := ⟨0x160, 0x4C, 16, 12, 0⟩
def DRC.RETRAIN.FRAMES : Fld := ⟨0x160, 0x50, 0, 16, 0x0E10⟩
def DRC.RETRAIN.DRIFT_C : Fld := ⟨0x160, 0x50, 16, 8, 0x0A⟩
def DRC.RETRAIN.EN : Fld := ⟨0x160, 0x50, 31, 1, 1⟩
def DRC.LP_CFG.SR_EN : Fld := ⟨0x160, 0x54, 0, 1, 0⟩
def DRC.LP_CFG.SR_IDLE : Fld := ⟨0x160, 0x54, 4, 10, 0x040⟩
def DRC.REF_STAT.RATE : Fld := ⟨0x160, 0x58, 0, 2, 0⟩
def DRC.REF_STAT.REF_BOUND : Fld := ⟨0x160, 0x58, 16, 16, 0⟩
def DRC.REFRESH_FORCED.COUNT : Fld := ⟨0x160, 0x800, 0, 32, 0⟩
def DRC.REF_MIDLINE.COUNT : Fld := ⟨0x160, 0x804, 0, 32, 0⟩
def DRC.RETRAIN_CNT.COUNT : Fld := ⟨0x160, 0x808, 0, 32, 0⟩
def DRC.SR_ENTRY.COUNT : Fld := ⟨0x160, 0x80C, 0, 32, 0⟩
def DRC.SR_CANCEL.COUNT : Fld := ⟨0x160, 0x810, 0, 32, 0⟩
def DRC.CE_CNT.COUNT : Fld := ⟨0x160, 0x814, 0, 32, 0⟩
def DRC.UE_CNT.COUNT : Fld := ⟨0x160, 0x818, 0, 32, 0⟩

/-! ### DRC_ECC (chapter file 15_*) -/

def DRC_ECC.REG_BASE.EN (i : Nat) : Fld := ⟨0x161, 0x40 + 8 * i, 0, 1, 0⟩
def DRC_ECC.REG_BASE.INIT (i : Nat) : Fld := ⟨0x161, 0x40 + 8 * i, 1, 1, 0⟩
def DRC_ECC.REG_BASE.INIT_BUSY (i : Nat) : Fld := ⟨0x161, 0x40 + 8 * i, 2, 1, 0⟩
def DRC_ECC.REG_BASE.ADDR (i : Nat) : Fld := ⟨0x161, 0x40 + 8 * i, 3, 15, 0⟩
def DRC_ECC.REG_SIZE.ADDR (i : Nat) : Fld := ⟨0x161, 0x44 + 8 * i, 3, 15, 0⟩
def DRC_ECC.ECC_CARVE.SIZE : Fld := ⟨0x161, 0x80, 0, 12, 0⟩
def DRC_ECC.ECC_CARVE.ECC_LOCK : Fld := ⟨0x161, 0x80, 31, 1, 0⟩
def DRC_ECC.ERR_ADDR_LO.ADDR : Fld := ⟨0x161, 0x84, 0, 32, 0⟩
def DRC_ECC.ERR_ADDR_HI.ADDR : Fld := ⟨0x161, 0x88, 0, 32, 0⟩
def DRC_ECC.ERR_INFO.VALID : Fld := ⟨0x161, 0x8C, 0, 1, 0⟩
def DRC_ECC.ERR_INFO.UNCORR : Fld := ⟨0x161, 0x8C, 1, 1, 0⟩
def DRC_ECC.ERR_INFO.PORT : Fld := ⟨0x161, 0x8C, 2, 5, 0⟩
def DRC_ECC.ERR_INFO.CH : Fld := ⟨0x161, 0x8C, 7, 4, 0⟩

/-! ### DRC_DC (chapter file 15_*) -/

def DRC_DC.DC_STAT.RATE (n : Nat) : Fld := ⟨0x170 + n, 0x40, 0, 2, 0⟩
def DRC_DC.DC_STAT.SR (n : Nat) : Fld := ⟨0x170 + n, 0x40, 2, 2, 0⟩
def DRC_DC.DC_STAT.WRITE_DIR (n : Nat) : Fld := ⟨0x170 + n, 0x40, 4, 1, 0⟩
def DRC_DC.DC_STAT.RETRAINING (n : Nat) : Fld := ⟨0x170 + n, 0x40, 5, 1, 0⟩
def DRC_DC.DC_STAT.TEMP (n : Nat) : Fld := ⟨0x170 + n, 0x40, 8, 8, 0⟩
def DRC_DC.DC_STAT.QUEUED (n : Nat) : Fld := ⟨0x170 + n, 0x40, 16, 8, 0⟩
def DRC_DC.DEBT.D (n : Nat) : Fld := ⟨0x170 + n, 0x44, 0, 12, 0⟩
def DRC_DC.DEBT.LIMIT (n : Nat) : Fld := ⟨0x170 + n, 0x44, 12, 4, 8⟩
def DRC_DC.RD_CNT.COUNT (n : Nat) : Fld := ⟨0x170 + n, 0x800, 0, 32, 0⟩
def DRC_DC.WR_CNT.COUNT (n : Nat) : Fld := ⟨0x170 + n, 0x804, 0, 32, 0⟩
def DRC_DC.ROW_COALESCE.COUNT (n : Nat) : Fld := ⟨0x170 + n, 0x808, 0, 32, 0⟩
def DRC_DC.HAZARD_WAIT.COUNT (n : Nat) : Fld := ⟨0x170 + n, 0x80C, 0, 32, 0⟩
def DRC_DC.REF_UNITS.COUNT (n : Nat) : Fld := ⟨0x170 + n, 0x810, 0, 32, 0⟩
def DRC_DC.LINK_CE.COUNT (n : Nat) : Fld := ⟨0x170 + n, 0x814, 0, 32, 0⟩
def DRC_DC.RETRAIN_US.COUNT (n : Nat) : Fld := ⟨0x170 + n, 0x818, 0, 32, 0⟩

/-! ### DMA (chapter file 16_*) -/

def DMA.DMA_CFG.MODE : Fld := ⟨0x180, 0x40, 0, 1, 0⟩
def DMA.ENG_STAT.ACTIVE : Fld := ⟨0x180, 0x44, 0, 6, 0⟩
def DMA.ENG_STAT.SLOTS : Fld := ⟨0x180, 0x44, 8, 9, 0⟩
def DMA.DESC_CNT.COUNT : Fld := ⟨0x180, 0x800, 0, 32, 0⟩
def DMA.STOP_CNT.COUNT : Fld := ⟨0x180, 0x804, 0, 32, 0⟩
def DMA.ERR_CNT.COUNT : Fld := ⟨0x180, 0x808, 0, 32, 0⟩
def DMA.MISMATCH_CNT.COUNT : Fld := ⟨0x180, 0x80C, 0, 32, 0⟩
def DMA.PREEMPT_CNT.COUNT : Fld := ⟨0x180, 0x810, 0, 32, 0⟩
def DMA.START_IGNORED.COUNT : Fld := ⟨0x180, 0x814, 0, 32, 0⟩

/-! ### DMA_CH (chapter file 16_*) -/

def DMA_CH.CH_CFG.PRIO_MAX (i : Nat) : Fld := ⟨0x181, 0x40 + 0x10 * i, 0, 2, 2⟩
def DMA_CH.CH_CFG.BUF_MAX (i : Nat) : Fld := ⟨0x181, 0x40 + 0x10 * i, 2, 9, 0x20⟩
def DMA_CH.CH_CTRL.STOP (i : Nat) : Fld := ⟨0x181, 0x44 + 0x10 * i, 0, 1, 0⟩
def DMA_CH.CH_STAT.STATE (i : Nat) : Fld := ⟨0x181, 0x48 + 0x10 * i, 0, 3, 0⟩
def DMA_CH.CH_STAT.QUEUED (i : Nat) : Fld := ⟨0x181, 0x48 + 0x10 * i, 3, 4, 0⟩
def DMA_CH.CH_STAT.OWNER (i : Nat) : Fld := ⟨0x181, 0x48 + 0x10 * i, 7, 5, 0x1F⟩
def DMA_CH.CH_STAT.LAST_ERR (i : Nat) : Fld := ⟨0x181, 0x48 + 0x10 * i, 16, 8, 0⟩
def DMA_CH.CH_SEQ.SEQ (i : Nat) : Fld := ⟨0x181, 0x4C + 0x10 * i, 0, 32, 0⟩
def DMA_CH.BYTES_KIB.COUNT (i : Nat) : Fld := ⟨0x181, 0x800 + 8 * i, 0, 32, 0⟩
def DMA_CH.CH_DESC_CNT.COUNT (i : Nat) : Fld := ⟨0x181, 0x804 + 8 * i, 0, 32, 0⟩

/-! ### SEC (chapter file 17_*) -/

def SEC.SRAM_WMARK.WMARK : Fld := ⟨0x30, 0x40, 0, 10, 0x200⟩
def SEC.DRAM_WMARK.WMARK : Fld := ⟨0x30, 0x44, 0, 15, 0⟩
def SEC.DRAM_WMARK.LOCK : Fld := ⟨0x30, 0x44, 31, 1, 0⟩
def SEC.ENTRY_BASE.OFFSET : Fld := ⟨0x30, 0x48, 3, 18, 0⟩
def SEC.ENTRY_SIZE.SIZE : Fld := ⟨0x30, 0x4C, 0, 9, 0⟩
def SEC.ENTRY_SIZE.ISL_SECURE : Fld := ⟨0x30, 0x4C, 31, 1, 0⟩
def SEC.SIRQ_VEC.OFFSET : Fld := ⟨0x30, 0x50, 3, 18, 0⟩
def SEC.CLAIM_BLOCK.BLOCK : Fld := ⟨0x30, 0x54, 0, 5, 0⟩
def SEC.CLAIM_BLOCK.CLEAR : Fld := ⟨0x30, 0x54, 30, 1, 0⟩
def SEC.CLAIM_BLOCK.SET : Fld := ⟨0x30, 0x54, 31, 1, 0⟩
def SEC.AUTH.FAIL : Fld := ⟨0x30, 0x58, 0, 1, 0⟩
def SEC.FAULT_ADDR_LO.ADDR : Fld := ⟨0x30, 0x5C, 0, 32, 0⟩
def SEC.FAULT_ADDR_HI.ADDR : Fld := ⟨0x30, 0x60, 0, 32, 0⟩
def SEC.WMARK_FAULT.COUNT : Fld := ⟨0x30, 0x800, 0, 32, 0⟩
def SEC.GATE_FAULT.COUNT : Fld := ⟨0x30, 0x804, 0, 32, 0⟩
def SEC.CLAIM_REJECT.COUNT : Fld := ⟨0x30, 0x808, 0, 32, 0⟩

/-! ### SEC_WDOG (chapter file 17_*) -/

def SEC_WDOG.WD_CFG.TIMEOUT : Fld := ⟨0x31, 0x40, 0, 16, 0x07D0⟩
def SEC_WDOG.WD_CFG.ARMED : Fld := ⟨0x31, 0x40, 16, 1, 0⟩
def SEC_WDOG.WD_CFG.DBG_PAUSE : Fld := ⟨0x31, 0x40, 17, 1, 0⟩
def SEC_WDOG.WD_KICK.KEY : Fld := ⟨0x31, 0x44, 0, 8, 0⟩
def SEC_WDOG.WD_STAT.ELAPSED : Fld := ⟨0x31, 0x48, 0, 16, 0⟩
def SEC_WDOG.WD_STAT.NEXT_KEY : Fld := ⟨0x31, 0x48, 16, 1, 0⟩

/-! ### SEC_FUSE (chapter file 17_*) -/

def SEC_FUSE.KEY_DIGEST.DIGEST (i : Nat) : Fld := ⟨0x32, 0x40 + 4 * i, 0, 32, 0⟩
def SEC_FUSE.ISL_ROLLBACK.COUNT : Fld := ⟨0x32, 0x70, 0, 6, 0⟩
def SEC_FUSE.ISL_ROLLBACK.ADVANCE : Fld := ⟨0x32, 0x70, 31, 1, 0⟩
def SEC_FUSE.CC_ROLLBACK.COUNT : Fld := ⟨0x32, 0x74, 0, 6, 0⟩
def SEC_FUSE.CC_ROLLBACK.ADVANCE : Fld := ⟨0x32, 0x74, 31, 1, 0⟩

/-! ### CTL (chapter file 17_*) -/

def CTL.CC_CTRL.RELEASE : Fld := ⟨0x40, 0x40, 0, 4, 1⟩
def CTL.CC_CTRL.RESET : Fld := ⟨0x40, 0x40, 4, 4, 0⟩
def CTL.CC_VEC.ADDR (i : Nat) : Fld := ⟨0x40, 0x44 + 4 * i, 0, 28, 0⟩
def CTL.CC_STAT.SECURE : Fld := ⟨0x40, 0x54, 0, 4, 1⟩
def CTL.CC_STAT.RUNNING : Fld := ⟨0x40, 0x54, 4, 4, 1⟩
def CTL.CC_STAT.HALTED : Fld := ⟨0x40, 0x54, 8, 4, 0⟩
def CTL.CC_CLAIM.CORES : Fld := ⟨0x40, 0x58, 0, 4, 0⟩
def CTL.SRAM_CE.COUNT : Fld := ⟨0x40, 0x800, 0, 32, 0⟩
def CTL.SRAM_UE.COUNT : Fld := ⟨0x40, 0x804, 0, 32, 0⟩

/-! ### TCH_CFG (chapter file 18_*) -/

def TCH_CFG.TF_CFG.MODE (n : Nat) : Fld := ⟨0x1A8 + 2 * n, 0x40, 0, 1, 0⟩
def TCH_CFG.TF_CFG.SELF_EN (n : Nat) : Fld := ⟨0x1A8 + 2 * n, 0x40, 1, 1, 1⟩
def TCH_CFG.TF_CFG.GUARD_EN (n : Nat) : Fld := ⟨0x1A8 + 2 * n, 0x40, 2, 1, 1⟩
def TCH_CFG.TF_CFG.COMBINE (n : Nat) : Fld := ⟨0x1A8 + 2 * n, 0x40, 3, 1, 0⟩
def TCH_CFG.TF_CFG.TEST_AT_EN (n : Nat) : Fld := ⟨0x1A8 + 2 * n, 0x40, 4, 1, 1⟩
def TCH_CFG.TF_CFG.RATE_HZ (n : Nat) : Fld := ⟨0x1A8 + 2 * n, 0x40, 8, 8, 0x78⟩
def TCH_CFG.TF_CFG.SWING (n : Nat) : Fld := ⟨0x1A8 + 2 * n, 0x40, 16, 5, 0x0C⟩
def TCH_CFG.TIMING.STEP_US (n : Nat) : Fld := ⟨0x1A8 + 2 * n, 0x44, 0, 8, 0x3C⟩
def TCH_CFG.TIMING.SELF_US (n : Nat) : Fld := ⟨0x1A8 + 2 * n, 0x44, 8, 12, 0x190⟩
def TCH_CFG.WINDOW.LINE (n : Nat) : Fld := ⟨0x1A8 + 2 * n, 0x48, 0, 16, 0⟩
def TCH_CFG.WINDOW.LEN (n : Nat) : Fld := ⟨0x1A8 + 2 * n, 0x48, 16, 8, 0x20⟩
def TCH_CFG.WINDOW.BASE (n : Nat) : Fld := ⟨0x1A8 + 2 * n, 0x48, 24, 4, 0⟩
def TCH_CFG.THRESH.TOUCH_TH (n : Nat) : Fld := ⟨0x1A8 + 2 * n, 0x4C, 0, 12, 0x0C8⟩
def TCH_CFG.THRESH.RELEASE_TH (n : Nat) : Fld := ⟨0x1A8 + 2 * n, 0x4C, 12, 12, 0x078⟩
def TCH_CFG.THRESH2.SELF_TH (n : Nat) : Fld := ⟨0x1A8 + 2 * n, 0x50, 0, 12, 0x064⟩
def TCH_CFG.THRESH2.NEG_TH (n : Nat) : Fld := ⟨0x1A8 + 2 * n, 0x50, 12, 12, 0x0C8⟩
def TCH_CFG.BASE_CFG.BASE_SUSPECT (n : Nat) : Fld := ⟨0x1A8 + 2 * n, 0x54, 0, 12, 0x190⟩
def TCH_CFG.BASE_CFG.HOLD_S (n : Nat) : Fld := ⟨0x1A8 + 2 * n, 0x54, 16, 16, 0x0258⟩
def TCH_CFG.TRACK.MATCH_DIST (n : Nat) : Fld := ⟨0x1A8 + 2 * n, 0x58, 0, 16, 0x1000⟩
def TCH_CFG.TRACK.MOVE_MIN (n : Nat) : Fld := ⟨0x1A8 + 2 * n, 0x58, 16, 8, 0x20⟩
def TCH_CFG.WAKE.GESTURE (n : Nat) : Fld := ⟨0x1A8 + 2 * n, 0x5C, 0, 2, 0⟩
def TCH_CFG.WAKE.WAKE_SRC (n : Nat) : Fld := ⟨0x1A8 + 2 * n, 0x5C, 2, 1, 0⟩
def TCH_CFG.ZONE_X.LO (n : Nat) (i : Nat) : Fld := ⟨0x1A8 + 2 * n, 0x400 + 0x10 * i, 0, 16, 0⟩
def TCH_CFG.ZONE_X.HI (n : Nat) (i : Nat) : Fld := ⟨0x1A8 + 2 * n, 0x400 + 0x10 * i, 16, 16, 0⟩
def TCH_CFG.ZONE_Y.LO (n : Nat) (i : Nat) : Fld := ⟨0x1A8 + 2 * n, 0x404 + 0x10 * i, 0, 16, 0⟩
def TCH_CFG.ZONE_Y.HI (n : Nat) (i : Nat) : Fld := ⟨0x1A8 + 2 * n, 0x404 + 0x10 * i, 16, 16, 0⟩
def TCH_CFG.ZONE_ACT.EN (n : Nat) (i : Nat) : Fld := ⟨0x1A8 + 2 * n, 0x408 + 0x10 * i, 0, 1, 0⟩
def TCH_CFG.ZONE_ACT.HAPTIC (n : Nat) (i : Nat) : Fld := ⟨0x1A8 + 2 * n, 0x408 + 0x10 * i, 1, 1, 0⟩
def TCH_CFG.ZONE_ACT.CHIME (n : Nat) (i : Nat) : Fld := ⟨0x1A8 + 2 * n, 0x408 + 0x10 * i, 2, 1, 0⟩
def TCH_CFG.ZONE_ACT.EFFECT (n : Nat) (i : Nat) : Fld := ⟨0x1A8 + 2 * n, 0x408 + 0x10 * i, 4, 8, 0⟩
def TCH_CFG.ZONE_ACT.PRIO (n : Nat) (i : Nat) : Fld := ⟨0x1A8 + 2 * n, 0x408 + 0x10 * i, 12, 2, 0⟩
def TCH_CFG.ZONE_ACT.BUS (n : Nat) (i : Nat) : Fld := ⟨0x1A8 + 2 * n, 0x408 + 0x10 * i, 14, 2, 0⟩
def TCH_CFG.ZONE_ACT.CHIME_IDX (n : Nat) (i : Nat) : Fld := ⟨0x1A8 + 2 * n, 0x408 + 0x10 * i, 16, 4, 0⟩

/-! ### TCH_ST (chapter file 18_*) -/

def TCH_ST.TF_STAT.STATE (n : Nat) : Fld := ⟨0x1A9 + 2 * n, 0x40, 0, 3, 0⟩
def TCH_ST.TF_STAT.CONTACTS (n : Nat) : Fld := ⟨0x1A9 + 2 * n, 0x40, 3, 4, 0⟩
def TCH_ST.TF_STAT.WATER (n : Nat) : Fld := ⟨0x1A9 + 2 * n, 0x40, 7, 1, 0⟩
def TCH_ST.TF_STAT.REF_VALID (n : Nat) : Fld := ⟨0x1A9 + 2 * n, 0x40, 8, 1, 0⟩
def TCH_ST.TF_STAT.UNCHECKED (n : Nat) : Fld := ⟨0x1A9 + 2 * n, 0x40, 9, 1, 0⟩
def TCH_ST.TF_STAT.HELD_START (n : Nat) : Fld := ⟨0x1A9 + 2 * n, 0x40, 10, 1, 0⟩
def TCH_ST.TF_STAT.PARTNER (n : Nat) : Fld := ⟨0x1A9 + 2 * n, 0x40, 11, 1, 0⟩
def TCH_ST.TEST_RESULT.FOUND (n : Nat) : Fld := ⟨0x1A9 + 2 * n, 0x44, 0, 6, 0⟩
def TCH_ST.TEST_RESULT.LINES (n : Nat) : Fld := ⟨0x1A9 + 2 * n, 0x44, 8, 7, 0⟩
def TCH_ST.FAULT_MAP.LINES (n : Nat) (i : Nat) : Fld := ⟨0x1A9 + 2 * n, 0x48 + 4 * i, 0, 32, 0⟩
def TCH_ST.SUBSCR.RING (n : Nat) : Fld := ⟨0x1A9 + 2 * n, 0x54, 0, 6, 0⟩
def TCH_ST.SUBSCR.NONE (n : Nat) : Fld := ⟨0x1A9 + 2 * n, 0x54, 6, 1, 1⟩
def TCH_ST.TF_CMD.RECAL (n : Nat) : Fld := ⟨0x1A9 + 2 * n, 0x58, 0, 1, 0⟩
def TCH_ST.TF_CMD.SELF_TEST (n : Nat) : Fld := ⟨0x1A9 + 2 * n, 0x58, 1, 1, 0⟩
def TCH_ST.SCAN_FRAME.COUNT (n : Nat) : Fld := ⟨0x1A9 + 2 * n, 0x5C, 0, 32, 0⟩
def TCH_ST.FRAMES.COUNT (n : Nat) : Fld := ⟨0x1A9 + 2 * n, 0x800, 0, 32, 0⟩
def TCH_ST.DOWN_CNT.COUNT (n : Nat) : Fld := ⟨0x1A9 + 2 * n, 0x804, 0, 32, 0⟩
def TCH_ST.REBASE_CNT.COUNT (n : Nat) : Fld := ⟨0x1A9 + 2 * n, 0x808, 0, 32, 0⟩
def TCH_ST.STUCK_CNT.COUNT (n : Nat) : Fld := ⟨0x1A9 + 2 * n, 0x80C, 0, 32, 0⟩
def TCH_ST.WATER_FRAMES.COUNT (n : Nat) : Fld := ⟨0x1A9 + 2 * n, 0x810, 0, 32, 0⟩
def TCH_ST.OVER_CNT.COUNT (n : Nat) : Fld := ⟨0x1A9 + 2 * n, 0x814, 0, 32, 0⟩
def TCH_ST.ZONE_TRIG.COUNT (n : Nat) : Fld := ⟨0x1A9 + 2 * n, 0x818, 0, 32, 0⟩
def TCH_ST.SUSPECT_CNT.COUNT (n : Nat) : Fld := ⟨0x1A9 + 2 * n, 0x81C, 0, 32, 0⟩
def TCH_ST.WIN_STALL.COUNT (n : Nat) : Fld := ⟨0x1A9 + 2 * n, 0x820, 0, 32, 0⟩

/-! ### HAP (chapter file 19_*) -/

def HAP.BOOST.VBOOST : Fld := ⟨0x1A0, 0x40, 0, 7, 0x28⟩
def HAP.BOOST.EN : Fld := ⟨0x1A0, 0x40, 7, 1, 0⟩
def HAP.WINDOW.WIN_MS : Fld := ⟨0x1A0, 0x44, 0, 14, 0x03E8⟩
def HAP.THERM.TH_LIMIT : Fld := ⟨0x1A0, 0x48, 0, 8, 0x1E⟩
def HAP.THERM.TAU_S : Fld := ⟨0x1A0, 0x48, 8, 12, 0x03C⟩
def HAP.THERM.HEAT_K : Fld := ⟨0x1A0, 0x48, 20, 12, 0x040⟩
def HAP.ISL_PLAY.EFFECT : Fld := ⟨0x1A0, 0x4C, 0, 8, 0⟩
def HAP.ISL_PLAY.MASK : Fld := ⟨0x1A0, 0x4C, 8, 8, 0⟩
def HAP.ISL_PLAY.GO : Fld := ⟨0x1A0, 0x4C, 31, 1, 0⟩
def HAP.HAP_STAT.PLAYING : Fld := ⟨0x1A0, 0x50, 0, 8, 0⟩
def HAP.HAP_STAT.FAULTED : Fld := ⟨0x1A0, 0x50, 8, 8, 0⟩
def HAP.HAP_STAT.HOLD : Fld := ⟨0x1A0, 0x50, 16, 1, 0⟩
def HAP.HAP_STAT.RAIL : Fld := ⟨0x1A0, 0x50, 17, 7, 0⟩
def HAP.EFF_ERR.COUNT : Fld := ⟨0x1A0, 0x800, 0, 32, 0⟩
def HAP.ISL_PLAYS.COUNT : Fld := ⟨0x1A0, 0x804, 0, 32, 0⟩

/-! ### HAP_CH (chapter file 19_*) -/

def HAP_CH.CH_CFG.EN (i : Nat) : Fld := ⟨0x1A1, 0x40 + 0x10 * i, 0, 1, 0⟩
def HAP_CH.CH_CFG.MODE (i : Nat) : Fld := ⟨0x1A1, 0x40 + 0x10 * i, 1, 1, 0⟩
def HAP_CH.CH_CFG.INVERT (i : Nat) : Fld := ⟨0x1A1, 0x40 + 0x10 * i, 2, 1, 0⟩
def HAP_CH.CH_CFG.POL_REF (i : Nat) : Fld := ⟨0x1A1, 0x40 + 0x10 * i, 3, 1, 0⟩
def HAP_CH.CH_CFG.TEST_AT_EN (i : Nat) : Fld := ⟨0x1A1, 0x40 + 0x10 * i, 4, 1, 1⟩
def HAP_CH.CH_CFG.VLIM (i : Nat) : Fld := ⟨0x1A1, 0x40 + 0x10 * i, 5, 7, 5⟩
def HAP_CH.CH_LIM.ON_MAX (i : Nat) : Fld := ⟨0x1A1, 0x44 + 0x10 * i, 0, 16, 0x01F4⟩
def HAP_CH.CH_LIM.VT_MAX (i : Nat) : Fld := ⟨0x1A1, 0x44 + 0x10 * i, 16, 16, 0x0BB8⟩
def HAP_CH.CH_STAT.STATE (i : Nat) : Fld := ⟨0x1A1, 0x48 + 0x10 * i, 0, 3, 0⟩
def HAP_CH.CH_STAT.EFFECT (i : Nat) : Fld := ⟨0x1A1, 0x48 + 0x10 * i, 3, 8, 0⟩
def HAP_CH.CH_STAT.PRIO (i : Nat) : Fld := ⟨0x1A1, 0x48 + 0x10 * i, 11, 3, 0⟩
def HAP_CH.CH_STAT.PENDING (i : Nat) : Fld := ⟨0x1A1, 0x48 + 0x10 * i, 14, 1, 0⟩
def HAP_CH.CH_STAT.FAULT (i : Nat) : Fld := ⟨0x1A1, 0x48 + 0x10 * i, 15, 5, 0⟩
def HAP_CH.CH_CMD.TEST (i : Nat) : Fld := ⟨0x1A1, 0x4C + 0x10 * i, 0, 1, 0⟩
def HAP_CH.PLAYED.COUNT (i : Nat) : Fld := ⟨0x1A1, 0x800 + 0x10 * i, 0, 32, 0⟩
def HAP_CH.HAP_DROPPED.COUNT (i : Nat) : Fld := ⟨0x1A1, 0x804 + 0x10 * i, 0, 32, 0⟩
def HAP_CH.CUT.COUNT (i : Nat) : Fld := ⟨0x1A1, 0x808 + 0x10 * i, 0, 32, 0⟩
def HAP_CH.PRIO_DROP.COUNT (i : Nat) : Fld := ⟨0x1A1, 0x80C + 0x10 * i, 0, 32, 0⟩

/-! ### HAP_FOCUS (chapter file 19_*) -/

def HAP_FOCUS.FOCUS.DELAY_A (n : Nat) (i : Nat) : Fld := ⟨0x1A4 + n, 0x400 + 4 * i, 0, 8, 0⟩
def HAP_FOCUS.FOCUS.GAIN_A (n : Nat) (i : Nat) : Fld := ⟨0x1A4 + n, 0x400 + 4 * i, 8, 8, 0⟩
def HAP_FOCUS.FOCUS.DELAY_B (n : Nat) (i : Nat) : Fld := ⟨0x1A4 + n, 0x400 + 4 * i, 16, 8, 0⟩
def HAP_FOCUS.FOCUS.GAIN_B (n : Nat) (i : Nat) : Fld := ⟨0x1A4 + n, 0x400 + 4 * i, 24, 8, 0⟩

/-! ### AUD (chapter file 20_*) -/

def AUD.AUD_CFG.DUCK_GAIN : Fld := ⟨0x190, 0x40, 0, 8, 0x20⟩
def AUD.AUD_CFG.DUCK_HOLD : Fld := ⟨0x190, 0x40, 8, 12, 0x1F4⟩
def AUD.AUD_CFG.ZC_TIMEOUT : Fld := ⟨0x190, 0x40, 20, 8, 0x14⟩
def AUD.SIL_CFG.SIL_TH : Fld := ⟨0x190, 0x44, 0, 8, 8⟩
def AUD.SIL_CFG.SIL_MS : Fld := ⟨0x190, 0x44, 8, 12, 0x064⟩
def AUD.SIL_CFG.AMP_OFF : Fld := ⟨0x190, 0x44, 20, 12, 0x0C8⟩
def AUD.AUD_STAT.ACTIVE : Fld := ⟨0x190, 0x48, 0, 4, 0⟩
def AUD.AUD_STAT.DUCKED : Fld := ⟨0x190, 0x48, 4, 12, 0⟩
def AUD.CLIP.COUNT : Fld := ⟨0x190, 0x800, 0, 32, 0⟩
def AUD.LIMIT_SAMPLES.COUNT : Fld := ⟨0x190, 0x804, 0, 32, 0⟩
def AUD.ZC_TIMEOUTS.COUNT : Fld := ⟨0x190, 0x808, 0, 32, 0⟩
def AUD.EQ_FAULT.COUNT : Fld := ⟨0x190, 0x80C, 0, 32, 0⟩
def AUD.CHIME_DROP.COUNT : Fld := ⟨0x190, 0x810, 0, 32, 0⟩
def AUD.STREAM_UR.COUNT : Fld := ⟨0x190, 0x814, 0, 32, 0⟩
def AUD.CAP_GAP.COUNT : Fld := ⟨0x190, 0x818, 0, 32, 0⟩
def AUD.AMP_FAULT_CNT.COUNT : Fld := ⟨0x190, 0x81C, 0, 32, 0⟩

/-! ### AUD_XP (chapter file 20_*) -/

def AUD_XP.GAIN.GAIN (n : Nat) (i : Nat) : Fld := ⟨0x191 + n, 0x40 + 4 * i, 0, 16, (xpReset n i)⟩

/-! ### AUD_BUS (chapter file 20_*) -/

def AUD_BUS.BUS_CFG.EQ_EN (i : Nat) : Fld := ⟨0x195, 0x40 + 0x10 * i, 0, 8, 0⟩
def AUD_BUS.BUS_CFG.DYN_EN (i : Nat) : Fld := ⟨0x195, 0x40 + 0x10 * i, 8, 1, 0⟩
def AUD_BUS.BUS_CFG.LIM_REL (i : Nat) : Fld := ⟨0x195, 0x40 + 0x10 * i, 16, 8, 0x64⟩
def AUD_BUS.BUS_DYN.THRESH (i : Nat) : Fld := ⟨0x195, 0x44 + 0x10 * i, 0, 8, 0x18⟩
def AUD_BUS.BUS_DYN.RATIO (i : Nat) : Fld := ⟨0x195, 0x44 + 0x10 * i, 8, 3, 1⟩
def AUD_BUS.BUS_DYN.ATTACK (i : Nat) : Fld := ⟨0x195, 0x44 + 0x10 * i, 12, 8, 0x32⟩
def AUD_BUS.BUS_DYN.RELEASE (i : Nat) : Fld := ⟨0x195, 0x44 + 0x10 * i, 20, 12, 0x0C8⟩
def AUD_BUS.BUS_STAT.GAIN (i : Nat) : Fld := ⟨0x195, 0x48 + 0x10 * i, 0, 9, 0x100⟩
def AUD_BUS.BUS_STAT.N (i : Nat) : Fld := ⟨0x195, 0x48 + 0x10 * i, 9, 5, 0⟩
def AUD_BUS.BUS_STAT.ACTIVE (i : Nat) : Fld := ⟨0x195, 0x48 + 0x10 * i, 14, 1, 0⟩
def AUD_BUS.BUS_STAT.DUCKED (i : Nat) : Fld := ⟨0x195, 0x48 + 0x10 * i, 15, 1, 0⟩
def AUD_BUS.SINK.ALERT (i : Nat) : Fld := ⟨0x195, 0x200 + 4 * i, 0, 2, 0⟩
def AUD_BUS.SINK.AEN (i : Nat) : Fld := ⟨0x195, 0x200 + 4 * i, 2, 1, 0⟩
def AUD_BUS.SINK.MEDIA (i : Nat) : Fld := ⟨0x195, 0x200 + 4 * i, 4, 4, 4⟩
def AUD_BUS.SINK.MEN (i : Nat) : Fld := ⟨0x195, 0x200 + 4 * i, 8, 1, 0⟩

/-! ### AUD_EQ (chapter file 20_*) -/

def AUD_EQ.COEF.COEF (n : Nat) (i : Nat) : Fld := ⟨0x196 + n, 0x40 + 4 * i, 0, 32, (eqReset i)⟩

/-! ### AUD_TONE (chapter file 20_*) -/

def AUD_TONE.SEGMENT.DUR_MS (i : Nat) : Fld := ⟨0x19A, 0x40 + 4 * i, 0, 12, 0⟩
def AUD_TONE.SEGMENT.FREQ (i : Nat) : Fld := ⟨0x19A, 0x40 + 4 * i, 12, 12, 0⟩
def AUD_TONE.SEGMENT.LEVEL (i : Nat) : Fld := ⟨0x19A, 0x40 + 4 * i, 24, 8, 0⟩
def AUD_TONE.TG_STAT.CHIME (i : Nat) : Fld := ⟨0x19A, 0x140 + 4 * i, 0, 4, 0⟩
def AUD_TONE.TG_STAT.RANK (i : Nat) : Fld := ⟨0x19A, 0x140 + 4 * i, 4, 2, 0⟩
def AUD_TONE.TG_STAT.SEG (i : Nat) : Fld := ⟨0x19A, 0x140 + 4 * i, 6, 2, 0⟩
def AUD_TONE.ISL_CHIME.CHIME : Fld := ⟨0x19A, 0x150, 0, 4, 0⟩
def AUD_TONE.ISL_CHIME.TG : Fld := ⟨0x19A, 0x150, 4, 2, 0⟩
def AUD_TONE.ISL_CHIME.GO : Fld := ⟨0x19A, 0x150, 31, 1, 0⟩

/-! ### AUD_PORTS (chapter file 20_*) -/

def AUD_PORTS.TDM_CFG.EN (i : Nat) : Fld := ⟨0x19B, 0x40 + 4 * i, 0, 1, 0⟩
def AUD_PORTS.TDM_CFG.MASTER (i : Nat) : Fld := ⟨0x19B, 0x40 + 4 * i, 1, 1, 1⟩
def AUD_PORTS.TDM_CFG.SLOTS_M1 (i : Nat) : Fld := ⟨0x19B, 0x40 + 4 * i, 2, 3, 1⟩
def AUD_PORTS.TDM_CFG.W32 (i : Nat) : Fld := ⟨0x19B, 0x40 + 4 * i, 5, 1, 0⟩
def AUD_PORTS.TDM_CFG.FMT (i : Nat) : Fld := ⟨0x19B, 0x40 + 4 * i, 6, 2, 0⟩
def AUD_PORTS.PDM_CFG.EN : Fld := ⟨0x19B, 0x48, 0, 4, 0⟩
def AUD_PORTS.TDM_SLIP.COUNT (i : Nat) : Fld := ⟨0x19B, 0x800 + 4 * i, 0, 32, 0⟩

/-! ### AUD_STREAM (chapter file 20_*) -/

def AUD_STREAM.ST_STAT.PLAYING (i : Nat) : Fld := ⟨0x19C, 0x40 + 4 * i, 0, 1, 0⟩
def AUD_STREAM.ST_STAT.QUEUED (i : Nat) : Fld := ⟨0x19C, 0x40 + 4 * i, 1, 3, 0⟩
def AUD_STREAM.ST_STAT.SILENT (i : Nat) : Fld := ⟨0x19C, 0x40 + 4 * i, 4, 1, 1⟩
def AUD_STREAM.ST_STAT.OWNER (i : Nat) : Fld := ⟨0x19C, 0x40 + 4 * i, 5, 5, 0x10⟩
def AUD_STREAM.CAP_STAT.PLAYING (i : Nat) : Fld := ⟨0x19C, 0x80 + 4 * i, 0, 1, 0⟩
def AUD_STREAM.CAP_STAT.QUEUED (i : Nat) : Fld := ⟨0x19C, 0x80 + 4 * i, 1, 3, 0⟩
def AUD_STREAM.CAP_STAT.OWNER (i : Nat) : Fld := ⟨0x19C, 0x80 + 4 * i, 5, 5, 0x10⟩

/-! ### AUD_AMP (chapter file 20_*) -/

def AUD_AMP.AMP_CFG.EN (i : Nat) : Fld := ⟨0x19E, 0x40 + 0x10 * i, 0, 1, 0⟩
def AUD_AMP.AMP_CFG.INVERT (i : Nat) : Fld := ⟨0x19E, 0x40 + 0x10 * i, 1, 1, 0⟩
def AUD_AMP.AMP_CFG.POL_REF (i : Nat) : Fld := ⟨0x19E, 0x40 + 0x10 * i, 2, 1, 0⟩
def AUD_AMP.AMP_CFG.HOLD_ON (i : Nat) : Fld := ⟨0x19E, 0x40 + 0x10 * i, 3, 1, 0⟩
def AUD_AMP.AMP_CFG.TEST_AT_EN (i : Nat) : Fld := ⟨0x19E, 0x40 + 0x10 * i, 4, 1, 1⟩
def AUD_AMP.AMP_CFG.CEIL (i : Nat) : Fld := ⟨0x19E, 0x40 + 0x10 * i, 8, 8, 0xFF⟩
def AUD_AMP.AMP_STAT.STATE (i : Nat) : Fld := ⟨0x19E, 0x44 + 0x10 * i, 0, 2, 0⟩
def AUD_AMP.AMP_STAT.MUTED (i : Nat) : Fld := ⟨0x19E, 0x44 + 0x10 * i, 2, 1, 1⟩
def AUD_AMP.AMP_STAT.CEIL_CUT (i : Nat) : Fld := ⟨0x19E, 0x44 + 0x10 * i, 3, 1, 0⟩
def AUD_AMP.AMP_STAT.FAULT (i : Nat) : Fld := ⟨0x19E, 0x44 + 0x10 * i, 4, 5, 0⟩
def AUD_AMP.AMP_CMD.TEST (i : Nat) : Fld := ⟨0x19E, 0x48 + 0x10 * i, 0, 1, 0⟩

/-! ### CSK (chapter file 21_*) -/

def CSK.CSK_CFG.MEDIA : Fld := ⟨0x1B0, 0x40, 0, 1, 0⟩
def CSK.CSK_CFG.VERIFY : Fld := ⟨0x1B0, 0x40, 1, 1, 1⟩
def CSK.CSK_CFG.SLOTS_LOG2 : Fld := ⟨0x1B0, 0x40, 8, 5, 0⟩
def CSK.CSK_CTRL.FREEZE : Fld := ⟨0x1B0, 0x44, 0, 1, 0⟩
def CSK.CSK_CTRL.CLEAR : Fld := ⟨0x1B0, 0x44, 1, 1, 0⟩
def CSK.CSK_STAT.STATE : Fld := ⟨0x1B0, 0x48, 0, 3, 0⟩
def CSK.CSK_STAT.PFW : Fld := ⟨0x1B0, 0x48, 3, 1, 0⟩
def CSK.CSK_STAT.STAGED : Fld := ⟨0x1B0, 0x48, 4, 11, 0⟩
def CSK.NEXT_SEQ.VALUE : Fld := ⟨0x1B0, 0x4C, 0, 32, 0⟩
def CSK.WPTR.VALUE : Fld := ⟨0x1B0, 0x50, 0, 24, 0⟩
def CSK.OLDEST.VALUE : Fld := ⟨0x1B0, 0x54, 0, 24, 0⟩
def CSK.FREEZE_MAX.MS : Fld := ⟨0x1B0, 0x58, 0, 16, 0x07D0⟩
def CSK.LOST.COUNT : Fld := ⟨0x1B0, 0x800, 0, 32, 0⟩
def CSK.COMMITTED.COUNT : Fld := ⟨0x1B0, 0x804, 0, 32, 0⟩
def CSK.MEDIA_ERR.COUNT : Fld := ⟨0x1B0, 0x808, 0, 32, 0⟩
def CSK.FREEZE_TIMEOUT.COUNT : Fld := ⟨0x1B0, 0x80C, 0, 32, 0⟩

/-! ### CSK_READ (chapter file 21_*) -/

def CSK_READ.RD_CTRL.INDEX : Fld := ⟨0x1B1, 0x40, 0, 24, 0⟩
def CSK_READ.RD_CTRL.STAGE : Fld := ⟨0x1B1, 0x40, 24, 1, 0⟩
def CSK_READ.RD_CTRL.GO : Fld := ⟨0x1B1, 0x40, 31, 1, 0⟩
def CSK_READ.RD_STAT.BUSY : Fld := ⟨0x1B1, 0x44, 0, 1, 0⟩
def CSK_READ.RD_STAT.CRC_OK : Fld := ⟨0x1B1, 0x44, 1, 1, 0⟩
def CSK_READ.RD_DATA.DATA (i : Nat) : Fld := ⟨0x1B1, 0x80 + 4 * i, 0, 32, 0⟩

/-! ### CSK_LOG (chapter file 21_*) -/

def CSK_LOG.LOG_EVENT.EVENT : Fld := ⟨0x1B2, 0x40, 0, 16, 0x8000⟩
def CSK_LOG.LOG_EVENT.UNIT : Fld := ⟨0x1B2, 0x40, 16, 8, 0xFF⟩
def CSK_LOG.LOG_EVENT.GO : Fld := ⟨0x1B2, 0x40, 31, 1, 0⟩
def CSK_LOG.LOG_PARAM.DATA (i : Nat) : Fld := ⟨0x1B2, 0x44 + 4 * i, 0, 32, 0⟩

/-! ### CSK_RTC (chapter file 21_*) -/

def CSK_RTC.RTC_FRAC.VALUE : Fld := ⟨0x1B3, 0x40, 0, 10, 0⟩
def CSK_RTC.RTC_SEC_LO.VALUE : Fld := ⟨0x1B3, 0x44, 0, 32, 0⟩
def CSK_RTC.RTC_SEC_HI.VALUE : Fld := ⟨0x1B3, 0x48, 0, 6, 0⟩
def CSK_RTC.RTC_CTRL.SET : Fld := ⟨0x1B3, 0x4C, 0, 1, 0⟩
def CSK_RTC.RTC_CTRL.VALID : Fld := ⟨0x1B3, 0x4C, 1, 1, 0⟩
def CSK_RTC.RTC_ALARM.SEC : Fld := ⟨0x1B3, 0x50, 0, 32, 0⟩

/-! ### LNK (chapter file 22_*) -/

def LNK.TOPO.REACH0 : Fld := ⟨0x150, 0x40, 0, 4, 0⟩
def LNK.TOPO.REACH1 : Fld := ⟨0x150, 0x40, 4, 4, 0⟩
def LNK.TOPO.RING : Fld := ⟨0x150, 0x40, 8, 1, 0⟩
def LNK.ACCEPT.REG_FROM : Fld := ⟨0x150, 0x44, 0, 4, 0⟩
def LNK.ACCEPT.DRAM_FROM : Fld := ⟨0x150, 0x44, 4, 4, 0⟩
def LNK.DACC_BASE.UNITS : Fld := ⟨0x150, 0x48, 0, 15, 0⟩
def LNK.DACC_SIZE.UNITS : Fld := ⟨0x150, 0x4C, 0, 15, 0⟩
def LNK.REMOTE_REFUSED.COUNT : Fld := ⟨0x150, 0x800, 0, 32, 0⟩
def LNK.REMOTE_TIMEOUT.COUNT : Fld := ⟨0x150, 0x804, 0, 32, 0⟩
def LNK.EVT_FWD_LOST.COUNT : Fld := ⟨0x150, 0x808, 0, 32, 0⟩
def LNK.RX_BAD.COUNT : Fld := ⟨0x150, 0x80C, 0, 32, 0⟩

/-! ### LNK_PORT (chapter file 22_*) -/

def LNK_PORT.PORT_CFG.EN (n : Nat) : Fld := ⟨0x151 + n, 0x40, 0, 1, 0⟩
def LNK_PORT.PORT_CFG.MAX_RATE (n : Nat) : Fld := ⟨0x151 + n, 0x40, 1, 1, 1⟩
def LNK_PORT.PORT_STAT.STATE (n : Nat) : Fld := ⟨0x151 + n, 0x44, 0, 2, 0⟩
def LNK_PORT.PORT_STAT.RATE (n : Nat) : Fld := ⟨0x151 + n, 0x44, 2, 1, 0⟩
def LNK_PORT.PORT_STAT.X2 (n : Nat) : Fld := ⟨0x151 + n, 0x44, 3, 1, 0⟩
def LNK_PORT.PORT_STAT.NEIGHBOUR (n : Nat) : Fld := ⟨0x151 + n, 0x44, 4, 2, 0⟩
def LNK_PORT.PORT_STAT.CAUSE (n : Nat) : Fld := ⟨0x151 + n, 0x44, 6, 2, 0⟩
def LNK_PORT.PORT_STAT.HOP_LAT (n : Nat) : Fld := ⟨0x151 + n, 0x44, 8, 8, 0⟩
def LNK_PORT.CRC_ERR.COUNT (n : Nat) : Fld := ⟨0x151 + n, 0x800, 0, 32, 0⟩
def LNK_PORT.REPLAY.COUNT (n : Nat) : Fld := ⟨0x151 + n, 0x804, 0, 32, 0⟩
def LNK_PORT.RETRAIN.COUNT (n : Nat) : Fld := ⟨0x151 + n, 0x808, 0, 32, 0⟩
def LNK_PORT.LANE_FAIL.COUNT (n : Nat) : Fld := ⟨0x151 + n, 0x80C, 0, 32, 0⟩

/-! ### LNK_WIN (chapter file 22_*) -/

def LNK_WIN.WIN_CFG.EN (i : Nat) : Fld := ⟨0x153, 0x40 + 4 * i, 0, 1, 0⟩
def LNK_WIN.WIN_CFG.KIND (i : Nat) : Fld := ⟨0x153, 0x40 + 4 * i, 1, 1, 0⟩
def LNK_WIN.WIN_CFG.BASE (i : Nat) : Fld := ⟨0x153, 0x40 + 4 * i, 8, 8, 0⟩

/-! ### LNK_FWD (chapter file 22_*) -/

def LNK_FWD.TCH_FWD.TOUCH (i : Nat) : Fld := ⟨0x154, 0x40 + 4 * i, 0, 1, 0⟩
def LNK_FWD.TCH_FWD.HAP (i : Nat) : Fld := ⟨0x154, 0x40 + 4 * i, 1, 1, 0⟩
def LNK_FWD.TCH_FWD.DEVS (i : Nat) : Fld := ⟨0x154, 0x40 + 4 * i, 4, 4, 0⟩
def LNK_FWD.RX_RING.RING (i : Nat) : Fld := ⟨0x154, 0x50 + 4 * i, 0, 6, 0⟩
def LNK_FWD.RX_RING.EN (i : Nat) : Fld := ⟨0x154, 0x50 + 4 * i, 6, 1, 0⟩
def LNK_FWD.FOCUS_MAP.PAGES : Fld := ⟨0x154, 0x60, 0, 32, 0⟩
def LNK_FWD.FOCUS_EN.EN : Fld := ⟨0x154, 0x64, 0, 16, 0⟩

/-! ### PWR_ENTRY (chapter file 23_*) -/

def PWR_ENTRY.VIN_MON.VIN : Fld := ⟨0x20, 0x40, 0, 16, 0⟩
def PWR_ENTRY.VIN_MON.VSYS : Fld := ⟨0x20, 0x40, 16, 16, 0⟩
def PWR_ENTRY.PFW_CFG.PFW_TH : Fld := ⟨0x20, 0x44, 0, 10, 0x056⟩
def PWR_ENTRY.PFW_CFG.PFW_DELAY : Fld := ⟨0x20, 0x44, 10, 10, 0⟩
def PWR_ENTRY.PFW_CFG.EXT_EN : Fld := ⟨0x20, 0x44, 20, 1, 1⟩
def PWR_ENTRY.PFW_CFG.LOCK : Fld := ⟨0x20, 0x44, 31, 1, 0⟩
def PWR_ENTRY.ENTRY_STAT.REVG_ON : Fld := ⟨0x20, 0x48, 0, 1, 0⟩
def PWR_ENTRY.ENTRY_STAT.OVG_FITTED : Fld := ⟨0x20, 0x48, 1, 1, 0⟩
def PWR_ENTRY.ENTRY_STAT.CLAMPING : Fld := ⟨0x20, 0x48, 2, 1, 0⟩
def PWR_ENTRY.ENTRY_STAT.PFW : Fld := ⟨0x20, 0x48, 3, 1, 0⟩
def PWR_ENTRY.ENTRY_STAT.PFW_SRC : Fld := ⟨0x20, 0x48, 4, 3, 0⟩
def PWR_ENTRY.ENTRY_STAT.CLAMP_MS : Fld := ⟨0x20, 0x48, 8, 10, 0⟩
def PWR_ENTRY.ENTRY_STAT.SOK_A : Fld := ⟨0x20, 0x48, 18, 1, 0⟩
def PWR_ENTRY.ENTRY_STAT.SOK_B : Fld := ⟨0x20, 0x48, 19, 1, 0⟩
def PWR_ENTRY.DIP_CNT.COUNT : Fld := ⟨0x20, 0x800, 0, 32, 0⟩
def PWR_ENTRY.CLAMP_CNT.COUNT : Fld := ⟨0x20, 0x804, 0, 32, 0⟩
def PWR_ENTRY.CLAMP_TRIP.COUNT : Fld := ⟨0x20, 0x808, 0, 32, 0⟩
def PWR_ENTRY.EXT_PFW.COUNT : Fld := ⟨0x20, 0x80C, 0, 32, 0⟩

/-! ### PWR_RAILS (chapter file 23_*) -/

def PWR_RAILS.RAIL_STAT.ON : Fld := ⟨0x21, 0x40, 0, 8, 0⟩
def PWR_RAILS.RAIL_STAT.WARN : Fld := ⟨0x21, 0x40, 8, 8, 0⟩
def PWR_RAILS.VCORE_STAT.SET_MV : Fld := ⟨0x21, 0x44, 0, 10, 0x2EE⟩
def PWR_RAILS.VCORE_STAT.MEAS_MV : Fld := ⟨0x21, 0x44, 10, 10, 0⟩
def PWR_RAILS.VCORE_STAT.AMPS : Fld := ⟨0x21, 0x44, 20, 6, 0⟩
def PWR_RAILS.VBUS5_STAT.MEAS_MV : Fld := ⟨0x21, 0x48, 0, 13, 0⟩
def PWR_RAILS.VBUS5_STAT.PH1_ON : Fld := ⟨0x21, 0x48, 13, 1, 0⟩
def PWR_RAILS.RAIL_WARN.COUNT : Fld := ⟨0x21, 0x800, 0, 32, 0⟩

/-! ### PWR_THERM (chapter file 23_*) -/

def PWR_THERM.TEMP.TEMP (i : Nat) : Fld := ⟨0x22, 0x40 + 4 * i, 0, 8, 0⟩
def PWR_THERM.TEMP.PEAK (i : Nat) : Fld := ⟨0x22, 0x40 + 4 * i, 8, 8, 0⟩
def PWR_THERM.TMAX.TEMP : Fld := ⟨0x22, 0x68, 0, 8, 0⟩
def PWR_THERM.TMAX.SENSOR : Fld := ⟨0x22, 0x68, 8, 4, 0⟩

/-! ### PTB (chapter file 24_*) -/

def PTB.PTB_STAT.SERVICE : Fld := ⟨0x1C0, 0x40, 0, 1, 0⟩
def PTB.PTB_STAT.TEST_BUSY : Fld := ⟨0x1C0, 0x40, 1, 1, 0⟩
def PTB.PTB_STAT.ACTIVE : Fld := ⟨0x1C0, 0x40, 2, 7, 0⟩
def PTB.TEST_CTRL.TEST : Fld := ⟨0x1C0, 0x44, 0, 8, 0⟩
def PTB.TEST_CTRL.ARG : Fld := ⟨0x1C0, 0x44, 8, 8, 0⟩
def PTB.TEST_CTRL.GO : Fld := ⟨0x1C0, 0x44, 31, 1, 0⟩
def PTB.TEST_RESULT.TEST : Fld := ⟨0x1C0, 0x48, 0, 8, 0⟩
def PTB.TEST_RESULT.OUTCOME : Fld := ⟨0x1C0, 0x48, 8, 2, 0⟩
def PTB.TEST_RESULT.DETAIL : Fld := ⟨0x1C0, 0x48, 16, 16, 0⟩
def PTB.TEST_MS.COUNT : Fld := ⟨0x1C0, 0x4C, 0, 32, 0⟩
def PTB.TESTS_RUN.COUNT : Fld := ⟨0x1C0, 0x800, 0, 32, 0⟩
def PTB.TESTS_FAILED.COUNT : Fld := ⟨0x1C0, 0x804, 0, 32, 0⟩
def PTB.PERTURB_SETS.COUNT : Fld := ⟨0x1C0, 0x808, 0, 32, 0⟩

/-! ### PTB_PERTURB (chapter file 24_*) -/

def PTB_PERTURB.FAB_STALL.PORTS : Fld := ⟨0x1C1, 0x40, 0, 20, 0⟩
def PTB_PERTURB.FAB_TIMING.LEN : Fld := ⟨0x1C1, 0x44, 0, 16, 0x0040⟩
def PTB_PERTURB.FAB_TIMING.PERIOD : Fld := ⟨0x1C1, 0x44, 16, 16, 1⟩
def PTB_PERTURB.DRAM_DELAY.CHANNELS : Fld := ⟨0x1C1, 0x48, 0, 12, 0⟩
def PTB_PERTURB.DRAM_DELAY.NS : Fld := ⟨0x1C1, 0x48, 12, 12, 0⟩
def PTB_PERTURB.BACKPRESS.CLASSES : Fld := ⟨0x1C1, 0x4C, 0, 4, 0⟩
def PTB_PERTURB.BACKPRESS.LEN : Fld := ⟨0x1C1, 0x4C, 16, 15, 0⟩
def PTB_PERTURB.BACKPRESS.GO : Fld := ⟨0x1C1, 0x4C, 31, 1, 0⟩
def PTB_PERTURB.WM_FORCE.PIPES : Fld := ⟨0x1C1, 0x50, 0, 8, 0⟩
def PTB_PERTURB.WM_FORCE.CLASS : Fld := ⟨0x1C1, 0x50, 8, 2, 0⟩
def PTB_PERTURB.SIG_INJ.OUT : Fld := ⟨0x1C1, 0x54, 0, 3, 0⟩
def PTB_PERTURB.SIG_INJ.REGION : Fld := ⟨0x1C1, 0x54, 3, 4, 0⟩
def PTB_PERTURB.SIG_INJ.FRAMES : Fld := ⟨0x1C1, 0x54, 8, 4, 1⟩
def PTB_PERTURB.SIG_INJ.GO : Fld := ⟨0x1C1, 0x54, 31, 1, 0⟩
def PTB_PERTURB.ECC_INJ.TARGET : Fld := ⟨0x1C1, 0x58, 0, 3, 0⟩
def PTB_PERTURB.ECC_INJ.DOUBLE : Fld := ⟨0x1C1, 0x58, 3, 1, 0⟩
def PTB_PERTURB.ECC_INJ.ARM : Fld := ⟨0x1C1, 0x58, 31, 1, 0⟩
def PTB_PERTURB.ECC_ADDR_LO.ADDR : Fld := ⟨0x1C1, 0x5C, 0, 32, 0⟩
def PTB_PERTURB.ECC_ADDR_HI.ADDR : Fld := ⟨0x1C1, 0x60, 0, 32, 0⟩
def PTB_PERTURB.TCH_INJ.TF : Fld := ⟨0x1C1, 0x64, 0, 2, 0⟩
def PTB_PERTURB.TCH_INJ.DRIVE : Fld := ⟨0x1C1, 0x64, 2, 7, 0⟩
def PTB_PERTURB.TCH_INJ.SENSE : Fld := ⟨0x1C1, 0x64, 9, 6, 0⟩
def PTB_PERTURB.TCH_INJ.DELTA : Fld := ⟨0x1C1, 0x64, 16, 12, 0⟩
def PTB_PERTURB.TCH_INJ.EN : Fld := ⟨0x1C1, 0x64, 31, 1, 0⟩

end Sys2Proof.Machine.R
end

