-- ==== Sys2Proof/Machine/RegMap.lean ====
section
/-! DEFINITION. The register map (R33, R34, R45): for every page the registers it holds, and for every field
its access, whether it is staged (R39) and which values the field itself admits (R38 check 8). -/

namespace Sys2Proof.Machine

/-- A register, or an array of `cnt` registers `step` bytes apart; `fields n i` are the fields of register `i`
on page instance `n`. A row of the static register map, no part of the state. -/
structure RegRow where
  off : Nat
  step : Nat
  cnt : Nat
  fields : Nat → Nat → List FSpec

/-- Registers of the LDG pages. -/
def rowsLDG : List RegRow :=
  [
  ⟨0x40, 4, 1, fun _ _ => [⟨R.LDG.ANCHOR.ANCHOR, .rw, true, .any⟩,
      ⟨R.LDG.ANCHOR.SOURCE, .ro, false, .any⟩]⟩,
  ⟨0x44, 4, 1, fun _ _ => [⟨R.LDG.IDLE_TIMING.V_TOTAL, .rw, true, (.atLeast 16)⟩,
      ⟨R.LDG.IDLE_TIMING.LINE_PERIOD, .rw, true, (.atLeast 1)⟩]⟩,
  ⟨0x48, 4, 1, fun _ _ => [⟨R.LDG.LIVE_FRAME.FRAME, .ro, false, .any⟩]⟩,
  ⟨0x4C, 4, 1, fun _ _ => [⟨R.LDG.LIVE_LINE.LINE, .ro, false, .any⟩,
      ⟨R.LDG.LIVE_LINE.FRAC, .ro, false, .any⟩]⟩,
  ⟨0x50, 4, 1, fun _ _ => [⟨R.LDG.SNAP.TAKE, .wo, false, .any⟩]⟩,
  ⟨0x54, 4, 1, fun _ _ => [⟨R.LDG.SNAP_FRAME.VALUE, .ro, false, .any⟩]⟩,
  ⟨0x58, 4, 1, fun _ _ => [⟨R.LDG.SNAP_LINE.LINE, .ro, false, .any⟩,
      ⟨R.LDG.SNAP_LINE.FRAC, .ro, false, .any⟩]⟩,
  ⟨0x5C, 4, 1, fun _ _ => [⟨R.LDG.SNAP_NS_LO.VALUE, .ro, false, .any⟩]⟩,
  ⟨0x60, 4, 1, fun _ _ => [⟨R.LDG.SNAP_NS_HI.VALUE, .ro, false, .any⟩]⟩,
  ⟨0x64, 4, 3, fun _ i => [⟨(R.LDG.SLOT_POOL.POOL i), .rw, false, .any⟩]⟩,
  ⟨0x70, 4, 1, fun _ _ => [⟨R.LDG.SLOT_IRQ.BITS, .w1c, false, .any⟩]⟩,
  ⟨0x74, 4, 1, fun _ _ => [⟨R.LDG.IDLE_ACTIVE.V_ACTIVE, .rw, true, .any⟩]⟩,
  ⟨0x800, 4, 1, fun _ _ => [⟨R.LDG.LATE_CNT.COUNT, .ro, false, .any⟩]⟩,
  ⟨0x804, 4, 1, fun _ _ => [⟨R.LDG.SHORT_CNT.COUNT, .ro, false, .any⟩]⟩]

/-- Registers of the LDG_OUTS pages. -/
def rowsLDGOUTS : List RegRow :=
  [
  ⟨0x40, 0x10, 8, fun _ i => [⟨(R.LDG_OUTS.LOCK.LOCK_OFFSET i), .rw, true, .any⟩,
      ⟨(R.LDG_OUTS.LOCK.LOCK_EN i), .rw, true, .any⟩]⟩,
  ⟨0x44, 0x10, 8, fun _ i => [⟨(R.LDG_OUTS.FRAME.FRAME i), .ro, false, .any⟩]⟩,
  ⟨0x48, 0x10, 8, fun _ i => [⟨(R.LDG_OUTS.LINE.LINE i), .ro, false, .any⟩,
      ⟨(R.LDG_OUTS.LINE.RUNNING i), .ro, false, .any⟩,
      ⟨(R.LDG_OUTS.LINE.LOCK_STATE i), .ro, false, .any⟩]⟩,
  ⟨0x4C, 0x10, 8, fun _ i => [⟨(R.LDG_OUTS.FLIP_AT.ANCHOR_LINE i), .ro, false, .any⟩]⟩]

/-- Registers of the LDG_SLOTS pages. -/
def rowsLDGSLOTS : List RegRow :=
  [
  ⟨0x40, 0x10, 64, fun n i => [⟨(R.LDG_SLOTS.SS_TGT.LINE n i), .rw, false, .any⟩,
      ⟨(R.LDG_SLOTS.SS_TGT.BASE n i), .rw, false, (.oneOf [0, 8, 9, 10, 11, 12, 13, 14, 15])⟩,
      ⟨(R.LDG_SLOTS.SS_TGT.MODE n i), .rw, false, .any⟩,
      ⟨(R.LDG_SLOTS.SS_TGT.PERIOD n i), .rw, false, (.atLeast 1)⟩]⟩,
  ⟨0x44, 0x10, 64, fun n i => [⟨(R.LDG_SLOTS.SS_FRAME.FRAME n i), .rw, false, .any⟩]⟩,
  ⟨0x48, 0x10, 64, fun n i => [⟨(R.LDG_SLOTS.SS_ACT.ACTION n i), .rw, false, .any⟩,
      ⟨(R.LDG_SLOTS.SS_ACT.ARG n i), .rw, false, .any⟩,
      ⟨(R.LDG_SLOTS.SS_ACT.DISARM n i), .w1s, false, .any⟩,
      ⟨(R.LDG_SLOTS.SS_ACT.ARM n i), .w1s, false, .any⟩]⟩,
  ⟨0x4C, 0x10, 64, fun n i => [⟨(R.LDG_SLOTS.SS_STAT.STATE n i), .ro, false, .any⟩,
      ⟨(R.LDG_SLOTS.SS_STAT.ERR n i), .ro, false, .any⟩,
      ⟨(R.LDG_SLOTS.SS_STAT.FIRES n i), .ro, false, .any⟩]⟩]

/-- Registers of the LDG_SYNC pages. -/
def rowsLDGSYNC : List RegRow :=
  [
  ⟨0x40, 4, 1, fun _ _ => [⟨R.LDG_SYNC.SYNC_STATE.STATE, .ro, false, .any⟩,
      ⟨R.LDG_SYNC.SYNC_STATE.DEVID, .ro, false, .any⟩]⟩,
  ⟨0x44, 4, 1, fun _ _ => [⟨R.LDG_SYNC.SYNC_ERR.ERR, .ro, false, .any⟩,
      ⟨R.LDG_SYNC.SYNC_ERR.MAX_ERR, .ro, false, .any⟩]⟩,
  ⟨0x48, 4, 1, fun _ _ => [⟨R.LDG_SYNC.SYNC_PATH.LATENCY, .ro, false, .any⟩]⟩]

/-- Registers of the SYS_MODE pages. -/
def rowsSYSMODE : List RegRow :=
  [
  ⟨0x40, 4, 1, fun _ _ => [⟨R.SYS_MODE.MODE_STAT.MODE, .ro, false, .any⟩,
      ⟨R.SYS_MODE.MODE_STAT.BUSY, .ro, false, .any⟩,
      ⟨R.SYS_MODE.MODE_STAT.TARGET, .ro, false, .any⟩,
      ⟨R.SYS_MODE.MODE_STAT.LAST_ERR, .ro, false, .any⟩,
      ⟨R.SYS_MODE.MODE_STAT.CAUSE, .ro, false, .any⟩,
      ⟨R.SYS_MODE.MODE_STAT.DCAUSE, .ro, false, .any⟩]⟩,
  ⟨0x44, 4, 1, fun _ _ => [⟨R.SYS_MODE.MODE_REQ.TARGET, .wo, false, .any⟩]⟩,
  ⟨0x48, 4, 1, fun _ _ => [⟨R.SYS_MODE.AGREE.MGR, .ro, false, .any⟩,
      ⟨R.SYS_MODE.AGREE.SAF, .ro, false, .any⟩,
      ⟨R.SYS_MODE.AGREE.WINDOW, .rw, false, .any⟩]⟩,
  ⟨0x4C, 4, 1, fun _ _ => [⟨R.SYS_MODE.VIGIL_CFG.WK_PIN, .rw, false, .any⟩,
      ⟨R.SYS_MODE.VIGIL_CFG.WK_TOUCH, .rw, false, .any⟩,
      ⟨R.SYS_MODE.VIGIL_CFG.WK_RTC, .rw, false, .any⟩,
      ⟨R.SYS_MODE.VIGIL_CFG.WK_GPIO, .rw, false, .any⟩,
      ⟨R.SYS_MODE.VIGIL_CFG.TIMEOUT, .rw, false, .any⟩]⟩,
  ⟨0x800, 4, 1, fun _ _ => [⟨R.SYS_MODE.TRANS_CNT.COUNT, .ro, false, .any⟩]⟩,
  ⟨0x804, 4, 1, fun _ _ => [⟨R.SYS_MODE.REJECT_CNT.COUNT, .ro, false, .any⟩]⟩,
  ⟨0x808, 4, 1, fun _ _ => [⟨R.SYS_MODE.EXPIRE_CNT.COUNT, .ro, false, .any⟩]⟩]

/-- Registers of the SYS_POWER pages. -/
def rowsSYSPOWER : List RegRow :=
  [
  ⟨0x40, 4, 1, fun _ _ => [⟨R.SYS_POWER.PD_ON.ON, .ro, false, .any⟩]⟩,
  ⟨0x44, 4, 1, fun _ _ => [⟨R.SYS_POWER.PD_REQ.DOMAIN, .rw, false, (.atMost 24)⟩,
      ⟨R.SYS_POWER.PD_REQ.ON, .rw, false, .any⟩,
      ⟨R.SYS_POWER.PD_REQ.GO, .w1s, false, .any⟩]⟩,
  ⟨0x48, 4, 1, fun _ _ => [⟨R.SYS_POWER.PD_RESULT.CODE, .ro, false, .any⟩,
      ⟨R.SYS_POWER.PD_RESULT.BUSY, .ro, false, .any⟩,
      ⟨R.SYS_POWER.PD_RESULT.QUIESCE_US, .ro, false, .any⟩]⟩,
  ⟨0x800, 4, 1, fun _ _ => [⟨R.SYS_POWER.ABORT_CNT.COUNT, .ro, false, .any⟩]⟩,
  ⟨0x804, 4, 1, fun _ _ => [⟨R.SYS_POWER.REFUSE_CNT.COUNT, .ro, false, .any⟩]⟩]

/-- Registers of the SYS_POLICY pages. -/
def rowsSYSPOLICY : List RegRow :=
  [
  ⟨0x40, 0x10, 7, fun _ i => [⟨(R.SYS_POLICY.BOUNDS.FLOOR i), .rw, false, .any⟩,
      ⟨(R.SYS_POLICY.BOUNDS.CEIL i), .rw, false, .any⟩]⟩,
  ⟨0x44, 0x10, 7, fun _ i => [⟨(R.SYS_POLICY.STAT.VALUE i), .ro, false, .any⟩,
      ⟨(R.SYS_POLICY.STAT.CLAMP i), .w1c, false, .any⟩,
      ⟨(R.SYS_POLICY.STAT.OVERRIDE i), .w1c, false, .any⟩,
      ⟨(R.SYS_POLICY.STAT.PROTECT i), .ro, false, .any⟩]⟩,
  ⟨0xC0, 4, 1, fun _ _ => [⟨R.SYS_POLICY.THERM_TARGET.TARGET, .rw, false, (.within 60 100)⟩]⟩,
  ⟨0x800, 4, 7, fun _ i => [⟨(R.SYS_POLICY.CLAMP_CNT.COUNT i), .ro, false, .any⟩]⟩,
  ⟨0x820, 4, 7, fun _ i => [⟨(R.SYS_POLICY.OVERRIDE_CNT.COUNT i), .ro, false, .any⟩]⟩]

/-- Registers of the SYS_BOOT pages. -/
def rowsSYSBOOT : List RegRow :=
  [
  ⟨0x40, 4, 1, fun _ _ => [⟨R.SYS_BOOT.BOOT_STAT.STAGE, .ro, false, .any⟩,
      ⟨R.SYS_BOOT.BOOT_STAT.ERR, .ro, false, .any⟩,
      ⟨R.SYS_BOOT.BOOT_STAT.ISL_COPY, .ro, false, .any⟩,
      ⟨R.SYS_BOOT.BOOT_STAT.CC_COPY, .ro, false, .any⟩]⟩,
  ⟨0x44, 4, 1, fun _ _ => [⟨R.SYS_BOOT.STRAPS.BOOTSEL, .ro, false, .any⟩,
      ⟨R.SYS_BOOT.STRAPS.DEVID, .ro, false, .any⟩,
      ⟨R.SYS_BOOT.STRAPS.SERVICE_EN, .ro, false, .any⟩]⟩,
  ⟨0x48, 4, 1, fun _ _ => [⟨R.SYS_BOOT.EARLY.LIT, .ro, false, .any⟩,
      ⟨R.SYS_BOOT.EARLY.SKIPPED, .ro, false, .any⟩,
      ⟨R.SYS_BOOT.EARLY.ANCHOR, .ro, false, .any⟩]⟩,
  ⟨0x4C, 4, 1, fun _ _ => [⟨R.SYS_BOOT.BOOT_MS.EARLY_MS, .ro, false, .any⟩,
      ⟨R.SYS_BOOT.BOOT_MS.READY_MS, .ro, false, .any⟩]⟩,
  ⟨0x50, 4, 1, fun _ _ => [⟨R.SYS_BOOT.BOOT_CTRL.READY, .rws, false, .any⟩,
      ⟨R.SYS_BOOT.BOOT_CTRL.LOAD, .w1s, false, .any⟩]⟩]

/-- Registers of the IMX pages. -/
def rowsIMX : List RegRow :=
  [
  ⟨0x40, 4, 1, fun _ _ => [⟨R.IMX.MANAGER.MGR, .ro, false, .any⟩]⟩,
  ⟨0x44, 4, 1, fun _ _ => [⟨(R.IMX.PORT_LINK.WIDTH 0), .ro, false, .any⟩,
      ⟨(R.IMX.PORT_LINK.WIDTH 1), .ro, false, .any⟩,
      ⟨(R.IMX.PORT_LINK.WIDTH 2), .ro, false, .any⟩,
      ⟨(R.IMX.PORT_LINK.WIDTH 3), .ro, false, .any⟩,
      ⟨(R.IMX.PORT_LINK.SPEED 0), .ro, false, .any⟩,
      ⟨(R.IMX.PORT_LINK.SPEED 1), .ro, false, .any⟩,
      ⟨(R.IMX.PORT_LINK.SPEED 2), .ro, false, .any⟩,
      ⟨(R.IMX.PORT_LINK.SPEED 3), .ro, false, .any⟩]⟩,
  ⟨0x48, 4, 1, fun _ _ => [⟨R.IMX.BW_SUM.SUM, .ro, false, .any⟩]⟩]

/-- Registers of the IMX_ROUTE pages. -/
def rowsIMXROUTE : List RegRow :=
  [
  ⟨0x40, 4, 256, fun n i => [⟨(R.IMX_ROUTE.ROUTE.KIND n i), .rw, false, .any⟩,
      ⟨(R.IMX_ROUTE.ROUTE.PORT n i), .rw, false, .any⟩,
      ⟨(R.IMX_ROUTE.ROUTE.FUNC n i), .rw, false, (.atMost 8)⟩,
      ⟨(R.IMX_ROUTE.ROUTE.VECTOR n i), .rw, false, .any⟩,
      ⟨(R.IMX_ROUTE.ROUTE.CORE n i), .rw, false, .any⟩,
      ⟨(R.IMX_ROUTE.ROUTE.WORLD n i), .rw, false, .any⟩]⟩]

/-- Registers of the IMX_VI pages. -/
def rowsIMXVI : List RegRow :=
  [
  ⟨0x40, 4, 1, fun n _ => [⟨(R.IMX_VI.VI_BIND.PORT n), .rw, false, .any⟩,
      ⟨(R.IMX_VI.VI_BIND.VF n), .rw, false, .any⟩,
      ⟨(R.IMX_VI.VI_BIND.BOUND n), .rw, false, .any⟩]⟩,
  ⟨0x44, 4, 1, fun n _ => [⟨(R.IMX_VI.VI_STAT.STATE n), .ro, false, .any⟩,
      ⟨(R.IMX_VI.VI_STAT.PEND n), .ro, false, .any⟩,
      ⟨(R.IMX_VI.VI_STAT.FAULT n), .ro, false, .any⟩]⟩,
  ⟨0x48, 4, 2, fun n i => [⟨(R.IMX_VI.RING.RINGS n i), .ro, false, .any⟩]⟩,
  ⟨0x50, 4, 1, fun n _ => [⟨(R.IMX_VI.SH_GFX.MASK n), .rw, false, .any⟩,
      ⟨(R.IMX_VI.SH_GFX.MODE n), .rw, false, .any⟩,
      ⟨(R.IMX_VI.SH_GFX.WEIGHT n), .rw, false, (.atMost 256)⟩]⟩,
  ⟨0x54, 4, 1, fun n _ => [⟨(R.IMX_VI.SH_BW.WEIGHT n), .rw, false, .any⟩]⟩,
  ⟨0x58, 4, 2, fun n i => [⟨(R.IMX_VI.SH_LAYER.UNITS n i), .rw, false, .any⟩]⟩,
  ⟨0x60, 4, 1, fun n _ => [⟨(R.IMX_VI.SH_DMA.CH n), .rw, false, .any⟩]⟩,
  ⟨0x64, 4, 1, fun n _ => [⟨(R.IMX_VI.SH_IO.AUD n), .rw, false, .any⟩,
      ⟨(R.IMX_VI.SH_IO.TCH n), .rw, false, .any⟩,
      ⟨(R.IMX_VI.SH_IO.HAP n), .rw, false, .any⟩]⟩,
  ⟨0x68, 4, 1, fun n _ => [⟨(R.IMX_VI.RST_RESULT.SQUASHED n), .ro, false, .any⟩,
      ⟨(R.IMX_VI.RST_RESULT.DRAINED n), .ro, false, .any⟩,
      ⟨(R.IMX_VI.RST_RESULT.CAUSE n), .ro, false, .any⟩,
      ⟨(R.IMX_VI.RST_RESULT.US n), .ro, false, .any⟩]⟩,
  ⟨0x70, 8, 4, fun n i => [⟨(R.IMX_VI.WIN_BASE.EN n i), .rw, false, .any⟩,
      ⟨(R.IMX_VI.WIN_BASE.ADDR n i), .rw, false, .any⟩]⟩,
  ⟨0x74, 8, 4, fun n i => [⟨(R.IMX_VI.WIN_SIZE.ADDR n i), .rw, false, .any⟩]⟩,
  ⟨0x800, 4, 1, fun n _ => [⟨(R.IMX_VI.RESET_CNT.COUNT n), .ro, false, .any⟩]⟩,
  ⟨0x804, 4, 1, fun n _ => [⟨(R.IMX_VI.FAULT_CNT.COUNT n), .ro, false, .any⟩]⟩]

/-- Registers of the RNG pages. -/
def rowsRNG : List RegRow :=
  [
  ⟨0x40, 0x100, 2, fun n i => [⟨(R.RNG.RING_BIND.OWNER n i), .rw, false, .any⟩,
      ⟨(R.RNG.RING_BIND.VI n i), .rw, false, .any⟩,
      ⟨(R.RNG.RING_BIND.CLASS n i), .rw, false, (.atMost 6)⟩]⟩,
  ⟨0x44, 0x100, 2, fun n i => [⟨(R.RNG.RING_CFG.SQ_LOG2 n i), .rw, false, (.within 4 16)⟩,
      ⟨(R.RNG.RING_CFG.CQ_LOG2 n i), .rw, false, (.within 4 16)⟩,
      ⟨(R.RNG.RING_CFG.LOC n i), .rw, false, .any⟩]⟩,
  ⟨0x48, 0x100, 2, fun n i => [⟨(R.RNG.SQ_BASE_LO.ADDR n i), .rw, false, .any⟩]⟩,
  ⟨0x4C, 0x100, 2, fun n i => [⟨(R.RNG.SQ_BASE_HI.ADDR n i), .rw, false, .any⟩]⟩,
  ⟨0x50, 0x100, 2, fun n i => [⟨(R.RNG.CQ_BASE_LO.ADDR n i), .rw, false, .any⟩]⟩,
  ⟨0x54, 0x100, 2, fun n i => [⟨(R.RNG.CQ_BASE_HI.ADDR n i), .rw, false, .any⟩]⟩,
  ⟨0x58, 0x100, 2, fun n i => [⟨(R.RNG.RING_CTRL.ENABLE n i), .rw, false, .any⟩]⟩,
  ⟨0x5C, 0x100, 2, fun n i => [⟨(R.RNG.SQ_DB.INDEX n i), .wo, false, .any⟩]⟩,
  ⟨0x60, 0x100, 2, fun n i => [⟨(R.RNG.CQ_DB.INDEX n i), .wo, false, .any⟩]⟩,
  ⟨0x64, 0x100, 2, fun n i => [⟨(R.RNG.SQ_HEAD.INDEX n i), .ro, false, .any⟩]⟩,
  ⟨0x68, 0x100, 2, fun n i => [⟨(R.RNG.SQ_TAIL.INDEX n i), .ro, false, .any⟩]⟩,
  ⟨0x6C, 0x100, 2, fun n i => [⟨(R.RNG.DONE_SEQ.INDEX n i), .ro, false, .any⟩]⟩,
  ⟨0x70, 0x100, 2, fun n i => [⟨(R.RNG.CQ_TAIL.INDEX n i), .ro, false, .any⟩]⟩,
  ⟨0x74, 0x100, 2, fun n i => [⟨(R.RNG.CQ_HEAD.INDEX n i), .ro, false, .any⟩]⟩,
  ⟨0x78, 0x100, 2, fun n i => [⟨(R.RNG.RING_STAT.STATE n i), .ro, false, .any⟩,
      ⟨(R.RNG.RING_STAT.OVF_USED n i), .ro, false, .any⟩,
      ⟨(R.RNG.RING_STAT.LAST_ERR n i), .ro, false, .any⟩,
      ⟨(R.RNG.RING_STAT.OUTSTANDING n i), .ro, false, .any⟩]⟩,
  ⟨0x7C, 0x100, 2, fun n i => [⟨(R.RNG.SEL.WEIGHT n i), .rw, false, (.atLeast 1)⟩,
      ⟨(R.RNG.SEL.PRIO n i), .rw, false, .any⟩,
      ⟨(R.RNG.SEL.CQ_STALL_MAX n i), .rw, false, .any⟩]⟩,
  ⟨0x80, 0x100, 2, fun n i => [⟨(R.RNG.WAIT_DEFAULT.LINES n i), .rw, false, (.atLeast 1)⟩]⟩,
  ⟨0x800, 0x20, 2, fun n i => [⟨(R.RNG.SUBMIT_CNT.COUNT n i), .ro, false, .any⟩]⟩,
  ⟨0x804, 0x20, 2, fun n i => [⟨(R.RNG.CMPL_CNT.COUNT n i), .ro, false, .any⟩]⟩,
  ⟨0x808, 0x20, 2, fun n i => [⟨(R.RNG.OVF_CNT.COUNT n i), .ro, false, .any⟩]⟩] ++
  [
  ⟨0x80C, 0x20, 2, fun n i => [⟨(R.RNG.EVT_LOST.COUNT n i), .ro, false, .any⟩]⟩,
  ⟨0x810, 0x20, 2, fun n i => [⟨(R.RNG.CQ_DROP.COUNT n i), .ro, false, .any⟩]⟩,
  ⟨0x814, 0x20, 2, fun n i => [⟨(R.RNG.DB_REJECT.COUNT n i), .ro, false, .any⟩]⟩]

/-- Registers of the GFX pages. -/
def rowsGFX : List RegRow :=
  [
  ⟨0x40, 4, 1, fun _ _ => [⟨R.GFX.GFX_CFG.CTX_PER_OWNER, .rw, false, (.within 1 4)⟩]⟩,
  ⟨0x44, 4, 1, fun _ _ => [⟨R.GFX.CTX_STAT.USED, .ro, false, .any⟩,
      ⟨R.GFX.CTX_STAT.PARKED, .ro, false, .any⟩,
      ⟨R.GFX.CTX_STAT.ESCALATED, .ro, false, .any⟩]⟩,
  ⟨0x48, 4, 8, fun _ i => [⟨(R.GFX.ESCALATE.LINES i), .rw, false, .any⟩]⟩,
  ⟨0x800, 4, 1, fun _ _ => [⟨R.GFX.JOB_CNT.COUNT, .ro, false, .any⟩]⟩,
  ⟨0x804, 4, 1, fun _ _ => [⟨R.GFX.PR_CNT.COUNT, .ro, false, .any⟩]⟩,
  ⟨0x808, 4, 1, fun _ _ => [⟨R.GFX.ESC_CNT.COUNT, .ro, false, .any⟩]⟩,
  ⟨0x80C, 4, 1, fun _ _ => [⟨R.GFX.LATE_CNT.COUNT, .ro, false, .any⟩]⟩,
  ⟨0x810, 4, 1, fun _ _ => [⟨R.GFX.ERR_CNT.COUNT, .ro, false, .any⟩]⟩]

/-- Registers of the GRIST pages. -/
def rowsGRIST : List RegRow :=
  [
  ⟨0x40, 4, 1, fun _ _ => [⟨R.GRIST.BIN_CFG.BIN_GROW_WAIT, .rw, false, (.atLeast 1)⟩,
      ⟨R.GRIST.BIN_CFG.WIDE_THRESH, .rw, false, (.within 16 240)⟩]⟩,
  ⟨0x44, 4, 1, fun _ _ => [⟨R.GRIST.GRIST_STAT.BINNING, .ro, false, .any⟩,
      ⟨R.GRIST.GRIST_STAT.PARKED, .ro, false, .any⟩]⟩,
  ⟨0x800, 4, 1, fun _ _ => [⟨R.GRIST.PRIM_IN.COUNT, .ro, false, .any⟩]⟩,
  ⟨0x804, 4, 1, fun _ _ => [⟨R.GRIST.PRIM_CULLED.COUNT, .ro, false, .any⟩]⟩,
  ⟨0x808, 4, 1, fun _ _ => [⟨R.GRIST.CURVE_DISCARD.COUNT, .ro, false, .any⟩]⟩,
  ⟨0x80C, 4, 1, fun _ _ => [⟨R.GRIST.BIN_GROW_CNT.COUNT, .ro, false, .any⟩]⟩,
  ⟨0x810, 4, 1, fun _ _ => [⟨R.GRIST.PARK_LINES.COUNT, .ro, false, .any⟩]⟩]

/-- Registers of the POOL pages. -/
def rowsPOOL : List RegRow :=
  [
  ⟨0x40, 8, 17, fun _ i => [⟨(R.POOL.POOL_CFG.LOW i), .rw, false, (.atMost 1024)⟩,
      ⟨(R.POOL.POOL_CFG.FLUSH i), .w1s, false, .any⟩]⟩,
  ⟨0x44, 8, 17, fun _ i => [⟨(R.POOL.POOL_STAT.FREE i), .ro, false, .any⟩,
      ⟨(R.POOL.POOL_STAT.HELD i), .ro, false, .any⟩]⟩]

/-- Registers of the GFX_SC pages. -/
def rowsGFXSC : List RegRow :=
  [
  ⟨0x40, 4, 1, fun n _ => [⟨(R.GFX_SC.SC_STAT.OWNER n), .ro, false, .any⟩,
      ⟨(R.GFX_SC.SC_STAT.HELPING n), .ro, false, .any⟩,
      ⟨(R.GFX_SC.SC_STAT.SPLIT n), .ro, false, .any⟩,
      ⟨(R.GFX_SC.SC_STAT.EARLY n), .ro, false, .any⟩,
      ⟨(R.GFX_SC.SC_STAT.PARTNER n), .ro, false, .any⟩]⟩,
  ⟨0x44, 4, 1, fun n _ => [⟨(R.GFX_SC.SPLIT_CFG.THRESH n), .rw, false, .any⟩]⟩,
  ⟨0x800, 4, 1, fun n _ => [⟨(R.GFX_SC.TILE_CNT.COUNT n), .ro, false, .any⟩]⟩,
  ⟨0x804, 4, 1, fun n _ => [⟨(R.GFX_SC.SPLIT_CNT.COUNT n), .ro, false, .any⟩]⟩,
  ⟨0x808, 4, 1, fun n _ => [⟨(R.GFX_SC.HELP_CNT.COUNT n), .ro, false, .any⟩]⟩,
  ⟨0x80C, 4, 1, fun n _ => [⟨(R.GFX_SC.QUAD_CNT.COUNT n), .ro, false, .any⟩]⟩,
  ⟨0x810, 4, 1, fun n _ => [⟨(R.GFX_SC.ORDER_STALL.COUNT n), .ro, false, .any⟩]⟩]

/-- Registers of the GFX_TX pages. -/
def rowsGFXTX : List RegRow :=
  [
  ⟨0x800, 4, 1, fun n _ => [⟨(R.GFX_TX.BILERP_CNT.COUNT n), .ro, false, .any⟩]⟩,
  ⟨0x804, 4, 1, fun n _ => [⟨(R.GFX_TX.L1_MISS.COUNT n), .ro, false, .any⟩]⟩,
  ⟨0x808, 4, 1, fun n _ => [⟨(R.GFX_TX.ASTC_ERR.COUNT n), .ro, false, .any⟩]⟩,
  ⟨0x80C, 4, 1, fun n _ => [⟨(R.GFX_TX.NFR_BAD.COUNT n), .ro, false, .any⟩]⟩]

/-- Registers of the GFX_L2 pages. -/
def rowsGFXL2 : List RegRow :=
  [
  ⟨0x40, 4, 1, fun _ _ => [⟨R.GFX_L2.L2_STAT.VALID_KIB, .ro, false, .any⟩]⟩,
  ⟨0x800, 4, 1, fun _ _ => [⟨R.GFX_L2.HIT_CNT.COUNT, .ro, false, .any⟩]⟩,
  ⟨0x804, 4, 1, fun _ _ => [⟨R.GFX_L2.MISS_CNT.COUNT, .ro, false, .any⟩]⟩,
  ⟨0x808, 4, 1, fun _ _ => [⟨R.GFX_L2.INVAL_CNT.COUNT, .ro, false, .any⟩]⟩,
  ⟨0x80C, 4, 1, fun _ _ => [⟨R.GFX_L2.ECC_CNT.COUNT, .ro, false, .any⟩]⟩]

/-- Registers of the CMP_P pages. -/
def rowsCMPP : List RegRow :=
  [
  ⟨0x40, 4, 1, fun n _ => [⟨(R.CMP_P.PIPE_CFG.LEAD n), .rw, true, (.within 8 64)⟩,
      ⟨(R.CMP_P.PIPE_CFG.XFER n), .rw, true, (.atMost 2)⟩,
      ⟨(R.CMP_P.PIPE_CFG.DITHER n), .rw, true, (.atMost 2)⟩,
      ⟨(R.CMP_P.PIPE_CFG.DEPTH n), .rw, true, (.atMost 2)⟩]⟩,
  ⟨0x44, 4, 1, fun n _ => [⟨(R.CMP_P.BG.B n), .rw, true, .any⟩,
      ⟨(R.CMP_P.BG.G n), .rw, true, .any⟩,
      ⟨(R.CMP_P.BG.R n), .rw, true, .any⟩]⟩,
  ⟨0x48, 4, 1, fun n _ => [⟨(R.CMP_P.PIPE_STAT.CAP n), .ro, false, .any⟩,
      ⟨(R.CMP_P.PIPE_STAT.BUFFERED n), .ro, false, .any⟩,
      ⟨(R.CMP_P.PIPE_STAT.SPLIT n), .ro, false, .any⟩,
      ⟨(R.CMP_P.PIPE_STAT.LEAD_CLIP n), .ro, false, .any⟩,
      ⟨(R.CMP_P.PIPE_STAT.DEGRADED n), .ro, false, .any⟩,
      ⟨(R.CMP_P.PIPE_STAT.UNITS n), .ro, false, .any⟩]⟩,
  ⟨0x4C, 4, 2, fun n i => [⟨(R.CMP_P.UNITS.UNITS n i), .ro, false, .any⟩]⟩,
  ⟨0x100, 4, 257, fun n i => [⟨(R.CMP_P.GAMMA.R n i), .rw, true, .any⟩,
      ⟨(R.CMP_P.GAMMA.G n i), .rw, true, .any⟩,
      ⟨(R.CMP_P.GAMMA.B n i), .rw, true, .any⟩]⟩,
  ⟨0x800, 4, 1, fun n _ => [⟨(R.CMP_P.SLICE_CNT.COUNT n), .ro, false, .any⟩]⟩,
  ⟨0x804, 4, 1, fun n _ => [⟨(R.CMP_P.SPACE_WAIT.COUNT n), .ro, false, .any⟩]⟩,
  ⟨0x808, 4, 1, fun n _ => [⟨(R.CMP_P.LINE_SKIP.COUNT n), .ro, false, .any⟩]⟩,
  ⟨0x80C, 4, 1, fun n _ => [⟨(R.CMP_P.LATCH_CNT.COUNT n), .ro, false, .any⟩]⟩,
  ⟨0x810, 4, 1, fun n _ => [⟨(R.CMP_P.DROP_CNT.COUNT n), .ro, false, .any⟩]⟩,
  ⟨0x814, 4, 1, fun n _ => [⟨(R.CMP_P.FETCH_ERR.COUNT n), .ro, false, .any⟩]⟩]

/-- Registers of the CMP_L pages. -/
def rowsCMPL : List RegRow :=
  [
  ⟨0x40, 4, 1, fun n _ => [⟨(R.CMP_L.LAYER_MGR.PIPE n), .rw, true, (.oneOf [0, 1, 2, 3, 4, 5, 6, 7, 15])⟩,
      ⟨(R.CMP_L.LAYER_MGR.ZPOS n), .rw, true, (.atMost 11)⟩,
      ⟨(R.CMP_L.LAYER_MGR.GANG n), .rw, true, (.atMost 2)⟩]⟩,
  ⟨0x44, 4, 1, fun n _ => [⟨(R.CMP_L.BOUND_XY.X n), .rw, true, .any⟩,
      ⟨(R.CMP_L.BOUND_XY.Y n), .rw, true, .any⟩]⟩,
  ⟨0x48, 4, 1, fun n _ => [⟨(R.CMP_L.BOUND_WH.W n), .rw, true, (.atMost 16384)⟩,
      ⟨(R.CMP_L.BOUND_WH.H n), .rw, true, (.atMost 16384)⟩]⟩,
  ⟨0x4C, 4, 1, fun n _ => [⟨(R.CMP_L.LAYER_CTRL.ENABLE n), .rw, true, .any⟩,
      ⟨(R.CMP_L.LAYER_CTRL.FORMAT n), .rw, true, .any⟩,
      ⟨(R.CMP_L.LAYER_CTRL.LAYOUT n), .rw, true, (.atMost 2)⟩,
      ⟨(R.CMP_L.LAYER_CTRL.ALPHA_MODE n), .rw, true, (.atMost 2)⟩,
      ⟨(R.CMP_L.LAYER_CTRL.TRANSFER n), .rw, true, (.atMost 2)⟩,
      ⟨(R.CMP_L.LAYER_CTRL.CSC n), .rw, true, .any⟩,
      ⟨(R.CMP_L.LAYER_CTRL.FULL n), .rw, true, .any⟩,
      ⟨(R.CMP_L.LAYER_CTRL.HFILT n), .rw, true, (.atMost 2)⟩,
      ⟨(R.CMP_L.LAYER_CTRL.VFILT n), .rw, true, (.atMost 2)⟩,
      ⟨(R.CMP_L.LAYER_CTRL.GA n), .rw, true, .any⟩,
      ⟨(R.CMP_L.LAYER_CTRL.REMOTE n), .rw, true, .any⟩,
      ⟨(R.CMP_L.LAYER_CTRL.DEV n), .rw, true, .any⟩,
      ⟨(R.CMP_L.LAYER_CTRL.FORMAT_HI n), .rw, true, .any⟩]⟩,
  ⟨0x50, 4, 1, fun n _ => [⟨(R.CMP_L.ADDR_LO.VALUE n), .rw, true, .any⟩]⟩,
  ⟨0x54, 4, 1, fun n _ => [⟨(R.CMP_L.ADDR_HI.VALUE n), .rw, true, .any⟩]⟩,
  ⟨0x58, 4, 1, fun n _ => [⟨(R.CMP_L.CHROMA_OFF.VALUE n), .rw, true, .any⟩]⟩,
  ⟨0x5C, 4, 1, fun n _ => [⟨(R.CMP_L.PITCH.VALUE n), .rw, true, .any⟩]⟩,
  ⟨0x60, 4, 1, fun n _ => [⟨(R.CMP_L.SRC_XY.X n), .rw, true, .any⟩,
      ⟨(R.CMP_L.SRC_XY.Y n), .rw, true, .any⟩]⟩,
  ⟨0x64, 4, 1, fun n _ => [⟨(R.CMP_L.SRC_WH.W n), .rw, true, (.within 1 8192)⟩,
      ⟨(R.CMP_L.SRC_WH.H n), .rw, true, (.within 1 8192)⟩]⟩,
  ⟨0x68, 4, 1, fun n _ => [⟨(R.CMP_L.DST_XY.X n), .rw, true, .any⟩,
      ⟨(R.CMP_L.DST_XY.Y n), .rw, true, .any⟩]⟩,
  ⟨0x6C, 4, 1, fun n _ => [⟨(R.CMP_L.DST_WH.W n), .rw, true, (.within 1 8192)⟩,
      ⟨(R.CMP_L.DST_WH.H n), .rw, true, (.within 1 8192)⟩]⟩,
  ⟨0x70, 4, 1, fun n _ => [⟨(R.CMP_L.LAYER_STAT.NEED_KIB n), .ro, false, .any⟩,
      ⟨(R.CMP_L.LAYER_STAT.OWNER n), .ro, false, .any⟩]⟩,
  ⟨0x800, 4, 1, fun n _ => [⟨(R.CMP_L.FETCH_ERR.COUNT n), .ro, false, .any⟩]⟩,
  ⟨0x804, 4, 1, fun n _ => [⟨(R.CMP_L.LINES_FETCHED.COUNT n), .ro, false, .any⟩]⟩]

/-- Registers of the CMP pages. -/
def rowsCMP : List RegRow :=
  [
  ⟨0x40, 4, 2, fun _ i => [⟨(R.CMP.ATTACH.UNITS i), .ro, false, .any⟩]⟩]

/-- Registers of the SCN_OUT pages. -/
def rowsSCNOUT : List RegRow :=
  [
  ⟨0x40, 4, 1, fun n _ => [⟨(R.SCN_OUT.OUT_CFG.ENABLE n), .rw, true, .any⟩,
      ⟨(R.SCN_OUT.OUT_CFG.MODE n), .rw, true, .any⟩,
      ⟨(R.SCN_OUT.OUT_CFG.LANES n), .rw, true, (.oneOf [1, 2, 4])⟩,
      ⟨(R.SCN_OUT.OUT_CFG.RATE n), .rw, true, .any⟩,
      ⟨(R.SCN_OUT.OUT_CFG.BPC n), .rw, true, (.atMost 2)⟩,
      ⟨(R.SCN_OUT.OUT_CFG.LVDS_MAP n), .rw, true, (.atMost 2)⟩,
      ⟨(R.SCN_OUT.OUT_CFG.SPLIT n), .rw, true, .any⟩,
      ⟨(R.SCN_OUT.OUT_CFG.AUDIO_EN n), .rw, true, .any⟩,
      ⟨(R.SCN_OUT.OUT_CFG.ASSR n), .rw, true, .any⟩,
      ⟨(R.SCN_OUT.OUT_CFG.SSC n), .rw, true, .any⟩,
      ⟨(R.SCN_OUT.OUT_CFG.AUTO_RETRAIN n), .rw, true, .any⟩]⟩,
  ⟨0x44, 4, 1, fun n _ => [⟨(R.SCN_OUT.H_TIMING.ACTIVE n), .rw, true, (.within 64 4096)⟩,
      ⟨(R.SCN_OUT.H_TIMING.TOTAL n), .rw, true, .any⟩]⟩,
  ⟨0x48, 4, 1, fun n _ => [⟨(R.SCN_OUT.H_SYNC.START n), .rw, true, .any⟩,
      ⟨(R.SCN_OUT.H_SYNC.WIDTH n), .rw, true, .any⟩]⟩,
  ⟨0x4C, 4, 1, fun n _ => [⟨(R.SCN_OUT.V_TIMING.ACTIVE n), .rw, true, (.within 64 4096)⟩,
      ⟨(R.SCN_OUT.V_TIMING.TOTAL n), .rw, true, .any⟩]⟩,
  ⟨0x50, 4, 1, fun n _ => [⟨(R.SCN_OUT.V_SYNC.START n), .rw, true, .any⟩,
      ⟨(R.SCN_OUT.V_SYNC.WIDTH n), .rw, true, .any⟩]⟩,
  ⟨0x54, 4, 1, fun n _ => [⟨(R.SCN_OUT.PCLK.KHZ n), .rw, true, .any⟩,
      ⟨(R.SCN_OUT.PCLK.HSYNC_POS n), .rw, true, .any⟩,
      ⟨(R.SCN_OUT.PCLK.VSYNC_POS n), .rw, true, .any⟩]⟩,
  ⟨0x58, 4, 1, fun n _ => [⟨(R.SCN_OUT.FLIP.FLIP_LINE n), .rw, true, .any⟩]⟩,
  ⟨0x5C, 4, 1, fun n _ => [⟨(R.SCN_OUT.WATERMARK.WM_URGENT n), .rw, true, (.within 4 64)⟩,
      ⟨(R.SCN_OUT.WATERMARK.WM_CRIT n), .rw, true, (.within 1 63)⟩,
      ⟨(R.SCN_OUT.WATERMARK.WM_ADAPT n), .rw, true, .any⟩]⟩,
  ⟨0x60, 4, 1, fun n _ => [⟨(R.SCN_OUT.BL.ON n), .rw, true, .any⟩,
      ⟨(R.SCN_OUT.BL.LINE_SYNC n), .rw, true, .any⟩,
      ⟨(R.SCN_OUT.BL.DUTY n), .rw, true, .any⟩,
      ⟨(R.SCN_OUT.BL.FREQ n), .rw, true, (.within 10 5000)⟩,
      ⟨(R.SCN_OUT.BL.ON_DELAY n), .rw, true, .any⟩,
      ⟨(R.SCN_OUT.BL.OFF_DELAY n), .rw, true, .any⟩]⟩,
  ⟨0x64, 4, 1, fun n _ => [⟨(R.SCN_OUT.OUT_STAT.STATE n), .ro, false, .any⟩,
      ⟨(R.SCN_OUT.OUT_STAT.HPD n), .ro, false, .any⟩,
      ⟨(R.SCN_OUT.OUT_STAT.IDLE_CAUSE n), .ro, false, .any⟩,
      ⟨(R.SCN_OUT.OUT_STAT.CLASS n), .ro, false, .any⟩,
      ⟨(R.SCN_OUT.OUT_STAT.WM_EFF n), .ro, false, .any⟩,
      ⟨(R.SCN_OUT.OUT_STAT.MARGIN n), .ro, false, .any⟩]⟩,
  ⟨0x68, 4, 1, fun n _ => [⟨(R.SCN_OUT.LAST_FLIP_LO.STAMP n), .ro, false, .any⟩]⟩,
  ⟨0x6C, 4, 1, fun n _ => [⟨(R.SCN_OUT.LAST_FLIP_HI.STAMP n), .ro, false, .any⟩]⟩,
  ⟨0x70, 4, 1, fun n _ => [⟨(R.SCN_OUT.FLIP_FRAME.FRAME n), .ro, false, .any⟩]⟩,
  ⟨0x74, 4, 1, fun n _ => [⟨(R.SCN_OUT.UR_FIRST_LO.STAMP n), .ro, false, .any⟩]⟩,
  ⟨0x78, 4, 1, fun n _ => [⟨(R.SCN_OUT.UR_FIRST_HI.STAMP n), .ro, false, .any⟩]⟩,
  ⟨0x7C, 4, 1, fun n _ => [⟨(R.SCN_OUT.UR_REARM.REARM n), .w1s, false, .any⟩]⟩,
  ⟨0x800, 4, 1, fun n _ => [⟨(R.SCN_OUT.FRAMES_SENT.COUNT n), .ro, false, .any⟩]⟩,
  ⟨0x804, 4, 1, fun n _ => [⟨(R.SCN_OUT.UR_PIXELS.COUNT n), .ro, false, .any⟩]⟩,
  ⟨0x808, 4, 1, fun n _ => [⟨(R.SCN_OUT.UR_LINES.COUNT n), .ro, false, .any⟩]⟩,
  ⟨0x80C, 4, 1, fun n _ => [⟨(R.SCN_OUT.UR_FRAMES.COUNT n), .ro, false, .any⟩]⟩] ++
  [
  ⟨0x810, 4, 1, fun n _ => [⟨(R.SCN_OUT.URGENT_LINES.COUNT n), .ro, false, .any⟩]⟩,
  ⟨0x814, 4, 1, fun n _ => [⟨(R.SCN_OUT.ISO_LINES.COUNT n), .ro, false, .any⟩]⟩,
  ⟨0x818, 4, 1, fun n _ => [⟨(R.SCN_OUT.HPD_LOSS.COUNT n), .ro, false, .any⟩]⟩,
  ⟨0x81C, 4, 1, fun n _ => [⟨(R.SCN_OUT.RETRAIN.COUNT n), .ro, false, .any⟩]⟩]

/-- Registers of the SCN_PHY pages. -/
def rowsSCNPHY : List RegRow :=
  [
  ⟨0x40, 4, 1, fun n _ => [⟨(R.SCN_PHY.PHY_CFG.LANE_MAP n), .rw, false, .permutation⟩,
      ⟨(R.SCN_PHY.PHY_CFG.POL n), .rw, false, .any⟩,
      ⟨(R.SCN_PHY.PHY_CFG.AUX_POL n), .rw, false, .any⟩,
      ⟨(R.SCN_PHY.PHY_CFG.VOD n), .rw, false, (.atMost 2)⟩,
      ⟨(R.SCN_PHY.PHY_CFG.MAX_SWING n), .rw, false, .any⟩,
      ⟨(R.SCN_PHY.PHY_CFG.MAX_PRE n), .rw, false, .any⟩]⟩,
  ⟨0x44, 4, 1, fun n _ => [⟨(R.SCN_PHY.PHY_STAT.SHORT n), .ro, false, .any⟩,
      ⟨(R.SCN_PHY.PHY_STAT.OPEN n), .ro, false, .any⟩,
      ⟨(R.SCN_PHY.PHY_STAT.CR_DONE n), .ro, false, .any⟩,
      ⟨(R.SCN_PHY.PHY_STAT.EQ_DONE n), .ro, false, .any⟩,
      ⟨(R.SCN_PHY.PHY_STAT.TRAIN_ERR n), .ro, false, .any⟩,
      ⟨(R.SCN_PHY.PHY_STAT.HPD_RAW n), .ro, false, .any⟩]⟩,
  ⟨0x48, 4, 1, fun n _ => [⟨(R.SCN_PHY.LANE_TEST.GO n), .w1s, false, .any⟩,
      ⟨(R.SCN_PHY.LANE_TEST.BUSY n), .ro, false, .any⟩]⟩,
  ⟨0x4C, 4, 1, fun n _ => [⟨(R.SCN_PHY.AUX_CMD.CMD n), .rw, false, (.oneOf [0, 1, 4, 5, 8, 9])⟩,
      ⟨(R.SCN_PHY.AUX_CMD.LEN_M1 n), .rw, false, .any⟩,
      ⟨(R.SCN_PHY.AUX_CMD.ADDR n), .rw, false, .any⟩,
      ⟨(R.SCN_PHY.AUX_CMD.GO n), .w1s, false, .any⟩]⟩,
  ⟨0x50, 4, 1, fun n _ => [⟨(R.SCN_PHY.AUX_STAT.BUSY n), .ro, false, .any⟩,
      ⟨(R.SCN_PHY.AUX_STAT.REPLY n), .ro, false, .any⟩,
      ⟨(R.SCN_PHY.AUX_STAT.BYTES n), .ro, false, .any⟩]⟩,
  ⟨0x54, 4, 4, fun n i => [⟨(R.SCN_PHY.AUX_DATA.DATA n i), .rw, false, .any⟩]⟩,
  ⟨0x800, 4, 1, fun n _ => [⟨(R.SCN_PHY.TRAIN_ATTEMPTS.COUNT n), .ro, false, .any⟩]⟩,
  ⟨0x804, 4, 1, fun n _ => [⟨(R.SCN_PHY.AUX_ERR.COUNT n), .ro, false, .any⟩]⟩,
  ⟨0x808, 4, 1, fun n _ => [⟨(R.SCN_PHY.LANE_FAULT_CNT.COUNT n), .ro, false, .any⟩]⟩,
  ⟨0x80C, 4, 1, fun n _ => [⟨(R.SCN_PHY.HPD_IRQ_CNT.COUNT n), .ro, false, .any⟩]⟩]

/-- Registers of the SAF pages. -/
def rowsSAF : List RegRow :=
  [
  ⟨0x40, 4, 1, fun _ _ => [⟨R.SAF.ISL_STAT.STATE, .ro, false, .any⟩,
      ⟨R.SAF.ISL_STAT.CAUSE, .ro, false, .any⟩,
      ⟨R.SAF.ISL_STAT.RECENT, .ro, false, .any⟩]⟩,
  ⟨0x44, 4, 1, fun _ _ => [⟨R.SAF.ISL_CTRL.RESET, .w1s, false, .any⟩]⟩,
  ⟨0x48, 4, 1, fun _ _ => [⟨R.SAF.ISL_DWIN.EN, .rw, false, .any⟩]⟩,
  ⟨0x4C, 4, 1, fun _ _ => [⟨R.SAF.WDOG_CFG.WIN_MIN, .rwl, false, .any⟩,
      ⟨R.SAF.WDOG_CFG.WIN_MAX, .rwl, false, .any⟩,
      ⟨R.SAF.WDOG_CFG.ARM, .rwl, false, .any⟩]⟩,
  ⟨0x50, 4, 1, fun _ _ => [⟨R.SAF.WDOG_KICK.KEY, .wo, false, .any⟩]⟩,
  ⟨0x54, 4, 1, fun _ _ => [⟨R.SAF.SAFE_OK.EN_A, .rw, false, .any⟩,
      ⟨R.SAF.SAFE_OK.EN_B, .rw, false, .any⟩,
      ⟨R.SAF.SAFE_OK.DYN_A, .rw, false, .any⟩,
      ⟨R.SAF.SAFE_OK.DYN_B, .rw, false, .any⟩,
      ⟨R.SAF.SAFE_OK.FIELD_DROP, .rw, false, .any⟩,
      ⟨R.SAF.SAFE_OK.FORCED, .w1c, false, .any⟩]⟩,
  ⟨0x58, 4, 1, fun _ _ => [⟨R.SAF.CLK_STAT.ISL, .w1c, false, .any⟩,
      ⟨R.SAF.CLK_STAT.CMP, .w1c, false, .any⟩,
      ⟨R.SAF.CLK_STAT.REF, .w1c, false, .any⟩]⟩,
  ⟨0x5C, 4, 1, fun _ _ => [⟨R.SAF.MODE_REQ.DEGRADE, .w1s, false, .any⟩,
      ⟨R.SAF.MODE_REQ.AGREE_RUN, .w1s, false, .any⟩]⟩,
  ⟨0x60, 4, 1, fun _ _ => [⟨R.SAF.PIPE_DEGR.PIPES, .rw, false, .any⟩]⟩,
  ⟨0x64, 4, 1, fun _ _ => [⟨R.SAF.DWIN_BASE.BASE, .rw, false, .any⟩]⟩,
  ⟨0x800, 4, 1, fun _ _ => [⟨R.SAF.LOCKSTEP_ERR.COUNT, .ro, false, .any⟩]⟩,
  ⟨0x804, 4, 1, fun _ _ => [⟨R.SAF.ECC_CORR.COUNT, .ro, false, .any⟩]⟩,
  ⟨0x808, 4, 1, fun _ _ => [⟨R.SAF.ECC_UNCORR.COUNT, .ro, false, .any⟩]⟩,
  ⟨0x80C, 4, 1, fun _ _ => [⟨R.SAF.WDOG_FAULT.COUNT, .ro, false, .any⟩]⟩,
  ⟨0x810, 4, 1, fun _ _ => [⟨R.SAF.CLK_FAULT_CNT.COUNT, .ro, false, .any⟩]⟩]

/-- Registers of the SAF_P pages. -/
def rowsSAFP : List RegRow :=
  [
  ⟨0x40, 4, 1, fun n _ => [⟨(R.SAF_P.PLANE_CTRL.SWAP n), .w1s, false, .any⟩,
      ⟨(R.SAF_P.PLANE_CTRL.CANCEL n), .w1s, false, .any⟩]⟩,
  ⟨0x44, 4, 1, fun n _ => [⟨(R.SAF_P.PLANE_STAT.PENDING n), .ro, false, .any⟩,
      ⟨(R.SAF_P.PLANE_STAT.RESULT n), .ro, false, .any⟩]⟩,
  ⟨0x48, 4, 1, fun n _ => [⟨(R.SAF_P.TABLE.ADDR n), .rw, true, .any⟩,
      ⟨(R.SAF_P.TABLE.EN n), .rw, true, .any⟩]⟩,
  ⟨0x4C, 4, 1, fun n _ => [⟨(R.SAF_P.DEG_BG.RGB n), .rw, true, .any⟩,
      ⟨(R.SAF_P.DEG_BG.USE n), .rw, true, .any⟩]⟩,
  ⟨0x100, 0x20, 16, fun n i => [⟨(R.SAF_P.RG_XY.X n i), .rw, true, .any⟩,
      ⟨(R.SAF_P.RG_XY.Y n i), .rw, true, .any⟩]⟩,
  ⟨0x104, 0x20, 16, fun n i => [⟨(R.SAF_P.RG_WH.W n i), .rw, true, (.within 1 4096)⟩,
      ⟨(R.SAF_P.RG_WH.H n i), .rw, true, (.within 1 4096)⟩]⟩,
  ⟨0x108, 0x20, 16, fun n i => [⟨(R.SAF_P.RG_CFG.EN n i), .rw, true, .any⟩,
      ⟨(R.SAF_P.RG_CFG.MODE n i), .rw, true, .any⟩,
      ⟨(R.SAF_P.RG_CFG.THRESH n i), .rw, true, (.atLeast 1)⟩,
      ⟨(R.SAF_P.RG_CFG.ACT n i), .rw, true, .any⟩]⟩,
  ⟨0x10C, 0x20, 16, fun n i => [⟨(R.SAF_P.RG_EXPECT.CRC n i), .rw, true, .any⟩]⟩,
  ⟨0x110, 0x20, 16, fun n i => [⟨(R.SAF_P.RG_CRC.CRC n i), .ro, false, .any⟩]⟩,
  ⟨0x114, 0x20, 16, fun n i => [⟨(R.SAF_P.RG_STAT.RUN n i), .ro, false, .any⟩,
      ⟨(R.SAF_P.RG_STAT.VALID n i), .ro, false, .any⟩,
      ⟨(R.SAF_P.RG_STAT.HAVE_REF n i), .ro, false, .any⟩,
      ⟨(R.SAF_P.RG_STAT.LAST_OK n i), .ro, false, .any⟩]⟩,
  ⟨0x800, 4, 16, fun n i => [⟨(R.SAF_P.MISMATCH_CNT.COUNT n i), .ro, false, .any⟩]⟩,
  ⟨0x840, 4, 1, fun n _ => [⟨(R.SAF_P.FRAMES_CHECKED.COUNT n), .ro, false, .any⟩]⟩,
  ⟨0x844, 4, 1, fun n _ => [⟨(R.SAF_P.PLANE_ECC_CNT.COUNT n), .ro, false, .any⟩]⟩]

/-- Registers of the FAB pages. -/
def rowsFAB : List RegRow :=
  [
  ⟨0x40, 4, 1, fun _ _ => [⟨R.FAB.ISO_CFG.RESERVE, .rw, false, (.within 8 32)⟩]⟩,
  ⟨0x44, 4, 1, fun _ _ => [⟨R.FAB.CREDIT_STAT.FULL, .ro, false, .any⟩]⟩,
  ⟨0x48, 4, 1, fun _ _ => [⟨R.FAB.PROGRESS.LIMIT, .rw, false, (.atLeast 1)⟩,
      ⟨R.FAB.PROGRESS.LAST, .ro, false, .any⟩]⟩,
  ⟨0x800, 4, 1, fun _ _ => [⟨R.FAB.ALL_FULL_CNT.COUNT, .ro, false, .any⟩]⟩,
  ⟨0x804, 4, 1, fun _ _ => [⟨R.FAB.STALL_CNT.COUNT, .ro, false, .any⟩]⟩,
  ⟨0x808, 4, 1, fun _ _ => [⟨R.FAB.ISO_SLOT_CNT.COUNT, .ro, false, .any⟩]⟩]

/-- Registers of the FAB_ARB pages. -/
def rowsFABARB : List RegRow :=
  [
  ⟨0x40, 4, 1, fun _ _ => [⟨R.FAB_ARB.ARB_SEL.ARB, .rw, false, .any⟩,
      ⟨R.FAB_ARB.ARB_SEL.REQ, .rw, false, .any⟩,
      ⟨R.FAB_ARB.ARB_SEL.CLEAR, .w1s, false, .any⟩,
      ⟨R.FAB_ARB.ARB_SEL.SNAP, .w1s, false, .any⟩]⟩,
  ⟨0x44, 4, 1, fun _ _ => [⟨R.FAB_ARB.ARB_GRANTS.COUNT, .ro, false, .any⟩]⟩,
  ⟨0x48, 4, 1, fun _ _ => [⟨R.FAB_ARB.ARB_WAITS.COUNT, .ro, false, .any⟩]⟩,
  ⟨0x4C, 4, 1, fun _ _ => [⟨R.FAB_ARB.ARB_LONGEST.CYCLES, .ro, false, .any⟩]⟩]

/-- Registers of the LCK pages. -/
def rowsLCK : List RegRow :=
  [
  ⟨0x40, 4, 1, fun _ _ => [⟨R.LCK.HOLD_MAX.LINES, .rw, false, .any⟩]⟩,
  ⟨0x44, 4, 2, fun _ i => [⟨(R.LCK.INST.LOCKS i), .rw, false, .any⟩]⟩,
  ⟨0x800, 4, 1, fun _ _ => [⟨R.LCK.ACQ_CNT.COUNT, .ro, false, .any⟩]⟩,
  ⟨0x804, 4, 1, fun _ _ => [⟨R.LCK.CYCLE_CNT.COUNT, .ro, false, .any⟩]⟩,
  ⟨0x808, 4, 1, fun _ _ => [⟨R.LCK.POISON_CNT.COUNT, .ro, false, .any⟩]⟩,
  ⟨0x80C, 4, 1, fun _ _ => [⟨R.LCK.HOLD_EXP_CNT.COUNT, .ro, false, .any⟩]⟩]

/-- Registers of the LCK_TABLE pages. -/
def rowsLCKTABLE : List RegRow :=
  [
  ⟨0x40, 4, 64, fun _ i => [⟨(R.LCK_TABLE.LK_STATE.STATE i), .ro, false, .any⟩,
      ⟨(R.LCK_TABLE.LK_STATE.EXPIRED i), .ro, false, .any⟩,
      ⟨(R.LCK_TABLE.LK_STATE.OWNER i), .ro, false, .any⟩,
      ⟨(R.LCK_TABLE.LK_STATE.WAITERS i), .ro, false, .any⟩,
      ⟨(R.LCK_TABLE.LK_STATE.MINE i), .ro, false, .any⟩,
      ⟨(R.LCK_TABLE.LK_STATE.HELD_LINES i), .ro, false, .any⟩]⟩]

/-- Registers of the LCK_PORTS pages. -/
def rowsLCKPORTS : List RegRow :=
  [
  ⟨0x40, 0x20, 27, fun _ i => [⟨(R.LCK_PORTS.LK_ACQ.LOCK i), .wo, false, .any⟩,
      ⟨(R.LCK_PORTS.LK_ACQ.BLOCK i), .wo, false, .any⟩]⟩,
  ⟨0x44, 0x20, 27, fun _ i => [⟨(R.LCK_PORTS.LK_REL.LOCK i), .wo, false, .any⟩,
      ⟨(R.LCK_PORTS.LK_REL.ALL i), .wo, false, .any⟩]⟩,
  ⟨0x48, 0x20, 27, fun _ i => [⟨(R.LCK_PORTS.LK_CANCEL.CANCEL i), .w1s, false, .any⟩]⟩,
  ⟨0x4C, 0x20, 27, fun _ i => [⟨(R.LCK_PORTS.LK_RESULT.CODE i), .ro, false, .any⟩,
      ⟨(R.LCK_PORTS.LK_RESULT.WAITING i), .ro, false, .any⟩,
      ⟨(R.LCK_PORTS.LK_RESULT.LOCK i), .ro, false, .any⟩,
      ⟨(R.LCK_PORTS.LK_RESULT.SEQ i), .ro, false, .any⟩]⟩,
  ⟨0x50, 0x20, 27, fun _ i => [⟨(R.LCK_PORTS.LK_HELD_LO.LOCKS i), .ro, false, .any⟩]⟩,
  ⟨0x54, 0x20, 27, fun _ i => [⟨(R.LCK_PORTS.LK_HELD_HI.LOCKS i), .ro, false, .any⟩]⟩]

/-- Registers of the DRC pages. -/
def rowsDRC : List RegRow :=
  [
  ⟨0x40, 4, 1, fun _ _ => [⟨R.DRC.MEM_CFG.DENSITY, .rwl, false, .any⟩,
      ⟨R.DRC.MEM_CFG.RANKS, .rwl, false, .any⟩,
      ⟨R.DRC.MEM_CFG.PICK, .rw, false, .any⟩,
      ⟨R.DRC.MEM_CFG.ROW_RUN_MAX, .rw, false, (.atLeast 1)⟩]⟩,
  ⟨0x44, 4, 1, fun _ _ => [⟨R.DRC.CAPACITY.GIB, .ro, false, .any⟩,
      ⟨R.DRC.CAPACITY.USABLE_2M, .ro, false, .any⟩]⟩,
  ⟨0x48, 4, 1, fun _ _ => [⟨R.DRC.REF_CFG.POSTPONE_MAX, .rw, false, (.within 1 8)⟩]⟩,
  ⟨0x4C, 4, 1, fun _ _ => [⟨R.DRC.TRAIN.GO, .w1s, false, .any⟩,
      ⟨R.DRC.TRAIN.BUSY, .ro, false, .any⟩,
      ⟨R.DRC.TRAIN.DONE, .ro, false, .any⟩,
      ⟨R.DRC.TRAIN.FAIL, .ro, false, .any⟩,
      ⟨R.DRC.TRAIN.FAILED, .ro, false, .any⟩]⟩,
  ⟨0x50, 4, 1, fun _ _ => [⟨R.DRC.RETRAIN.FRAMES, .rw, false, (.atLeast 1)⟩,
      ⟨R.DRC.RETRAIN.DRIFT_C, .rw, false, .any⟩,
      ⟨R.DRC.RETRAIN.EN, .rw, false, .any⟩]⟩,
  ⟨0x54, 4, 1, fun _ _ => [⟨R.DRC.LP_CFG.SR_EN, .rw, false, .any⟩,
      ⟨R.DRC.LP_CFG.SR_IDLE, .rw, false, (.atLeast 1)⟩]⟩,
  ⟨0x58, 4, 1, fun _ _ => [⟨R.DRC.REF_STAT.RATE, .ro, false, .any⟩,
      ⟨R.DRC.REF_STAT.REF_BOUND, .ro, false, .any⟩]⟩,
  ⟨0x800, 4, 1, fun _ _ => [⟨R.DRC.REFRESH_FORCED.COUNT, .ro, false, .any⟩]⟩,
  ⟨0x804, 4, 1, fun _ _ => [⟨R.DRC.REF_MIDLINE.COUNT, .ro, false, .any⟩]⟩,
  ⟨0x808, 4, 1, fun _ _ => [⟨R.DRC.RETRAIN_CNT.COUNT, .ro, false, .any⟩]⟩,
  ⟨0x80C, 4, 1, fun _ _ => [⟨R.DRC.SR_ENTRY.COUNT, .ro, false, .any⟩]⟩,
  ⟨0x810, 4, 1, fun _ _ => [⟨R.DRC.SR_CANCEL.COUNT, .ro, false, .any⟩]⟩,
  ⟨0x814, 4, 1, fun _ _ => [⟨R.DRC.CE_CNT.COUNT, .ro, false, .any⟩]⟩,
  ⟨0x818, 4, 1, fun _ _ => [⟨R.DRC.UE_CNT.COUNT, .ro, false, .any⟩]⟩]

/-- Registers of the DRC_ECC pages. -/
def rowsDRCECC : List RegRow :=
  [
  ⟨0x40, 8, 8, fun _ i => [⟨(R.DRC_ECC.REG_BASE.EN i), .rws, false, .any⟩,
      ⟨(R.DRC_ECC.REG_BASE.INIT i), .rws, false, .any⟩,
      ⟨(R.DRC_ECC.REG_BASE.INIT_BUSY i), .ro, false, .any⟩,
      ⟨(R.DRC_ECC.REG_BASE.ADDR i), .rws, false, .any⟩]⟩,
  ⟨0x44, 8, 8, fun _ i => [⟨(R.DRC_ECC.REG_SIZE.ADDR i), .rws, false, .any⟩]⟩,
  ⟨0x80, 4, 1, fun _ _ => [⟨R.DRC_ECC.ECC_CARVE.SIZE, .rws, false, .any⟩,
      ⟨R.DRC_ECC.ECC_CARVE.ECC_LOCK, .rwl, false, .any⟩]⟩,
  ⟨0x84, 4, 1, fun _ _ => [⟨R.DRC_ECC.ERR_ADDR_LO.ADDR, .ro, false, .any⟩]⟩,
  ⟨0x88, 4, 1, fun _ _ => [⟨R.DRC_ECC.ERR_ADDR_HI.ADDR, .ro, false, .any⟩]⟩,
  ⟨0x8C, 4, 1, fun _ _ => [⟨R.DRC_ECC.ERR_INFO.VALID, .w1c, false, .any⟩,
      ⟨R.DRC_ECC.ERR_INFO.UNCORR, .ro, false, .any⟩,
      ⟨R.DRC_ECC.ERR_INFO.PORT, .ro, false, .any⟩,
      ⟨R.DRC_ECC.ERR_INFO.CH, .ro, false, .any⟩]⟩]

/-- Registers of the DRC_DC pages. -/
def rowsDRCDC : List RegRow :=
  [
  ⟨0x40, 4, 1, fun n _ => [⟨(R.DRC_DC.DC_STAT.RATE n), .ro, false, .any⟩,
      ⟨(R.DRC_DC.DC_STAT.SR n), .ro, false, .any⟩,
      ⟨(R.DRC_DC.DC_STAT.WRITE_DIR n), .ro, false, .any⟩,
      ⟨(R.DRC_DC.DC_STAT.RETRAINING n), .ro, false, .any⟩,
      ⟨(R.DRC_DC.DC_STAT.TEMP n), .ro, false, .any⟩,
      ⟨(R.DRC_DC.DC_STAT.QUEUED n), .ro, false, .any⟩]⟩,
  ⟨0x44, 4, 1, fun n _ => [⟨(R.DRC_DC.DEBT.D n), .ro, false, .any⟩,
      ⟨(R.DRC_DC.DEBT.LIMIT n), .ro, false, .any⟩]⟩,
  ⟨0x800, 4, 1, fun n _ => [⟨(R.DRC_DC.RD_CNT.COUNT n), .ro, false, .any⟩]⟩,
  ⟨0x804, 4, 1, fun n _ => [⟨(R.DRC_DC.WR_CNT.COUNT n), .ro, false, .any⟩]⟩,
  ⟨0x808, 4, 1, fun n _ => [⟨(R.DRC_DC.ROW_COALESCE.COUNT n), .ro, false, .any⟩]⟩,
  ⟨0x80C, 4, 1, fun n _ => [⟨(R.DRC_DC.HAZARD_WAIT.COUNT n), .ro, false, .any⟩]⟩,
  ⟨0x810, 4, 1, fun n _ => [⟨(R.DRC_DC.REF_UNITS.COUNT n), .ro, false, .any⟩]⟩,
  ⟨0x814, 4, 1, fun n _ => [⟨(R.DRC_DC.LINK_CE.COUNT n), .ro, false, .any⟩]⟩,
  ⟨0x818, 4, 1, fun n _ => [⟨(R.DRC_DC.RETRAIN_US.COUNT n), .ro, false, .any⟩]⟩]

/-- Registers of the DMA pages. -/
def rowsDMA : List RegRow :=
  [
  ⟨0x40, 4, 1, fun _ _ => [⟨R.DMA.DMA_CFG.MODE, .rw, false, .any⟩]⟩,
  ⟨0x44, 4, 1, fun _ _ => [⟨R.DMA.ENG_STAT.ACTIVE, .ro, false, .any⟩,
      ⟨R.DMA.ENG_STAT.SLOTS, .ro, false, .any⟩]⟩,
  ⟨0x800, 4, 1, fun _ _ => [⟨R.DMA.DESC_CNT.COUNT, .ro, false, .any⟩]⟩,
  ⟨0x804, 4, 1, fun _ _ => [⟨R.DMA.STOP_CNT.COUNT, .ro, false, .any⟩]⟩,
  ⟨0x808, 4, 1, fun _ _ => [⟨R.DMA.ERR_CNT.COUNT, .ro, false, .any⟩]⟩,
  ⟨0x80C, 4, 1, fun _ _ => [⟨R.DMA.MISMATCH_CNT.COUNT, .ro, false, .any⟩]⟩,
  ⟨0x810, 4, 1, fun _ _ => [⟨R.DMA.PREEMPT_CNT.COUNT, .ro, false, .any⟩]⟩,
  ⟨0x814, 4, 1, fun _ _ => [⟨R.DMA.START_IGNORED.COUNT, .ro, false, .any⟩]⟩]

/-- Registers of the DMA_CH pages. -/
def rowsDMACH : List RegRow :=
  [
  ⟨0x40, 0x10, 32, fun _ i => [⟨(R.DMA_CH.CH_CFG.PRIO_MAX i), .rw, false, .any⟩,
      ⟨(R.DMA_CH.CH_CFG.BUF_MAX i), .rw, false, (.within 1 256)⟩]⟩,
  ⟨0x44, 0x10, 32, fun _ i => [⟨(R.DMA_CH.CH_CTRL.STOP i), .w1s, false, .any⟩]⟩,
  ⟨0x48, 0x10, 32, fun _ i => [⟨(R.DMA_CH.CH_STAT.STATE i), .ro, false, .any⟩,
      ⟨(R.DMA_CH.CH_STAT.QUEUED i), .ro, false, .any⟩,
      ⟨(R.DMA_CH.CH_STAT.OWNER i), .ro, false, .any⟩,
      ⟨(R.DMA_CH.CH_STAT.LAST_ERR i), .ro, false, .any⟩]⟩,
  ⟨0x4C, 0x10, 32, fun _ i => [⟨(R.DMA_CH.CH_SEQ.SEQ i), .ro, false, .any⟩]⟩,
  ⟨0x800, 8, 32, fun _ i => [⟨(R.DMA_CH.BYTES_KIB.COUNT i), .ro, false, .any⟩]⟩,
  ⟨0x804, 8, 32, fun _ i => [⟨(R.DMA_CH.CH_DESC_CNT.COUNT i), .ro, false, .any⟩]⟩]

/-- Registers of the SEC pages. -/
def rowsSEC : List RegRow :=
  [
  ⟨0x40, 4, 1, fun _ _ => [⟨R.SEC.SRAM_WMARK.WMARK, .rws, false, (.atMost 0x200)⟩]⟩,
  ⟨0x44, 4, 1, fun _ _ => [⟨R.SEC.DRAM_WMARK.WMARK, .rws, false, .any⟩,
      ⟨R.SEC.DRAM_WMARK.LOCK, .rwl, false, .any⟩]⟩,
  ⟨0x48, 4, 1, fun _ _ => [⟨R.SEC.ENTRY_BASE.OFFSET, .rws, false, .any⟩]⟩,
  ⟨0x4C, 4, 1, fun _ _ => [⟨R.SEC.ENTRY_SIZE.SIZE, .rws, false, .any⟩,
      ⟨R.SEC.ENTRY_SIZE.ISL_SECURE, .rws, false, .any⟩]⟩,
  ⟨0x50, 4, 1, fun _ _ => [⟨R.SEC.SIRQ_VEC.OFFSET, .rws, false, .any⟩]⟩,
  ⟨0x54, 4, 1, fun _ _ => [⟨R.SEC.CLAIM_BLOCK.BLOCK, .rws, false, (.within 1 0x15)⟩,
      ⟨R.SEC.CLAIM_BLOCK.CLEAR, .w1s, false, .any⟩,
      ⟨R.SEC.CLAIM_BLOCK.SET, .w1s, false, .any⟩]⟩,
  ⟨0x58, 4, 1, fun _ _ => [⟨R.SEC.AUTH.FAIL, .w1s, false, .any⟩]⟩,
  ⟨0x5C, 4, 1, fun _ _ => [⟨R.SEC.FAULT_ADDR_LO.ADDR, .w1c, false, .any⟩]⟩,
  ⟨0x60, 4, 1, fun _ _ => [⟨R.SEC.FAULT_ADDR_HI.ADDR, .w1c, false, .any⟩]⟩,
  ⟨0x800, 4, 1, fun _ _ => [⟨R.SEC.WMARK_FAULT.COUNT, .ro, false, .any⟩]⟩,
  ⟨0x804, 4, 1, fun _ _ => [⟨R.SEC.GATE_FAULT.COUNT, .ro, false, .any⟩]⟩,
  ⟨0x808, 4, 1, fun _ _ => [⟨R.SEC.CLAIM_REJECT.COUNT, .ro, false, .any⟩]⟩]

/-- Registers of the SEC_WDOG pages. -/
def rowsSECWDOG : List RegRow :=
  [
  ⟨0x40, 4, 1, fun _ _ => [⟨R.SEC_WDOG.WD_CFG.TIMEOUT, .rws, false, (.within 10 10000)⟩,
      ⟨R.SEC_WDOG.WD_CFG.ARMED, .ro, false, .any⟩,
      ⟨R.SEC_WDOG.WD_CFG.DBG_PAUSE, .rws, false, .any⟩]⟩,
  ⟨0x44, 4, 1, fun _ _ => [⟨R.SEC_WDOG.WD_KICK.KEY, .wo, false, .any⟩]⟩,
  ⟨0x48, 4, 1, fun _ _ => [⟨R.SEC_WDOG.WD_STAT.ELAPSED, .ro, false, .any⟩,
      ⟨R.SEC_WDOG.WD_STAT.NEXT_KEY, .ro, false, .any⟩]⟩]

/-- Registers of the SEC_FUSE pages. -/
def rowsSECFUSE : List RegRow :=
  [
  ⟨0x40, 4, 12, fun _ i => [⟨(R.SEC_FUSE.KEY_DIGEST.DIGEST i), .ro, false, .any⟩]⟩,
  ⟨0x70, 4, 1, fun _ _ => [⟨R.SEC_FUSE.ISL_ROLLBACK.COUNT, .ro, false, .any⟩,
      ⟨R.SEC_FUSE.ISL_ROLLBACK.ADVANCE, .w1s, false, .any⟩]⟩,
  ⟨0x74, 4, 1, fun _ _ => [⟨R.SEC_FUSE.CC_ROLLBACK.COUNT, .ro, false, .any⟩,
      ⟨R.SEC_FUSE.CC_ROLLBACK.ADVANCE, .w1s, false, .any⟩]⟩]

/-- Registers of the CTL pages. -/
def rowsCTL : List RegRow :=
  [
  ⟨0x40, 4, 1, fun _ _ => [⟨R.CTL.CC_CTRL.RELEASE, .rws, false, .any⟩,
      ⟨R.CTL.CC_CTRL.RESET, .w1s, false, .any⟩]⟩,
  ⟨0x44, 4, 4, fun _ i => [⟨(R.CTL.CC_VEC.ADDR i), .rws, false, .any⟩]⟩,
  ⟨0x54, 4, 1, fun _ _ => [⟨R.CTL.CC_STAT.SECURE, .ro, false, .any⟩,
      ⟨R.CTL.CC_STAT.RUNNING, .ro, false, .any⟩,
      ⟨R.CTL.CC_STAT.HALTED, .ro, false, .any⟩]⟩,
  ⟨0x58, 4, 1, fun _ _ => [⟨R.CTL.CC_CLAIM.CORES, .rws, false, .any⟩]⟩,
  ⟨0x800, 4, 1, fun _ _ => [⟨R.CTL.SRAM_CE.COUNT, .ro, false, .any⟩]⟩,
  ⟨0x804, 4, 1, fun _ _ => [⟨R.CTL.SRAM_UE.COUNT, .ro, false, .any⟩]⟩]

/-- Registers of the TCH_CFG pages. -/
def rowsTCHCFG : List RegRow :=
  [
  ⟨0x40, 4, 1, fun n _ => [⟨(R.TCH_CFG.TF_CFG.MODE n), .rw, true, .any⟩,
      ⟨(R.TCH_CFG.TF_CFG.SELF_EN n), .rw, true, .any⟩,
      ⟨(R.TCH_CFG.TF_CFG.GUARD_EN n), .rw, true, .any⟩,
      ⟨(R.TCH_CFG.TF_CFG.COMBINE n), .rw, true, .any⟩,
      ⟨(R.TCH_CFG.TF_CFG.TEST_AT_EN n), .rw, true, .any⟩,
      ⟨(R.TCH_CFG.TF_CFG.RATE_HZ n), .rw, true, (.within 25 240)⟩,
      ⟨(R.TCH_CFG.TF_CFG.SWING n), .rw, true, (.within 3 18)⟩]⟩,
  ⟨0x44, 4, 1, fun n _ => [⟨(R.TCH_CFG.TIMING.STEP_US n), .rw, true, (.atLeast 20)⟩,
      ⟨(R.TCH_CFG.TIMING.SELF_US n), .rw, true, (.within 100 2000)⟩]⟩,
  ⟨0x48, 4, 1, fun n _ => [⟨(R.TCH_CFG.WINDOW.LINE n), .rw, true, .any⟩,
      ⟨(R.TCH_CFG.WINDOW.LEN n), .rw, true, (.atLeast 1)⟩,
      ⟨(R.TCH_CFG.WINDOW.BASE n), .rw, true, (.oneOf [0, 8, 9, 10, 11, 12, 13, 14, 15])⟩]⟩,
  ⟨0x4C, 4, 1, fun n _ => [⟨(R.TCH_CFG.THRESH.TOUCH_TH n), .rw, true, (.atLeast 1)⟩,
      ⟨(R.TCH_CFG.THRESH.RELEASE_TH n), .rw, true, .any⟩]⟩,
  ⟨0x50, 4, 1, fun n _ => [⟨(R.TCH_CFG.THRESH2.SELF_TH n), .rw, true, (.atLeast 1)⟩,
      ⟨(R.TCH_CFG.THRESH2.NEG_TH n), .rw, true, .any⟩]⟩,
  ⟨0x54, 4, 1, fun n _ => [⟨(R.TCH_CFG.BASE_CFG.BASE_SUSPECT n), .rw, true, .any⟩,
      ⟨(R.TCH_CFG.BASE_CFG.HOLD_S n), .rw, true, .any⟩]⟩,
  ⟨0x58, 4, 1, fun n _ => [⟨(R.TCH_CFG.TRACK.MATCH_DIST n), .rw, true, .any⟩,
      ⟨(R.TCH_CFG.TRACK.MOVE_MIN n), .rw, true, .any⟩]⟩,
  ⟨0x5C, 4, 1, fun n _ => [⟨(R.TCH_CFG.WAKE.GESTURE n), .rw, true, .any⟩,
      ⟨(R.TCH_CFG.WAKE.WAKE_SRC n), .rw, true, .any⟩]⟩,
  ⟨0x400, 0x10, 64, fun n i => [⟨(R.TCH_CFG.ZONE_X.LO n i), .rw, true, .any⟩,
      ⟨(R.TCH_CFG.ZONE_X.HI n i), .rw, true, .any⟩]⟩,
  ⟨0x404, 0x10, 64, fun n i => [⟨(R.TCH_CFG.ZONE_Y.LO n i), .rw, true, .any⟩,
      ⟨(R.TCH_CFG.ZONE_Y.HI n i), .rw, true, .any⟩]⟩,
  ⟨0x408, 0x10, 64, fun n i => [⟨(R.TCH_CFG.ZONE_ACT.EN n i), .rw, true, .any⟩,
      ⟨(R.TCH_CFG.ZONE_ACT.HAPTIC n i), .rw, true, .any⟩,
      ⟨(R.TCH_CFG.ZONE_ACT.CHIME n i), .rw, true, .any⟩,
      ⟨(R.TCH_CFG.ZONE_ACT.EFFECT n i), .rw, true, (.atMost 143)⟩,
      ⟨(R.TCH_CFG.ZONE_ACT.PRIO n i), .rw, true, .any⟩,
      ⟨(R.TCH_CFG.ZONE_ACT.BUS n i), .rw, true, .any⟩,
      ⟨(R.TCH_CFG.ZONE_ACT.CHIME_IDX n i), .rw, true, .any⟩]⟩]

/-- Registers of the TCH_ST pages. -/
def rowsTCHST : List RegRow :=
  [
  ⟨0x40, 4, 1, fun n _ => [⟨(R.TCH_ST.TF_STAT.STATE n), .ro, false, .any⟩,
      ⟨(R.TCH_ST.TF_STAT.CONTACTS n), .ro, false, .any⟩,
      ⟨(R.TCH_ST.TF_STAT.WATER n), .ro, false, .any⟩,
      ⟨(R.TCH_ST.TF_STAT.REF_VALID n), .ro, false, .any⟩,
      ⟨(R.TCH_ST.TF_STAT.UNCHECKED n), .ro, false, .any⟩,
      ⟨(R.TCH_ST.TF_STAT.HELD_START n), .ro, false, .any⟩,
      ⟨(R.TCH_ST.TF_STAT.PARTNER n), .ro, false, .any⟩]⟩,
  ⟨0x44, 4, 1, fun n _ => [⟨(R.TCH_ST.TEST_RESULT.FOUND n), .ro, false, .any⟩,
      ⟨(R.TCH_ST.TEST_RESULT.LINES n), .ro, false, .any⟩]⟩,
  ⟨0x48, 4, 3, fun n i => [⟨(R.TCH_ST.FAULT_MAP.LINES n i), .ro, false, .any⟩]⟩,
  ⟨0x54, 4, 1, fun n _ => [⟨(R.TCH_ST.SUBSCR.RING n), .ro, false, .any⟩,
      ⟨(R.TCH_ST.SUBSCR.NONE n), .ro, false, .any⟩]⟩,
  ⟨0x58, 4, 1, fun n _ => [⟨(R.TCH_ST.TF_CMD.RECAL n), .w1s, false, .any⟩,
      ⟨(R.TCH_ST.TF_CMD.SELF_TEST n), .w1s, false, .any⟩]⟩,
  ⟨0x5C, 4, 1, fun n _ => [⟨(R.TCH_ST.SCAN_FRAME.COUNT n), .ro, false, .any⟩]⟩,
  ⟨0x800, 4, 1, fun n _ => [⟨(R.TCH_ST.FRAMES.COUNT n), .ro, false, .any⟩]⟩,
  ⟨0x804, 4, 1, fun n _ => [⟨(R.TCH_ST.DOWN_CNT.COUNT n), .ro, false, .any⟩]⟩,
  ⟨0x808, 4, 1, fun n _ => [⟨(R.TCH_ST.REBASE_CNT.COUNT n), .ro, false, .any⟩]⟩,
  ⟨0x80C, 4, 1, fun n _ => [⟨(R.TCH_ST.STUCK_CNT.COUNT n), .ro, false, .any⟩]⟩,
  ⟨0x810, 4, 1, fun n _ => [⟨(R.TCH_ST.WATER_FRAMES.COUNT n), .ro, false, .any⟩]⟩,
  ⟨0x814, 4, 1, fun n _ => [⟨(R.TCH_ST.OVER_CNT.COUNT n), .ro, false, .any⟩]⟩,
  ⟨0x818, 4, 1, fun n _ => [⟨(R.TCH_ST.ZONE_TRIG.COUNT n), .ro, false, .any⟩]⟩,
  ⟨0x81C, 4, 1, fun n _ => [⟨(R.TCH_ST.SUSPECT_CNT.COUNT n), .ro, false, .any⟩]⟩,
  ⟨0x820, 4, 1, fun n _ => [⟨(R.TCH_ST.WIN_STALL.COUNT n), .ro, false, .any⟩]⟩]

/-- Registers of the HAP pages. -/
def rowsHAP : List RegRow :=
  [
  ⟨0x40, 4, 1, fun _ _ => [⟨R.HAP.BOOST.VBOOST, .rw, true, (.within 20 64)⟩,
      ⟨R.HAP.BOOST.EN, .rw, true, .any⟩]⟩,
  ⟨0x44, 4, 1, fun _ _ => [⟨R.HAP.WINDOW.WIN_MS, .rw, true, (.within 100 10000)⟩]⟩,
  ⟨0x48, 4, 1, fun _ _ => [⟨R.HAP.THERM.TH_LIMIT, .rw, true, (.atLeast 1)⟩,
      ⟨R.HAP.THERM.TAU_S, .rw, true, (.atLeast 1)⟩,
      ⟨R.HAP.THERM.HEAT_K, .rw, true, .any⟩]⟩,
  ⟨0x4C, 4, 1, fun _ _ => [⟨R.HAP.ISL_PLAY.EFFECT, .wo, false, (.atMost 143)⟩,
      ⟨R.HAP.ISL_PLAY.MASK, .wo, false, .any⟩,
      ⟨R.HAP.ISL_PLAY.GO, .wo, false, .any⟩]⟩,
  ⟨0x50, 4, 1, fun _ _ => [⟨R.HAP.HAP_STAT.PLAYING, .ro, false, .any⟩,
      ⟨R.HAP.HAP_STAT.FAULTED, .ro, false, .any⟩,
      ⟨R.HAP.HAP_STAT.HOLD, .ro, false, .any⟩,
      ⟨R.HAP.HAP_STAT.RAIL, .ro, false, .any⟩]⟩,
  ⟨0x800, 4, 1, fun _ _ => [⟨R.HAP.EFF_ERR.COUNT, .ro, false, .any⟩]⟩,
  ⟨0x804, 4, 1, fun _ _ => [⟨R.HAP.ISL_PLAYS.COUNT, .ro, false, .any⟩]⟩]

/-- Registers of the HAP_CH pages. -/
def rowsHAPCH : List RegRow :=
  [
  ⟨0x40, 0x10, 8, fun _ i => [⟨(R.HAP_CH.CH_CFG.EN i), .rw, true, .any⟩,
      ⟨(R.HAP_CH.CH_CFG.MODE i), .rw, true, .any⟩,
      ⟨(R.HAP_CH.CH_CFG.INVERT i), .rw, true, .any⟩,
      ⟨(R.HAP_CH.CH_CFG.POL_REF i), .rw, true, .any⟩,
      ⟨(R.HAP_CH.CH_CFG.TEST_AT_EN i), .rw, true, .any⟩,
      ⟨(R.HAP_CH.CH_CFG.VLIM i), .rw, true, (.atLeast 1)⟩]⟩,
  ⟨0x44, 0x10, 8, fun _ i => [⟨(R.HAP_CH.CH_LIM.ON_MAX i), .rw, true, (.atLeast 1)⟩,
      ⟨(R.HAP_CH.CH_LIM.VT_MAX i), .rw, true, (.atLeast 1)⟩]⟩,
  ⟨0x48, 0x10, 8, fun _ i => [⟨(R.HAP_CH.CH_STAT.STATE i), .ro, false, .any⟩,
      ⟨(R.HAP_CH.CH_STAT.EFFECT i), .ro, false, .any⟩,
      ⟨(R.HAP_CH.CH_STAT.PRIO i), .ro, false, .any⟩,
      ⟨(R.HAP_CH.CH_STAT.PENDING i), .ro, false, .any⟩,
      ⟨(R.HAP_CH.CH_STAT.FAULT i), .ro, false, .any⟩]⟩,
  ⟨0x4C, 0x10, 8, fun _ i => [⟨(R.HAP_CH.CH_CMD.TEST i), .w1s, false, .any⟩]⟩,
  ⟨0x800, 0x10, 8, fun _ i => [⟨(R.HAP_CH.PLAYED.COUNT i), .ro, false, .any⟩]⟩,
  ⟨0x804, 0x10, 8, fun _ i => [⟨(R.HAP_CH.HAP_DROPPED.COUNT i), .ro, false, .any⟩]⟩,
  ⟨0x808, 0x10, 8, fun _ i => [⟨(R.HAP_CH.CUT.COUNT i), .ro, false, .any⟩]⟩,
  ⟨0x80C, 0x10, 8, fun _ i => [⟨(R.HAP_CH.PRIO_DROP.COUNT i), .ro, false, .any⟩]⟩]

/-- Registers of the HAP_FOCUS pages. -/
def rowsHAPFOCUS : List RegRow :=
  [
  ⟨0x400, 4, 256, fun n i => [⟨(R.HAP_FOCUS.FOCUS.DELAY_A n i), .rw, true, .any⟩,
      ⟨(R.HAP_FOCUS.FOCUS.GAIN_A n i), .rw, true, .any⟩,
      ⟨(R.HAP_FOCUS.FOCUS.DELAY_B n i), .rw, true, .any⟩,
      ⟨(R.HAP_FOCUS.FOCUS.GAIN_B n i), .rw, true, .any⟩]⟩]

/-- Registers of the AUD pages. -/
def rowsAUD : List RegRow :=
  [
  ⟨0x40, 4, 1, fun _ _ => [⟨R.AUD.AUD_CFG.DUCK_GAIN, .rw, true, .any⟩,
      ⟨R.AUD.AUD_CFG.DUCK_HOLD, .rw, true, .any⟩,
      ⟨R.AUD.AUD_CFG.ZC_TIMEOUT, .rw, true, (.atLeast 1)⟩]⟩,
  ⟨0x44, 4, 1, fun _ _ => [⟨R.AUD.SIL_CFG.SIL_TH, .rw, true, .any⟩,
      ⟨R.AUD.SIL_CFG.SIL_MS, .rw, true, (.atLeast 1)⟩,
      ⟨R.AUD.SIL_CFG.AMP_OFF, .rw, true, .any⟩]⟩,
  ⟨0x48, 4, 1, fun _ _ => [⟨R.AUD.AUD_STAT.ACTIVE, .ro, false, .any⟩,
      ⟨R.AUD.AUD_STAT.DUCKED, .ro, false, .any⟩]⟩,
  ⟨0x800, 4, 1, fun _ _ => [⟨R.AUD.CLIP.COUNT, .ro, false, .any⟩]⟩,
  ⟨0x804, 4, 1, fun _ _ => [⟨R.AUD.LIMIT_SAMPLES.COUNT, .ro, false, .any⟩]⟩,
  ⟨0x808, 4, 1, fun _ _ => [⟨R.AUD.ZC_TIMEOUTS.COUNT, .ro, false, .any⟩]⟩,
  ⟨0x80C, 4, 1, fun _ _ => [⟨R.AUD.EQ_FAULT.COUNT, .ro, false, .any⟩]⟩,
  ⟨0x810, 4, 1, fun _ _ => [⟨R.AUD.CHIME_DROP.COUNT, .ro, false, .any⟩]⟩,
  ⟨0x814, 4, 1, fun _ _ => [⟨R.AUD.STREAM_UR.COUNT, .ro, false, .any⟩]⟩,
  ⟨0x818, 4, 1, fun _ _ => [⟨R.AUD.CAP_GAP.COUNT, .ro, false, .any⟩]⟩,
  ⟨0x81C, 4, 1, fun _ _ => [⟨R.AUD.AMP_FAULT_CNT.COUNT, .ro, false, .any⟩]⟩]

/-- Registers of the AUD_XP pages. -/
def rowsAUDXP : List RegRow :=
  [
  ⟨0x40, 4, 160, fun n i => [⟨(R.AUD_XP.GAIN.GAIN n i), .rw, true, .any⟩]⟩]

/-- Registers of the AUD_BUS pages. -/
def rowsAUDBUS : List RegRow :=
  [
  ⟨0x40, 0x10, 16, fun _ i => [⟨(R.AUD_BUS.BUS_CFG.EQ_EN i), .rw, true, .any⟩,
      ⟨(R.AUD_BUS.BUS_CFG.DYN_EN i), .rw, true, .any⟩,
      ⟨(R.AUD_BUS.BUS_CFG.LIM_REL i), .rw, true, (.atLeast 1)⟩]⟩,
  ⟨0x44, 0x10, 16, fun _ i => [⟨(R.AUD_BUS.BUS_DYN.THRESH i), .rw, true, .any⟩,
      ⟨(R.AUD_BUS.BUS_DYN.RATIO i), .rw, true, (.atMost 5)⟩,
      ⟨(R.AUD_BUS.BUS_DYN.ATTACK i), .rw, true, (.atLeast 1)⟩,
      ⟨(R.AUD_BUS.BUS_DYN.RELEASE i), .rw, true, (.atLeast 1)⟩]⟩,
  ⟨0x48, 0x10, 16, fun _ i => [⟨(R.AUD_BUS.BUS_STAT.GAIN i), .ro, false, .any⟩,
      ⟨(R.AUD_BUS.BUS_STAT.N i), .ro, false, .any⟩,
      ⟨(R.AUD_BUS.BUS_STAT.ACTIVE i), .ro, false, .any⟩,
      ⟨(R.AUD_BUS.BUS_STAT.DUCKED i), .ro, false, .any⟩]⟩,
  ⟨0x200, 4, 38, fun _ i => [⟨(R.AUD_BUS.SINK.ALERT i), .rw, true, .any⟩,
      ⟨(R.AUD_BUS.SINK.AEN i), .rw, true, .any⟩,
      ⟨(R.AUD_BUS.SINK.MEDIA i), .rw, true, (.atLeast 4)⟩,
      ⟨(R.AUD_BUS.SINK.MEN i), .rw, true, .any⟩]⟩]

/-- Registers of the AUD_EQ pages. -/
def rowsAUDEQ : List RegRow :=
  [
  ⟨0x40, 4, 160, fun n i => [⟨(R.AUD_EQ.COEF.COEF n i), .rw, false, .any⟩]⟩]

/-- Registers of the AUD_TONE pages. -/
def rowsAUDTONE : List RegRow :=
  [
  ⟨0x40, 4, 60, fun _ i => [⟨(R.AUD_TONE.SEGMENT.DUR_MS i), .rw, false, .any⟩,
      ⟨(R.AUD_TONE.SEGMENT.FREQ i), .rw, false, .toneFreq⟩,
      ⟨(R.AUD_TONE.SEGMENT.LEVEL i), .rw, false, .any⟩]⟩,
  ⟨0x140, 4, 4, fun _ i => [⟨(R.AUD_TONE.TG_STAT.CHIME i), .ro, false, .any⟩,
      ⟨(R.AUD_TONE.TG_STAT.RANK i), .ro, false, .any⟩,
      ⟨(R.AUD_TONE.TG_STAT.SEG i), .ro, false, .any⟩]⟩,
  ⟨0x150, 4, 1, fun _ _ => [⟨R.AUD_TONE.ISL_CHIME.CHIME, .wo, false, (.atLeast 1)⟩,
      ⟨R.AUD_TONE.ISL_CHIME.TG, .wo, false, .any⟩,
      ⟨R.AUD_TONE.ISL_CHIME.GO, .wo, false, .any⟩]⟩]

/-- Registers of the AUD_PORTS pages. -/
def rowsAUDPORTS : List RegRow :=
  [
  ⟨0x40, 4, 2, fun _ i => [⟨(R.AUD_PORTS.TDM_CFG.EN i), .rw, false, .any⟩,
      ⟨(R.AUD_PORTS.TDM_CFG.MASTER i), .rw, false, .any⟩,
      ⟨(R.AUD_PORTS.TDM_CFG.SLOTS_M1 i), .rw, false, .any⟩,
      ⟨(R.AUD_PORTS.TDM_CFG.W32 i), .rw, false, .any⟩,
      ⟨(R.AUD_PORTS.TDM_CFG.FMT i), .rw, false, (.atMost 2)⟩]⟩,
  ⟨0x48, 4, 1, fun _ _ => [⟨R.AUD_PORTS.PDM_CFG.EN, .rw, false, .any⟩]⟩,
  ⟨0x800, 4, 2, fun _ i => [⟨(R.AUD_PORTS.TDM_SLIP.COUNT i), .ro, false, .any⟩]⟩]

/-- Registers of the AUD_STREAM pages. -/
def rowsAUDSTREAM : List RegRow :=
  [
  ⟨0x40, 4, 16, fun _ i => [⟨(R.AUD_STREAM.ST_STAT.PLAYING i), .ro, false, .any⟩,
      ⟨(R.AUD_STREAM.ST_STAT.QUEUED i), .ro, false, .any⟩,
      ⟨(R.AUD_STREAM.ST_STAT.SILENT i), .ro, false, .any⟩,
      ⟨(R.AUD_STREAM.ST_STAT.OWNER i), .ro, false, .any⟩]⟩,
  ⟨0x80, 4, 4, fun _ i => [⟨(R.AUD_STREAM.CAP_STAT.PLAYING i), .ro, false, .any⟩,
      ⟨(R.AUD_STREAM.CAP_STAT.QUEUED i), .ro, false, .any⟩,
      ⟨(R.AUD_STREAM.CAP_STAT.OWNER i), .ro, false, .any⟩]⟩]

/-- Registers of the AUD_AMP pages. -/
def rowsAUDAMP : List RegRow :=
  [
  ⟨0x40, 0x10, 2, fun _ i => [⟨(R.AUD_AMP.AMP_CFG.EN i), .rw, false, .any⟩,
      ⟨(R.AUD_AMP.AMP_CFG.INVERT i), .rw, false, .any⟩,
      ⟨(R.AUD_AMP.AMP_CFG.POL_REF i), .rw, false, .any⟩,
      ⟨(R.AUD_AMP.AMP_CFG.HOLD_ON i), .rw, false, .any⟩,
      ⟨(R.AUD_AMP.AMP_CFG.TEST_AT_EN i), .rw, false, .any⟩,
      ⟨(R.AUD_AMP.AMP_CFG.CEIL i), .rw, false, (.atLeast 1)⟩]⟩,
  ⟨0x44, 0x10, 2, fun _ i => [⟨(R.AUD_AMP.AMP_STAT.STATE i), .ro, false, .any⟩,
      ⟨(R.AUD_AMP.AMP_STAT.MUTED i), .ro, false, .any⟩,
      ⟨(R.AUD_AMP.AMP_STAT.CEIL_CUT i), .ro, false, .any⟩,
      ⟨(R.AUD_AMP.AMP_STAT.FAULT i), .ro, false, .any⟩]⟩,
  ⟨0x48, 0x10, 2, fun _ i => [⟨(R.AUD_AMP.AMP_CMD.TEST i), .w1s, false, .any⟩]⟩]

/-- Registers of the CSK pages. -/
def rowsCSK : List RegRow :=
  [
  ⟨0x40, 4, 1, fun _ _ => [⟨R.CSK.CSK_CFG.MEDIA, .rws, false, .any⟩,
      ⟨R.CSK.CSK_CFG.VERIFY, .rws, false, .any⟩,
      ⟨R.CSK.CSK_CFG.SLOTS_LOG2, .ro, false, .any⟩]⟩,
  ⟨0x44, 4, 1, fun _ _ => [⟨R.CSK.CSK_CTRL.FREEZE, .rw, false, .any⟩,
      ⟨R.CSK.CSK_CTRL.CLEAR, .w1s, false, .any⟩]⟩,
  ⟨0x48, 4, 1, fun _ _ => [⟨R.CSK.CSK_STAT.STATE, .ro, false, .any⟩,
      ⟨R.CSK.CSK_STAT.PFW, .ro, false, .any⟩,
      ⟨R.CSK.CSK_STAT.STAGED, .ro, false, .any⟩]⟩,
  ⟨0x4C, 4, 1, fun _ _ => [⟨R.CSK.NEXT_SEQ.VALUE, .ro, false, .any⟩]⟩,
  ⟨0x50, 4, 1, fun _ _ => [⟨R.CSK.WPTR.VALUE, .ro, false, .any⟩]⟩,
  ⟨0x54, 4, 1, fun _ _ => [⟨R.CSK.OLDEST.VALUE, .ro, false, .any⟩]⟩,
  ⟨0x58, 4, 1, fun _ _ => [⟨R.CSK.FREEZE_MAX.MS, .rw, false, (.atLeast 1)⟩]⟩,
  ⟨0x800, 4, 1, fun _ _ => [⟨R.CSK.LOST.COUNT, .ro, false, .any⟩]⟩,
  ⟨0x804, 4, 1, fun _ _ => [⟨R.CSK.COMMITTED.COUNT, .ro, false, .any⟩]⟩,
  ⟨0x808, 4, 1, fun _ _ => [⟨R.CSK.MEDIA_ERR.COUNT, .ro, false, .any⟩]⟩,
  ⟨0x80C, 4, 1, fun _ _ => [⟨R.CSK.FREEZE_TIMEOUT.COUNT, .ro, false, .any⟩]⟩]

/-- Registers of the CSK_READ pages. -/
def rowsCSKREAD : List RegRow :=
  [
  ⟨0x40, 4, 1, fun _ _ => [⟨R.CSK_READ.RD_CTRL.INDEX, .rw, false, .any⟩,
      ⟨R.CSK_READ.RD_CTRL.STAGE, .rw, false, .any⟩,
      ⟨R.CSK_READ.RD_CTRL.GO, .w1s, false, .any⟩]⟩,
  ⟨0x44, 4, 1, fun _ _ => [⟨R.CSK_READ.RD_STAT.BUSY, .ro, false, .any⟩,
      ⟨R.CSK_READ.RD_STAT.CRC_OK, .ro, false, .any⟩]⟩,
  ⟨0x80, 4, 16, fun _ i => [⟨(R.CSK_READ.RD_DATA.DATA i), .ro, false, .any⟩]⟩]

/-- Registers of the CSK_LOG pages. -/
def rowsCSKLOG : List RegRow :=
  [
  ⟨0x40, 4, 1, fun _ _ => [⟨R.CSK_LOG.LOG_EVENT.EVENT, .rw, false, (.atLeast 0x8000)⟩,
      ⟨R.CSK_LOG.LOG_EVENT.UNIT, .rw, false, .any⟩,
      ⟨R.CSK_LOG.LOG_EVENT.GO, .w1s, false, .any⟩]⟩,
  ⟨0x44, 4, 7, fun _ i => [⟨(R.CSK_LOG.LOG_PARAM.DATA i), .rw, false, .any⟩]⟩]

/-- Registers of the CSK_RTC pages. -/
def rowsCSKRTC : List RegRow :=
  [
  ⟨0x40, 4, 1, fun _ _ => [⟨R.CSK_RTC.RTC_FRAC.VALUE, .rws, false, .any⟩]⟩,
  ⟨0x44, 4, 1, fun _ _ => [⟨R.CSK_RTC.RTC_SEC_LO.VALUE, .rws, false, .any⟩]⟩,
  ⟨0x48, 4, 1, fun _ _ => [⟨R.CSK_RTC.RTC_SEC_HI.VALUE, .rws, false, .any⟩]⟩,
  ⟨0x4C, 4, 1, fun _ _ => [⟨R.CSK_RTC.RTC_CTRL.SET, .w1s, false, .any⟩,
      ⟨R.CSK_RTC.RTC_CTRL.VALID, .ro, false, .any⟩]⟩,
  ⟨0x50, 4, 1, fun _ _ => [⟨R.CSK_RTC.RTC_ALARM.SEC, .rw, false, .any⟩]⟩]

/-- Registers of the LNK pages. -/
def rowsLNK : List RegRow :=
  [
  ⟨0x40, 4, 1, fun _ _ => [⟨R.LNK.TOPO.REACH0, .ro, false, .any⟩,
      ⟨R.LNK.TOPO.REACH1, .ro, false, .any⟩,
      ⟨R.LNK.TOPO.RING, .ro, false, .any⟩]⟩,
  ⟨0x44, 4, 1, fun _ _ => [⟨R.LNK.ACCEPT.REG_FROM, .rw, false, .any⟩,
      ⟨R.LNK.ACCEPT.DRAM_FROM, .rw, false, .any⟩]⟩,
  ⟨0x48, 4, 1, fun _ _ => [⟨R.LNK.DACC_BASE.UNITS, .rw, false, .any⟩]⟩,
  ⟨0x4C, 4, 1, fun _ _ => [⟨R.LNK.DACC_SIZE.UNITS, .rw, false, .any⟩]⟩,
  ⟨0x800, 4, 1, fun _ _ => [⟨R.LNK.REMOTE_REFUSED.COUNT, .ro, false, .any⟩]⟩,
  ⟨0x804, 4, 1, fun _ _ => [⟨R.LNK.REMOTE_TIMEOUT.COUNT, .ro, false, .any⟩]⟩,
  ⟨0x808, 4, 1, fun _ _ => [⟨R.LNK.EVT_FWD_LOST.COUNT, .ro, false, .any⟩]⟩,
  ⟨0x80C, 4, 1, fun _ _ => [⟨R.LNK.RX_BAD.COUNT, .ro, false, .any⟩]⟩]

/-- Registers of the LNK_PORT pages. -/
def rowsLNKPORT : List RegRow :=
  [
  ⟨0x40, 4, 1, fun n _ => [⟨(R.LNK_PORT.PORT_CFG.EN n), .rw, false, .any⟩,
      ⟨(R.LNK_PORT.PORT_CFG.MAX_RATE n), .rw, false, .any⟩]⟩,
  ⟨0x44, 4, 1, fun n _ => [⟨(R.LNK_PORT.PORT_STAT.STATE n), .ro, false, .any⟩,
      ⟨(R.LNK_PORT.PORT_STAT.RATE n), .ro, false, .any⟩,
      ⟨(R.LNK_PORT.PORT_STAT.X2 n), .ro, false, .any⟩,
      ⟨(R.LNK_PORT.PORT_STAT.NEIGHBOUR n), .ro, false, .any⟩,
      ⟨(R.LNK_PORT.PORT_STAT.CAUSE n), .ro, false, .any⟩,
      ⟨(R.LNK_PORT.PORT_STAT.HOP_LAT n), .ro, false, .any⟩]⟩,
  ⟨0x800, 4, 1, fun n _ => [⟨(R.LNK_PORT.CRC_ERR.COUNT n), .ro, false, .any⟩]⟩,
  ⟨0x804, 4, 1, fun n _ => [⟨(R.LNK_PORT.REPLAY.COUNT n), .ro, false, .any⟩]⟩,
  ⟨0x808, 4, 1, fun n _ => [⟨(R.LNK_PORT.RETRAIN.COUNT n), .ro, false, .any⟩]⟩,
  ⟨0x80C, 4, 1, fun n _ => [⟨(R.LNK_PORT.LANE_FAIL.COUNT n), .ro, false, .any⟩]⟩]

/-- Registers of the LNK_WIN pages. -/
def rowsLNKWIN : List RegRow :=
  [
  ⟨0x40, 4, 4, fun _ i => [⟨(R.LNK_WIN.WIN_CFG.EN i), .rw, false, .any⟩,
      ⟨(R.LNK_WIN.WIN_CFG.KIND i), .rw, false, .any⟩,
      ⟨(R.LNK_WIN.WIN_CFG.BASE i), .rw, false, .any⟩]⟩]

/-- Registers of the LNK_FWD pages. -/
def rowsLNKFWD : List RegRow :=
  [
  ⟨0x40, 4, 4, fun _ i => [⟨(R.LNK_FWD.TCH_FWD.TOUCH i), .rw, false, .any⟩,
      ⟨(R.LNK_FWD.TCH_FWD.HAP i), .rw, false, .any⟩,
      ⟨(R.LNK_FWD.TCH_FWD.DEVS i), .rw, false, .any⟩]⟩,
  ⟨0x50, 4, 4, fun _ i => [⟨(R.LNK_FWD.RX_RING.RING i), .rw, false, .any⟩,
      ⟨(R.LNK_FWD.RX_RING.EN i), .rw, false, .any⟩]⟩,
  ⟨0x60, 4, 1, fun _ _ => [⟨R.LNK_FWD.FOCUS_MAP.PAGES, .rw, false, .any⟩]⟩,
  ⟨0x64, 4, 1, fun _ _ => [⟨R.LNK_FWD.FOCUS_EN.EN, .rw, false, .any⟩]⟩]

/-- Registers of the PWR_ENTRY pages. -/
def rowsPWRENTRY : List RegRow :=
  [
  ⟨0x40, 4, 1, fun _ _ => [⟨R.PWR_ENTRY.VIN_MON.VIN, .ro, false, .any⟩,
      ⟨R.PWR_ENTRY.VIN_MON.VSYS, .ro, false, .any⟩]⟩,
  ⟨0x44, 4, 1, fun _ _ => [⟨R.PWR_ENTRY.PFW_CFG.PFW_TH, .rws, false, (.within 75 480)⟩,
      ⟨R.PWR_ENTRY.PFW_CFG.PFW_DELAY, .rws, false, (.atMost 1000)⟩,
      ⟨R.PWR_ENTRY.PFW_CFG.EXT_EN, .rws, false, .any⟩,
      ⟨R.PWR_ENTRY.PFW_CFG.LOCK, .rwl, false, .any⟩]⟩,
  ⟨0x48, 4, 1, fun _ _ => [⟨R.PWR_ENTRY.ENTRY_STAT.REVG_ON, .ro, false, .any⟩,
      ⟨R.PWR_ENTRY.ENTRY_STAT.OVG_FITTED, .ro, false, .any⟩,
      ⟨R.PWR_ENTRY.ENTRY_STAT.CLAMPING, .ro, false, .any⟩,
      ⟨R.PWR_ENTRY.ENTRY_STAT.PFW, .ro, false, .any⟩,
      ⟨R.PWR_ENTRY.ENTRY_STAT.PFW_SRC, .ro, false, .any⟩,
      ⟨R.PWR_ENTRY.ENTRY_STAT.CLAMP_MS, .ro, false, .any⟩,
      ⟨R.PWR_ENTRY.ENTRY_STAT.SOK_A, .w1c, false, .any⟩,
      ⟨R.PWR_ENTRY.ENTRY_STAT.SOK_B, .w1c, false, .any⟩]⟩,
  ⟨0x800, 4, 1, fun _ _ => [⟨R.PWR_ENTRY.DIP_CNT.COUNT, .ro, false, .any⟩]⟩,
  ⟨0x804, 4, 1, fun _ _ => [⟨R.PWR_ENTRY.CLAMP_CNT.COUNT, .ro, false, .any⟩]⟩,
  ⟨0x808, 4, 1, fun _ _ => [⟨R.PWR_ENTRY.CLAMP_TRIP.COUNT, .ro, false, .any⟩]⟩,
  ⟨0x80C, 4, 1, fun _ _ => [⟨R.PWR_ENTRY.EXT_PFW.COUNT, .ro, false, .any⟩]⟩]

/-- Registers of the PWR_RAILS pages. -/
def rowsPWRRAILS : List RegRow :=
  [
  ⟨0x40, 4, 1, fun _ _ => [⟨R.PWR_RAILS.RAIL_STAT.ON, .ro, false, .any⟩,
      ⟨R.PWR_RAILS.RAIL_STAT.WARN, .w1cbits, false, .any⟩]⟩,
  ⟨0x44, 4, 1, fun _ _ => [⟨R.PWR_RAILS.VCORE_STAT.SET_MV, .ro, false, .any⟩,
      ⟨R.PWR_RAILS.VCORE_STAT.MEAS_MV, .ro, false, .any⟩,
      ⟨R.PWR_RAILS.VCORE_STAT.AMPS, .ro, false, .any⟩]⟩,
  ⟨0x48, 4, 1, fun _ _ => [⟨R.PWR_RAILS.VBUS5_STAT.MEAS_MV, .ro, false, .any⟩,
      ⟨R.PWR_RAILS.VBUS5_STAT.PH1_ON, .ro, false, .any⟩]⟩,
  ⟨0x800, 4, 1, fun _ _ => [⟨R.PWR_RAILS.RAIL_WARN.COUNT, .ro, false, .any⟩]⟩]

/-- Registers of the PWR_THERM pages. -/
def rowsPWRTHERM : List RegRow :=
  [
  ⟨0x40, 4, 10, fun _ i => [⟨(R.PWR_THERM.TEMP.TEMP i), .ro, false, .any⟩,
      ⟨(R.PWR_THERM.TEMP.PEAK i), .ro, false, .any⟩]⟩,
  ⟨0x68, 4, 1, fun _ _ => [⟨R.PWR_THERM.TMAX.TEMP, .ro, false, .any⟩,
      ⟨R.PWR_THERM.TMAX.SENSOR, .ro, false, .any⟩]⟩]

/-- Registers of the PTB pages. -/
def rowsPTB : List RegRow :=
  [
  ⟨0x40, 4, 1, fun _ _ => [⟨R.PTB.PTB_STAT.SERVICE, .ro, false, .any⟩,
      ⟨R.PTB.PTB_STAT.TEST_BUSY, .ro, false, .any⟩,
      ⟨R.PTB.PTB_STAT.ACTIVE, .ro, false, .any⟩]⟩,
  ⟨0x44, 4, 1, fun _ _ => [⟨R.PTB.TEST_CTRL.TEST, .rwt, false, .any⟩,
      ⟨R.PTB.TEST_CTRL.ARG, .rwt, false, .any⟩,
      ⟨R.PTB.TEST_CTRL.GO, .w1s, false, .any⟩]⟩,
  ⟨0x48, 4, 1, fun _ _ => [⟨R.PTB.TEST_RESULT.TEST, .ro, false, .any⟩,
      ⟨R.PTB.TEST_RESULT.OUTCOME, .ro, false, .any⟩,
      ⟨R.PTB.TEST_RESULT.DETAIL, .ro, false, .any⟩]⟩,
  ⟨0x4C, 4, 1, fun _ _ => [⟨R.PTB.TEST_MS.COUNT, .ro, false, .any⟩]⟩,
  ⟨0x800, 4, 1, fun _ _ => [⟨R.PTB.TESTS_RUN.COUNT, .ro, false, .any⟩]⟩,
  ⟨0x804, 4, 1, fun _ _ => [⟨R.PTB.TESTS_FAILED.COUNT, .ro, false, .any⟩]⟩,
  ⟨0x808, 4, 1, fun _ _ => [⟨R.PTB.PERTURB_SETS.COUNT, .ro, false, .any⟩]⟩]

/-- Registers of the PTB_PERTURB pages. -/
def rowsPTBPERTURB : List RegRow :=
  [
  ⟨0x40, 4, 1, fun _ _ => [⟨R.PTB_PERTURB.FAB_STALL.PORTS, .rwt, false, .any⟩]⟩,
  ⟨0x44, 4, 1, fun _ _ => [⟨R.PTB_PERTURB.FAB_TIMING.LEN, .rwt, false, (.atLeast 1)⟩,
      ⟨R.PTB_PERTURB.FAB_TIMING.PERIOD, .rwt, false, .any⟩]⟩,
  ⟨0x48, 4, 1, fun _ _ => [⟨R.PTB_PERTURB.DRAM_DELAY.CHANNELS, .rwt, false, .any⟩,
      ⟨R.PTB_PERTURB.DRAM_DELAY.NS, .rwt, false, .any⟩]⟩,
  ⟨0x4C, 4, 1, fun _ _ => [⟨R.PTB_PERTURB.BACKPRESS.CLASSES, .rwt, false, .any⟩,
      ⟨R.PTB_PERTURB.BACKPRESS.LEN, .rwt, false, .any⟩,
      ⟨R.PTB_PERTURB.BACKPRESS.GO, .w1s, false, .any⟩]⟩,
  ⟨0x50, 4, 1, fun _ _ => [⟨R.PTB_PERTURB.WM_FORCE.PIPES, .rwt, false, .any⟩,
      ⟨R.PTB_PERTURB.WM_FORCE.CLASS, .rwt, false, .any⟩]⟩,
  ⟨0x54, 4, 1, fun _ _ => [⟨R.PTB_PERTURB.SIG_INJ.OUT, .rwt, false, .any⟩,
      ⟨R.PTB_PERTURB.SIG_INJ.REGION, .rwt, false, .any⟩,
      ⟨R.PTB_PERTURB.SIG_INJ.FRAMES, .rwt, false, (.atLeast 1)⟩,
      ⟨R.PTB_PERTURB.SIG_INJ.GO, .w1s, false, .any⟩]⟩,
  ⟨0x58, 4, 1, fun _ _ => [⟨R.PTB_PERTURB.ECC_INJ.TARGET, .rwt, false, (.atMost 3)⟩,
      ⟨R.PTB_PERTURB.ECC_INJ.DOUBLE, .rwt, false, .any⟩,
      ⟨R.PTB_PERTURB.ECC_INJ.ARM, .w1s, false, .any⟩]⟩,
  ⟨0x5C, 4, 1, fun _ _ => [⟨R.PTB_PERTURB.ECC_ADDR_LO.ADDR, .rwt, false, .any⟩]⟩,
  ⟨0x60, 4, 1, fun _ _ => [⟨R.PTB_PERTURB.ECC_ADDR_HI.ADDR, .rwt, false, .any⟩]⟩,
  ⟨0x64, 4, 1, fun _ _ => [⟨R.PTB_PERTURB.TCH_INJ.TF, .rwt, false, .any⟩,
      ⟨R.PTB_PERTURB.TCH_INJ.DRIVE, .rwt, false, .any⟩,
      ⟨R.PTB_PERTURB.TCH_INJ.SENSE, .rwt, false, (.atMost 35)⟩,
      ⟨R.PTB_PERTURB.TCH_INJ.DELTA, .rwt, false, .any⟩,
      ⟨R.PTB_PERTURB.TCH_INJ.EN, .rwt, false, .any⟩]⟩]

/-- The rows of page `p`, with the page's instance number. Pages with no block register have no rows. -/
def pageRows (p : Nat) : Nat × List RegRow :=
  if p = 1 then (0, rowsSYSMODE) else
  if p = 2 then (0, rowsSYSPOWER) else
  if p = 3 then (0, rowsSYSPOLICY) else
  if p = 4 then (0, rowsSYSBOOT) else
  if p = 0x10 then (0, rowsLDG) else
  if p = 0x11 then (0, rowsLDGOUTS) else
  if 0x12 ≤ p ∧ p < 0x14 then (p - 0x12, rowsLDGSLOTS) else
  if p = 0x14 then (0, rowsLDGSYNC) else
  if p = 0x20 then (0, rowsPWRENTRY) else
  if p = 0x21 then (0, rowsPWRRAILS) else
  if p = 0x22 then (0, rowsPWRTHERM) else
  if p = 0x30 then (0, rowsSEC) else
  if p = 0x31 then (0, rowsSECWDOG) else
  if p = 0x32 then (0, rowsSECFUSE) else
  if p = 0x40 then (0, rowsCTL) else
  if p = 0x50 then (0, rowsIMX) else
  if 0x51 ≤ p ∧ p < 0x54 then (p - 0x51, rowsIMXROUTE) else
  if 0x60 ≤ p ∧ p < 0x70 then (p - 0x60, rowsIMXVI) else
  if 0x70 ≤ p ∧ p < 0x90 then (p - 0x70, rowsRNG) else
  if p = 0x90 then (0, rowsLCK) else
  if p = 0x91 then (0, rowsLCKTABLE) else
  if p = 0x92 then (0, rowsLCKPORTS) else
  if p = 0xA0 then (0, rowsGFX) else
  if p = 0xA1 then (0, rowsGRIST) else
  if p = 0xA2 then (0, rowsPOOL) else
  if 0xB0 ≤ p ∧ p < 0xBC then (p - 0xB0, rowsGFXSC) else
  if 0xC0 ≤ p ∧ p < 0xCC then (p - 0xC0, rowsGFXTX) else
  if p = 0xD0 then (0, rowsGFXL2) else
  if 0xE0 ≤ p ∧ p < 0xE8 then (p - 0xE0, rowsCMPP) else
  if 0xE8 ≤ p ∧ p < 0x118 then (p - 0xE8, rowsCMPL) else
  if p = 0x118 then (0, rowsCMP) else
  if 0x120 ≤ p ∧ p < 0x128 then (p - 0x120, rowsSCNOUT) else
  if 0x128 ≤ p ∧ p < 0x130 then (p - 0x128, rowsSCNPHY) else
  if p = 0x130 then (0, rowsSAF) else
  if 0x131 ≤ p ∧ p < 0x139 then (p - 0x131, rowsSAFP) else
  if p = 0x140 then (0, rowsFAB) else
  if p = 0x141 then (0, rowsFABARB) else
  if p = 0x150 then (0, rowsLNK) else
  if 0x151 ≤ p ∧ p < 0x153 then (p - 0x151, rowsLNKPORT) else
  if p = 0x153 then (0, rowsLNKWIN) else
  if p = 0x154 then (0, rowsLNKFWD) else
  if p = 0x160 then (0, rowsDRC) else
  if p = 0x161 then (0, rowsDRCECC) else
  if 0x170 ≤ p ∧ p < 0x17C then (p - 0x170, rowsDRCDC) else
  if p = 0x180 then (0, rowsDMA) else
  if p = 0x181 then (0, rowsDMACH) else
  if p = 0x190 then (0, rowsAUD) else
  if 0x191 ≤ p ∧ p < 0x195 then (p - 0x191, rowsAUDXP) else
  if p = 0x195 then (0, rowsAUDBUS) else
  if 0x196 ≤ p ∧ p < 0x19A then (p - 0x196, rowsAUDEQ) else
  if p = 0x19A then (0, rowsAUDTONE) else
  if p = 0x19B then (0, rowsAUDPORTS) else
  if p = 0x19C then (0, rowsAUDSTREAM) else
  if p = 0x19E then (0, rowsAUDAMP) else
  if p = 0x1A0 then (0, rowsHAP) else
  if p = 0x1A1 then (0, rowsHAPCH) else
  if 0x1A4 ≤ p ∧ p < 0x1A8 then (p - 0x1A4, rowsHAPFOCUS) else
  if 0x1A8 ≤ p ∧ p < 0x1B0 ∧ p % 2 = 0 then ((p - 0x1A8) / 2, rowsTCHCFG) else
  if 0x1A9 ≤ p ∧ p < 0x1B1 ∧ p % 2 = 1 then ((p - 0x1A9) / 2, rowsTCHST) else
  if p = 0x1B0 then (0, rowsCSK) else
  if p = 0x1B1 then (0, rowsCSKREAD) else
  if p = 0x1B2 then (0, rowsCSKLOG) else
  if p = 0x1B3 then (0, rowsCSKRTC) else
  if p = 0x1C0 then (0, rowsPTB) else
  if p = 0x1C1 then (0, rowsPTBPERTURB) else
  (0, [])

end Sys2Proof.Machine
end

