-- ==== Sys2Proof/WellFormed.lean ====
section
/-! DEFINITION. Commands that name what the part has: every unit, page and operand of a well-formed command exists. -/

namespace Sys2Proof

/-- The source exists: four host ports, sixteen instances, four control cores in either world, the island, four linked devices. -/
def sourceOk : Src → Bool
  | .pf p => decide (p < 4)
  | .inst vi => decide (vi < 16)
  | .ccn k => decide (k < 4)
  | .ccs k => decide (k < 4)
  | .island => true
  | .link d => decide (d < 4)

/-- The place exists: a page of the register window (R45), or a page of an instance's window (R44), and an offset inside it (R33). -/
def placeOk (src : Src) (page off : Nat) : Bool :=
  sourceOk src && decide (off < 0x1000) && (match src with
    | .inst _ => decide (page < 16)
    | _ => decide (page < 0x200))

/-- Everything a command names exists. A command that is not well-formed ends in the fault `noSuchUnit` or names values its fields cannot hold. -/
def Instr.wellFormed : Instr → Bool
  | .regWrite src page off data => placeOk src page off && decide (data.length ≤ 64)
  | .pageErrClear src page _ => placeOk src page 0x010
  | .irqStatClear src page _ => placeOk src page 0x01C
  | .ctrlEnable src page _ => placeOk src page 0x008
  | .ctrlReset src page => placeOk src page 0x008
  | .claimWrite src page _ => sourceOk src && decide (page < 512)
  | .commitGo src page => placeOk src page 0x024
  | .commitDiscard src page => placeOk src page 0x024
  | .commitValidationEnd page => decide (page < 512)
  | .commitLatch page => decide (page < 512)
  | .modeReqVigil src => sourceOk src
  | .modeReqDegraded src => sourceOk src
  | .modeReqRun src => sourceOk src
  | .modeReqService src _ => sourceOk src
  | .modeReqOther src target => sourceOk src && decide (target < 8)
  | .islandDegradeReq src => sourceOk src
  | .islandAgreeRun src => sourceOk src
  | .agreeExpired => true
  | .wakeRise _ => true
  | .vinRecovery _ => true
  | .powerUpSequence bootsel devid _ _ => decide (bootsel < 8) && decide (devid < 4)
  | .railStepTimeout step _ => decide (1 ≤ step) && decide (step ≤ 6)
  | .islandImageLoaded _ _ _ _ _ => true
  | .earlyRetry n => decide (n < 8)
  | .ccImageLoaded _ _ _ => true
  | .bootReady src => sourceOk src
  | .recoveryLoad src => sourceOk src
  | .perstnDeassert port => decide (port < 4)
  | .pciePortReady port width speed => (port < 4 && (width == 1 || width == 2 || width == 4) && 1 ≤ speed && speed ≤ 4)
  | .perstnAssert port => decide (port < 4)
  | .vigilEntryDone => true
  | .vigilWake _ _ => true
  | .vigilTimeout => true
  | .sysRstn => true
  | .thermalShutdown i _ => decide (i < 10)
  | .thermalThrottle i _ => decide (i < 10)
  | .throttleStep _ => true
  | .thermalRelease field temps => (temps.length == if field then 2 else 8)
  | .policyLoopStep n _ => decide (n < 7)
  | .pdPowerOn src d => sourceOk src && decide (d < 32)
  | .pdPowerOff src d => sourceOk src && decide (d < 32)
  | .pdPowerOnDone d => decide (d < 25)
  | .quiesceDone => true
  | .quiesceRefused => true
  | .bridgeFrameRx _ => true
  | .bridgeDown => true
  | .bridgeRetrained => true
  | .ledgerLineAdvance => true
  | .lockLost out => decide (out < 8)
  | .lockAcquired out => decide (out < 8)
  | .snapTake src => sourceOk src
  | .slotArm src slot _ => sourceOk src && decide (slot < 128)
  | .slotDisarm src slot _ => sourceOk src && decide (slot < 128)
  | .slotFire k => decide (k < 128)
  | .touchWindowClose n => decide (n < 4)
  | .retrainStepDone k _ => decide (k < 12)
  | .linkSyncRx _ _ _ _ => true
  | .linkHoldover => true
  | .syncErrRead => true
  | .viBind src vi _ => sourceOk src && decide (vi < 16)
  | .vfEnableSet port _ => decide (port < 4)
  | .flr port func => decide (port < 4) && decide (func < 9)
  | .hostLinkDown port => decide (port < 4)
  | .instanceReset src vi => sourceOk src && decide (vi < 16)
  | .instanceResetDone vi => decide (vi < 16)
  | .shareWrite src vi off _ => sourceOk src && decide (vi < 16) && decide (off < 0x1000)
  | .shareApply vi kind => decide (vi < 16) && decide (kind < 7)
  | .windowWrite src vi off _ => sourceOk src && decide (vi < 16) && decide (off < 0x1000)
  | .routeWrite src n i _ => sourceOk src && decide (n < 3) && decide (i < 256)
  | .ringBind src r _ => sourceOk src && decide (r < 64)
  | .ringRemove src r => sourceOk src && decide (r < 64)
  | .ringEnable src r => sourceOk src && decide (r < 64)
  | .ringDisable src r => sourceOk src && decide (r < 64)
  | .sqDb src r _ => sourceOk src && decide (r < 64)
  | .cqDb src r _ => sourceOk src && decide (r < 64)
  | .selWrite src r _ => sourceOk src && decide (r < 64)
  | .ringFetch r _ _ => decide (r < 64)
  | .entryIssue cls => decide (cls < 7)
  | .fenceTimeout r => decide (r < 64)
  | .completionRetire r => decide (r < 64)
  | .eventPost r => decide (r < 64)
  | .cqStallExpiry r => decide (r < 64)
  | .gfxNop r => decide (r < 64)
  | .gfxJob r => decide (r < 64)
  | .binChunks r => decide (r < 64)
  | .poolFlush src p => sourceOk src && decide (p < 17)
  | .binGrowWaitExpiry j => decide (j < 16)
  | .partialRenderDone j => decide (j < 16)
  | .tileBoundary k => decide (k < 12)
  | .fragmentRetire k => decide (k < 12)
  | .jobComplete j => decide (j < 16)
  | .pktNop j => decide (j < 16)
  | .pktEnd j => decide (j < 16)
  | .pktCall j => decide (j < 16)
  | .pktVprog j => decide (j < 16)
  | .pktFprog j => decide (j < 16)
  | .pktConsts j => decide (j < 16)
  | .pktVbuf j => decide (j < 16)
  | .pktVattr j => decide (j < 16)
  | .pktIbuf j => decide (j < 16)
  | .pktPrim j => decide (j < 16)
  | .pktViewport j => decide (j < 16)
  | .pktScissor j => decide (j < 16)
  | .pktDepth j => decide (j < 16)
  | .pktStencil j => decide (j < 16)
  | .pktBlend j => decide (j < 16)
  | .pktBlendConst j => decide (j < 16)
  | .pktClearColor j => decide (j < 16)
  | .pktClearDs j => decide (j < 16)
  | .pktTexture j => decide (j < 16)
  | .pktSampler j => decide (j < 16)
  | .pktSampleMask j => decide (j < 16)
  | .pktDraw j => decide (j < 16)
  | .pktDrawIndexed j => decide (j < 16)
  | .programLoad core j _ _ => decide (core < 12) && decide (j < 16)
  | .shaderNop w => decide (w < 192)
  | .mov w => decide (w < 192)
  | .sel w => decide (w < 192)
  | .fadd w => decide (w < 192)
  | .fmul w => decide (w < 192)
  | .ffma w => decide (w < 192)
  | .fmin w => decide (w < 192)
  | .fmax w => decide (w < 192)
  | .ffloor w => decide (w < 192)
  | .ffract w => decide (w < 192)
  | .frcp w => decide (w < 192)
  | .frsq w => decide (w < 192)
  | .fsqrt w => decide (w < 192)
  | .fexp2 w => decide (w < 192)
  | .flog2 w => decide (w < 192)
  | .fsin w => decide (w < 192)
  | .fcos w => decide (w < 192)
  | .iadd w => decide (w < 192)
  | .isub w => decide (w < 192)
  | .imul w => decide (w < 192)
  | .imad w => decide (w < 192)
  | .imin w => decide (w < 192)
  | .imax w => decide (w < 192)
  | .umin w => decide (w < 192)
  | .umax w => decide (w < 192)
  | .and w => decide (w < 192)
  | .or w => decide (w < 192)
  | .xor w => decide (w < 192)
  | .not w => decide (w < 192)
  | .shl w => decide (w < 192)
  | .shr w => decide (w < 192)
  | .asr w => decide (w < 192)
  | .f16tof32 w => decide (w < 192)
  | .f32tof16 w => decide (w < 192)
  | .i16tof16 w => decide (w < 192)
  | .u16tof16 w => decide (w < 192)
  | .f16toi16 w => decide (w < 192)
  | .f16tou16 w => decide (w < 192)
  | .i32tof32 w => decide (w < 192)
  | .f32toi32 w => decide (w < 192)
  | .i16toi32 w => decide (w < 192)
  | .i32toi16 w => decide (w < 192)
  | .fcmp w => decide (w < 192)
  | .icmp w => decide (w < 192)
  | .ddx w => decide (w < 192)
  | .ddy w => decide (w < 192)
  | .plop w => decide (w < 192)
  | .br w => decide (w < 192)
  | .ldc w => decide (w < 192)
  | .attr w => decide (w < 192)
  | .vary w => decide (w < 192)
  | .tex w => decide (w < 192)
  | .texf w => decide (w < 192)
  | .shaderOut w => decide (w < 192)
  | .kill w => decide (w < 192)
  | .shaderEnd w => decide (w < 192)
  | .cmpNop r => decide (r < 64)
  | .layer r => decide (r < 64)
  | .cmpCommit r => decide (r < 64)
  | .sliceStart n => decide (n < 8)
  | .lineCompose n => decide (n < 8)
  | .layerFetchError u _ => decide (u < 48)
  | .timingGenStop n => decide (n < 8)
  | .outputLineStart n => decide (n < 8)
  | .wmEffAdjust n => decide (n < 8)
  | .urRearm src n => sourceOk src && decide (n < 8)
  | .linkTraining sink => decide (sink.out < 8) && decide (sink.caps.length ≤ 16)
  | .linkTrainingEnd n _ _ _ _ => decide (n < 8)
  | .hpdConnect n => decide (n < 8)
  | .irqHpd n _ => decide (n < 8)
  | .hpdLoss n => decide (n < 8)
  | .laneShort n _ => decide (n < 8)
  | .lvdsOpenCheck n _ => decide (n < 8)
  | .laneTest src n => sourceOk src && decide (n < 8)
  | .laneTestDone n _ _ => decide (n < 8)
  | .auxNativeWrite src n _ => sourceOk src && decide (n < 8)
  | .auxNativeRead src n _ => sourceOk src && decide (n < 8)
  | .auxI2cWrite src n _ _ => sourceOk src && decide (n < 8)
  | .auxI2cRead src n _ _ => sourceOk src && decide (n < 8)
  | .auxReply n _ _ => decide (n < 8)
  | .auxTimeout n => decide (n < 8)
  | .backlightEnable n => decide (n < 8)
  | .islandFaultReset src cause => sourceOk src && decide (1 ≤ cause) && decide (cause ≤ 6)
  | .islandReloadDone _ => true
  | .sramScrub _ _ => true
  | .planeSwap src n => sourceOk src && decide (n < 8)
  | .planeCancel src n => sourceOk src && decide (n < 8)
  | .pipeDegrWrite src _ => sourceOk src
  | .wdogArm src _ => sourceOk src
  | .wdogSelfArm => true
  | .wdogKick src _ => sourceOk src
  | .wdogExpiry => true
  | .clockMonitorWindow _ _ _ => true
  | .safeOkEnable src _ => sourceOk src
  | .lkAcq src r _ => sourceOk src && decide (r < 27)
  | .lkRel src r _ => sourceOk src && decide (r < 27)
  | .lkCancel src r _ => sourceOk src && decide (r < 27)
  | .holdExpired k => decide (k < 64)
  | .progressStall cls => decide (cls < 4)
  | .arbSnap src _ => sourceOk src
  | .arbClear src _ => sourceOk src
  | .dramRequestAdmit port _ _ off len rest => decide (port < 20) && decide (1 ≤ len) && decide (off % 256 + len ≤ 256) && rest.others.all DramAsk.fits
  | .dramColumnIssue k _ _ _ => decide (k < 12)
  | .refreshDebtTick k => decide (k < 12)
  | .mr4Poll k rate _ => decide (k < 12) && decide (rate < 3)
  | .srIdleExpiry k => decide (k < 12)
  | .trainGo src => sourceOk src
  | .trainDone failed _ => decide (failed < 4096)
  | .eccRegionEnable src k _ => sourceOk src && decide (k < 8)
  | .eccInitDone k => decide (k < 8)
  | .dmaNop r => decide (r < 64)
  | .copy r => decide (r < 64)
  | .fill r => decide (r < 64)
  | .compare r => decide (r < 64)
  | .dmaStop r => decide (r < 64)
  | .chStop src k => sourceOk src && decide (k < 32)
  | .descriptorStart k => decide (k < 32)
  | .dmaBurstIssue _ => true
  | .descriptorComplete k => decide (k < 32)
  | .gate k rd _ _ _ priv _ => decide (k < 4) && decide (rd < 32) && decide (priv < 4)
  | .gret k rd _ _ _ priv _ => decide (k < 4) && decide (rd < 32) && decide (priv < 4)
  | .wstat k rd _ _ _ priv _ => decide (k < 4) && decide (rd < 32) && decide (priv < 4)
  | .gmark k rd _ _ _ priv _ => decide (k < 4) && decide (rd < 32) && decide (priv < 4)
  | .secureInterrupt k _ priv _ => decide (k < 4) && decide (priv < 4)
  | .claimBlockSet src block => sourceOk src && decide (block < 32)
  | .claimBlockClear src block => sourceOk src && decide (block < 32)
  | .authFail src => sourceOk src
  | .wdKick src _ => sourceOk src
  | .wdWarn => true
  | .secureWdogExpiry => true
  | .ccRelease src release => sourceOk src && decide (release < 16)
  | .ccReset src mask => sourceOk src && decide (mask < 16)
  | .rollbackAdvance src _ => sourceOk src
  | .tchNop r => decide (r < 64)
  | .subscribe r => decide (r < 64)
  | .loadRef r => decide (r < 64)
  | .recal r => decide (r < 64)
  | .tchSelfTest r => decide (r < 64)
  | .selfTestDone n _ _ _ _ => decide (n < 4)
  | .raw r => decide (r < 64)
  | .scanFrameStart n => decide (n < 4)
  | .scanFrameEnd n _ _ => decide (n < 4)
  | .stuckTouch n _ => decide (n < 4)
  | .touchCurrentLimit n line => decide (n < 4) && decide (line < 56)
  | .hapNop r => decide (r < 64)
  | .play r => decide (r < 64)
  | .hapStop r => decide (r < 64)
  | .loadEffect r => decide (r < 64)
  | .effectSlotSwap slot => decide (slot < 16)
  | .hapTest r => decide (r < 64)
  | .hapTestDone _ _ _ _ _ => true
  | .readEffect r => decide (r < 64)
  | .islPlay src _ => sourceOk src
  | .actuatorDelayExpiry k => decide (k < 8)
  | .halfCycleBoundary k => decide (k < 8)
  | .hapThermalStep => true
  | .actuatorOvercurrent k _ => decide (k < 8)
  | .boostRailCheck _ => true
  | .audNop r => decide (r < 64)
  | .buffer r => decide (r < 64)
  | .capture r => decide (r < 64)
  | .chime r => decide (r < 64)
  | .islChime src _ => sourceOk src
  | .audioSample _ _ _ => true
  | .chimeSegmentEnd t => decide (t < 4)
  | .zcTimeout i b => decide (i < 42) && decide (b < 16)
  | .duckHoldExpiry b => decide (4 ≤ b) && decide (b < 16)
  | .silenceDetect i => decide (i < 40)
  | .ampPowerDown a => decide (a < 2)
  | .eqCoefWrite src b k j _ => sourceOk src && decide (b < 16) && decide (k < 8) && decide (j < 5)
  | .ampTest src a => sourceOk src && decide (a < 2)
  | .speakerOvercurrent a _ => decide (a < 2)
  | .eventAdmit => true
  | .recordCommit _ _ => true
  | .caskLocate => true
  | .caskLocateDone _ slotsLog2 _ => decide (slotsLog2 ≤ 24)
  | .caskFreeze src _ => sourceOk src
  | .freezeTimeout => true
  | .caskRead src _ => sourceOk src
  | .caskClear src _ => sourceOk src
  | .logEvent src _ => sourceOk src
  | .rtcSet src => sourceOk src
  | .rtcFracRead src => sourceOk src
  | .rtcAlarm => true
  | .tempPeakRead src i => sourceOk src && decide (i < 10)
  | .linkPortEnable src port _ => sourceOk src && decide (port < 2)
  | .linkPortUp port lanes _ => decide (port < 2) && decide (lanes ≤ 4)
  | .linkRetrainTimer port => decide (port < 2)
  | .hello port dev _ _ _ _ _ _ _ => decide (port < 2) && decide (dev < 4)
  | .hapTrig dev tf z eff prio => decide (dev < 4) && decide (tf < 4) && decide (z < 64) && decide (eff < 256) && decide (prio < 4)
  | .tchEvt dev _ => decide (dev < 4)
  | .layerRd dev _ _ n => decide (dev < 4) && decide (n ≤ 2048)
  | .layerData _ _ _ => true
  | .rsp dev _ _ _ => decide (dev < 4)
  | .regWr dev _ page off data => placeOk (.link dev) page off && decide (data.length ≤ 64)
  | .memWr dev _ _ data => decide (dev < 4) && decide (data.length ≤ 256)
  | .regRd dev _ page off size => placeOk (.link dev) page off && decide (size ≤ 64)
  | .memRd dev _ _ n => decide (dev < 4) && decide (n ≤ 256)
  | .linkMsgReserved => true
  | .remoteWindowAccess k _ _ n _ _ priv _ => decide (k < 4) && decide (priv < 4) && decide (1 ≤ n) && decide (n ≤ 64)
  | .remoteReadTimeout _ => true
  | .linkLoss port _ _ => decide (port < 2)
  | .surgeClamp _ => true
  | .surgeTrip _ => true
  | .reverseCurrent _ _ => true
  | .railFault rail _ => decide (rail < 8)
  | .railWarn rail => decide (rail < 8)
  | .inputLoss _ _ => true
  | .pfwDelayExpiry _ _ => true
  | .vsysLow _ _ => true
  | .externalPfwn _ => true
  | .pfwnAssert _ => true
  | .safeOkReadback _ => true
  | .vbus5PhaseShed _ => true
  | .serviceEnFall => true
  | .proofLockstep src => sourceOk src
  | .proofWdog src => sourceOk src
  | .proofSigPath src arg => sourceOk src && decide (arg < 256)
  | .proofSafeOk src => sourceOk src
  | .proofClkmon src => sourceOk src
  | .proofEccIsl src => sourceOk src
  | .proofEccDram src k => sourceOk src && decide (k < 256)
  | .proofLanes src => sourceOk src
  | .proofTouch src mask => sourceOk src && decide (mask < 256)
  | .proofOutputs src => sourceOk src
  | .proofSupply src => sourceOk src
  | .proofTestEnd _ => true
  | .fabStall src _ => sourceOk src
  | .dramDelay src _ => sourceOk src
  | .backpress src _ => sourceOk src
  | .wmForce src _ => sourceOk src
  | .sigInj src _ => sourceOk src
  | .eccInj src _ => sourceOk src
  | .tchInj src _ => sourceOk src
  | .vfEnableClear port => decide (port < 4)
  | .wakeGpio => true
  | .vbatRise => true
  | .coreMemoryAccess k _ _ n _ _ priv _ => decide (k < 5) && decide (priv < 4) && decide (1 ≤ n) && decide (n ≤ 8)
  | .registerRead src page off size => placeOk src page off && decide (size ≤ 64)
  | .ampTestDone a _ _ _ _ _ => decide (a < 2)
  | .boostRailOvercurrent => true
  | .clampRelease _ => true
  | .thermalBootRelease _ => true
  | .pfwWakeHoldoffExpiry _ => true
  | .debugHalt k _ => decide (k < 4)
  | .linkLaneFail port => decide (port < 2)
  | .linkCrcError port _ => decide (port < 2)
  | .dmaReadCompletion k _ _ => decide (k < 32)

end Sys2Proof
end

