-- ==== Sys2Proof/Machine/Ops.lean ====
section
/-! DEFINITION. The operations every meaning is made of: sparse tables, register fields, interrupts, rejections,
events for Cask, addressed memory and the outcome of a command. -/

namespace Sys2Proof.Machine

/-! ### Sparse tables -/

/-- The value listed for `k`. -/
def SMap.find? {α : Type} (m : SMap α) (k : Nat) : Option α :=
  match m with
  | [] => none
  | (k', v) :: rest => if k' = k then some v else SMap.find? rest k

/-- List `v` for `k`, keeping the keys strictly rising. -/
def SMap.insert {α : Type} (m : SMap α) (k : Nat) (v : α) : SMap α :=
  match m with
  | [] => [(k, v)]
  | (k', v') :: rest =>
    if k < k' then (k, v) :: (k', v') :: rest
    else if k = k' then (k, v) :: rest
    else (k', v') :: SMap.insert rest k v

/-- Remove `k`. -/
def SMap.erase {α : Type} (m : SMap α) (k : Nat) : SMap α :=
  match m with
  | [] => []
  | (k', v') :: rest => if k' = k then SMap.erase rest k else (k', v') :: SMap.erase rest k

/-- The value listed for `k`, or `d`. -/
def SMap.getD {α : Type} (m : SMap α) (k : Nat) (d : α) : α := (m.find? k).getD d

/-- Write `v` at `k` where an unlisted key reads `d`: a value equal to `d` is unlisted. -/
def SMap.put {α : Type} [DecidableEq α] (m : SMap α) (d : α) (k : Nat) (v : α) : SMap α :=
  if v = d then m.erase k else m.insert k v

/-- The canonical form: keys strictly rising. -/
def SMap.sorted {α : Type} (m : SMap α) : Bool :=
  match m with
  | [] => true
  | [_] => true
  | (k, _) :: (k', v') :: rest => decide (k < k') && SMap.sorted ((k', v') :: rest)

/-! ### Addressed memories -/

/-- An addressed memory: a byte that nothing has written reads 0 (log entry 5). -/
abbrev Memory := List Host.Cell

/-- The byte at address `a`. -/
def Memory.read (m : Memory) (a : Nat) : Byte := SMap.getD m a 0

/-- Store a byte. -/
def Memory.write (m : Memory) (a : Nat) (v : Byte) : Memory := SMap.put m 0 a v

/-- The canonical form of a memory: addresses strictly rising, no listed byte equal to an unlisted one. -/
def Memory.wf (m : Memory) : Bool := SMap.sorted m && m.all fun c => c.2 != 0

/-- `n` bytes from `a`. -/
def Memory.readBytes (m : Memory) (a n : Nat) : List Byte := (List.range n).map fun i => m.read (a + i)

/-- Store bytes from `a` upward. -/
def Memory.writeBytes (m : Memory) (a : Nat) (bs : List Byte) : Memory :=
  match bs with
  | [] => m
  | b :: rest => Memory.writeBytes (m.write a b) (a + 1) rest

/-- The number that bytes spell, the first the least significant. -/
def leNat (bs : List Byte) : Nat :=
  match bs with
  | [] => 0
  | b :: rest => b.toNat + 256 * leNat rest

/-- `n` bytes of a number, the least significant first. -/
def leBytes (n v : Nat) : List Byte :=
  match n with
  | 0 => []
  | k + 1 => BitVec.ofNat 8 v :: leBytes k (v / 256)

/-- The little-endian number of `n` bytes at `a`. -/
def Memory.readNat (m : Memory) (a n : Nat) : Nat := leNat (m.readBytes a n)

/-- Store `n` bytes of `v` at `a`, little-endian. -/
def Memory.writeNat (m : Memory) (a n v : Nat) : Memory := m.writeBytes a (leBytes n v)

/-! ### Bits -/

/-- Bits `lo + w - 1 … lo` of `v`. -/
def bits (v lo w : Nat) : Nat := v / 2 ^ lo % 2 ^ w

/-- A truth value as a bit. -/
def b2n (b : Bool) : Nat := if b then 1 else 0

/-- `v` with bit `i` set to `b`. -/
def putBit (v i : Nat) (b : Bool) : Nat :=
  if b then v ||| 1 <<< i else v - (v &&& 1 <<< i)

/-- The bits of `v` that `m` does not have. -/
def clearBits (v m : Nat) : Nat := v - (v &&& m)

/-- The signed value of a `w`-bit number. -/
def sext (w v : Nat) : Int := if v % 2 ^ w < 2 ^ (w - 1) then (v % 2 ^ w : Nat) else ((v % 2 ^ w : Nat) : Int) - (2 ^ w : Nat)

/-- The `w`-bit two's complement of an integer. -/
def toBits (w : Nat) (v : Int) : Nat := (v % ((2 ^ w : Nat) : Int)).toNat

/-- How many of the low `n` bits are set. -/
def popCount (n v : Nat) : Nat :=
  match n with
  | 0 => 0
  | k + 1 => (if v.testBit k then 1 else 0) + popCount k v

/-- The lowest of the first `n` numbers that `p` accepts. -/
def firstIdx (n : Nat) (p : Nat → Bool) : Option Nat := (List.range n).find? p

/-- Apply `f` to 0, 1, …, n - 1 in turn. -/
def forN {α : Type} (n : Nat) (a : α) (f : Nat → α → α) : α := (List.range n).foldl (fun x i => f i x) a

/-! ### Register fields -/

/-- The table key of a field. -/
def Fld.key (f : Fld) : Nat := (f.page * 1024 + f.off / 4) * 32 + f.lo

/-- The value of a field. -/
def Chip.get (c : Chip) (f : Fld) : Nat := c.rf.getD f.key f.rst

/-- A one-bit field as a truth value. -/
def Chip.flag (c : Chip) (f : Fld) : Bool := c.get f == 1

/-- Give a field a value, taken modulo its width. -/
def Chip.set (c : Chip) (f : Fld) (v : Nat) : Chip := { c with rf := c.rf.put f.rst f.key (v % 2 ^ f.w) }

/-- Set bit `i` of a field. -/
def Chip.setBit (c : Chip) (f : Fld) (i : Nat) (b : Bool) : Chip := c.set f (putBit (c.get f) i b)

/-- Add to a counter that saturates at its width (R33). -/
def Chip.addSat (c : Chip) (f : Fld) (n : Nat) : Chip := c.set f (min (c.get f + n) (2 ^ f.w - 1))

/-- Count one event in a saturating counter. -/
def Chip.bump (c : Chip) (f : Fld) : Chip := c.addSat f 1

/-- Add one to a field that wraps. -/
def Chip.wrap (c : Chip) (f : Fld) : Chip := c.set f (c.get f + 1)

/-- `f` applied where `b` holds. -/
def Chip.when (c : Chip) (b : Bool) (f : Chip → Chip) : Chip := if b then f c else c

/-! ### The common header (R33) -/

namespace H

def ENABLE (p : Nat) : Fld := ⟨p, 0x008, 0, 1, 0⟩
def RESET (p : Nat) : Fld := ⟨p, 0x008, 1, 1, 0⟩
def STATE (p : Nat) : Fld := ⟨p, 0x00C, 0, 4, 0⟩
def ERR_CODE (p : Nat) : Fld := ⟨p, 0x010, 0, 8, 0⟩
def ERR_OFFSET (p : Nat) : Fld := ⟨p, 0x010, 8, 12, 0⟩
def ERR_SOURCE (p : Nat) : Fld := ⟨p, 0x010, 20, 4, 0⟩
def ERR_COUNT (p : Nat) : Fld := ⟨p, 0x010, 24, 8, 0⟩
def IRQ_RAW (p : Nat) : Fld := ⟨p, 0x014, 0, 32, 0⟩
def IRQ_EN (p : Nat) : Fld := ⟨p, 0x018, 0, 32, 0⟩
def CLAIMED (p : Nat) : Fld := ⟨p, 0x020, 0, 1, 0⟩
def BUSY (p : Nat) : Fld := ⟨p, 0x024, 2, 1, 0⟩
def PENDING (p : Nat) : Fld := ⟨p, 0x024, 3, 1, 0⟩
def RESULT (p : Nat) : Fld := ⟨p, 0x024, 8, 8, 0⟩
def SEQ (p : Nat) : Fld := ⟨p, 0x024, 16, 16, 0⟩

end H

/-! ### Codes (R37) -/

namespace E

def NONE : Nat := 0x00
def VALUE : Nat := 0x01
def STATE : Nat := 0x02
def MODE : Nat := 0x03
def OWNER : Nat := 0x04
def CLAIMED : Nat := 0x05
def LOCKED : Nat := 0x06
def RANGE : Nat := 0x07
def ALIGN : Nat := 0x08
def SHORT : Nat := 0x09
def BUSY : Nat := 0x0A
def RETIRING : Nat := 0x0B
def LATE : Nat := 0x0C
def KEY : Nat := 0x0D
def CYCLE : Nat := 0x0E
def RESERVED : Nat := 0x0F
def ABORTED_POWER : Nat := 0x40
def SQUASHED : Nat := 0x41
def GRANTED_POISONED : Nat := 0x42
def BIN_GROW : Nat := 0x43
def PARTIAL_RENDER : Nat := 0x44
def COMPARE_MISMATCH : Nat := 0x45
def FENCE_TIMEOUT : Nat := 0x46

end E

/-! ### Modes (R46) -/

namespace Mode

def DORMANT : Nat := 0
def VIGIL : Nat := 1
def BOOT : Nat := 2
def RUN : Nat := 3
def DEGRADED : Nat := 4
def SERVICE : Nat := 5

end Mode

/-- The operating mode. -/
def Chip.mode (c : Chip) : Nat := c.get R.SYS_MODE.MODE_STAT.MODE

/-! ### Pages (R45) -/

/-- The block code of a page, 0 for a reserved page. -/
def blockOf (p : Nat) : Nat :=
  if p < 0x010 then 0x01 else if p < 0x020 then 0x02 else if p < 0x030 then 0x03 else if p < 0x040 then 0x04
  else if p < 0x050 then 0x05 else if p < 0x070 then 0x06 else if p < 0x090 then 0x07 else if p < 0x094 then 0x08
  else if p < 0x0A0 then 0 else if p < 0x0E0 then 0x09 else if p < 0x120 then 0x0A else if p < 0x130 then 0x0B
  else if p < 0x140 then 0x0C else if p < 0x150 then 0x0D else if p < 0x160 then 0x0E else if p < 0x180 then 0x0F
  else if p < 0x190 then 0x10 else if p < 0x1A0 then 0x11 else if p < 0x1A8 then 0x12 else if p < 0x1B0 then 0x13
  else if p < 0x1B4 then 0x14 else if p < 0x1C0 then 0 else if p < 0x1D0 then 0x15 else 0

/-- The page lies on the field die (R45). -/
def onField (p : Nat) : Bool :=
  (0x020 ≤ p && p < 0x030) || (0x19E ≤ p && p < 0x1B4)

/-- Pages inside a block's range that the chapters leave reserved hold no register rows; pages 0x000 and the
header-only pages are listed beside them. -/
def pageDefined (p : Nat) : Bool := p = 0 || !(pageRows p).2.isEmpty

/-! ### Interrupts (R41, R86) -/

/-- Pages whose line is carried per ring pair (R86). -/
def isRingPage (p : Nat) : Bool := 0x070 ≤ p && p < 0x090

/-- The level of a page's interrupt line. -/
def Chip.pageLine (c : Chip) (p : Nat) : Bool := c.get (H.IRQ_RAW p) &&& c.get (H.IRQ_EN p) != 0

/-- The half of a ring page whose line ERR joins: the half that holds the captured offset (R86). -/
def Chip.errHalf (c : Chip) (p : Nat) : Nat := if 0x50 ≤ c.get (H.ERR_OFFSET p) ∧ c.get (H.ERR_OFFSET p) < 0x90 then 1 else 0

/-- The level of the line of half `h` of ring page `p`. -/
def Chip.ringLine (c : Chip) (p h : Nat) : Bool :=
  let x := c.get (H.IRQ_RAW p) &&& c.get (H.IRQ_EN p)
  bits x (8 * h) 8 != 0 || (x.testBit 31 && c.errHalf p == h)

/-- The router page and index of a line: a page number, or 512 + ring pair. -/
def routeAt (line : Nat) : Nat × Nat :=
  if line < 256 then (0, line) else if line < 512 then (1, line - 256) else (2, line - 512)

/-- Send an interrupt on a line to its destination, if it has one. -/
def Chip.deliver (c : Chip) (line : Nat) : Chip :=
  let n := (routeAt line).1
  let i := (routeAt line).2
  let k := c.get (R.IMX_ROUTE.ROUTE.KIND n i)
  if k = 0 then c else
    { c with deliveries := c.deliveries ++ [
        { line := line, kind := k, port := c.get (R.IMX_ROUTE.ROUTE.PORT n i),
          func := c.get (R.IMX_ROUTE.ROUTE.FUNC n i), vector := c.get (R.IMX_ROUTE.ROUTE.VECTOR n i),
          core := c.get (R.IMX_ROUTE.ROUTE.CORE n i), world := c.get (R.IMX_ROUTE.ROUTE.WORLD n i) }] }

/-- Send the interrupts of page `p` that are due when `c` has become `c'`: every line that rises sends one. `w1c` are the bits that a clear
has named: a line they belong to that stays high sends one too (R41). -/
def Chip.lines (c c' : Chip) (p w1c : Nat) : Chip :=
  if isRingPage p then
    let r := 512 + 2 * (p - 0x070)
    let again := fun h => bits w1c (8 * h) 8 != 0 || (w1c.testBit 31 && c.errHalf p == h)
    let c1 := if c'.ringLine p 0 && (again 0 || !c.ringLine p 0) then c'.deliver r else c'
    if c'.ringLine p 1 && (again 1 || !c.ringLine p 1) then c1.deliver (r + 1) else c1
  else if c'.pageLine p && (w1c != 0 || !c.pageLine p) then c'.deliver p
  else c'

/-- Give a page new IRQ_RAW and IRQ_EN, a clear having named the bits `w1c`. -/
def Chip.setIrq (c : Chip) (p raw en w1c : Nat) : Chip :=
  c.lines ((c.set (H.IRQ_RAW p) raw).set (H.IRQ_EN p) en) p w1c

/-- Latch event bit `b` of page `p`. -/
def Chip.raise (c : Chip) (p b : Nat) : Chip :=
  c.lines (c.set (H.IRQ_RAW p) (c.get (H.IRQ_RAW p) ||| 1 <<< b)) p 0

/-! ### Sources -/

/-- The SOURCE code of a rejection (R36). -/
def srcCode : Src → Nat
  | .pf _ => 1
  | .inst _ => 2
  | .ccn _ => 3
  | .ccs _ => 4
  | .island => 5
  | .link _ => 6

/-- The secure world. -/
def isSecure : Src → Bool
  | .ccs _ => true
  | _ => false

/-- A control core, in either world. -/
def isControl : Src → Bool
  | .ccn _ => true
  | .ccs _ => true
  | _ => false

/-- The manager: the physical function that MANAGER names, or control-cluster firmware (R75); a link write is checked as the manager's (R349). -/
def Chip.isMgr (c : Chip) : Src → Bool
  | .pf p => c.get R.IMX.MANAGER.MGR == p
  | .ccn _ => c.get R.IMX.MANAGER.MGR == 4
  | .link _ => true
  | _ => false

/-- The manager or the control world. -/
def Chip.mgrOrCtl (c : Chip) (s : Src) : Bool := c.isMgr s || isControl s

/-- Who may write shares, bindings and router entries: the manager, and where that is a host port the control world (R78). -/
def Chip.shareWriter (c : Chip) (s : Src) : Bool := c.isMgr s || (isControl s && decide (c.get R.IMX.MANAGER.MGR < 4))

/-! ### Rejections (R36) -/

/-- Record a rejection in the PAGE_ERR of page `p`. -/
def Chip.reject (c : Chip) (p off source code : Nat) : Chip :=
  let first := c.get (H.ERR_CODE p) = 0
  let c1 := if first then ((c.set (H.ERR_CODE p) code).set (H.ERR_OFFSET p) (off / 4)).set (H.ERR_SOURCE p) source else c
  (c1.bump (H.ERR_COUNT p)).raise p 31

/-- The first check that fails, in the order of R38. -/
def firstFail (checks : List (Bool × Nat)) : Option Nat :=
  match checks with
  | [] => none
  | (ok, code) :: rest => if ok then firstFail rest else some code

/-- An access of a source that reaches page `p` through the register port: the first failing check rejects it,
else it takes effect. -/
def Chip.checked (c : Chip) (src : Src) (p off : Nat) (checks : List (Bool × Nat)) (eff : Chip → Chip) : Chip :=
  match firstFail checks with
  | some code => c.reject p off (srcCode src) code
  | none => eff c

/-! ### The state before configuration (R73) -/

/-- Software has enabled block `b` since t0: its pins have left the state of R73. -/
def Chip.blockStarted (c : Chip) (b : Nat) : Bool := c.pow.started.contains b

/-- Software enables block `b`. -/
def Chip.startBlock (c : Chip) (b : Nat) : Chip :=
  if c.blockStarted b then c else { c with pow := { c.pow with started := b :: c.pow.started } }

/-! ### Events for Cask (R333, R334) -/

/-- PD_DISP is off in VIGIL: records extrapolate the ledger time from what VIGIL saved, by the RTC's 32,768 Hz (R31). -/
def Chip.extraps (c : Chip) : Bool := c.mode == Mode.VIGIL && !(c.get R.SYS_POWER.PD_ON.ON).testBit 3

/-- Ticks of 32,768 Hz since the part's time began. -/
def Chip.ticks (c : Chip) : Nat := c.ps * 32768 / 10 ^ 12

/-- Ledger nanoseconds as a record stamps them. -/
def Chip.nsNow (c : Chip) : Nat :=
  if c.extraps then (c.led.savedNs + (c.ticks - c.led.savedRtc) * 10 ^ 9 / 32768) % 2 ^ 64 else c.led.ns

/-- Hand an event to Cask. -/
def Chip.record (c : Chip) (event unit : Nat) (params : List Nat) : Chip :=
  { c with csk := { c.csk with waiting := c.csk.waiting ++
      [{ event := event, unit := unit, params := params, ns := c.nsNow, source := event / 256, extrap := c.extraps }] } }

/-- `n` little-endian parameter bytes of a value. -/
def parBytes (n v : Nat) : List Nat :=
  match n with
  | 0 => []
  | k + 1 => v % 256 :: parBytes k (v / 256)

/-! ### Free values -/

/-- Take the next free value of width `w`. -/
def Chip.fresh (c : Chip) (w : Nat) : Nat × Chip :=
  ((Config.freeValue c.free).toNat % 2 ^ w, { c with free := c.free + 1 })

/-! ### Outcomes -/

/-- The outcome of a command whose effect is on the chip state, provided the units it names exist. -/
def State.on (s : State) (exists_ : Bool) (f : Chip → Chip) : Host.Outcome State Fault Refusal :=
  if exists_ then .next { s with chip := f s.chip } else .fault .noSuchUnit

/-- The outcome of a command that also reaches the memories. -/
def State.onMem (s : State) (exists_ : Bool) (f : Chip → Mems → Chip × Mems) : Host.Outcome State Fault Refusal :=
  if exists_ then
    let r := f s.chip s.mem
    .next { s with chip := r.1, mem := r.2 }
  else .fault .noSuchUnit

end Sys2Proof.Machine
end

