-- ==== Sys2Proof/Machine/Float.lean ====
section
/-! DEFINITION. Binary floating point (R154): FP16 and FP32 as exact numbers with one rounding to nearest even, subnormals
kept, and the canonical NaN. -/

namespace Sys2Proof.Machine

/-- A format: `mb` fraction bits and `eb` exponent bits. -/
structure Fmt where
  mb : Nat
  eb : Nat
  deriving DecidableEq, Repr

def fp16 : Fmt := { mb := 10, eb := 5 }
def fp32 : Fmt := { mb := 23, eb := 8 }

/-- The exact value of a floating-point word: `fin neg mag exp` is ± mag × 2^exp. -/
inductive FV where
  | nan
  | inf (neg : Bool)
  | fin (neg : Bool) (mag : Nat) (exp : Int)
  deriving DecidableEq, Repr

def Fmt.width (f : Fmt) : Nat := f.mb + f.eb + 1
def Fmt.bias (f : Fmt) : Nat := 2 ^ (f.eb - 1) - 1
def Fmt.top (f : Fmt) : Nat := 2 ^ f.eb - 1
/-- The sign bit as a number. -/
def Fmt.sign (f : Fmt) (neg : Bool) : Nat := if neg then 2 ^ (f.mb + f.eb) else 0
def Fmt.nan (f : Fmt) : Nat := f.top * 2 ^ f.mb + 2 ^ (f.mb - 1)
def Fmt.inf (f : Fmt) (neg : Bool) : Nat := f.sign neg + f.top * 2 ^ f.mb
def Fmt.one (f : Fmt) : Nat := f.bias * 2 ^ f.mb

/-- The value of a word. -/
def Fmt.val (f : Fmt) (w : Nat) : FV :=
  let neg := w.testBit (f.mb + f.eb)
  let e := bits w f.mb f.eb
  let m := bits w 0 f.mb
  if e = f.top then (if m = 0 then .inf neg else .nan)
  else if e = 0 then .fin neg m (1 - (f.bias : Int) - f.mb)
  else .fin neg (m + 2 ^ f.mb) ((e : Int) - f.bias - f.mb)

/-- Halve `n` `k` times, rounding to nearest even; `sticky` says that the value lies a little above n. -/
def shiftEven (n k : Nat) (sticky : Bool) : Nat :=
  let q := n / 2 ^ k
  let r := n % 2 ^ k
  let half := 2 ^ (k - 1)
  if k = 0 then q
  else if half < r ∨ (r = half ∧ (sticky ∨ q % 2 = 1)) then q + 1 else q

/-- The same, rounding toward zero. -/
def shiftDown (n k : Nat) : Nat := n / 2 ^ k

/-- The word of m × 2^q, where m needs at most one bit more than the significand. -/
def Fmt.pack (f : Fmt) (neg : Bool) (m : Nat) (q : Int) : Nat :=
  let m' := if 2 ^ (f.mb + 1) ≤ m then m / 2 else m
  let q' := if 2 ^ (f.mb + 1) ≤ m then q + 1 else q
  if m' < 2 ^ f.mb then f.sign neg + m'
  else
    let e := (q' + f.mb + f.bias).toNat
    if f.top ≤ e then f.inf neg else f.sign neg + e * 2 ^ f.mb + (m' - 2 ^ f.mb)

/-- The exponent of the last place of a value whose leading bit has weight 2^e. -/
def Fmt.quantum (f : Fmt) (e : Int) : Int := max e (1 - (f.bias : Int)) - f.mb

/-- ± mag × 2^exp, and a little more where `sticky`, rounded to nearest even. -/
def Fmt.round (f : Fmt) (neg : Bool) (mag : Nat) (exp : Int) (sticky : Bool) : Nat :=
  if mag = 0 then f.sign neg
  else
    let q := f.quantum (Nat.log2 mag + exp)
    if q ≤ exp then f.pack neg (mag * 2 ^ (exp - q).toNat) q else f.pack neg (shiftEven mag (q - exp).toNat sticky) q

/-- The word of a value. -/
def Fmt.ofVal (f : Fmt) : FV → Nat
  | .nan => f.nan
  | .inf neg => f.inf neg
  | .fin neg mag exp => f.round neg mag exp false

/-- The integer m with value m × 2^e, for e no greater than the value's exponent. -/
def scaled (neg : Bool) (mag : Nat) (exp e : Int) : Int :=
  let m : Int := mag * 2 ^ (exp - e).toNat
  if neg then -m else m

def FV.neg : FV → FV
  | .nan => .nan
  | .inf n => .inf (!n)
  | .fin n m e => .fin (!n) m e

def FV.abs : FV → FV
  | .nan => .nan
  | .inf _ => .inf false
  | .fin _ m e => .fin false m e

/-- The exact sum; an exact zero sum of unlike signs is +0. -/
def FV.add : FV → FV → FV
  | .nan, _ => .nan
  | _, .nan => .nan
  | .inf a, .inf b => if a = b then .inf a else .nan
  | .inf a, _ => .inf a
  | _, .inf b => .inf b
  | .fin n1 m1 e1, .fin n2 m2 e2 =>
    let e := min e1 e2
    let s := scaled n1 m1 e1 e + scaled n2 m2 e2 e
    if s = 0 then .fin (n1 && n2) 0 e else .fin (decide (s < 0)) s.natAbs e

/-- The exact product. -/
def FV.mul : FV → FV → FV
  | .nan, _ => .nan
  | _, .nan => .nan
  | .inf a, .inf b => .inf (a != b)
  | .inf a, .fin b m _ => if m = 0 then .nan else .inf (a != b)
  | .fin b m _, .inf a => if m = 0 then .nan else .inf (a != b)
  | .fin n1 m1 e1, .fin n2 m2 e2 => .fin (n1 != n2) (m1 * m2) (e1 + e2)

/-- a < b for values that are no NaN; −0 and +0 are equal. -/
def FV.lt : FV → FV → Bool
  | .nan, _ => false
  | _, .nan => false
  | .inf a, .inf b => a && !b
  | .inf a, _ => a
  | _, .inf b => !b
  | .fin n1 m1 e1, .fin n2 m2 e2 =>
    let e := min e1 e2
    decide (scaled n1 m1 e1 e < scaled n2 m2 e2 e)

def FV.isNan : FV → Bool
  | .nan => true
  | _ => false

def FV.isNeg : FV → Bool
  | .nan => false
  | .inf n => n
  | .fin n _ _ => n

def FV.finite : FV → Bool
  | .fin _ _ _ => true
  | _ => false

/-- a = b for values that are no NaN. -/
def FV.eq (a b : FV) : Bool := !a.isNan && !b.isNan && !a.lt b && !b.lt a

/-- Minimum: a NaN gives way, −0 is below +0. -/
def FV.min (a b : FV) : FV :=
  if a.isNan then b else if b.isNan then a
  else if a.lt b then a else if b.lt a then b else if a.isNeg then a else b

/-- Maximum, with the same rules. -/
def FV.max (a b : FV) : FV :=
  if a.isNan then b else if b.isNan then a
  else if a.lt b then b else if b.lt a then a else if a.isNeg then b else a

/-- The largest integer not above the value. -/
def FV.floorInt : FV → Int
  | .fin neg mag exp =>
    let m : Int := if neg then -(mag : Int) else mag
    if 0 ≤ exp then m * 2 ^ exp.toNat else m / 2 ^ (-exp).toNat
  | _ => 0

def FV.ofInt (v : Int) : FV := .fin (decide (v < 0)) v.natAbs 0

def FV.floor : FV → FV
  | .fin neg mag exp => if mag = 0 then .fin neg 0 0 else FV.ofInt (FV.floorInt (.fin neg mag exp))
  | v => v

/-- Toward zero. -/
def FV.truncInt : FV → Int
  | .fin neg mag exp =>
    let m : Int := if 0 ≤ exp then mag * 2 ^ exp.toNat else mag / 2 ^ (-exp).toNat
    if neg then -m else m
  | _ => 0

/-- To the nearest integer, ties to even. -/
def FV.nearInt : FV → Int
  | .fin neg mag exp =>
    let m : Int := if 0 ≤ exp then mag * 2 ^ exp.toNat else shiftEven mag (-exp).toNat false
    if neg then -m else m
  | _ => 0

/-- A conversion toward zero that saturates to lo … hi; NaN gives 0. -/
def FV.toIntSat (lo hi : Int) : FV → Int
  | .nan => 0
  | .inf n => if n then lo else hi
  | v => Max.max lo (Min.min hi v.truncInt)

def Fmt.add (f : Fmt) (a b : Nat) : Nat := f.ofVal ((f.val a).add (f.val b))
def Fmt.mul (f : Fmt) (a b : Nat) : Nat := f.ofVal ((f.val a).mul (f.val b))
def Fmt.fma (f : Fmt) (a b c : Nat) : Nat := f.ofVal (((f.val a).mul (f.val b)).add (f.val c))
def Fmt.negate (f : Fmt) (a : Nat) : Nat := f.ofVal (f.val a).neg
def Fmt.sub (f : Fmt) (a b : Nat) : Nat := f.ofVal ((f.val a).add (f.val b).neg)

/-- SAT (R154): clamp to [0, 1], NaN to +0. -/
def Fmt.sat (f : Fmt) (a : Nat) : Nat :=
  match f.val a with
  | .nan => 0
  | v => f.ofVal (FV.min (FV.max v (.fin false 0 0)) (.fin false 1 0))

/-- The integer square root: the largest r below 2^k with r² ≤ n. -/
def isqrt (k n : Nat) : Nat :=
  match k with
  | 0 => 0
  | j + 1 =>
    let hi := isqrt j (n / 4)
    if (2 * hi + 1) * (2 * hi + 1) ≤ n then 2 * hi + 1 else 2 * hi

/-- Word `r` is a number from `lo` to `hi`, in units of 2^exp. -/
def Fmt.inRange (f : Fmt) (lo hi exp : Int) (r : Nat) : Bool :=
  match f.val r with
  | .fin n m e =>
    let u := min e exp
    let x := scaled n m e u
    decide (lo * 2 ^ (exp - u).toNat ≤ x) && decide (x ≤ hi * 2 ^ (exp - u).toNat)
  | _ => false

/-- The word that the open choice `pick` spells where it is a number from `lo` to `hi` (in units of 2^exp), else `other`. -/
def Fmt.pickIn (f : Fmt) (lo hi exp : Int) (pick other : Nat) : Nat :=
  let r := pick % 2 ^ f.width
  if f.inRange lo hi exp r then r else other

/-- The rounding to nearest even of a value that is v × 2^exp, or lies between that and (v + 1) × 2^exp where `sticky`. -/
def Fmt.nearest (f : Fmt) (v exp : Int) (sticky : Bool) : Nat :=
  if 0 ≤ v then f.round false v.toNat exp sticky else f.round true (v.natAbs - b2n sticky) exp sticky

/-- A word within `n` ulp of such a value, by the open choice `pick` (R154). -/
def Fmt.pickUlp (f : Fmt) (n : Nat) (v exp : Int) (sticky : Bool) (pick : Nat) : Nat :=
  let q := if v = 0 then 1 - (f.bias : Int) - f.mb else f.quantum (Nat.log2 v.natAbs + exp)
  let e := min q exp
  let k : Int := 2 ^ (exp - e).toNat
  let tol : Int := n * 2 ^ (q - e).toNat
  f.pickIn ((v + b2n sticky) * k - tol) (v * k + tol) e pick (f.nearest v exp sticky)

/-- The lower bound of ± a value that lies between mag and mag + 1 where `sticky`. -/
def lowOf (neg : Bool) (mag : Nat) (sticky : Bool) : Int := if neg then -((mag + b2n sticky : Nat) : Int) else mag

/-- 1 / s0 within 1 ulp. -/
def Fmt.rcp (f : Fmt) (a pick : Nat) : Nat :=
  match f.val a with
  | .nan => f.nan
  | .inf n => f.sign n
  | .fin n m e =>
    if m = 0 then f.inf n
    else f.pickUlp 1 (lowOf n (2 ^ 80 / m) (2 ^ 80 % m != 0)) (-80 - e) (2 ^ 80 % m != 0) pick

/-- sqrt(s0) within 1 ulp. -/
def Fmt.sqrt (f : Fmt) (a pick : Nat) : Nat :=
  match f.val a with
  | .nan => f.nan
  | .inf n => if n then f.nan else f.inf false
  | .fin n m e =>
    if m = 0 then f.sign n
    else if n then f.nan
    else
      let e' := e - 60 - (e % 2)
      let v := m * 2 ^ (e - e').toNat
      let r := isqrt 60 v
      f.pickUlp 1 r (e' / 2) (r * r != v) pick

/-- 1 / sqrt(s0) within 1 ulp. -/
def Fmt.rsq (f : Fmt) (a pick : Nat) : Nat :=
  match f.val a with
  | .nan => f.nan
  | .inf n => if n then f.nan else 0
  | .fin n m e =>
    if m = 0 then f.inf n
    else if n then f.nan
    else
      let e2 := e % 2
      let d := m * 2 ^ e2.toNat
      let v := 2 ^ 120 / d
      let r := isqrt 70 v
      f.pickUlp 1 r (-60 - (e - e2) / 2) (r * r * d != 2 ^ 120) pick

/-- An integer to floating point, to nearest even. -/
def Fmt.ofInt (f : Fmt) (v : Int) : Nat := f.ofVal (FV.ofInt v)

/-! ### Fixed-point evaluation with 96 fraction bits -/

/-- ln 2 and 2π in units of 2^-96. -/
def ln2Fix : Nat := 0xB17217F7D1CF79ABC9E3B398
def tauFix : Nat := 0x6487ED5110B4611A62633145C

/-- e^t in units of 2^-96, for t in the same units. -/
def expFix (t : Nat) : Nat :=
  ((List.range 45).foldl (fun (a : Nat × Nat) k => (a.1 + a.2, a.2 * t / (k + 1) / 2 ^ 96)) (0, 2 ^ 96)).1

/-- 96 binary digits of log2 y, for y in 1 … 2 in units of 2^-220. -/
def logBits (n : Nat) (y acc : Nat) : Nat :=
  match n with
  | 0 => acc
  | k + 1 =>
    let z := y * y / 2 ^ 220
    if 2 ^ 221 ≤ z then logBits k (z / 2) (2 * acc + 1) else logBits k z (2 * acc)

/-- sin of a number of turns (in units of 2^-96), in units of 2^-96. -/
def sinFix (turns : Nat) : Int :=
  let t : Int := (turns * tauFix / 2 ^ 96 : Nat)
  ((List.range 40).foldl (fun (a : Int × Int) k => (a.1 + a.2, -(a.2 * t / 2 ^ 96 * t / 2 ^ 96) / ((2 * k + 2) * (2 * k + 3) : Nat))) (0, t)).1

end Sys2Proof.Machine
end

