-- ==== Sys2Proof/Machine/Port.lean ====
section
/-! DEFINITION. The register port: where an access goes, the checks of R38 in their order, staged fields (R39) and
reads (R34, R36, R41). -/

namespace Sys2Proof.Machine

/-! ### Where an access goes -/

/-- A page the register window holds (R34: a reserved page is none). -/
def pageExists (p : Nat) : Bool := p < 0x200 && blockOf p != 0 && pageDefined p

/-- The device has not reached RUN since its last entry to BOOT (R72). -/
def Chip.beforeRun (c : Chip) : Bool := c.mode == Mode.BOOT || c.mode == Mode.DORMANT || c.mode == Mode.VIGIL

/-- Where a write that never reaches its page is recorded, and with which code: a port window (R43), the manager
port before RUN (R72), a reserved page (R34), a field-die page while the bridge is down (R11), an instance outside
its window (R390). -/
def Chip.turnedAway (c : Chip) (src : Src) (p : Nat) : Option (Nat × Nat) :=
  match src with
  | .inst vi => some (0x060 + vi, E.OWNER)
  | .pf port =>
    if c.get R.IMX.MANAGER.MGR ≠ port then some (0, E.OWNER)
    else if c.beforeRun && 0x010 ≤ p then some (0, E.RANGE)
    else if !pageExists p then some (0, E.RANGE)
    else if onField p && !c.brg.up then some (0, E.STATE)
    else none
  | _ =>
    if !pageExists p then some (0, E.RANGE)
    else if onField p && !c.brg.up then some (0, E.STATE)
    else none

/-- The fabric that carries register accesses is powered (R52). -/
def Chip.fabOn (c : Chip) : Bool := (c.get R.SYS_POWER.PD_ON.ON).testBit 19

/-- The window of instance `vi` answers: the device has reached RUN (R72), and the instance is bound and its VF enabled (R77). -/
def Chip.instOn (c : Chip) (vi : Nat) : Bool :=
  let p := c.get (R.IMX_VI.VI_BIND.PORT vi)
  c.fabOn && !c.beforeRun && c.get (R.IMX_VI.VI_STAT.STATE vi) != 0 && c.imx.vfEn.getD p 0 == 1
    && decide (c.get (R.IMX_VI.VI_BIND.VF vi) ≤ c.imx.numVfs.getD p 0)

/-- The island's own register path, which is not the fabric's: it lies in PD_SAFE and PD_DISP and reaches the SYS, LDG, CMP pipe, SCN and SAF pages
(R14). -/
def Chip.islandPath (c : Chip) (p : Nat) : Bool :=
  let on := fun d => (c.get R.SYS_POWER.PD_ON.ON).testBit d
  on 2 && on 3 && (decide (p < 0x020) || (decide (0x0E0 ≤ p) && decide (p < 0x0E8)) || (decide (0x120 ≤ p) && decide (p < 0x140)))

/-- An access that completes with Unsupported Request, that nothing carries, or that lies beyond the 64 KiB of a port window: it has no effect and is
recorded nowhere (R43, R72, R77). -/
def Chip.unheard (c : Chip) (src : Src) (p : Nat) : Bool :=
  match src with
  | .inst vi => !c.instOn vi
  | .pf port => !c.fabOn || (c.get R.IMX.MANAGER.MGR != port && (c.beforeRun || decide (0x010 ≤ p)))
  | .island => !c.fabOn && !c.islandPath p
  | _ => !c.fabOn

/-- Record a rejection of instance `vi` at its window page `w` (R36, R390): in its own copy, kept beside the
register pages at 0x200 + 16 × vi + w, in the underlying page, and as WIN_ERR. -/
def Chip.rejectInst (c : Chip) (vi w under woff uoff code : Nat) : Chip :=
  if !c.instOn vi then c else
  ((c.reject (0x200 + 16 * vi + w) woff 2 code).reject under uoff 2 code).raise (0x060 + vi) 3

/-- A write at `off` of page `p`: nothing where nothing carries it, turned away, rejected by the first failing check, or effective. -/
def Chip.port (c : Chip) (src : Src) (p off : Nat) (checks : List (Bool × Nat)) (eff : Chip → Chip) : Chip :=
  if c.unheard src p then c
  else match src, c.turnedAway src p with
    | .inst vi, _ => c.rejectInst vi 0 (0x060 + vi) off off E.OWNER
    | _, some (p0, code) => c.reject p0 off (srcCode src) code
    | _, none => c.checked src p off checks eff

/-! ### Staged fields (R39) -/

/-- The set a page's staged fields belong to. -/
def stageHome (p : Nat) : Nat :=
  if p = 0x011 then 0x010 else if 0x190 ≤ p ∧ p ≤ 0x195 then 0x190 else if 0x1A0 ≤ p ∧ p ≤ 0x1A7 then 0x1A0 else p

/-- The staged set of page `p`. -/
def Chip.stage (c : Chip) (p : Nat) : StageSet := (c.stg.find? (fun x => x.page = p)).getD { page := p }

/-- Put a staged set back; an empty one is not listed. -/
def Chip.putStage (c : Chip) (x : StageSet) : Chip :=
  let rest := c.stg.filter (fun y => y.page ≠ x.page)
  if x = { page := x.page } then { c with stg := rest }
  else { c with stg := (rest.filter (fun y => y.page < x.page)) ++ x :: rest.filter (fun y => x.page < y.page) }

/-- Write a field into the shadow, replacing an earlier write of the same field. -/
def StageSet.write (x : StageSet) (f : Fld) (v : Nat) : StageSet :=
  { x with shadow := x.shadow.filter (fun y => y.1 ≠ f) ++ [(f, v)] }

/-- Give every listed field its value (R39: a set latches whole). -/
def Chip.overlay (c : Chip) (l : List (Fld × Nat)) : Chip := l.foldl (fun c y => c.set y.1 y.2) c

/-- The sets that page `p`'s COMMIT has accepted latch: PENDING clears and SEQ counts (R39). A next set that was begun while this one waited stays its
writer's (DESIGN CHOICE, log entry 92). -/
def Chip.latchBy (c : Chip) (p : Nat) : Chip :=
  let mine := c.stg.filter fun x => x.pendBy == some p
  let c := mine.foldl (fun c x =>
    (c.putStage { x with pending := [], pendBy := none, owner := if x.shadow.isEmpty then none else x.owner }).overlay x.pending) c
  (c.set (H.PENDING p) 0).wrap (H.SEQ p)

/-- The value a field will have once its shadow latches. -/
def Chip.staged (c : Chip) (f : Fld) : Nat :=
  let x := c.stage (stageHome f.page)
  match x.shadow.find? (fun y => y.1 = f) with
  | some y => y.2
  | none => c.get f

/-- The shadow of `p` belongs to another source (R39). -/
def Chip.shadowTaken (c : Chip) (src : Src) (p : Nat) : Bool :=
  match (c.stage (stageHome p)).owner with
  | none => false
  | some o => decide (o ≠ src)

/-- A validation holds the shadow of `p` (R39). -/
def Chip.shadowBusy (c : Chip) (p : Nat) : Bool := (c.stage (stageHome p)).busyBy.isSome

/-! ### The generic write (R34, R38) -/

/-- The fields of the register at `off` of page `p`. -/
def findReg (p off : Nat) : Option (List FSpec) :=
  let nr := pageRows p
  nr.2.findSome? fun r =>
    if r.off ≤ off && (off - r.off) % r.step == 0 && (off - r.off) / r.step < r.cnt
    then some (r.fields nr.1 ((off - r.off) / r.step)) else none

/-- The bits of a word that belong to a field. -/
def FSpec.mask (f : FSpec) : Nat := (2 ^ f.fld.w - 1) * 2 ^ f.fld.lo

/-- The bits a word gives to a field. -/
def FSpec.of (f : FSpec) (data : Nat) : Nat := bits data f.fld.lo f.fld.w

/-- A value the field itself admits (R38 check 8). -/
def Legal.ok (l : Legal) (v : Nat) : Bool :=
  match l with
  | .any => true
  | .atLeast n => decide (n ≤ v)
  | .atMost n => decide (v ≤ n)
  | .within lo hi => decide (lo ≤ v) && decide (v ≤ hi)
  | .oneOf vs => vs.contains v
  | .permutation => (List.range 4).all fun k => (List.range 4).any fun i => bits v (2 * i) 2 == k
  | .toneFreq => v == 0 || (decide (5 ≤ v) && decide (v ≤ 3000))

/-- A field that a write can change. -/
def FSpec.writable (f : FSpec) : Bool :=
  match f.acc with
  | .ro => false
  | _ => true

/-- A field of the secure world: RWS, or RWL on the pages where the secure world writes it. -/
def FSpec.secureOnly (f : FSpec) : Bool := f.acc = .rws || f.acc = .rwl

/-- The write changes the field. -/
def Chip.changes (c : Chip) (f : FSpec) (data : Nat) : Bool := f.of data != c.get f.fld

/-- Ownership of the RWS and RWL fields (R8, R38): a writer outside the secure world may write the register only if
it has fields of other kinds and leaves these as they are (DEDUCED, log entry 7). -/
def Chip.secureOk (c : Chip) (src : Src) (specs : List FSpec) (data : Nat) : Bool :=
  isSecure src ||
    (specs.all fun f => !f.secureOnly || !c.changes f data) &&
      ((specs.all fun f => !f.secureOnly) || (specs.any fun f => f.writable && !f.secureOnly))

/-- What a write of one field does. -/
def Chip.writeField (c : Chip) (src : Src) (f : FSpec) (data : Nat) : Chip :=
  let v := f.of data
  match f.acc with
  | .ro => c
  | .wo => c
  | .w1c => c.set f.fld (clearBits (c.get f.fld) v)
  | .w1cbits => c.set f.fld (clearBits (c.get f.fld) v)
  | .w1s => c.set f.fld (c.get f.fld ||| v)
  | _ =>
    if f.staged then
      let x := c.stage (stageHome f.fld.page)
      c.putStage { x.write f.fld v with owner := some src }
    else c.set f.fld v

/-- Reserved bits are written as 0 (R34). -/
def reservedOk (specs : List FSpec) (data : Nat) : Bool := clearBits data (specs.foldl (fun m f => m ||| f.mask) 0) == 0

/-- The checks of R38 on a register that has no rule of its own: ownership, mode, lock, reserved fields, values, and
for staged fields the shadow's owner and a running validation. A locked register refuses every write where all that it could take is locked,
else one that changes a locked field (R8; log entry 7). -/
def Chip.genericChecks (c : Chip) (src : Src) (p off : Nat) (specs : List FSpec) (data : Nat) (owner locked : Bool)
    (late : List (Bool × Nat)) : List (Bool × Nat) :=
  let anyStaged := specs.any fun f => f.staged
  [ (owner, E.OWNER),
    (c.secureOk src specs data, E.OWNER),
    (!(anyStaged && c.shadowTaken src p), E.OWNER),
    (!((specs.any fun f => f.acc = .rwt) || 0xC00 ≤ off) || c.mode == Mode.SERVICE, E.MODE),
    (!(locked && (specs.any (fun f => f.secureOnly && c.changes f data) || specs.all fun f => !f.writable || f.secureOnly)), E.LOCKED),
    (reservedOk specs data, E.RESERVED),
    (specs.all fun f => !f.writable || f.legal.ok (f.of data), E.VALUE),
    (!(anyStaged && c.shadowBusy p), E.BUSY) ] ++ late

/-- A write to a register that has no rule of its own. An undefined offset is a reserved field (R34). -/
def Chip.genericWrite (c : Chip) (src : Src) (p off data : Nat) (owner locked : Bool) (late : List (Bool × Nat)) : Chip :=
  let specs := (findReg p off).getD []
  c.port src p off (c.genericChecks src p off specs data owner locked late)
    (fun c => specs.foldl (fun c f => c.writeField src f data) c)

/-! ### Reads -/

/-- The word a register reads, without side effects: WO fields read 0, staged fields read their live value. -/
def Chip.readReg (c : Chip) (p off : Nat) : Nat :=
  ((findReg p off).getD []).foldl (fun w f => if f.acc = .wo then w else w + c.get f.fld * 2 ^ f.fld.lo) 0

/-- Pages that hold a COMMIT register (R39). -/
def isCommitPage (p : Nat) : Bool :=
  p = 0x010 || (0x0E0 ≤ p && p < 0x119) || (0x120 ≤ p && p < 0x128) || (0x190 ≤ p && p ≤ 0x195)
    || (0x1A0 ≤ p && p ≤ 0x1A7) || (0x1A8 ≤ p && p < 0x1B0 && p % 2 == 0)

/-- The common header (R33) as its page reads it. -/
def Chip.readHeader (c : Chip) (p off : Nat) : Nat :=
  if off = 0x000 then p % 512 + blockOf p * 65536 + b2n (onField p) * 2097152
  else if off = 0x004 then 0x0100
  else if off = 0x008 then c.get (H.ENABLE p) + 2 * c.get (H.RESET p)
  else if off = 0x00C then c.get (H.STATE p) + 16 * c.get (H.PENDING p)
  else if off = 0x010 then
    c.get (H.ERR_CODE p) + 256 * c.get (H.ERR_OFFSET p) + 1048576 * c.get (H.ERR_SOURCE p) + 16777216 * c.get (H.ERR_COUNT p)
  else if off = 0x014 then c.get (H.IRQ_RAW p)
  else if off = 0x018 then c.get (H.IRQ_EN p)
  else if off = 0x01C then c.get (H.IRQ_RAW p) &&& c.get (H.IRQ_EN p)
  else if off = 0x020 then c.get (H.CLAIMED p)
  else if off = 0x024 ∧ isCommitPage p then
    4 * c.get (H.BUSY p) + 8 * c.get (H.PENDING p) + 256 * c.get (H.RESULT p) + 65536 * c.get (H.SEQ p)
  else 0

/-- The word at `off` of an existing page. -/
def Chip.readWord (c : Chip) (p off : Nat) : Nat := if off < 0x040 then c.readHeader p off else c.readReg p off

end Sys2Proof.Machine
end

