-- ==== Sys2Proof/Machine/Fabric.lean ====
section
/-! DEFINITION. Fabric, arbiters and the lock unit (chapter 14, R224–R241). -/

namespace Sys2Proof.Machine

/-! ### Arbiters (R231, R232) -/

/-- The first of `n` requesters after the pointer, wrapping, for which `p` holds. -/
def nextAfter (n ptr : Nat) (p : Nat → Bool) : Option Nat :=
  ((List.range n).map fun i => (ptr + 1 + i) % n).find? p

/-- The pointer of arbiter `a`: before its first grant it stands at the last requester (log entry 9). -/
def Chip.arbPtr (c : Chip) (a n : Nat) : Nat := c.fab.ptr.getD a (n - 1)

/-- The requester arbiter `a` grants. -/
def Chip.arbPick (c : Chip) (a n : Nat) (req : Nat → Bool) : Option Nat := nextAfter n (c.arbPtr a n) req

/-- Key of counter `k` (0 grants, 1 waits, 2 longest wait, 3 present wait) of requester `r`. -/
def arbKey (a r k : Nat) : Nat := (a * 64 + r) * 4 + k

/-- Add one to an arbiter's counter, up to `top`. -/
def Chip.arbBump (c : Chip) (a r k top : Nat) : Chip :=
  let v := min (c.fab.cnt.getD (arbKey a r k) 0 + 1) top
  { c with fab := { c.fab with cnt := c.fab.cnt.put 0 (arbKey a r k) v } }

/-- Give a counter a value. -/
def Chip.arbSet (c : Chip) (a r k v : Nat) : Chip :=
  { c with fab := { c.fab with cnt := c.fab.cnt.put 0 (arbKey a r k) v } }

/-- A requester that asked and was not granted waits one more clock. -/
def Chip.arbWait (c : Chip) (a r : Nat) : Chip :=
  let c := (c.arbBump a r 1 0xFFFFFFFF).arbBump a r 3 0xFFFF
  c.arbSet a r 2 (max (c.fab.cnt.getD (arbKey a r 2) 0) (c.fab.cnt.getD (arbKey a r 3) 0))

/-- Grant requester `r`: the pointer moves to it, it counts a grant unless its traffic is tagged secure, and the others that asked, of which `req` leaves out
the secure ones, count a wait (R231, R232, R283). -/
def Chip.arbGrantTag (c : Chip) (a n r : Nat) (sec : Bool) (req : Nat → Bool) : Chip :=
  let c := { c with fab := { c.fab with ptr := c.fab.ptr.insert a r } }
  let c := if sec then c else (c.arbBump a r 0 0xFFFFFFFF).arbSet a r 3 0
  forN n c fun i c => if i ≠ r && req i then c.arbWait a i else c

/-- The same for untagged traffic. -/
def Chip.arbGrant (c : Chip) (a n r : Nat) (req : Nat → Bool) : Chip := c.arbGrantTag a n r false req

/-- The requesters of arbiter `a`, none where there is no such arbiter (FAB_ARB). -/
def arbSize (a : Nat) : Option Nat :=
  if a < 0x0C then some 20
  else if 0x10 ≤ a ∧ a ≤ 0x14 then some 20
  else if a = 0x20 then some 20
  else if 0x30 ≤ a ∧ a ≤ 0x36 then some 64
  else if a = 0x40 then some 27
  else none

/-- A write of ARB_SEL: SNAP captures the selected counters, CLEAR clears them (R232). -/
def Chip.arbSel (c : Chip) (src : Src) (data : Nat) : Chip :=
  let a := bits data 0 8
  let r := bits data 8 8
  c.port src 0x141 0x040
    [ (c.mgrOrCtl src, E.OWNER), (bits data 16 14 == 0, E.RESERVED),
      ((match arbSize a with | none => false | some n => decide (r < n)), E.VALUE) ]
    fun c =>
      let c := (c.set R.FAB_ARB.ARB_SEL.ARB a).set R.FAB_ARB.ARB_SEL.REQ r
      let c := if data.testBit 31 then
          ((c.set R.FAB_ARB.ARB_GRANTS.COUNT (c.fab.cnt.getD (arbKey a r 0) 0)).set R.FAB_ARB.ARB_WAITS.COUNT
            (c.fab.cnt.getD (arbKey a r 1) 0)).set R.FAB_ARB.ARB_LONGEST.CYCLES (c.fab.cnt.getD (arbKey a r 2) 0)
        else c
      if data.testBit 30 then ((c.arbSet a r 0 0).arbSet a r 1 0).arbSet a r 2 0 else c

/-- ARB_SNAP (R232): a write of ARB_SEL with SNAP set. -/
def execArbSnap (src : Src) (data : Word) (s : State) : Host.Outcome State Fault Refusal :=
  s.on true fun c => c.arbSel src (data.toNat ||| 1 <<< 31)

/-- ARB_CLEAR (R232): a write of ARB_SEL with CLEAR set. -/
def execArbClear (src : Src) (data : Word) (s : State) : Host.Outcome State Fault Refusal :=
  s.on true fun c => c.arbSel src (data.toNat ||| 1 <<< 30)

/-- PROGRESS_STALL (R228): class `cls` (0 ISO, 1 RSP, 2 WR, 3 REQ) held messages and moved none for the limit. -/
def execProgressStall (cls : Nat) (s : State) : Host.Outcome State Fault Refusal :=
  s.on (cls < 4) fun c =>
    (((c.bump R.FAB.STALL_CNT.COUNT).set R.FAB.PROGRESS.LAST (1 <<< cls)).raise 0x140 0).record 0x0D01 0xFF [1 <<< cls]

/-! ### Perturbations of the fabric (R371) -/

/-- Fabric clocks (1.2 GHz) in `t` ps. -/
def fabClocks (t : Nat) : Nat := t * 3 / 2500

/-- BACKPRESS as time goes on: clocks with all four classes full are counted, and the classes are free again at its end. -/
def Chip.pressSettle (c : Chip) : Chip :=
  if c.fab.pressed = 0 then c
  else
    let t := min c.ps c.fab.pressedUntil
    let c := if c.fab.pressed = 15 then c.addSat R.FAB.ALL_FULL_CNT.COUNT (fabClocks t - fabClocks c.fab.pressedFrom) else c
    let past := c.fab.pressedUntil ≤ c.ps
    let c := { c with fab := { c.fab with pressedFrom := t, pressed := if past then 0 else c.fab.pressed } }
    c.set R.FAB.CREDIT_STAT.FULL c.fab.pressed

/-- A request of fabric port `port` in message class `cls` (0 ISO, 1 RSP, 2 WR, 3 REQ) is held: by BACKPRESS at the central switch, or by
FAB_STALL at its leaf switch, for the first LEN clocks of every period (log entry 47). -/
def Chip.fabHeld (c : Chip) (port cls : Nat) : Bool :=
  (c.fab.pressed.testBit cls && decide (c.ps < c.fab.pressedUntil))
    || ((c.get R.PTB_PERTURB.FAB_STALL.PORTS).testBit port
      && decide (fabClocks (c.ps - c.fab.stallAt) % (c.get R.PTB_PERTURB.FAB_TIMING.PERIOD * 1024) < c.get R.PTB_PERTURB.FAB_TIMING.LEN))

/-! ### The lock unit (R234–R239) -/

namespace LK

def FREE : Nat := 0
def HELD : Nat := 1
def POISONED : Nat := 2
/-- A try-acquire found the lock HELD. -/
def TAKEN : Nat := 0x3D

end LK

/-- Requester ID (R234): the manager port's function is 16, whichever port it is. -/
def lkId (src : Src) : Nat :=
  match src with
  | .inst vi => vi
  | .pf _ => 16
  | .ccn k => 17 + k
  | .ccs _ => 21
  | .island => 22
  | .link d => 23 + d

/-- Requester `r` holds lock `k`. -/
def Chip.lkHolds (c : Chip) (r k : Nat) : Bool :=
  if k < 32 then (c.get (R.LCK_PORTS.LK_HELD_LO.LOCKS r)).testBit k
  else (c.get (R.LCK_PORTS.LK_HELD_HI.LOCKS r)).testBit (k - 32)

/-- Mark lock `k` as held by `r`, or not. -/
def Chip.lkMark (c : Chip) (r k : Nat) (b : Bool) : Chip :=
  if k < 32 then c.setBit (R.LCK_PORTS.LK_HELD_LO.LOCKS r) k b
  else c.setBit (R.LCK_PORTS.LK_HELD_HI.LOCKS r) (k - 32) b

/-- Locks a requester holds. -/
def Chip.lkCount (c : Chip) (r : Nat) : Nat :=
  popCount 32 (c.get (R.LCK_PORTS.LK_HELD_LO.LOCKS r)) + popCount 32 (c.get (R.LCK_PORTS.LK_HELD_HI.LOCKS r))

/-- An instance may acquire lock `k`. -/
def Chip.lkInst (c : Chip) (k : Nat) : Bool := (c.get (R.LCK.INST.LOCKS (k / 32))).testBit (k % 32)

/-- The lock requester `r` waits on. -/
def Chip.lkWait (c : Chip) (r : Nat) : Option Nat := c.fab.waiting.find? r

/-- Requester `r` starts to wait on `k`, or stops. -/
def Chip.lkSetWait (c : Chip) (r : Nat) (k : Option Nat) : Chip :=
  let old := c.lkWait r
  let w := match k with
    | none => c.fab.waiting.erase r
    | some k => c.fab.waiting.insert r k
  let c := { c with fab := { c.fab with waiting := w } }
  let c := c.set (R.LCK_PORTS.LK_RESULT.WAITING r) (b2n k.isSome)
  let c := match old with
    | none => c
    | some o => c.set (R.LCK_TABLE.LK_STATE.WAITERS o) (c.get (R.LCK_TABLE.LK_STATE.WAITERS o) - 1)
  match k with
  | none => c
  | some k => c.set (R.LCK_TABLE.LK_STATE.WAITERS k) (c.get (R.LCK_TABLE.LK_STATE.WAITERS k) + 1)

/-- An outcome of requester `r`'s acquire. -/
def Chip.lkResult (c : Chip) (r code : Nat) : Chip :=
  (c.set (R.LCK_PORTS.LK_RESULT.CODE r) code).wrap (R.LCK_PORTS.LK_RESULT.SEQ r)

/-- grant(r, k) of R235. -/
def Chip.lkGrant (c : Chip) (r k : Nat) : Chip :=
  let poisoned := c.get (R.LCK_TABLE.LK_STATE.STATE k) = LK.POISONED
  let c := c.lkSetWait r none
  let c := c.lkResult r (if poisoned then E.GRANTED_POISONED else E.NONE)
  let c := (c.set (R.LCK_TABLE.LK_STATE.STATE k) LK.HELD).set (R.LCK_TABLE.LK_STATE.OWNER k) r
  let c := (c.set (R.LCK_TABLE.LK_STATE.HELD_LINES k) 0).set (R.LCK_TABLE.LK_STATE.EXPIRED k) 0
  ((c.lkMark r k true).bump R.LCK.ACQ_CNT.COUNT).raise 0x092 r

/-- The waiter that follows the last owner of `k` (R236). -/
def Chip.lkNext (c : Chip) (k : Nat) : Option Nat :=
  nextAfter 27 (c.get (R.LCK_TABLE.LK_STATE.OWNER k)) fun r => c.lkWait r == some k

/-- Grant `k` to its next waiter, if it has one. -/
def Chip.lkPass (c : Chip) (k : Nat) : Chip :=
  match c.lkNext k with
  | none => c
  | some r => c.lkGrant r k

/-- Release lock `k` of requester `r` (R236). -/
def Chip.lkRelease (c : Chip) (r k : Nat) : Chip :=
  ((c.lkMark r k false).set (R.LCK_TABLE.LK_STATE.STATE k) LK.FREE).lkPass k

/-- Poison lock `k` of requester `r` (R238). -/
def Chip.lkPoison (c : Chip) (r k : Nat) : Chip :=
  let c := (c.lkMark r k false).set (R.LCK_TABLE.LK_STATE.STATE k) LK.POISONED
  (((c.record 0x0801 k [r]).bump R.LCK.POISON_CNT.COUNT).raise 0x090 2).lkPass k

/-- A holder is lost (R238): its wait ends without a grant and every lock it holds becomes POISONED. -/
def Chip.lkLose (c : Chip) (r : Nat) : Chip :=
  let c := c.lkSetWait r none
  forN 64 c fun k c => if c.lkHolds r k then c.lkPoison r k else c

/-- Following the waits from `x` comes back to `r` (R235); a chain has at most 27 edges. -/
def Chip.lkCycle (c : Chip) (r x fuel : Nat) : Bool :=
  match fuel with
  | 0 => false
  | n + 1 =>
    if x = r then true
    else match c.lkWait x with
      | none => false
      | some k => Chip.lkCycle c r (c.get (R.LCK_TABLE.LK_STATE.OWNER k)) n

/-- acquire(r, k, block) of R235: the code that refuses it, or its effect. -/
def Chip.lkAcquire (c : Chip) (r k : Nat) (block : Bool) : Except Nat Chip :=
  let st := c.get (R.LCK_TABLE.LK_STATE.STATE k)
  if c.lkCount r = 8 then .error E.SHORT
  else if st = LK.HELD ∧ c.get (R.LCK_TABLE.LK_STATE.OWNER k) = r then .error E.STATE
  else if (c.lkWait r).isSome then .error E.BUSY
  else if st ≠ LK.HELD then .ok (c.lkGrant r k)
  else if !block then .ok (c.lkResult r LK.TAKEN)
  else if c.lkCycle r (c.get (R.LCK_TABLE.LK_STATE.OWNER k)) 28 then .error E.CYCLE
  else .ok (c.lkSetWait r (some k))

/-- A write into a requester's lock block goes through the window of an instance, else through the register port. -/
def Chip.lkPort (c : Chip) (src : Src) (r off : Nat) (checks : List (Bool × Nat)) (eff : Chip → Chip) : Chip :=
  match src with
  | .inst vi =>
    if !c.instOn vi then c else
    match firstFail checks with
    | some code => c.rejectInst vi 9 0x092 (0x040 + off) (0x040 + 0x20 * r + off) code
    | none => eff c
  | _ => c.port src 0x092 (0x040 + 0x20 * r + off) checks eff

/-- A refused acquire: LK_RESULT and PAGE_ERR (R235). -/
def Chip.lkRefuse (c : Chip) (src : Src) (r code : Nat) : Chip :=
  (c.lkResult r code).lkPort src r 0x00 [(false, code)] id

/-- LK_ACQ written by `src` into block `r`. -/
def Chip.lkWriteAcq (c : Chip) (src : Src) (r data : Nat) : Chip :=
  let k := bits data 0 6
  c.lkPort src r 0x00 [ (lkId src == r, E.OWNER), (clearBits data 0x13F == 0, E.RESERVED) ] fun c =>
    let c := c.set (R.LCK_PORTS.LK_RESULT.LOCK r) k
    if r < 16 && !c.lkInst k then c.lkRefuse src r E.OWNER
    else
      let c := if isSecure src then { c with fab := { c.fab with ptr := c.fab.ptr.insert 0x40 r } }
        else c.arbGrant 0x40 27 r fun _ => false
      match c.lkAcquire r k (data.testBit 8) with
      | .ok c => c
      | .error code =>
        let c := if code = E.CYCLE then (c.bump R.LCK.CYCLE_CNT.COUNT).raise 0x090 1 else c
        c.lkRefuse src r code

/-- LK_REL written by `src` into block `r`. -/
def Chip.lkWriteRel (c : Chip) (src : Src) (r data : Nat) : Chip :=
  let k := bits data 0 6
  c.lkPort src r 0x04
    [ (lkId src == r, E.OWNER), (data.testBit 31 || c.lkHolds r k, E.OWNER), (bits data 6 25 == 0, E.RESERVED) ] fun c =>
    if data.testBit 31 then forN 64 c fun k c => if c.lkHolds r k then c.lkRelease r k else c
    else c.lkRelease r k

/-- LK_CANCEL written by `src` into block `r`. -/
def Chip.lkWriteCancel (c : Chip) (src : Src) (r data : Nat) : Chip :=
  c.lkPort src r 0x08 [ (lkId src == r, E.OWNER), (clearBits data 1 == 0, E.RESERVED) ] fun c =>
    if data.testBit 0 then c.lkSetWait r none else c

/-- LK_ACQ (R235): a write of LK_ACQ in the block of requester `r`. -/
def execLkAcq (src : Src) (r : Nat) (data : Word) (s : State) : Host.Outcome State Fault Refusal :=
  s.on (r < 27) fun c => c.lkWriteAcq src r data.toNat

/-- LK_REL (R236): a write of LK_REL in the block of requester `r`. -/
def execLkRel (src : Src) (r : Nat) (data : Word) (s : State) : Host.Outcome State Fault Refusal :=
  s.on (r < 27) fun c => c.lkWriteRel src r data.toNat

/-- LK_CANCEL (R236): a write of LK_CANCEL in the block of requester `r`. -/
def execLkCancel (src : Src) (r : Nat) (data : Word) (s : State) : Host.Outcome State Fault Refusal :=
  s.on (r < 27) fun c => c.lkWriteCancel src r data.toNat

/-- Lock `k` has been held for the hold limit and is not yet marked (R239). -/
def Chip.lkOverdue (c : Chip) (k : Nat) : Bool :=
  c.get (R.LCK_TABLE.LK_STATE.STATE k) == LK.HELD && c.get (R.LCK_TABLE.LK_STATE.EXPIRED k) == 0
    && c.get R.LCK.HOLD_MAX.LINES != 0 && decide (c.get R.LCK.HOLD_MAX.LINES ≤ c.get (R.LCK_TABLE.LK_STATE.HELD_LINES k))

/-- HOLD_EXPIRED (R239): lock `k` has been held for LCK_HOLD_MAX lines. -/
def execHoldExpired (k : Nat) (s : State) : Host.Outcome State Fault Refusal :=
  s.on (k < 64) fun c => c.when (c.lkOverdue k) fun c =>
    let o := c.get (R.LCK_TABLE.LK_STATE.OWNER k)
    let n := c.get (R.LCK_TABLE.LK_STATE.HELD_LINES k)
    (((c.set (R.LCK_TABLE.LK_STATE.EXPIRED k) 1).bump R.LCK.HOLD_EXP_CNT.COUNT).raise 0x090 0).record 0x0802 k
      ([o, 0] ++ parBytes 2 n)

/-- One more anchor line of holding for every held lock (R239). -/
def Chip.lkLine (c : Chip) : Chip :=
  forN 64 c fun k c =>
    if c.get (R.LCK_TABLE.LK_STATE.STATE k) = LK.HELD then c.bump (R.LCK_TABLE.LK_STATE.HELD_LINES k) else c

end Sys2Proof.Machine
end

