-- ==== Sys2Proof/Machine/Operands.lean ====
section
/-! DEFINITION. Helpers that read operands out of words and byte strings: check sums and packed fields. -/

namespace Sys2Proof.Machine

/-- One bit of CRC-32 (R146: reflected polynomial of IEEE 802.3). -/
def crcBit (r : BitVec 32) : BitVec 32 := if r.getLsbD 0 then (r >>> 1) ^^^ 0xEDB88320 else r >>> 1

/-- One byte of CRC-32. -/
def crcByte (r : BitVec 32) (b : Byte) : BitVec 32 :=
  let x := r ^^^ b.setWidth 32
  crcBit (crcBit (crcBit (crcBit (crcBit (crcBit (crcBit (crcBit x)))))))

/-- CRC-32 with the parameters of R146: initial value 0xFFFF_FFFF, final inversion. -/
def crc32 (bs : List Byte) : Nat := (~~~ (bs.foldl crcByte 0xFFFFFFFF)).toNat

/-- Bytes given as numbers. -/
def toBytes (l : List Nat) : List Byte := l.map (BitVec.ofNat 8)

/-- `l` cut or filled with zeros to `n` bytes. -/
def padTo (n : Nat) (l : List Byte) : List Byte := (l ++ List.replicate n 0).take n

/-- The little-endian number in `n` bytes of `l` from offset `o`; bytes beyond the end read 0. -/
def fieldAt (l : List Byte) (o n : Nat) : Nat := leNat (padTo n (l.drop o))

/-- Every byte of `l` from `o`, `n` of them, is 0. -/
def zeroAt (l : List Byte) (o n : Nat) : Bool := fieldAt l o n == 0

/-- `l` with `n` bytes of `v` at offset `o`, little-endian. -/
def putAt (l : List Byte) (o n v : Nat) : List Byte := l.take o ++ leBytes n v ++ l.drop (o + n)

end Sys2Proof.Machine
end

