-- ==== Sys2Proof/Machine/Cask.lean ====
section
/-! DEFINITION. The Cask event recorder (chapter 21, R331–R341). -/

namespace Sys2Proof.Machine

/-! ### The clock (R331) -/

/-- The RTC in units of 1/1024 s: what it was set to, and the time since. -/
def Chip.rtc (c : Chip) : Nat := c.csk.rtcBase + (c.ps - c.csk.rtcFrom) * 1024 / 1000000000000

/-! ### States -/

namespace CSK

def OFF : Nat := 0
def LOCATING : Nat := 1
def COMMITTING : Nat := 2
def IDLE : Nat := 3
def FROZEN : Nat := 4
def MEDIA_FAULT : Nat := 5

end CSK

/-- CSK_STAT.STATE of a located medium: frozen, or committing while records are staged. -/
def Chip.cskSettle (c : Chip) : Chip :=
  let c := c.set R.CSK.CSK_STAT.STAGED c.csk.staging.length
  let st := c.get R.CSK.CSK_STAT.STATE
  if st = CSK.OFF ∨ st = CSK.LOCATING ∨ st = CSK.MEDIA_FAULT then c
  else if c.flag R.CSK.CSK_CTRL.FREEZE then c.set R.CSK.CSK_STAT.STATE CSK.FROZEN
  else c.set R.CSK.CSK_STAT.STATE (if c.csk.staging.isEmpty then CSK.IDLE else CSK.COMMITTING)

/-! ### Records (R331) -/

/-- The first 60 bytes of a record. -/
def CaskRec.body (r : CaskRec) : List Byte :=
  leBytes 6 r.calTime ++ leBytes 2 r.ev.event ++ leBytes 8 r.ev.ns ++ leBytes 1 r.ev.source ++ leBytes 1 r.rflags
    ++ leBytes 1 r.ev.unit ++ leBytes 1 r.ctx ++ padTo 28 (toBytes r.ev.params) ++ leBytes 4 r.seq
    ++ leBytes 4 r.boots ++ leBytes 4 0

/-- The 64 bytes of a record. -/
def CaskRec.bytes (r : CaskRec) : List Byte := r.body ++ leBytes 4 (crc32 r.body)

/-- Stage a record of an event with the next SEQ; `before` marks LOST_BEFORE. -/
def Chip.cskStage (c : Chip) (ev : CaskEv) (before : Bool) : Chip :=
  let seq := c.get R.CSK.NEXT_SEQ.VALUE
  let r : CaskRec :=
    { ev := ev, calTime := c.rtc,
      rflags := b2n ev.extrap + 2 * c.get R.CSK.CSK_STAT.PFW + 4 * b2n (!c.flag R.CSK_RTC.RTC_CTRL.VALID) + 8 * b2n before,
      ctx := c.mode + 8 * c.get R.SYS_BOOT.STRAPS.DEVID, seq := seq, boots := c.csk.boots,
      numbered := decide (CSK.LOCATING < c.get R.CSK.CSK_STAT.STATE) }
  ({ c with csk := { c.csk with staging := c.csk.staging ++ [r] } }.wrap R.CSK.NEXT_SEQ.VALUE).cskSettle

/-- Once staging has room again, the count of lost events is staged ahead of any other record (R335). -/
def Chip.cskStageLost (c : Chip) : Chip :=
  if c.csk.lost = 0 ∨ 1024 ≤ c.csk.staging.length then c
  else
    let ev : CaskEv := { event := 0x1401, unit := 0xFF, params := parBytes 4 c.csk.lost ++ [0], ns := c.nsNow, source := 0x14, extrap := c.extraps }
    { c with csk := { c.csk with lost := 0 } }.cskStage ev true

/-- Admission of one event (R332, R335). -/
def Chip.cskAdmit (c : Chip) (ev : CaskEv) : Chip :=
  let c := c.cskStageLost
  if c.csk.staging.length < 1024 then c.cskStage ev false
  else
    let c := { c with csk := { c.csk with lost := c.csk.lost + 1 } }
    ((c.wrap R.CSK.NEXT_SEQ.VALUE).bump R.CSK.LOST.COUNT).raise 0x1B0 0

/-- The event arises on the field die: power, haptics, touch, Cask itself, and the amplifiers. -/
def CaskEv.field (ev : CaskEv) : Bool :=
  ev.source == 0x03 || ev.source == 0x12 || ev.source == 0x13 || ev.source == 0x14 || ev.source == 0x18
    || ev.source == 0x19 || ev.event == 0x1101

/-- Remove the first waiting event of source `src`. -/
def takeFrom (src : Nat) (l : List CaskEv) : Option (CaskEv × List CaskEv) :=
  match l with
  | [] => none
  | e :: rest =>
    if e.source = src then some (e, rest)
    else match takeFrom src rest with
      | none => none
      | some (x, r) => some (x, e :: r)

/-- The next event reaches staging (R334): what the compute die lost and held while the bridge was down goes first,
then the sources in rotation. -/
def Chip.eventAdmit (c : Chip) : Chip :=
  if c.brg.up ∧ 0 < c.csk.bridgeLost then
    let ev : CaskEv := { event := 0x1401, unit := 0xFF, params := parBytes 4 c.csk.bridgeLost ++ [1], ns := c.nsNow, source := 0x14, extrap := c.extraps }
    { c with csk := { c.csk with bridgeLost := 0 } }.cskAdmit ev
  else match c.brg.up, c.csk.bridgeBuf with
    | true, ev :: rest => { c with csk := { c.csk with bridgeBuf := rest } }.cskAdmit ev
    | _, _ =>
      match c.arbPick 0x50 32 fun i => c.csk.waiting.any fun e => e.source == i with
      | none => c
      | some src =>
        match takeFrom src c.csk.waiting with
        | none => c
        | some (ev, rest) =>
          let c := { c with csk := { c.csk with waiting := rest },
                            fab := { c.fab with ptr := c.fab.ptr.insert 0x50 src } }
          if c.brg.up || ev.field then c.cskAdmit ev
          else if c.csk.bridgeBuf.length < 32 then { c with csk := { c.csk with bridgeBuf := c.csk.bridgeBuf ++ [ev] } }
          else { c with csk := { c.csk with bridgeLost := c.csk.bridgeLost + 1 } }

/-- EVENT_ADMIT (R334). -/
def execEventAdmit (s : State) : Host.Outcome State Fault Refusal := s.on true Chip.eventAdmit

/-! ### Committing (R336) -/

/-- Slots of the medium. -/
def Chip.cskSlots (c : Chip) : Nat := 2 ^ c.get R.CSK.CSK_CFG.SLOTS_LOG2

/-- Before WPTR enters a sector of a NOR medium, the sector after it is erased (R336). -/
def Chip.cskErase (c : Chip) (m : Mems) : Chip × Mems :=
  let w := c.get R.CSK.WPTR.VALUE
  if c.get R.CSK.CSK_CFG.MEDIA = 1 ∧ w % 64 = 0 then
    let sector := (w / 64 + 1) % (c.cskSlots / 64)
    let m := { m with cask := Memory.writeBytes m.cask (sector * 4096) (List.replicate 4096 0xFF) }
    let old := c.get R.CSK.OLDEST.VALUE
    if old / 64 = sector ∧ 0 < c.csk.retained then
      ({ c.set R.CSK.OLDEST.VALUE ((sector + 1) * 64 % c.cskSlots) with
          csk := { c.csk with retained := c.csk.retained - (64 - old % 64) } }, m)
    else (c, m)
  else (c, m)

/-- WPTR moves on; the oldest record gives way when the log is full. -/
def Chip.cskAdvance (c : Chip) (kept : Bool) : Chip :=
  let w := (c.get R.CSK.WPTR.VALUE + 1) % c.cskSlots
  let c := c.set R.CSK.WPTR.VALUE w
  if !kept then c
  else if c.csk.retained < c.cskSlots then { c with csk := { c.csk with retained := c.csk.retained + 1 } }
  else c.set R.CSK.OLDEST.VALUE w

/-- Write the oldest staged record at WPTR. `ok1` and `ok2` say whether the medium keeps the record at the first and
the second attempt; with `verify` off nothing is read back. A record that fails twice stays staged and is written at
the next slot. -/
def Chip.cskCommit (c : Chip) (m : Mems) (verify ok1 ok2 : Bool) : Chip × Mems :=
  match c.csk.staging with
  | [] => (c, m)
  | r :: rest =>
    let e := c.cskErase m
    let slot := e.1.get R.CSK.WPTR.VALUE
    let c := { e.1 with csk := { e.1.csk with staging := rest, bad := e.1.csk.bad.filter (· ≠ slot) } }
    let m := { e.2 with cask := Memory.writeBytes e.2.cask (slot * 64) r.bytes }
    if ok1 || ok2 then (((c.bump R.CSK.COMMITTED.COUNT).cskAdvance true).cskStageLost.cskSettle, m)
    else
      let c := { c with csk := { c.csk with bad := slot :: c.csk.bad } }
      if verify then
        let c := { c with csk := { c.csk with staging := r :: rest } }
        let c := ((c.bump R.CSK.MEDIA_ERR.COUNT).raise 0x1B0 1).record 0x1402 0xFF [1]
        ((c.cskAdvance true).cskSettle, m)
      else (((c.bump R.CSK.COMMITTED.COUNT).cskAdvance true).cskStageLost.cskSettle, m)

/-- Committing runs (R334, R336, R340): located, not frozen, and in VIGIL only from 64 staged records on. -/
def Chip.cskMayCommit (c : Chip) : Bool :=
  c.get R.CSK.CSK_STAT.STATE == CSK.COMMITTING && (c.mode != Mode.VIGIL || 64 ≤ c.csk.staging.length)

/-- RECORD_COMMIT (R336): the oldest staged record is written to the medium; `ok1` and `ok2` are what its check finds
at the first and the second attempt. -/
def execRecordCommit (ok1 ok2 : Bool) (s : State) : Host.Outcome State Fault Refusal :=
  s.onMem true fun c m => if c.cskMayCommit then c.cskCommit m (c.flag R.CSK.CSK_CFG.VERIFY) ok1 ok2 else (c, m)

/-! ### Locating (R337) -/

/-- CASK_LOCATE (R337): PD_AON has come up and Cask reads the medium. -/
def execCaskLocate (s : State) : Host.Outcome State Fault Refusal :=
  s.on true fun c => c.when (c.get R.CSK.CSK_STAT.STATE == CSK.OFF) fun c =>
    c.set R.CSK.CSK_STAT.STATE CSK.LOCATING

/-- The slots of the medium that hold any byte. -/
def usedSlots (mem : Memory) : List Nat := (mem.map fun x => x.1 / 64).eraseDups

/-- Slot `i` holds a record whose CRC is correct. -/
def slotGood (mem : Memory) (i : Nat) : Bool :=
  mem.readNat (i * 64 + 60) 4 == crc32 (mem.readBytes (i * 64) 60)

/-- SEQ and BOOT_COUNT of a slot. -/
def slotSeq (mem : Memory) (i : Nat) : Nat := mem.readNat (i * 64 + 0x30) 4
def slotBoots (mem : Memory) (i : Nat) : Nat := mem.readNat (i * 64 + 0x34) 4

/-- The slot of the best record by `better`. -/
def bestSlot (mem : Memory) (better : Nat → Nat → Bool) (l : List Nat) : Option Nat :=
  l.foldl (fun b i => match b with
    | none => some i
    | some j => if better (slotSeq mem i) (slotSeq mem j) then some i else b) none

/-- The records staged while locating take their SEQ and BOOT_COUNT (R332). -/
def numberRecs (first boots : Nat) (l : List CaskRec) : List CaskRec :=
  l.map fun r => if r.numbered then r else { r with seq := (first + r.seq) % 2 ^ 32, boots := boots, numbered := true }

/-- Locating ends with the first free SEQ, the BOOT_COUNT, to which the entries to BOOT made meanwhile add, the slots to go on with and the records
retained. -/
def Chip.cskLocated (c : Chip) (first boots wptr oldest retained : Nat) : Chip :=
  let n := c.get R.CSK.NEXT_SEQ.VALUE
  let boots := boots + c.csk.boots
  let c := { c with csk := { c.csk with staging := numberRecs first boots c.csk.staging, boots := boots, retained := retained } }
  ((c.set R.CSK.NEXT_SEQ.VALUE (first + n)).set R.CSK.WPTR.VALUE wptr).set R.CSK.OLDEST.VALUE oldest

/-- CASK_LOCATE_DONE (R337): the medium answers or not, SFDP gives log2 of its slots, and unreadable slots were found
or not. -/
def execCaskLocateDone (answers : Bool) (slotsLog2 : Nat) (gaps : Bool) (s : State) : Host.Outcome State Fault Refusal :=
  s.onMem (slotsLog2 ≤ 24) fun c m =>
    if c.get R.CSK.CSK_STAT.STATE ≠ CSK.LOCATING then (c, m)
    else if !answers then
      (((c.cskLocated 0 0 0 0 0).set R.CSK.CSK_STAT.STATE CSK.MEDIA_FAULT).record 0x1402 0xFF [2], m)
    else
      let c := c.set R.CSK.CSK_CFG.SLOTS_LOG2 slotsLog2
      let good := (usedSlots m.cask).filter fun i => decide (i < 2 ^ slotsLog2) && slotGood m.cask i
      let c := match bestSlot m.cask (fun a b => decide (b < a)) good, bestSlot m.cask (fun a b => decide (a < b)) good with
        | some hi, some lo =>
          c.cskLocated (slotSeq m.cask hi + 1) (slotBoots m.cask hi + 1) ((hi + 1) % 2 ^ slotsLog2) lo good.length
        | _, _ => c.cskLocated 0 0 0 0 0
      let c := (c.set R.CSK.CSK_STAT.STATE CSK.IDLE).cskSettle.raise 0x1B0 3
      (if gaps then c.record 0x1402 0xFF [0] else c, m)

/-- An entry to BOOT while PD_AON stays powered adds 1 to BOOT_COUNT (R337). -/
def Chip.cskBootEntry (c : Chip) : Chip := { c with csk := { c.csk with boots := c.csk.boots + 1 } }

/-! ### Register writes (R340, R341) -/

/-- A write of CSK_CTRL: FREEZE by the manager and the control world, CLEAR by the secure world in SERVICE. -/
def Chip.cskCtrl (c : Chip) (src : Src) (data : Nat) : Chip :=
  c.port src 0x1B0 0x044
    [ (c.mgrOrCtl src, E.OWNER), (!data.testBit 1 || isSecure src, E.OWNER),
      (!data.testBit 1 || c.mode == Mode.SERVICE, E.MODE), (clearBits data 3 == 0, E.RESERVED) ]
    fun c =>
      let was := c.flag R.CSK.CSK_CTRL.FREEZE
      let c := c.set R.CSK.CSK_CTRL.FREEZE (bits data 0 1)
      let c := if data.testBit 0 && !was then { c with csk := { c.csk with frozenAt := c.ps } } else c
      let c := if data.testBit 1 then
          { c.set R.CSK.OLDEST.VALUE (c.get R.CSK.WPTR.VALUE) with csk := { c.csk with retained := 0 } }
        else c
      c.cskSettle

/-- CASK_FREEZE (R340): a write of CSK_CTRL. -/
def execCaskFreeze (src : Src) (data : Word) (s : State) : Host.Outcome State Fault Refusal :=
  s.on true fun c => c.cskCtrl src data.toNat

/-- CASK_CLEAR (R341): a write of CSK_CTRL with CLEAR set. -/
def execCaskClear (src : Src) (data : Word) (s : State) : Host.Outcome State Fault Refusal :=
  s.on true fun c => c.cskCtrl src (data.toNat ||| 2)

/-- FREEZE has been set for FREEZE_MAX ms (R340). -/
def Chip.cskThaws (c : Chip) : Bool :=
  c.flag R.CSK.CSK_CTRL.FREEZE && decide (c.csk.frozenAt + c.get R.CSK.FREEZE_MAX.MS * 1000000000 ≤ c.ps)

/-- FREEZE_TIMEOUT (R340). -/
def execFreezeTimeout (s : State) : Host.Outcome State Fault Refusal :=
  s.on true fun c => c.when c.cskThaws fun c =>
    ((c.set R.CSK.CSK_CTRL.FREEZE 0).bump R.CSK.FREEZE_TIMEOUT.COUNT).cskSettle.raise 0x1B0 2

/-- Show 64 bytes in RD_DATA0–RD_DATA15. -/
def Chip.cskShow (c : Chip) (bs : List Byte) (ok : Bool) : Chip :=
  (forN 16 c fun i c => c.set (R.CSK_READ.RD_DATA.DATA i) (fieldAt bs (4 * i) 4)).set R.CSK_READ.RD_STAT.CRC_OK (b2n ok)

/-- A failed slot reads a free value in every word. -/
def Chip.cskShowFree (c : Chip) : Chip :=
  (forN 16 c fun i c => (c.fresh 32).2.set (R.CSK_READ.RD_DATA.DATA i) (c.fresh 32).1).set R.CSK_READ.RD_STAT.CRC_OK 0

/-- A write of RD_CTRL (R340). -/
def Chip.cskRdCtrl (c : Chip) (mem : Memory) (src : Src) (data : Nat) : Chip :=
  let i := bits data 0 24
  let stage := data.testBit 24
  let go := data.testBit 31
  c.port src 0x1B1 0x040
    [ (c.mgrOrCtl src, E.OWNER), (bits data 25 6 == 0, E.RESERVED),
      (!go || c.get R.CSK.CSK_STAT.STATE == CSK.FROZEN, E.STATE),
      (!go || decide (i < if stage then c.csk.staging.length else c.cskSlots), E.RANGE) ]
    fun c =>
      let c := (c.set R.CSK_READ.RD_CTRL.INDEX i).set R.CSK_READ.RD_CTRL.STAGE (b2n stage)
      if !go then c
      else if stage then
        match c.csk.staging[i]? with
        | none => c
        | some r => c.cskShow r.bytes true
      else if c.csk.bad.contains i then c.cskShowFree
      else c.cskShow (mem.readBytes (i * 64) 64) (slotGood mem i)

/-- CASK_READ (R340): a write of RD_CTRL with GO set. -/
def execCaskRead (src : Src) (data : Word) (s : State) : Host.Outcome State Fault Refusal :=
  s.on true fun c => c.cskRdCtrl s.mem.cask src (data.toNat ||| 1 <<< 31)

/-- A software record is on its way to staging. -/
def Chip.logBusy (c : Chip) : Bool := c.csk.waiting.any fun e => e.source == 0x18 || e.source == 0x19

/-- A write of LOG_EVENT (R341). -/
def Chip.cskLog (c : Chip) (src : Src) (data : Nat) : Chip :=
  c.port src 0x1B2 0x040
    [ (c.mgrOrCtl src, E.OWNER), (bits data 24 7 == 0, E.RESERVED), (decide (0x8000 ≤ bits data 0 16), E.VALUE),
      (!data.testBit 31 || !c.logBusy, E.BUSY) ]
    fun c =>
      let c := (c.set R.CSK_LOG.LOG_EVENT.EVENT (bits data 0 16)).set R.CSK_LOG.LOG_EVENT.UNIT (bits data 16 8)
      if data.testBit 31 then
        let ps := (List.range 7).flatMap fun j => parBytes 4 (c.get (R.CSK_LOG.LOG_PARAM.DATA j))
        { c with csk := { c.csk with waiting := c.csk.waiting ++
            [{ event := bits data 0 16, unit := bits data 16 8, params := ps, ns := c.nsNow,
               source := if isSecure src then 0x18 else 0x19, extrap := c.extraps }] } }
      else c

/-- LOG_EVENT (R341): a write of LOG_EVENT with GO set. -/
def execLogEvent (src : Src) (data : Word) (s : State) : Host.Outcome State Fault Refusal :=
  s.on true fun c => c.cskLog src (data.toNat ||| 1 <<< 31)

/-! ### The RTC registers (R331) -/

/-- A write of RTC_FRAC (0), RTC_SEC_LO (1) or RTC_SEC_HI (2): held until SET. -/
def Chip.rtcHold (c : Chip) (src : Src) (i data : Nat) : Chip :=
  c.port src 0x1B3 (0x040 + 4 * i)
    [ (isSecure src, E.OWNER),
      (if i = 0 then data / 1024 == 0 else if i = 2 then data / 64 == 0 else true, E.RESERVED) ]
    fun c =>
      if i = 0 then { c with csk := { c.csk with heldFrac := data } }
      else if i = 1 then { c with csk := { c.csk with heldLo := data } }
      else { c with csk := { c.csk with heldHi := data } }

/-- A write of RTC_CTRL. -/
def Chip.rtcCtrl (c : Chip) (src : Src) (data : Nat) : Chip :=
  c.port src 0x1B3 0x04C [ (c.mgrOrCtl src && (isSecure src || !data.testBit 0), E.OWNER), (data / 4 == 0, E.RESERVED) ] fun c =>
    if !data.testBit 0 then c
    else
      let t := (c.csk.heldHi * 2 ^ 32 + c.csk.heldLo) * 1024 + c.csk.heldFrac
      { c with csk := { c.csk with rtcBase := t, rtcFrom := c.ps } }.set R.CSK_RTC.RTC_CTRL.VALID 1

/-- RTC_SET (R331): RTC_CTRL.SET loads the held time and sets VALID. -/
def execRtcSet (src : Src) (s : State) : Host.Outcome State Fault Refusal := s.on true fun c => c.rtcCtrl src 1

/-- A read of RTC_FRAC captures the seconds in the same tick. -/
def Chip.rtcRead (c : Chip) : Chip :=
  let t := c.rtc
  { ((c.set R.CSK_RTC.RTC_FRAC.VALUE t).set R.CSK_RTC.RTC_SEC_LO.VALUE (t / 1024)).set R.CSK_RTC.RTC_SEC_HI.VALUE
      (t / 1024 / 2 ^ 32) with readData := t % 1024 }

/-- A read of a field-die register while the bridge is down returns 0 and is recorded (R11, R36). -/
def Chip.fieldRead (c : Chip) (src : Src) (off : Nat) (eff : Chip → Chip) : Chip :=
  if c.brg.up then eff c else { c.reject 0 off (srcCode src) E.STATE with readData := 0 }

/-- RTC_FRAC_READ (R331). -/
def execRtcFracRead (src : Src) (s : State) : Host.Outcome State Fault Refusal :=
  s.on true fun c => c.fieldRead src 0x040 Chip.rtcRead

/-- VBAT_RISE (R331): the RTC counts from 0 and its time is unset. -/
def execVbatRise (s : State) : Host.Outcome State Fault Refusal :=
  s.on true fun c => { c with csk := { c.csk with rtcBase := 0, rtcFrom := c.ps } }.set R.CSK_RTC.RTC_CTRL.VALID 0

end Sys2Proof.Machine
end

