-- ==== Sys2Proof/Machine/Ecc.lean ====
section
/-! DEFINITION. Error-protected memories: flipped bits, injection, and the DRAM as its requesters read and write it (R208, R214,
R255, R256, R275, R371). -/

namespace Sys2Proof.Machine

namespace Ecc

/-- Targets of ECC_INJ (R371). -/
def ISL : Nat := 0
def SRAM : Nat := 1
def DRAM : Nat := 2
def L2 : Nat := 3

/-- Bytes that one check word protects. -/
def unit (t : Nat) : Nat := if t = ISL then 4 else if t = SRAM then 8 else 64

def key (t a : Nat) : Nat := t * 2 ^ 48 + a / unit t * unit t

end Ecc

/-- Flaws of memory `t` in the units that `n` bytes from `a` touch: address and flipped bits. -/
def Chip.eccFlaws (c : Chip) (t a n : Nat) : List (Nat × Nat) :=
  (c.flaws.filter fun f => f.1 / 2 ^ 48 == t && decide (f.1 % 2 ^ 48 < a + n) && decide (a < f.1 % 2 ^ 48 + Ecc.unit t)).map
    fun f => (f.1 % 2 ^ 48, f.2)

/-- A unit at `u` lies wholly inside `n` bytes from `a`. -/
def wholly (t u a n : Nat) : Bool := decide (a ≤ u) && decide (u + Ecc.unit t ≤ a + n)

/-- `n` bytes from `a` of memory `t` have been written. A unit written whole is good again; a partial write corrects one flipped
bit and leaves an uncorrectable unit poisoned (R256); an armed injection corrupts its unit (R371). -/
def Chip.eccWrite (c : Chip) (t a n : Nat) : Chip :=
  let fixed := (c.eccFlaws t a n).filter fun f => f.2 == 1 || wholly t f.1 a n
  let c := { c with flaws := fixed.foldl (fun m f => SMap.erase m (Ecc.key t f.1)) c.flaws }
  let inj := (c.get R.PTB_PERTURB.ECC_ADDR_LO.ADDR + 2 ^ 32 * c.get R.PTB_PERTURB.ECC_ADDR_HI.ADDR) % 2 ^ 48 / Ecc.unit t * Ecc.unit t
  if c.flag R.PTB_PERTURB.ECC_INJ.ARM && c.get R.PTB_PERTURB.ECC_INJ.TARGET == t && decide (inj < a + n) && decide (a < inj + Ecc.unit t) then
    { c.set R.PTB_PERTURB.ECC_INJ.ARM 0 with flaws := SMap.insert c.flaws (Ecc.key t inj) (1 + c.get R.PTB_PERTURB.ECC_INJ.DOUBLE) }
  else c

/-! ### DRAM (R244, R255, R256) -/

/-- Channel of a DRAM offset (R244). -/
def dramChan (a : Nat) : Nat := a / 256 % 12

/-- Offset `a` lies in an enabled ECC region. -/
def Chip.eccRegion (c : Chip) (a : Nat) : Bool :=
  (List.range 8).any fun k =>
    let b := c.get (R.DRC_ECC.REG_BASE.ADDR k) * 2 ^ 21
    c.flag (R.DRC_ECC.REG_BASE.EN k) && decide (b ≤ a) && decide (a < b + c.get (R.DRC_ECC.REG_SIZE.ADDR k) * 2 ^ 21)

/-- The error log takes its first error. -/
def Chip.eccLog (c : Chip) (port a : Nat) (unc : Bool) : Chip :=
  if c.flag R.DRC_ECC.ERR_INFO.VALID then c
  else
    let c := ((c.set R.DRC_ECC.ERR_ADDR_LO.ADDR a).set R.DRC_ECC.ERR_ADDR_HI.ADDR (a / 2 ^ 32)).set R.DRC_ECC.ERR_INFO.VALID 1
    let c := ((c.set R.DRC_ECC.ERR_INFO.UNCORR (b2n unc)).set R.DRC_ECC.ERR_INFO.PORT port).set R.DRC_ECC.ERR_INFO.CH (dramChan a)
    if unc then c else c.raise 0x161 1

/-- An uncorrectable error met by fabric port `port` (R256). -/
def Chip.dramUe (c : Chip) (port a : Nat) : Chip :=
  (((c.bump R.DRC.UE_CNT.COUNT).raise 0x160 1).eccLog port a true).record 0x0F02 (dramChan a) (parBytes 8 a ++ [port])

/-- Fabric port `port` reads `n` bytes from `a` (R256): whether the data is good, and what the read reports. -/
def Chip.dramCheck (c : Chip) (port a n : Nat) : Bool × Chip :=
  ((c.eccFlaws Ecc.DRAM a n).filter fun f => c.eccRegion f.1).foldl (fun (r : Bool × Chip) f =>
    if f.2 = 1 then (r.1, (r.2.bump R.DRC.CE_CNT.COUNT).eccLog port f.1 false) else (false, r.2.dramUe port f.1)) (true, c)

/-- Store bytes in DRAM. -/
def Chip.dramPut (c : Chip) (m : Mems) (a : Nat) (bs : List Byte) : Chip × Mems :=
  (c.eccWrite Ecc.DRAM a bs.length, { m with dram := Memory.writeBytes m.dram a bs })

end Sys2Proof.Machine
end

