-- ==== Sys2Proof/Machine/Rings.lean ====
section
/-! DEFINITION. Rings and work submission (chapter 7, R87–R102): doorbells, fetch, issue, completion, overflow,
stalls and removal. -/

namespace Sys2Proof.Machine

/-! ### A pair and its registers -/

/-- The RNG page of pair `r`. -/
def ringPage (r : Nat) : Nat := 0x070 + r / 2

/-- The offset of a ring register of pair `r`. -/
def ringOff (r reg : Nat) : Nat := 0x040 + 0x100 * (r % 2) + reg

namespace RS

def FREE : Nat := 0
def BOUND : Nat := 1
def RUNNING : Nat := 2
def STALLED : Nat := 3
def RETIRING : Nat := 4
def HALTED : Nat := 5

end RS

/-- The hidden state of pair `r`. -/
def Chip.ring (c : Chip) (r : Nat) : Ring := c.imx.rings.getD r {}

/-- Put it back. -/
def Chip.setRing (c : Chip) (r : Nat) (x : Ring) : Chip :=
  { c with imx := { c.imx with rings := c.imx.rings.put {} r x } }

def Chip.ringState (c : Chip) (r : Nat) : Nat := c.get (R.RNG.RING_STAT.STATE (r / 2) (r % 2))
def Chip.setRingState (c : Chip) (r v : Nat) : Chip := c.set (R.RNG.RING_STAT.STATE (r / 2) (r % 2)) v
def Chip.ringOwner (c : Chip) (r : Nat) : Nat := c.get (R.RNG.RING_BIND.OWNER (r / 2) (r % 2))
def Chip.ringVi (c : Chip) (r : Nat) : Nat := c.get (R.RNG.RING_BIND.VI (r / 2) (r % 2))
def Chip.ringClass (c : Chip) (r : Nat) : Nat := c.get (R.RNG.RING_BIND.CLASS (r / 2) (r % 2))
def Chip.sqHead (c : Chip) (r : Nat) : Nat := c.get (R.RNG.SQ_HEAD.INDEX (r / 2) (r % 2))
def Chip.sqTail (c : Chip) (r : Nat) : Nat := c.get (R.RNG.SQ_TAIL.INDEX (r / 2) (r % 2))
def Chip.cqHead (c : Chip) (r : Nat) : Nat := c.get (R.RNG.CQ_HEAD.INDEX (r / 2) (r % 2))
def Chip.cqTail (c : Chip) (r : Nat) : Nat := c.get (R.RNG.CQ_TAIL.INDEX (r / 2) (r % 2))
def Chip.doneSeq (c : Chip) (r : Nat) : Nat := c.get (R.RNG.DONE_SEQ.INDEX (r / 2) (r % 2))
def Chip.sqSize (c : Chip) (r : Nat) : Nat := 2 ^ c.get (R.RNG.RING_CFG.SQ_LOG2 (r / 2) (r % 2))
def Chip.cqSize (c : Chip) (r : Nat) : Nat := 2 ^ c.get (R.RNG.RING_CFG.CQ_LOG2 (r / 2) (r % 2))
def Chip.ringLoc (c : Chip) (r : Nat) : Nat := c.get (R.RNG.RING_CFG.LOC (r / 2) (r % 2))
def Chip.sqBase (c : Chip) (r : Nat) : Nat :=
  c.get (R.RNG.SQ_BASE_LO.ADDR (r / 2) (r % 2)) + 2 ^ 32 * c.get (R.RNG.SQ_BASE_HI.ADDR (r / 2) (r % 2))
def Chip.cqBase (c : Chip) (r : Nat) : Nat :=
  c.get (R.RNG.CQ_BASE_LO.ADDR (r / 2) (r % 2)) + 2 ^ 32 * c.get (R.RNG.CQ_BASE_HI.ADDR (r / 2) (r % 2))

/-- a − b modulo 2^32. -/
def sub32 (a b : Nat) : Nat := (a + 2 ^ 32 - b % 2 ^ 32) % 2 ^ 32

/-- Raise interrupt bit `b` of pair `r`'s half. -/
def Chip.ringIrq (c : Chip) (r b : Nat) : Chip := c.raise (ringPage r) (8 * (r % 2) + b)

/-- The engines' owner number of a pair: 0–15 an instance, 16 the manager or the control world. -/
def Chip.ringOwn (c : Chip) (r : Nat) : Nat := if c.ringOwner r = 1 then c.ringVi r else 16

/-- The shares of instance `vi` in force. -/
def Chip.share (c : Chip) (vi : Nat) : Share := c.imx.shares.getD vi {}

/-! ### Instances -/

namespace VS

def UNBOUND : Nat := 0
def BOUND : Nat := 1
def ACTIVE : Nat := 2
def RESETTING : Nat := 3
def FAULTED : Nat := 4

end VS

def Chip.viState (c : Chip) (vi : Nat) : Nat := c.get (R.IMX_VI.VI_STAT.STATE vi)

/-- The owner of pair `r` may have work issued: an instance must be ACTIVE. -/
def Chip.ownerActive (c : Chip) (r : Nat) : Bool := c.ringOwner r != 1 || c.viState (c.ringVi r) == VS.ACTIVE

/-- The rings instance `vi` owns, ascending. -/
def Chip.viRings (c : Chip) (vi : Nat) : List Nat :=
  (List.range 64).filter fun r => (c.get (R.IMX_VI.RING.RINGS vi (r / 32))).testBit (r % 32)

/-- INSTANCE_FAULT (R84): a fault cause makes an instance FAULTED; while it is RESETTING or FAULTED it is ignored.
Its locks become POISONED (R238). -/
def Chip.instFault (c : Chip) (vi code : Nat) : Chip :=
  if c.viState vi = VS.RESETTING ∨ c.viState vi = VS.FAULTED then c
  else
    let c := (c.set (R.IMX_VI.VI_STAT.STATE vi) VS.FAULTED).set (R.IMX_VI.VI_STAT.FAULT vi) code
    ((c.bump (R.IMX_VI.FAULT_CNT.COUNT vi)).raise (0x060 + vi) 1).lkLose vi

/-! ### Memory that work names -/

/-- Bytes of fitted DRAM (R243). -/
def Chip.dramSize (c : Chip) : Nat := c.get R.DRC.CAPACITY.GIB * 2 ^ 30

/-- Bytes of DRAM that the carve-out leaves. -/
def Chip.dramUsable (c : Chip) : Nat := c.get R.DRC.CAPACITY.USABLE_2M * 2 ^ 21

/-- A range lies wholly inside one enabled window of instance `vi` (R81). -/
def Chip.inWindow (c : Chip) (vi a n : Nat) : Bool :=
  (List.range 4).any fun k =>
    let b := c.get (R.IMX_VI.WIN_BASE.ADDR vi k) * 2 ^ 21
    c.flag (R.IMX_VI.WIN_BASE.EN vi k) && decide (b ≤ a) && decide (a + n ≤ b + c.get (R.IMX_VI.WIN_SIZE.ADDR vi k) * 2 ^ 21)

/-- A range of DRAM that owner `own` may reach: inside its windows for an instance, else inside the usable DRAM; never
below the secure watermark (R277). -/
def Chip.dramOk (c : Chip) (own a n : Nat) : Bool :=
  (decide (16 ≤ own) || c.inWindow own a n) && decide (a + n ≤ c.dramUsable)
    && decide (c.get R.SEC.DRAM_WMARK.WMARK * 2 ^ 21 ≤ a)

/-- The port through which owner `own` reaches host memory. -/
def Chip.ownPort (c : Chip) (own : Nat) : Nat :=
  if own < 16 then c.get (R.IMX_VI.VI_BIND.PORT own) else c.get R.IMX.MANAGER.MGR

/-- The key under which host memory of a port keeps an address. -/
def hostKey (port a : Nat) : Nat := port * 2 ^ 64 + a

/-- The function whose Requester ID the requests of owner `own` carry (R76). -/
def Chip.ownFunc (c : Chip) (own : Nat) : Nat := if own < 16 then c.get (R.IMX_VI.VI_BIND.VF own) else 0

/-- A request for owner `own` to host memory; only bulk data may set No Snoop (R85). -/
def Chip.hostReq (c : Chip) (own : Nat) (write : Bool) (a n : Nat) (noSnoop : Bool) : Chip :=
  { c with imx := { c.imx with last := some { port := c.ownPort own, func := c.ownFunc own, write := write, addr := a, len := n, noSnoop := noSnoop } } }

/-! ### Time -/

/-- The ledger stamp of the present instant (R24). -/
def Chip.stamp (c : Chip) : Nat :=
  c.get R.LDG.LIVE_FRAME.FRAME * 2 ^ 32 + c.get R.LDG.LIVE_LINE.LINE * 2 ^ 16 + c.get R.LDG.LIVE_LINE.FRAC

/-! ### Completion entries (R95, R98) -/

/-- A completion entry without its PHASE. -/
def Chip.cqEntry (c : Chip) (r status flags seq stamp tag : Nat) (result : List Byte) : List Byte :=
  leBytes 1 status ++ leBytes 1 flags ++ leBytes 1 r ++ leBytes 1 (c.ringClass r) ++ leBytes 4 seq ++ leBytes 8 stamp
    ++ leBytes 4 tag ++ padTo 12 result

/-- Free slots of the completion ring. -/
def Chip.cqFree (c : Chip) (r : Nat) : Nat := c.cqSize r - sub32 (c.cqTail r) (c.cqHead r)

/-- Free entries of completion ring and overflow slot together. -/
def Chip.cqSpace (c : Chip) (r : Nat) : Nat := c.cqFree r + (4 - (c.ring r).ovf.length)

/-- PHASE of a completion index (R95). -/
def phaseOf (size i : Nat) : Nat := 1 - i / size % 2

/-- Write an entry into the next slot of the completion ring, with its PHASE; an IRQ entry raises CMPL. -/
def Chip.cqWrite (c : Chip) (m : Mems) (r : Nat) (e : List Byte) : Chip × Mems :=
  let i := c.cqTail r
  let flags := fieldAt e 1 1
  let e := putAt e 1 1 (flags + phaseOf (c.cqSize r) i)
  let a := c.cqBase r + 32 * (i % c.cqSize r)
  let w := if c.ringLoc r = 1 then c.dramPut m a e
    else (c.hostReq (c.ringOwn r) true a 32 false, { m with host := Memory.writeBytes m.host (hostKey (c.ownPort (c.ringOwn r)) a) e })
  let c := (w.1.wrap (R.RNG.CQ_TAIL.INDEX (r / 2) (r % 2))).bump (R.RNG.CMPL_CNT.COUNT (r / 2) (r % 2))
  (if flags.testBit 1 then c.ringIrq r 0 else c, w.2)

/-- RING_STAT follows the overflow slot and the issued entries. -/
def Chip.ringStat (c : Chip) (r : Nat) : Chip :=
  let x := c.ring r
  let c := (c.set (R.RNG.RING_STAT.OVF_USED (r / 2) (r % 2)) x.ovf.length).set
    (R.RNG.RING_STAT.OUTSTANDING (r / 2) (r % 2)) (min 255 x.issued.length)
  if c.ringState r = RS.RUNNING ∧ !x.ovf.isEmpty then (c.setRingState r RS.STALLED).ringIrq r 1
  else if c.ringState r = RS.STALLED ∧ x.ovf.isEmpty then c.setRingState r RS.RUNNING
  else c

/-- A completion or event goes into the ring, into the overflow slot, or (faulted owner, no space) is lost (R98, R99). -/
def Chip.cqPut (c : Chip) (m : Mems) (r : Nat) (e : List Byte) : Chip × Mems :=
  let x := c.ring r
  if 0 < c.cqFree r ∧ x.ovf.isEmpty then c.cqWrite m r e
  else if x.ovf.length < 4 then
    let x := { x with ovf := x.ovf ++ [e], stall := if x.ovf.isEmpty then 0 else x.stall }
    (((c.setRing r x).bump (R.RNG.OVF_CNT.COUNT (r / 2) (r % 2))).ringStat r, m)
  else (c.bump (R.RNG.CQ_DROP.COUNT (r / 2) (r % 2)), m)

/-- Overflow entries move into freed slots, in order (R98). -/
def Chip.cqDrain (c : Chip) (m : Mems) (r fuel : Nat) : Chip × Mems :=
  match fuel with
  | 0 => (c, m)
  | n + 1 =>
    match (c.ring r).ovf with
    | [] => (c, m)
    | e :: rest =>
      if c.cqFree r = 0 then (c, m)
      else
        let w := (c.setRing r { c.ring r with ovf := rest }).cqWrite m r e
        Chip.cqDrain w.1 w.2 r n

/-! ### Removal (R100) -/

/-- VI_STAT.PEND bit [11]: a pair removed from the instance is still RETIRING. -/
def Chip.retirePend (c : Chip) (vi : Nat) : Chip :=
  let any := (List.range 64).any fun r =>
    c.ringOwner r == 1 && c.ringVi r == vi && c.ringState r == RS.RETIRING
  c.setBit (R.IMX_VI.VI_STAT.PEND vi) 7 any

/-- Pair `r` becomes FREE; its router entry returns to KIND = 0 (R86). -/
def Chip.ringFree (c : Chip) (r : Nat) : Chip :=
  let inst := c.ringOwner r = 1
  let vi := c.ringVi r
  let c := if inst then c.setBit (R.IMX_VI.RING.RINGS vi (r / 32)) (r % 32) false else c
  let c := ((c.set (R.RNG.RING_BIND.OWNER (r / 2) (r % 2)) 0).set (R.RNG.RING_BIND.VI (r / 2) (r % 2)) 0).set
    (R.RNG.RING_BIND.CLASS (r / 2) (r % 2)) 0
  let c := ((c.setRingState r RS.FREE).set (R.RNG.RING_CTRL.ENABLE (r / 2) (r % 2)) 0).setRing r {}
  let c := (c.set (R.IMX_ROUTE.ROUTE.KIND 2 r) 0).ringStat r
  if inst then c.retirePend vi else c

/-- RING_RETIRED (R100): the last entry of a RETIRING pair has retired and its overflow slot is empty. -/
def Chip.ringRetired (c : Chip) (r : Nat) : Chip :=
  let x := c.ring r
  if c.ringState r = RS.RETIRING ∧ x.issued.isEmpty ∧ x.ovf.isEmpty ∧ (x.dead ∨ (x.fetched.isEmpty ∧ c.sqHead r = c.sqTail r)) then
    let vi := c.ringVi r
    let inst := c.ringOwner r = 1
    let c := (c.ringIrq r 3).ringFree r
    if inst then c.raise (0x060 + vi) 2 else c
  else c

/-! ### Access to ring registers -/

/-- The window page and half in which instance `vi` sees pair `r` (R44). -/
def Chip.windowAt (c : Chip) (vi r : Nat) : Option (Nat × Nat) :=
  let k := ((c.viRings vi).takeWhile (· ≠ r)).length
  if (c.viRings vi).contains r then some (1 + k / 2, k % 2) else none

/-- A write of ring register `reg` of pair `r`: an instance reaches only its own pairs, through its window. -/
def Chip.ringPort (c : Chip) (src : Src) (r reg : Nat) (checks : List (Bool × Nat)) (eff : Chip → Chip) : Chip :=
  match src with
  | .inst vi =>
    if !c.instOn vi then c else
    match c.windowAt vi r with
    | none => c.rejectInst vi 1 (0x060 + vi) (0x040 + reg) (0x040 + reg) E.RANGE
    | some (w, h) =>
      match firstFail checks with
      | some code => c.rejectInst vi w (ringPage r) (0x040 + 0x100 * h + reg) (ringOff r reg) code
      | none => eff c
  | _ => c.port src (ringPage r) (ringOff r reg) checks eff

/-- `src` is the owner of pair `r`. -/
def Chip.ownsRing (c : Chip) (src : Src) (r : Nat) : Bool :=
  match c.ringOwner r, src with
  | 1, .inst vi => c.ringVi r == vi
  | 2, _ => c.isMgr src
  | 3, .ccn _ => true
  | _, _ => false

/-- The owner of pair `r` is an instance in RESETTING or FAULTED (R83, R84). -/
def Chip.ownerStopped (c : Chip) (r : Nat) : Bool :=
  c.ringOwner r == 1 && (c.viState (c.ringVi r) == VS.RESETTING || c.viState (c.ringVi r) == VS.FAULTED)

/-- The owner of pair `r` has no port: the control world, or a manager that is control-cluster firmware (R88). -/
def Chip.noPort (c : Chip) (owner : Nat) : Bool := owner == 3 || (owner == 2 && c.get R.IMX.MANAGER.MGR == 4)

/-! ### Binding (R88, R100) -/

/-- A write of RING_BIND. -/
def Chip.ringBind (c : Chip) (src : Src) (r data : Nat) : Chip :=
  let o := bits data 0 2
  let vi := bits data 2 4
  let cl := bits data 6 3
  let free := c.ringState r = RS.FREE
  let same := o = c.ringOwner r ∧ vi = c.ringVi r ∧ cl = c.ringClass r
  let binds := free ∧ o ≠ 0
  let inst := if free then (if o = 1 then some vi else none) else if c.ringOwner r = 1 then some (c.ringVi r) else none
  c.port src (ringPage r) (ringOff r 0x00)
    [ (c.shareWriter src, E.OWNER), (data / 512 == 0, E.RESERVED), (cl != 7, E.VALUE),
      (!(binds && o == 1 && c.get (R.RNG.SEL.CQ_STALL_MAX (r / 2) (r % 2)) == 0), E.VALUE),
      (inst.all fun v => c.viState v != VS.RESETTING, E.BUSY),
      (free || same || o == 0, E.STATE),
      (!(binds && o == 1 && c.viState vi == VS.UNBOUND), E.STATE),
      (!(binds && o == 1 && decide (16 ≤ (c.viRings vi).length)), E.RANGE) ]
    fun c =>
      if binds then
        let c := ((c.set (R.RNG.RING_BIND.OWNER (r / 2) (r % 2)) o).set (R.RNG.RING_BIND.VI (r / 2) (r % 2)) vi).set
          (R.RNG.RING_BIND.CLASS (r / 2) (r % 2)) cl
        let c := if c.noPort o then c.set (R.RNG.RING_CFG.LOC (r / 2) (r % 2)) 1 else c
        let c := c.setRingState r RS.BOUND
        if o = 1 then c.setBit (R.IMX_VI.RING.RINGS vi (r / 32)) (r % 32) true else c
      else if o ≠ 0 then c
      else if free then (c.set (R.RNG.RING_BIND.VI (r / 2) (r % 2)) vi).set (R.RNG.RING_BIND.CLASS (r / 2) (r % 2)) cl
      else
        let st := c.ringState r
        if st = RS.BOUND then c.ringFree r
        else if st = RS.RETIRING then c
        else
          let c := if st = RS.HALTED then c.setRing r { c.ring r with dead := true, fetched := [] } else c
          let c := c.setRingState r RS.RETIRING
          let c := if c.ringOwner r = 1 then c.retirePend (c.ringVi r) else c
          c.ringRetired r

/-- RING_BIND (R88). -/
def execRingBind (src : Src) (r : Nat) (data : Word) (s : State) : Host.Outcome State Fault Refusal :=
  s.on (r < 64) fun c => c.ringBind src r data.toNat

/-- RING_REMOVE (R100): a write of RING_BIND with OWNER = 0. -/
def execRingRemove (src : Src) (r : Nat) (s : State) : Host.Outcome State Fault Refusal :=
  s.on (r < 64) fun c => c.ringBind src r 0

/-! ### Enabling (R89) -/

/-- Both rings of pair `r` lie wholly inside one enabled window each. -/
def Chip.ringsInWindow (c : Chip) (r : Nat) : Bool :=
  c.ringOwner r != 1 || c.ringLoc r == 0 ||
    (c.inWindow (c.ringVi r) (c.sqBase r) (64 * c.sqSize r) && c.inWindow (c.ringVi r) (c.cqBase r) (32 * c.cqSize r))

/-- The indices after an enable or a reset (R83, R89). -/
def Chip.ringZero (c : Chip) (r : Nat) : Chip :=
  let c := (c.set (R.RNG.SQ_HEAD.INDEX (r / 2) (r % 2)) 0).set (R.RNG.SQ_TAIL.INDEX (r / 2) (r % 2)) 0
  let c := (c.set (R.RNG.CQ_HEAD.INDEX (r / 2) (r % 2)) 0).set (R.RNG.CQ_TAIL.INDEX (r / 2) (r % 2)) 0
  ((c.set (R.RNG.DONE_SEQ.INDEX (r / 2) (r % 2)) 0xFFFFFFFF).setRing r {}).ringStat r


/-- Pair `r` may be disabled: every doorbelled entry has completed and the overflow slot is empty; a HALTED pair once
every issued entry has run (R89, R99). -/
def Chip.ringIdle (c : Chip) (r : Nat) : Bool :=
  if c.ringState r = RS.HALTED then (c.ring r).issued.isEmpty
  else sub32 (c.sqTail r) 1 == c.doneSeq r && (c.ring r).ovf.isEmpty

/-- A write of RING_CTRL (R89). -/
def Chip.ringCtrl (c : Chip) (src : Src) (r data : Nat) : Chip :=
  let on := data.testBit 0
  let was := c.flag (R.RNG.RING_CTRL.ENABLE (r / 2) (r % 2))
  c.ringPort src r 0x18
    [ (c.ownsRing src r || c.isMgr src, E.OWNER), (decide (data < 2), E.RESERVED),
      (!on || (c.ringState r == RS.BOUND && !c.ownerStopped r), E.STATE), (on || !was || c.ringIdle r, E.BUSY),
      (!on || c.ringsInWindow r, E.RANGE) ] fun c =>
    if on then ((c.set (R.RNG.RING_CTRL.ENABLE (r / 2) (r % 2)) 1).ringZero r).setRingState r RS.RUNNING
    else if was then
      let c := (c.set (R.RNG.RING_CTRL.ENABLE (r / 2) (r % 2)) 0).setRing r {}
      (c.setRingState r RS.BOUND).ringStat r
    else c

/-- RING_ENABLE (R89): RING_CTRL.ENABLE = 1. -/
def execRingEnable (src : Src) (r : Nat) (s : State) : Host.Outcome State Fault Refusal := s.on (r < 64) fun c => c.ringCtrl src r 1

/-- RING_DISABLE (R89): RING_CTRL.ENABLE = 0. -/
def execRingDisable (src : Src) (r : Nat) (s : State) : Host.Outcome State Fault Refusal := s.on (r < 64) fun c => c.ringCtrl src r 0

/-! ### Doorbells (R90) -/

/-- Pair `r` takes doorbells. -/
def Chip.ringLive (c : Chip) (r : Nat) : Bool :=
  c.ringState r == RS.RUNNING || c.ringState r == RS.STALLED || c.ringState r == RS.RETIRING

/-- A doorbell of `src` reaches pair `r`: through the window of an instance that has the pair, else through the register port. -/
def Chip.dbHeard (c : Chip) (src : Src) (r : Nat) : Bool :=
  !c.unheard src (ringPage r) && (match src with
    | .inst vi => (c.windowAt vi r).isSome
    | _ => (c.turnedAway src (ringPage r)).isNone)

/-- A doorbell that fails a check is counted. -/
def Chip.dbCount (c : Chip) (src : Src) (r : Nat) (checks : List (Bool × Nat)) : Chip :=
  if c.dbHeard src r && (firstFail checks).isSome then c.bump (R.RNG.DB_REJECT.COUNT (r / 2) (r % 2)) else c

/-- A write of SQ_DB: the new submission tail `t`. -/
def Chip.sqDb (c : Chip) (src : Src) (r t : Nat) : Chip :=
  let checks :=
    [ (c.ownsRing src r, E.OWNER),
      (decide (sub32 t (c.sqTail r) ≤ c.sqSize r - sub32 (c.sqTail r) (c.sqHead r)), E.VALUE),
      (c.ringLive r && !c.ownerStopped r, E.STATE), (c.ringState r != RS.RETIRING, E.RETIRING) ]
  (c.dbCount src r checks).ringPort src r 0x1C checks fun c => c.set (R.RNG.SQ_TAIL.INDEX (r / 2) (r % 2)) t

/-- SQ_DB (R90): the new submission tail `t`. -/
def execSqDb (src : Src) (r : Nat) (t : Word) (s : State) : Host.Outcome State Fault Refusal :=
  s.on (r < 64) fun c => c.sqDb src r t.toNat

/-- A write of CQ_DB: the new completion head `h`; overflow entries move in (R98). -/
def Chip.cqDb (c : Chip) (m : Mems) (src : Src) (r h : Nat) : Chip × Mems :=
  let checks :=
    [ (c.ownsRing src r, E.OWNER),
      (decide (sub32 h (c.cqHead r) ≤ sub32 (c.cqTail r) (c.cqHead r)), E.VALUE),
      (c.ringLive r && !c.ownerStopped r, E.STATE) ]
  if !c.dbHeard src r || (firstFail checks).isSome then ((c.dbCount src r checks).ringPort src r 0x20 checks id, m)
  else
    let c := c.set (R.RNG.CQ_HEAD.INDEX (r / 2) (r % 2)) h
    let d := (c.setRing r { c.ring r with stall := 0 }).cqDrain m r 4
    ((d.1.ringStat r).ringRetired r, d.2)

/-- CQ_DB (R90): the new completion head `h`. -/
def execCqDb (src : Src) (r : Nat) (h : Word) (s : State) : Host.Outcome State Fault Refusal :=
  s.onMem (r < 64) fun c m => c.cqDb m src r h.toNat

/-! ### SEL (R102) -/

/-- A write of SEL. -/
def Chip.selWrite (c : Chip) (src : Src) (r d : Nat) : Chip :=
    c.port src (ringPage r) (ringOff r 0x3C)
      [ (c.shareWriter src, E.OWNER), (bits d 6 10 == 0, E.RESERVED), (bits d 0 4 != 0, E.VALUE),
        (!(bits d 16 16 == 0 && c.ringOwner r == 1), E.VALUE) ] fun c =>
      let moved := bits d 4 2 ≠ c.get (R.RNG.SEL.PRIO (r / 2) (r % 2))
      let restart := bits d 16 16 ≠ c.get (R.RNG.SEL.CQ_STALL_MAX (r / 2) (r % 2))
      let x := c.ring r
      let x := if moved then { x with credit := 0 } else x
      let x := if restart then { x with stall := 0 } else x
      (((c.set (R.RNG.SEL.WEIGHT (r / 2) (r % 2)) (bits d 0 4)).set (R.RNG.SEL.PRIO (r / 2) (r % 2)) (bits d 4 2)).set
        (R.RNG.SEL.CQ_STALL_MAX (r / 2) (r % 2)) (bits d 16 16)).setRing r x

/-- SEL_WRITE (R102). -/
def execSelWrite (src : Src) (r : Nat) (data : Word) (s : State) : Host.Outcome State Fault Refusal :=
  s.on (r < 64) fun c => c.selWrite src r data.toNat

/-! ### Fetch (R91, R99) -/

/-- A fault that stops pair `r` (R99): its instance is FAULTED, another owner's pair is HALTED. -/
def Chip.ringStop (c : Chip) (r code : Nat) : Chip :=
  if c.ringOwner r = 1 then c.instFault (c.ringVi r) code
  else if c.ringState r = RS.RETIRING then (c.setRing r { c.ring r with dead := true, fetched := [] }).ringRetired r
  else c.setRingState r RS.HALTED

/-- The head of pair `r` has just become the head: its wait is timed from here (R94). -/
def Chip.newHead (c : Chip) (r : Nat) : Chip :=
  match (c.ring r).fetched with
  | [] => c
  | e :: _ =>
    let lim := fieldAt e.bytes 0x0C 2
    let lim := if lim = 0 then c.get (R.RNG.WAIT_DEFAULT.LINES (r / 2) (r % 2)) else lim
    c.setRing r { c.ring r with headAt := c.led.lineNo, headLimit := lim }

/-- Pair `r` has an entry to fetch and may fetch it. -/
def Chip.canFetch (c : Chip) (r : Nat) : Bool :=
  c.ringLive r && c.ownerActive r && !(c.ring r).dead && c.sqHead r != c.sqTail r && decide ((c.ring r).fetched.length < 8)

/-- RING_FETCH (R91, R99): the next entry of pair `r` arrives. `data` are its bytes where the ring lies in host memory;
a ring in DRAM is read there. `ok` is false where the fetch returned an error. -/
def execRingFetch (r : Nat) (data : List Byte) (ok : Bool) (s : State) : Host.Outcome State Fault Refusal :=
  s.on (r < 64) fun c =>
    let i := c.sqHead r
    let a := c.sqBase r + 64 * (i % c.sqSize r)
    let g := if c.ringLoc r = 1 ∧ c.canFetch r then c.dramCheck 18 a 64 else (true, c)
    let c := g.2
    let c := if c.ringLoc r ≠ 1 ∧ c.canFetch r then c.hostReq (c.ringOwn r) false a 64 false else c
    if !c.canFetch r then c
    else if !ok ∨ !g.1 then (c.ringIrq r 4).ringStop r 0x21
    else
      let bytes := if c.ringLoc r = 1 then Memory.readBytes s.mem.dram a 64 else padTo 64 data
      let first := (c.ring r).fetched.isEmpty
      let c := c.setRing r { c.ring r with fetched := (c.ring r).fetched ++ [{ seq := i, bytes := bytes }] }
      let c := (c.wrap (R.RNG.SQ_HEAD.INDEX (r / 2) (r % 2))).bump (R.RNG.SUBMIT_CNT.COUNT (r / 2) (r % 2))
      if first then c.newHead r else c

/-! ### Issue (R93, R94, R101) -/

/-- Opcodes of an engine class (R97 and the engine chapters): GFX, CMP, DMA, AUD, HAP, TCH, and class 6 has none. -/
def classOpcodes (cls : Nat) : List Nat :=
  if cls = 0 then [0, 1, 2] else if cls = 1 then [0, 1, 2] else if cls = 2 then [0, 1, 2, 3, 4]
  else if cls = 3 then [0, 1, 2, 3] else if cls = 4 then [0, 1, 2, 3, 4, 5] else if cls = 5 then [0, 1, 2, 3, 4, 5]
  else []

def RingEnt.opcode (e : RingEnt) : Nat := fieldAt e.bytes 0 1
def RingEnt.flags (e : RingEnt) : Nat := fieldAt e.bytes 1 1
def Issued.opcode (e : Issued) : Nat := fieldAt e.bytes 0 1
def Issued.flags (e : Issued) : Nat := fieldAt e.bytes 1 1

/-- The status with which a head entry completes without being executed, barrier and wait aside (R93, R94). -/
def Chip.headFails (c : Chip) (r : Nat) (e : RingEnt) : Option Nat :=
  let wr := fieldAt e.bytes 2 1
  if e.flags / 16 ≠ 0 ∨ wr / 64 ≠ 0 ∨ fieldAt e.bytes 3 1 ≠ 0 ∨ fieldAt e.bytes 0x0E 2 ≠ 0 then some E.RESERVED
  else if !(classOpcodes (c.ringClass r)).contains e.opcode then some 0x10
  else if e.flags.testBit 3 ∧ !(c.ringOwner (wr % 64) = c.ringOwner r ∧ (c.ringOwner r ≠ 1 ∨ c.ringVi (wr % 64) = c.ringVi r)) then some 0x11
  else none

/-- The wait of an entry is met (R94). -/
def Chip.waitMet (c : Chip) (e : RingEnt) : Bool :=
  !e.flags.testBit 3 || decide (sub32 (c.doneSeq (fieldAt e.bytes 2 1 % 64)) (fieldAt e.bytes 4 4) < 2 ^ 31)

/-- First condition of R94, and completion space. -/
def Chip.ringReady (c : Chip) (r : Nat) : Bool :=
  c.ringLive r && c.ownerActive r && !(c.ring r).dead && decide ((c.ring r).issued.length + 1 ≤ c.cqSpace r)

/-- The head entry of pair `r` is issuable (R94). -/
def Chip.issuable (c : Chip) (r : Nat) : Bool :=
  match (c.ring r).fetched with
  | [] => false
  | e :: _ =>
    c.ringReady r && (c.headFails r e).isNone && c.waitMet e
      && (!e.flags.testBit 2 || c.doneSeq r == sub32 e.seq 1)

/-- The head of pair `r` leaves the queue as an issued entry. -/
def Chip.takeHead (c : Chip) (r : Nat) (done : Option Ending) : Chip :=
  match (c.ring r).fetched with
  | [] => c
  | e :: rest =>
    let x := { c.ring r with fetched := rest,
                             issued := (c.ring r).issued ++ [{ seq := e.seq, bytes := e.bytes, fresh := done.isNone, done := done }] }
    ((c.setRing r x).newHead r).ringStat r

/-- The head of pair `r` completes with `status` without being executed. -/
def Chip.headEnds (c : Chip) (r status : Nat) : Chip := c.takeHead r (some { status := status, result := [], stamp := c.stamp })

/-- Pairs of class `cls`. -/
def Chip.ofClass (c : Chip) (cls r : Nat) : Bool := c.ringOwner r != 0 && c.ringClass r == cls

/-- select(class) of R101. `can` adds the class's own conditions on the head. -/
def Chip.ringSelect (c : Chip) (cls : Nat) (can : Chip → Nat → Bool) : Option (Nat × Chip) :=
  let elig := fun r => c.ofClass cls r && c.issuable r && can c r
  let prio := fun r => c.get (R.RNG.SEL.PRIO (r / 2) (r % 2))
  match [3, 2, 1, 0].find? fun l => (List.range 64).any fun r => elig r && prio r == l with
  | none => none
  | some l =>
    let dry := !(List.range 64).any fun r => elig r && prio r == l && (c.ring r).credit != 0
    let c := if dry then
        forN 64 c fun r c => if c.ofClass cls r && prio r == l then
          c.setRing r { c.ring r with credit := c.get (R.RNG.SEL.WEIGHT (r / 2) (r % 2)) } else c
      else c
    let key := 0x1000 + 4 * cls + l
    match nextAfter 64 (c.fab.ptr.getD key 63) fun r => elig r && prio r == l && (c.ring r).credit != 0 with
    | none => none
    | some r =>
      let left := (c.ring r).credit - 1
      let c := c.setRing r { c.ring r with credit := left }
      let old := c.fab.ptr
      let c := c.arbGrant (0x30 + cls) 64 r elig
      let c := { c with fab := { c.fab with ptr := if left = 0 then old.insert key r else old } }
      some (r, c)

/-- The first pair of class `cls` whose head completes without being executed. -/
def Chip.failingHead (c : Chip) (cls : Nat) : Option (Nat × Nat) :=
  (List.range 64).findSome? fun r =>
    if !c.ofClass cls r || !c.ringReady r then none
    else match (c.ring r).fetched with
      | [] => none
      | e :: _ => (c.headFails r e).map fun st => (r, st)

/-- One selection of class `cls`: a head that fails its head checks completes, else the selector issues one entry. -/
def Chip.entryIssue (c : Chip) (cls : Nat) (can : Chip → Nat → Bool) : Chip :=
  match c.failingHead cls with
  | some (r, st) => c.headEnds r st
  | none =>
    match c.ringSelect cls can with
    | none => c
    | some (r, c) => c.takeHead r none

/-- The wait limit of pair `r`'s head has expired (R94). -/
def Chip.fenceExpired (c : Chip) (r : Nat) : Bool :=
  match (c.ring r).fetched with
  | [] => false
  | e :: _ =>
    c.ringLive r && c.ownerActive r && !(c.ring r).dead && (c.headFails r e).isNone && !c.waitMet e
      && decide ((c.ring r).headAt + (c.ring r).headLimit ≤ c.led.lineNo)

/-- FENCE_TIMEOUT (R94). -/
def execFenceTimeout (r : Nat) (s : State) : Host.Outcome State Fault Refusal :=
  s.on (r < 64) fun c => c.when (c.fenceExpired r) fun c => c.headEnds r E.FENCE_TIMEOUT

/-! ### Engines and their entries -/

/-- The oldest entry of pair `r` that its engine has not taken up, if it has this class and opcode. -/
def Chip.freshEntry (c : Chip) (r cls op : Nat) : Option Issued :=
  if c.ringClass r ≠ cls then none
  else match (c.ring r).issued.find? (·.fresh) with
    | none => none
    | some e => if e.opcode = op then some e else none

/-- The engine has taken up entry `seq` of pair `r`. -/
def Chip.takeUp (c : Chip) (r seq : Nat) : Chip :=
  c.setRing r { c.ring r with issued := (c.ring r).issued.map fun e => if e.seq = seq then { e with fresh := false } else e }

/-- Entry `seq` of pair `r` ends. -/
def Chip.finish (c : Chip) (r seq status : Nat) (result : List Byte) : Chip :=
  let st := c.stamp
  c.setRing r { c.ring r with issued := (c.ring r).issued.map fun e =>
    if e.seq = seq then { e with fresh := false, done := some { status := status, result := result, stamp := st } } else e }

/-- An engine event for pair `r` (R96). -/
def Chip.ringEvent (c : Chip) (r status : Nat) (result : List Byte) (stalls : Bool) : Chip :=
  { c with imx := { c.imx with events := c.imx.events ++
      [{ ring := r, status := status, result := result, stamp := c.stamp, seq := c.doneSeq r, stalls := stalls }] } }

/-! ### Completion (R96) -/

/-- The owner of pair `r` is stopped by a fault: completions without space are discarded (R99). -/
def Chip.ringDrops (c : Chip) (r : Nat) : Bool :=
  c.ringState r == RS.HALTED || (c.ring r).dead || (c.ringOwner r == 1 && c.viState (c.ringVi r) == VS.FAULTED)

/-- The oldest issued entry of pair `r` retires. -/
def Chip.retire (c : Chip) (m : Mems) (r : Nat) : Chip × Mems :=
  match (c.ring r).issued with
  | [] => (c, m)
  | e :: rest =>
    match e.done with
    | none => (c, m)
    | some d =>
      let write := e.flags.testBit 0 || d.status != 0
      if write ∧ c.cqSpace r = 0 ∧ !c.ringDrops r then (c, m)
      else
        let c := (c.setRing r { c.ring r with issued := rest }).set (R.RNG.DONE_SEQ.INDEX (r / 2) (r % 2)) e.seq
        let c := if d.status ≠ 0 then c.set (R.RNG.RING_STAT.LAST_ERR (r / 2) (r % 2)) d.status else c
        let q := if write then
            c.cqPut m r (c.cqEntry r d.status (2 * b2n (e.flags.testBit 1)) e.seq d.stamp (fieldAt e.bytes 8 4) d.result)
          else (c, m)
        ((q.1.ringStat r).ringRetired r, q.2)

/-- COMPLETION_RETIRE (R96). -/
def execCompletionRetire (r : Nat) (s : State) : Host.Outcome State Fault Refusal :=
  s.onMem (r < 64) fun c m => c.retire m r

/-- Remove the first event of pair `r`. -/
def takeEvent (r : Nat) (l : List RingEvent) : Option (RingEvent × List RingEvent) :=
  match l with
  | [] => none
  | e :: rest =>
    if e.ring = r then some (e, rest)
    else match takeEvent r rest with
      | none => none
      | some (x, l') => some (x, e :: l')

/-- RESULT of the next event of pair `r`: after a drop, a touch event carries RESYNC (R297, R298). -/
def Chip.eventResult (c : Chip) (r : Nat) (result : List Byte) : List Byte :=
  if c.imx.dropped.contains r then putAt (padTo 12 result) 6 1 (fieldAt result 6 1 ||| 64) else result

/-- Pair `r` has lost an event; a touch ring owes a resync (R298). -/
def Chip.eventLost (c : Chip) (r : Nat) : Chip :=
  let c := if c.ringClass r = 5 then
      { c with imx := { c.imx with dropped := r :: c.imx.dropped.filter (· ≠ r), resync := r :: c.imx.resync.filter (· ≠ r) } }
    else c
  (c.bump (R.RNG.EVT_LOST.COUNT (r / 2) (r % 2))).ringIrq r 5

/-- The oldest event for pair `r` is placed, held or dropped. -/
def Chip.postEvent (c : Chip) (m : Mems) (r : Nat) : Chip × Mems :=
  match takeEvent r c.imx.events with
  | none => (c, m)
  | some (ev, rest) =>
    let c' := { c with imx := { c.imx with events := rest } }
    if c.ringLive r ∧ (c.ring r).issued.length < c.cqSpace r then
      let e := c'.cqEntry r ev.status 6 ev.seq ev.stamp 0 (c.eventResult r ev.result)
      { c' with imx := { c'.imx with dropped := c'.imx.dropped.filter (· ≠ r) } }.cqPut m r e
    else if ev.stalls ∧ c.ringLive r then (c, m)
    else (c'.eventLost r, m)

/-- EVENT_POST (R96). -/
def execEventPost (r : Nat) (s : State) : Host.Outcome State Fault Refusal :=
  s.onMem (r < 64) fun c m => c.postEvent m r

/-! ### Stalls (R99) -/

/-- Pair `r` has been STALLED for CQ_STALL_MAX lines. -/
def Chip.stallOver (c : Chip) (r : Nat) : Bool :=
  let lim := c.get (R.RNG.SEL.CQ_STALL_MAX (r / 2) (r % 2))
  !(c.ring r).ovf.isEmpty && lim != 0 && decide (lim ≤ (c.ring r).stall) && c.ringLive r

/-- CQ_STALL_EXPIRY (R99). -/
def execCqStallExpiry (r : Nat) (s : State) : Host.Outcome State Fault Refusal :=
  s.on (r < 64) fun c => c.when (c.stallOver r) fun c =>
    (c.setRing r { c.ring r with stall := 0 }).ringIrq r 2 |>.ringStop r 0x20

/-- One more anchor line for every stalled pair. -/
def Chip.stallLine (c : Chip) : Chip :=
  forN 64 c fun r c => if (c.ring r).ovf.isEmpty then c else c.setRing r { c.ring r with stall := (c.ring r).stall + 1 }

end Sys2Proof.Machine
end

