-- ==== Sys2Proof/Machine/Slots.lean ====
section
/-! DEFINITION. The ledger's present line and the schedule slots (R19, R21, R25–R28), and the power of the domains as
engines see it. -/

namespace Sys2Proof.Machine

/-! ### Power domains (R52, R54) -/

namespace PD

def AON : Nat := 0
def FIELD : Nat := 1
def SAFE : Nat := 2
def DISP : Nat := 3
def CMP : Nat := 4
def GFX (n : Nat) : Nat := 5 + n
def GFXC : Nat := 17
def MEM : Nat := 18
def FAB : Nat := 19
def HOST : Nat := 20
def LINK : Nat := 21
def DMA : Nat := 22
def AUD : Nat := 23
def CTL : Nat := 24

end PD

/-- Domain `d` is powered. -/
def Chip.pdOn (c : Chip) (d : Nat) : Bool := (c.get R.SYS_POWER.PD_ON.ON).testBit d

/-- Domain `d` is powered and not quiescing: it may start new work (R54). -/
def Chip.pdFree (c : Chip) (d : Nat) : Bool := c.pdOn d && !c.pow.quiesce.contains d

/-! ### The ledger's source (R21) -/

/-- The anchor output. -/
def Chip.anchor (c : Chip) : Nat := c.get R.LDG.ANCHOR.ANCHOR

/-- Output `n` is the follower of a split pair or of an LVDS dual link (R198, R199). -/
def Chip.follows (c : Chip) (n : Nat) : Bool :=
  n % 2 == 1 && (c.flag (R.SCN_OUT.OUT_CFG.SPLIT (n - 1)) || c.get (R.SCN_OUT.OUT_CFG.MODE (n - 1)) == 3)

/-- The output whose timing registers output `n` runs on. -/
def Chip.leadOf (c : Chip) (n : Nat) : Nat := if c.follows n then n - 1 else n

/-- Outputs `n` (no follower) leads a split pair. -/
def Chip.splits (c : Chip) (n : Nat) : Bool := n % 2 == 0 && c.flag (R.SCN_OUT.OUT_CFG.SPLIT n)

/-- Active pixels and lines, and total lines, of output `n`. -/
def Chip.hActive (c : Chip) (n : Nat) : Nat := c.get (R.SCN_OUT.H_TIMING.ACTIVE (c.leadOf n))
def Chip.vActive (c : Chip) (n : Nat) : Nat := c.get (R.SCN_OUT.V_TIMING.ACTIVE (c.leadOf n))
def Chip.vTotal (c : Chip) (n : Nat) : Nat := c.get (R.SCN_OUT.V_TIMING.TOTAL (c.leadOf n))

/-- The ledger follows the idle raster. -/
def Chip.ledIdle (c : Chip) : Bool := c.get R.LDG.ANCHOR.SOURCE == 0

/-- Lines of a frame of the ledger's source. -/
def Chip.ledVTotal (c : Chip) : Nat :=
  if c.ledIdle then c.get R.LDG.IDLE_TIMING.V_TOTAL else c.vTotal c.anchor

/-- Active lines of the ledger's source. -/
def Chip.ledVActive (c : Chip) : Nat :=
  if c.ledIdle then c.get R.LDG.IDLE_ACTIVE.V_ACTIVE else c.vActive c.anchor

/-- The timing generator of output `n` runs. -/
def Chip.outRunning (c : Chip) (n : Nat) : Bool := c.flag (R.LDG_OUTS.LINE.RUNNING n)

/-- Frame, line, lines of a frame, and whether it runs, of a slot base (R23, R25). -/
def Chip.baseNow (c : Chip) (b : Nat) : Nat × Nat × Nat × Bool :=
  if b < 8 then (c.get R.LDG.LIVE_FRAME.FRAME, c.get R.LDG.LIVE_LINE.LINE, c.ledVTotal, true)
  else (c.get (R.LDG_OUTS.FRAME.FRAME (b - 8)), c.get (R.LDG_OUTS.LINE.LINE (b - 8)),
    c.vTotal (b - 8), c.outRunning (b - 8))

/-! ### Slots -/

namespace SS

def IDLE : Nat := 0
def ARMED : Nat := 1
def FIRED : Nat := 2
def REJECTED : Nat := 3

end SS

def Chip.ssState (c : Chip) (k : Nat) : Nat := c.get (R.LDG_SLOTS.SS_STAT.STATE (k / 64) (k % 64))
def Chip.ssLine (c : Chip) (k : Nat) : Nat := c.get (R.LDG_SLOTS.SS_TGT.LINE (k / 64) (k % 64))
def Chip.ssBase (c : Chip) (k : Nat) : Nat := c.get (R.LDG_SLOTS.SS_TGT.BASE (k / 64) (k % 64))
def Chip.ssFrame (c : Chip) (k : Nat) : Nat := c.get (R.LDG_SLOTS.SS_FRAME.FRAME (k / 64) (k % 64))
def Chip.ssAction (c : Chip) (k : Nat) : Nat := c.get (R.LDG_SLOTS.SS_ACT.ACTION (k / 64) (k % 64))
def Chip.ssArg (c : Chip) (k : Nat) : Nat := c.get (R.LDG_SLOTS.SS_ACT.ARG (k / 64) (k % 64))
def Chip.setSs (c : Chip) (k v : Nat) : Chip := c.set (R.LDG_SLOTS.SS_STAT.STATE (k / 64) (k % 64)) v

/-- (f, l) is strictly later than (f0, l0); frames modulo 2^32, more than 2^31 ahead counts as passed (R25). -/
def later (f l f0 l0 : Nat) : Bool :=
  let d := sub32 f f0
  if d = 0 then decide (l0 < l) else decide (d ≤ 2 ^ 31)

/-- Action code `action` may be armed in slot `k` (R28). -/
def armable (k action : Nat) : Bool := decide (action < 8) && (decide (k < 22) || action == 0 || action == 3 || action == 7)

/-- The code with which arming is refused for a target, none where it is accepted (R25, R28). The check of the base comes
first, then those of R38. -/
def Chip.armCode (c : Chip) (k base frame line action : Nat) : Option Nat :=
  let b := c.baseNow base
  firstFail
    [ (armable k action, E.VALUE),
      (b.2.2.2, E.STATE),
      (decide (line < b.2.2.1), E.VALUE),
      (later frame line b.1 b.2.1, E.LATE) ]

/-- Slot `k` becomes REJECTED with `code`. -/
def Chip.ssReject (c : Chip) (k code : Nat) : Chip :=
  let c := (c.setSs k SS.REJECTED).set (R.LDG_SLOTS.SS_STAT.ERR (k / 64) (k % 64)) code
  let c := { c with led := { c.led with held := c.led.held.erase k } }
  if code = E.LATE then c.bump R.LDG.LATE_CNT.COUNT else c

/-- Slot `k` is armed with the target and action its registers hold. -/
def Chip.ssArm (c : Chip) (k : Nat) : Chip :=
  (c.setSs k SS.ARMED).set (R.LDG_SLOTS.SS_STAT.FIRES (k / 64) (k % 64)) 0

/-- Give the registers of slot `k` a target and an action. -/
def Chip.ssPut (c : Chip) (k base frame line mode action arg : Nat) : Chip :=
  let n := k / 64
  let i := k % 64
  let c := (c.set (R.LDG_SLOTS.SS_TGT.LINE n i) line).set (R.LDG_SLOTS.SS_TGT.BASE n i) base
  let c := (c.set (R.LDG_SLOTS.SS_TGT.MODE n i) mode).set (R.LDG_SLOTS.SS_TGT.PERIOD n i) 1
  ((c.set (R.LDG_SLOTS.SS_FRAME.FRAME n i) frame).set (R.LDG_SLOTS.SS_ACT.ACTION n i) action).set (R.LDG_SLOTS.SS_ACT.ARG n i) arg

/-- The slot returns to IDLE and, if an engine held it, to the pool. -/
def Chip.ssDisarm (c : Chip) (k : Nat) : Chip :=
  { c.setSs k SS.IDLE with led := { c.led with held := c.led.held.erase k } }

/-- A hardware slot (SS0–SS21) is armed periodically on `line` of `base`, from its next occurrence (R27). -/
def Chip.ssHw (c : Chip) (k base line action arg : Nat) : Chip :=
  let b := c.baseNow base
  let frame := if b.2.1 < line then b.1 else b.1 + 1
  (c.ssPut k base frame line 1 action arg).ssArm k

/-- Slot `k` (32–127) is a pool slot. -/
def Chip.ssPool (c : Chip) (k : Nat) : Bool := (c.get (R.LDG.SLOT_POOL.POOL ((k - 32) / 32))).testBit (k % 32)

/-- The lowest free pool slot (R27). -/
def Chip.poolSlot (c : Chip) : Option Nat :=
  ((List.range 96).map (· + 32)).find? fun k => c.ssPool k && (c.led.held.find? k).isNone && c.ssState k != SS.ARMED

/-- An engine arms a pool slot for `holder` (R27): the code that refuses it, or the slot. -/
def Chip.poolArm (c : Chip) (base frame line action arg holder : Nat) : (Except Nat Nat) × Chip :=
  match c.poolSlot with
  | none => (.error E.SHORT, c.bump R.LDG.SHORT_CNT.COUNT)
  | some k =>
    let c := c.ssPut k base frame line 0 action arg
    match c.armCode k base frame line action with
    | some code => (.error code, c.ssReject k code)
    | none => (.ok k, { c.ssArm k with led := { c.led with held := c.led.held.insert k holder } })

end Sys2Proof.Machine
end

