-- ==== Sys2Proof/Machine/Dma.lean ====
section
/-! DEFINITION. Sparge DMA engine (chapter 16, R261–R274). -/

namespace Sys2Proof.Machine

/-! ### Descriptors (R262) -/

namespace DmaDesc

def op (d : DmaDesc) : Nat := fieldAt d.bytes 0 1
def ch (d : DmaDesc) : Nat := fieldAt d.bytes 0x10 1 % 32
def dflags (d : DmaDesc) : Nat := fieldAt d.bytes 0x11 1
def start (d : DmaDesc) : Nat := bits d.dflags 3 2
def prio (d : DmaDesc) : Nat := bits d.dflags 5 2
def srcSpace (d : DmaDesc) : Nat := bits (fieldAt d.bytes 0x12 1) 0 2
def dstSpace (d : DmaDesc) : Nat := bits (fieldAt d.bytes 0x12 1) 2 2
def fillw (d : DmaDesc) : Nat := fieldAt d.bytes 0x13 1
def width (d : DmaDesc) : Nat := fieldAt d.bytes 0x14 4
def src (d : DmaDesc) : Nat := fieldAt d.bytes 0x18 8
def dst (d : DmaDesc) : Nat := fieldAt d.bytes 0x20 8
def srcPitch (d : DmaDesc) : Nat := fieldAt d.bytes 0x28 4
def dstPitch (d : DmaDesc) : Nat := fieldAt d.bytes 0x2C 4
def rows (d : DmaDesc) : Nat := fieldAt d.bytes 0x30 4
def isFill (d : DmaDesc) : Bool := d.op == 2
/-- Size of the pattern of a FILL. -/
def pattern (d : DmaDesc) : Nat := 2 * 2 ^ d.fillw
def total (d : DmaDesc) : Nat := d.width * d.rows
/-- Address of byte `i` of the source or the destination, rows in ascending order. -/
def srcAt (d : DmaDesc) (i : Nat) : Nat := d.src + i / d.width * d.srcPitch + i % d.width
def dstAt (d : DmaDesc) (i : Nat) : Nat := d.dst + i / d.width * d.dstPitch + i % d.width

end DmaDesc

/-- A burst from byte `i`: to the end of the row or of the 256 B block of the side's address (R266). -/
def burstLen (d : DmaDesc) (i addr : Nat) : Nat := min (d.width - i % d.width) (256 - addr % 256)

/-- Address `a` lies in a row of a side. -/
def inRows (base pitch width rows a : Nat) : Bool :=
  if a < base then false
  else
    let r := if pitch = 0 then 0 else min ((a - base) / pitch) (rows - 1)
    decide (a - base - r * pitch < width)

/-- Byte `i` of a COPY is one whose value an overlap of source and destination leaves undefined (R262). -/
def DmaDesc.overlaps (d : DmaDesc) (i : Nat) : Bool :=
  d.op == 1 && d.srcSpace == d.dstSpace &&
    (inRows d.src d.srcPitch d.width d.rows (d.dstAt i) || inRows d.dst d.dstPitch d.width d.rows (d.srcAt i))

/-! ### Channels -/

def Chip.dch (c : Chip) (k : Nat) : DmaChan := c.dma.ch.getD k {}

/-- The slots channel `k` holds. -/
def DmaRun.slots (x : DmaRun) : Nat := (x.reads.filter fun r => !r.join).length + x.slotsSrc.length + x.slotsDst.length

def DmaChan.slots (x : DmaChan) : Nat :=
  match x.run with
  | none => 0
  | some r => r.slots

/-- Burst slots held by all channels. -/
def Chip.dmaSlots (c : Chip) : Nat := (c.dma.ch.map fun x => x.2.slots).foldl (· + ·) 0

/-- CH_STAT.STATE. -/
def DmaChan.state (x : DmaChan) : Nat :=
  if x.stopping then 4 else if x.run.isSome then (if x.preempted then 3 else 2) else if x.waiting then 1 else 0

/-- Put channel `k` back; its status registers follow. -/
def Chip.setDch (c : Chip) (k : Nat) (x : DmaChan) : Chip :=
  let c := { c with dma := { c.dma with ch := c.dma.ch.put {} k x } }
  let c := (c.set (R.DMA_CH.CH_STAT.STATE k) x.state).set (R.DMA_CH.CH_STAT.QUEUED k) x.queue.length
  let c := c.set R.DMA.ENG_STAT.ACTIVE ((c.dma.ch.filter fun y => y.2.run.isSome).length)
  c.set R.DMA.ENG_STAT.SLOTS c.dmaSlots

/-- The instance whose share in force holds channel `k`. -/
def Chip.dmaOwner (c : Chip) (k : Nat) : Option Nat := (List.range 16).find? fun vi => (c.share vi).dma.testBit k

/-- Owner `own` may name channel `k` (R264). -/
def Chip.dmaUsable (c : Chip) (own k : Nat) : Bool :=
  if own < 16 then (c.share own).dma.testBit k else (c.dmaOwner k).isNone

/-- Channel `k` is to leave its instance's share (R79). -/
def Chip.dmaLeaving (c : Chip) (k : Nat) : Bool :=
  match c.dmaOwner k with
  | none => false
  | some vi => !(c.get (R.IMX_VI.SH_DMA.CH vi)).testBit k

/-- The channel is at a descriptor boundary (R264, R269). -/
def DmaChan.atBoundary (x : DmaChan) : Bool := x.run.isNone

/-! ### Ends (R270, R272) -/

/-- RESULT of COPY, FILL and COMPARE. -/
def dmaResult (row col sb db : Nat) : List Byte := leBytes 4 row ++ leBytes 4 col ++ leBytes 1 sb ++ leBytes 1 db

/-- A descriptor completes with `status`. COMPARE_MISMATCH counts as a result, not as an error (log entry 20). -/
def Chip.dmaDone (c : Chip) (d : DmaDesc) (onChan : Bool) (status row col sb db : Nat) : Chip :=
  let c := c.finish d.ring d.seq status (dmaResult row col sb db)
  let c := c.bump R.DMA.DESC_CNT.COUNT
  let c := if onChan then c.bump (R.DMA_CH.CH_DESC_CNT.COUNT d.ch) else c
  let c := if onChan && status != 0 then c.set (R.DMA_CH.CH_STAT.LAST_ERR d.ch) status else c
  if status = 0 then c
  else if status = E.COMPARE_MISMATCH then c.bump R.DMA.MISMATCH_CNT.COUNT
  else (c.bump R.DMA.ERR_CNT.COUNT).raise 0x180 0

/-- The head of channel `k` leaves its queue; the channel gives up a level it holds. -/
def Chip.dmaPop (c : Chip) (k : Nat) : Chip :=
  let x := c.dch k
  let c := match x.slot with
    | none => c
    | some s => if c.ssState s = SS.ARMED then c.ssDisarm s else c
  let c := { c with dma := { c.dma with holder := c.dma.holder.filter fun h => h.2 ≠ k } }
  c.setDch k { x with queue := x.queue.drop 1, run := none, waiting := false, slot := none, fired := false, preempted := false }

/-- Complete the first `n` descriptors of channel `k` without running them. -/
def Chip.dmaDropHead (c : Chip) (k n status : Nat) : Chip :=
  match n with
  | 0 => c
  | m + 1 =>
    match (c.dch k).queue with
    | [] => c
    | d :: _ => ((c.dmaDone d true status 0 0 0 0).dmaPop k).dmaDropHead k m status

/-- A stop ends at the boundary (R269). -/
def Chip.dmaStopEnd (c : Chip) (k : Nat) : Chip :=
  let x := c.dch k
  let c := c.dmaDropHead k x.stopCount 0x3F
  let c := x.stopRefs.foldl (fun c e => c.finish e.1 e.2 0 (leBytes 4 x.stopCount)) c
  (c.set (R.DMA_CH.CH_CTRL.STOP k) 0).setDch k { c.dch k with stopping := false, stopRefs := [], stopCount := 0 }

/-- A stop of channel `k` (R269); one in progress is joined. -/
def Chip.dmaStop (c : Chip) (k : Nat) (ref : List (Nat × Nat)) : Chip :=
  let x := c.dch k
  if x.stopping then c.setDch k { x with stopRefs := x.stopRefs ++ ref }
  else
    let n := if x.run.isSome then x.queue.length - 1 else x.queue.length
    let c := (c.bump R.DMA.STOP_CNT.COUNT).set (R.DMA_CH.CH_CTRL.STOP k) 1
    let c := c.setDch k { x with stopping := true, stopRefs := ref, stopCount := n }
    if x.atBoundary then c.dmaStopEnd k else c

/-- The head of channel `k` completes and the channel moves on. -/
def Chip.dmaFinish (c : Chip) (k status row col sb db : Nat) : Chip :=
  match (c.dch k).queue with
  | [] => c
  | d :: _ =>
    let c := (c.dmaDone d true status row col sb db).dmaPop k
    if (c.dch k).stopping then c.dmaStopEnd k else c

/-! ### Checks at issue (R263) -/

/-- A side lies where the owner may reach. -/
def Chip.dmaSide (c : Chip) (own space a pitch width rows : Nat) : Bool :=
  let n := (rows - 1) * pitch + width
  space != 0 ||
    (if own < 16 then c.inWindow own a n
     else decide (a + n ≤ c.dramSize) && decide (c.get R.SEC.DRAM_WMARK.WMARK * 2 ^ 21 ≤ a))

/-- The owner of a ring has no port (R88). -/
def Chip.portless (c : Chip) (r : Nat) : Bool := c.noPort (c.ringOwner r)

/-- The first failed check of a descriptor. -/
def Chip.dmaCheck (c : Chip) (d : DmaDesc) : Option Nat :=
  let f := d.dflags
  let sp := fieldAt d.bytes 0x12 1
  let valueA := d.start != 3 && decide (d.srcSpace < 2) && decide (d.dstSpace < 2) &&
    (if d.isFill then decide (d.fillw < 3) else d.fillw == 0) &&
    !(f.testBit 1 && d.srcSpace == 0) && !(f.testBit 2 && d.dstSpace == 0)
  let valueB := decide (1 ≤ d.width) && decide (d.width ≤ 16777216) && decide (1 ≤ d.rows) && decide (d.rows ≤ 65536) &&
    (d.rows == 1 || (decide (d.width ≤ d.dstPitch) && (d.isFill || decide (d.width ≤ d.srcPitch)))) &&
    !(d.isFill && d.srcPitch != 0)
  let hosts := d.srcSpace == 1 || d.dstSpace == 1
  firstFail
    [ (fieldAt d.bytes 0x10 1 / 32 == 0 && !f.testBit 7 && sp / 16 == 0 && fieldAt d.bytes 0x3A 1 / 16 == 0 && zeroAt d.bytes 0x3B 5, E.RESERVED),
      (c.dmaUsable d.own d.ch, 0x36),
      (valueA, E.VALUE), (valueB, E.VALUE), (!(hosts && c.portless d.ring), E.VALUE),
      (!d.isFill || (d.dst % d.pattern == 0 && d.dstPitch % d.pattern == 0 && d.width % d.pattern == 0), E.ALIGN),
      ((d.isFill || c.dmaSide d.own d.srcSpace d.src d.srcPitch d.width d.rows) &&
        c.dmaSide d.own d.dstSpace d.dst d.dstPitch d.width d.rows, E.RANGE) ]

/-- A COPY, FILL or COMPARE reaches the engine: it is checked and queued on its channel (R263, R264). -/
def Chip.dmaQueue (c : Chip) (r op : Nat) : Chip :=
  match c.freshEntry r 2 op with
  | none => c
  | some e =>
    let d : DmaDesc := { ring := r, seq := e.seq, own := c.ringOwn r, bytes := e.bytes }
    match c.dmaCheck d with
    | some code => c.dmaDone d (code != 0x36 && code != E.RESERVED) code 0 0 0 0
    | none =>
      let x := c.dch d.ch
      ((c.takeUp r e.seq).set (R.DMA_CH.CH_STAT.OWNER d.ch) d.own).setDch d.ch { x with queue := x.queue ++ [d] }

/-- DMA_NOP (R261): completes at issue. -/
def execDmaNop (r : Nat) (s : State) : Host.Outcome State Fault Refusal :=
  s.on (r < 64) fun c =>
    match c.freshEntry r 2 0 with
    | none => c
    | some e => c.finish r e.seq (if zeroAt e.bytes 0x10 48 then E.NONE else E.RESERVED) []

/-- COPY (R262). -/
def execCopy (r : Nat) (s : State) : Host.Outcome State Fault Refusal := s.on (r < 64) fun c => c.dmaQueue r 1

/-- FILL (R262). -/
def execFill (r : Nat) (s : State) : Host.Outcome State Fault Refusal := s.on (r < 64) fun c => c.dmaQueue r 2

/-- COMPARE (R262). -/
def execCompare (r : Nat) (s : State) : Host.Outcome State Fault Refusal := s.on (r < 64) fun c => c.dmaQueue r 3

/-- DMA_STOP (R269): a STOP entry. -/
def execDmaStop (r : Nat) (s : State) : Host.Outcome State Fault Refusal :=
  s.on (r < 64) fun c =>
    match c.freshEntry r 2 4 with
    | none => c
    | some e =>
      let k := fieldAt e.bytes 0x10 1 % 32
      if fieldAt e.bytes 0x10 1 / 32 ≠ 0 ∨ !zeroAt e.bytes 0x11 47 then c.finish r e.seq E.RESERVED []
      else if !c.dmaUsable (c.ringOwn r) k then c.finish r e.seq 0x36 []
      else (c.takeUp r e.seq).dmaStop k [(r, e.seq)]

/-- A write of CH_CTRL of channel `k` (R269). -/
def Chip.dmaCtrl (c : Chip) (src : Src) (k data : Nat) : Chip :=
  c.port src 0x181 (0x044 + 0x10 * k) [ (c.mgrOrCtl src, E.OWNER), (data / 2 == 0, E.RESERVED) ] fun c =>
    if data.testBit 0 then c.dmaStop k [] else c

/-- CH_STOP (R269): a write of CH_CTRL with STOP set. -/
def execChStop (src : Src) (k : Nat) (s : State) : Host.Outcome State Fault Refusal :=
  s.on (k < 32) fun c => c.dmaCtrl src k 1

/-- The head of pair `r` names no channel whose queue is full, counting the entries on their way (R264). -/
def Chip.dmaCan (c : Chip) (r : Nat) : Bool :=
  match (c.ring r).fetched with
  | [] => false
  | e :: _ =>
    if e.opcode = 0 ∨ e.opcode = 4 then true
    else
      let k := fieldAt e.bytes 0x10 1 % 32
      let coming := (List.range 64).map fun r' => if c.ringClass r' = 2 then
        ((c.ring r').issued.filter fun i => i.fresh && decide (1 ≤ i.opcode) && decide (i.opcode ≤ 3) &&
          fieldAt i.bytes 0x10 1 % 32 == k).length else 0
      decide ((c.dch k).queue.length + coming.foldl (· + ·) 0 < 8)

/-! ### Starting (R268) -/

/-- The head of channel `k` begins. -/
def Chip.dmaBegin (c : Chip) (k : Nat) : Chip :=
  match (c.dch k).queue with
  | [] => c
  | d :: _ =>
    (c.set (R.DMA_CH.CH_SEQ.SEQ k) d.seq).setDch k { c.dch k with run := some {}, waiting := false, slot := none, fired := false }

/-- The head of channel `k` is armed at its line. -/
def Chip.dmaArm (c : Chip) (k : Nat) (d : DmaDesc) : Chip :=
  let b := fieldAt d.bytes 0x3A 1 % 16
  let legal := b == 0 || decide (8 ≤ b)
  if !legal then c.dmaFinish k E.VALUE 0 0 0 0
  else
    match c.poolArm b (fieldAt d.bytes 0x34 4) (fieldAt d.bytes 0x38 2) 3 k k with
    | (.error code, c) => c.dmaFinish k code 0 0 0 0
    | (.ok slot, c) => c.setDch k { c.dch k with waiting := true, slot := some slot }

/-- DESCRIPTOR_START (R268): the head of channel `k`, at a descriptor boundary, begins, is armed or starts to wait. -/
def Chip.dmaStartHead (c : Chip) (k : Nat) : Chip :=
  let x := c.dch k
  match x.queue with
  | [] => c
  | d :: _ =>
    if x.run.isSome ∨ x.stopping ∨ !c.pdFree PD.DMA ∨ c.dmaLeaving k then c
    else if x.waiting then
      if x.fired then c.dmaBegin k else if d.start = 1 ∧ x.slot.isNone then c.dmaArm k d else c
    else
      let c := c.set (R.DMA_CH.CH_SEQ.SEQ k) d.seq
      if d.start = 0 then c.dmaBegin k
      else if d.start = 1 then c.dmaArm k d
      else c.setDch k { x with waiting := true }

/-- DESCRIPTOR_START (R268). -/
def execDescriptorStart (k : Nat) (s : State) : Host.Outcome State Fault Refusal :=
  s.on (k < 32) fun c => c.dmaStartHead k

/-- A DMA_START firing for channel `k` (R268). -/
def Chip.dmaFired (c : Chip) (k : Nat) : Chip :=
  let x := c.dch k
  if x.waiting ∧ !x.fired ∧ x.startedAt ≠ some c.led.lineNo then
    let c := match x.slot with
      | none => c
      | some s => if c.ssState s = SS.ARMED then c.ssDisarm s else c
    let c := c.setDch k { x with slot := none, fired := true, startedAt := some c.led.lineNo }
    if c.pdFree PD.DMA then c.dmaBegin k else c
  else (c.bump R.DMA.START_IGNORED.COUNT).raise 0x180 1

/-- A pool slot of a waiting descriptor has been rejected (R268). -/
def Chip.dmaSlotRejected (c : Chip) (slot code : Nat) : Chip :=
  match (List.range 32).find? fun k => (c.dch k).slot == some slot with
  | none => c
  | some k => if (c.dch k).waiting then c.dmaFinish k code 0 0 0 0 else c

/-! ### Bursts (R266, R267) -/

/-- The running descriptor of channel `k`. -/
def Chip.dmaRunning (c : Chip) (k : Nat) : Option (DmaDesc × DmaRun) :=
  match (c.dch k).queue, (c.dch k).run with
  | d :: _, some x => some (d, x)
  | _, _ => none

/-- The next read is of the destination side, which a COMPARE reads in turn with its source; a burst that was cut goes on first. -/
def DmaRun.readsDst (x : DmaRun) (d : DmaDesc) : Bool := d.op == 3 && (x.cutDst || (!x.cutSrc && decide (x.dstNext < x.srcNext)))

/-- The next read goes on with a burst that was cut, in the slot it has. -/
def DmaRun.goesOn (x : DmaRun) (d : DmaDesc) : Bool := if x.readsDst d then x.cutDst else x.cutSrc

/-- Channel `k` has a burst ready in a direction. -/
def Chip.dmaReady (c : Chip) (wr : Bool) (k : Nat) : Bool :=
  match c.dmaRunning k with
  | none => false
  | some (d, x) =>
    if x.stopped.isSome then false
    else if wr then (if d.isFill then decide (x.done < d.total) else d.op == 1 && !x.held.isEmpty)
    else !d.isFill && (decide (x.srcNext < d.total) || (d.op == 3 && decide (x.dstNext < d.total)))
      && (x.goesOn d || (decide (x.slots < c.get (R.DMA_CH.CH_CFG.BUF_MAX k)) && decide (c.dmaSlots < 256)))

/-- The effective priority of what channel `k` runs (R265). -/
def Chip.dmaLevel (c : Chip) (k : Nat) : Nat :=
  match (c.dch k).queue with
  | [] => 0
  | d :: _ => min d.prio (c.get (R.DMA_CH.CH_CFG.PRIO_MAX k))

/-- The first channel of level `l` after the pointer (R231, R267). -/
def Chip.dmaRotate (c : Chip) (act : Nat → Bool) (l : Nat) (pre : Bool) : Option (Nat × Chip) :=
  match nextAfter 32 (c.dma.ptr.getD l 31) fun k => act k && c.dmaLevel k == l with
  | none => none
  | some k => some (k, { c with dma := { c.dma with ptr := c.dma.ptr.insert l k,
                                                    holder := if pre then c.dma.holder.insert l k else [] } })

/-- next_grant() of R267 over the channels `act` accepts. -/
def Chip.dmaNext (c : Chip) (act : Nat → Bool) : Option (Nat × Chip) :=
  match [3, 2, 1, 0].find? fun l => (List.range 32).any fun k => act k && c.dmaLevel k == l with
  | none => none
  | some l =>
    let pre := c.flag R.DMA.DMA_CFG.MODE
    let held := c.dma.holder.find? l
    match held with
    | some h =>
      if pre && act h && c.dmaLevel h == l then some (h, c) else c.dmaRotate act l pre
    | none => c.dmaRotate act l pre

/-- The grant goes to channel `k`: a lower level that was running is pre-empted (R267). -/
def Chip.dmaPreempt (c : Chip) (k : Nat) : Chip :=
  let c := match c.dma.last with
    | none => c
    | some l =>
      if c.flag R.DMA.DMA_CFG.MODE ∧ l ≠ k ∧ (c.dch l).run.isSome ∧ !(c.dch l).preempted ∧ c.dmaLevel l < c.dmaLevel k then
        (c.bump R.DMA.PREEMPT_CNT.COUNT).setDch l { c.dch l with preempted := true }
      else c
  let c := if (c.dch k).preempted then c.setDch k { c.dch k with preempted := false } else c
  { c with dma := { c.dma with last := some k } }

/-- The bytes of a burst of `n` bytes from address `a` that go now: in PREEMPT mode `beats` beats of 32 B, before a channel of a higher level takes the next
(R267); with `beats` = 0, and in INTERLEAVE mode, all. -/
def Chip.beatCut (c : Chip) (beats a n : Nat) : Nat := if c.flag R.DMA.DMA_CFG.MODE ∧ beats ≠ 0 then min n (32 * beats - a % 32) else n

/-- Channel `k` issues one read burst, or its first beats. -/
def Chip.dmaRead (c : Chip) (k beats : Nat) : Chip :=
  match c.dmaRunning k with
  | none => c
  | some (d, x) =>
    if x.readsDst d then
      let whole := burstLen d x.dstNext (d.dstAt x.dstNext)
      let n := c.beatCut beats (d.dstAt x.dstNext) whole
      let c := if d.dstSpace = 1 then c.hostReq d.own false (d.dstAt x.dstNext) n (d.dflags.testBit 2) else c
      c.setDch k { c.dch k with run := some { x with dstNext := x.dstNext + n, cutDst := decide (n < whole), reads := x.reads ++ [{ dst := true, start := x.dstNext, len := n, join := x.cutDst }] } }
    else
      let whole := burstLen d x.srcNext (d.srcAt x.srcNext)
      let n := c.beatCut beats (d.srcAt x.srcNext) whole
      let c := if d.srcSpace = 1 then c.hostReq d.own false (d.srcAt x.srcNext) n (d.dflags.testBit 1) else c
      c.setDch k { c.dch k with run := some { x with srcNext := x.srcNext + n, cutSrc := decide (n < whole), reads := x.reads ++ [{ dst := false, start := x.srcNext, len := n, join := x.cutSrc }] } }

/-- Take `n` bytes out of arrived slots; an emptied slot is free. -/
def eatSlots (n : Nat) (l : List Nat) : List Nat :=
  match l with
  | [] => []
  | x :: rest => if n < x then (x - n) :: rest else eatSlots (n - x) rest

/-- Store bytes of owner `own` in the space that `space` names. -/
def Chip.dmaStore (c : Chip) (m : Mems) (space own : Nat) (noSnoop : Bool) (a : Nat) (bs : List Byte) : Chip × Mems :=
  if space = 0 then c.dramPut m a bs
  else (c.hostReq own true a bs.length noSnoop, { m with host := Memory.writeBytes m.host (hostKey (c.ownPort own) a) bs })

/-- The `n` bytes that a write burst from byte `i` carries: of the pattern, or of what has arrived, an overlapping byte
being a free value. -/
def Chip.dmaBytes (c : Chip) (d : DmaDesc) (x : DmaRun) (n : Nat) : List Byte × Chip :=
  let i := x.done
  if d.isFill then
    let p := leBytes d.pattern d.src
    ((List.range n).map fun j => p.getD ((i + j) % d.width % d.pattern) 0, c)
  else
    (List.range n).foldl (fun acc j =>
      if d.overlaps (i + j) then (acc.1 ++ [BitVec.ofNat 8 (acc.2.fresh 8).1], (acc.2.fresh 8).2)
      else (acc.1 ++ [x.held.getD j 0], acc.2)) ([], c)

/-- Channel `k` issues one write burst, or its first beats. -/
def Chip.dmaWrite (c : Chip) (m : Mems) (k beats : Nat) : Chip × Mems :=
  match c.dmaRunning k with
  | none => (c, m)
  | some (d, x) =>
    let n := burstLen d x.done (d.dstAt x.done)
    let n := c.beatCut beats (d.dstAt x.done) (if d.isFill then n else min n (x.slotsSrc.headD 0))
    let b := c.dmaBytes d x n
    let w := b.2.dmaStore m d.dstSpace d.own (d.dflags.testBit 2) (d.dstAt x.done) b.1
    let y := w.1.dch k
    let c := w.1.setDch k { y with run := some { x with done := x.done + n, held := x.held.drop n, slotsSrc := eatSlots n x.slotsSrc }, moved := y.moved + n }
    (c.set (R.DMA_CH.BYTES_KIB.COUNT k) (min ((y.moved + n) / 1024) 0xFFFFFFFF), w.2)

/-- DMA_BURST_ISSUE (R266, R267): the engine grants one burst, a write or a read, or in PREEMPT mode its first beats. -/
def execDmaBurstIssue (burst : DmaBurst) (s : State) : Host.Outcome State Fault Refusal :=
  s.onMem true fun c m =>
    if !c.pdOn PD.DMA then (c, m)
    else match c.dmaNext (c.dmaReady burst.isWrite) with
      | none => (c, m)
      | some (k, c) =>
        let c := c.dmaPreempt k
        match burst with
        | .write beats => c.dmaWrite m k beats
        | .read beats => (c.dmaRead k beats, m)

/-- The index of the first difference of two byte strings, as far as both go. -/
def firstDiff (a b : List Byte) : Option Nat := ((List.range (min a.length b.length)).find? fun i => a[i]? != b[i]?)

/-- Compare what has arrived of both sides (R270). -/
def DmaRun.compare (x : DmaRun) : DmaRun :=
  let n := min x.held.length x.heldDst.length
  match firstDiff x.held x.heldDst with
  | some i =>
    { x with done := x.done + i, reads := [], held := [], heldDst := [], slotsSrc := [], slotsDst := [],
             stopped := some (E.COMPARE_MISMATCH, (x.held.getD i 0).toNat, (x.heldDst.getD i 0).toNat) }
  | none =>
    { x with done := x.done + n, held := x.held.drop n, heldDst := x.heldDst.drop n,
             slotsSrc := eatSlots n x.slotsSrc, slotsDst := eatSlots n x.slotsDst }

/-- `n` bytes arrive in a slot, the last one where they go on with its burst. -/
def fillSlot (l : List Nat) (n : Nat) (join : Bool) : List Nat :=
  match l with
  | [] => [n]
  | x :: rest => if rest.isEmpty then (if join then [x + n] else [x, n]) else x :: fillSlot rest n join

/-- The data of the oldest read of channel `k` returns (R266, R272): of host memory in `data`, else read from DRAM. `ok` is
false where the access returned an error. -/
def Chip.dmaReturn (c : Chip) (dram : Memory) (k : Nat) (data : List Byte) (ok : Bool) : Chip :=
  match c.dmaRunning k with
  | none => c
  | some (d, x) =>
    match x.reads with
    | [] => c
    | r :: rest =>
      let space := if r.dst then d.dstSpace else d.srcSpace
      let a := if r.dst then d.dstAt r.start else d.srcAt r.start
      let g := if space = 0 then c.dramCheck 10 a r.len else (true, c)
      let c := g.2
      if !ok ∨ !g.1 then
        c.setDch k { c.dch k with run := some { x with reads := [], held := [], heldDst := [], slotsSrc := [], slotsDst := [], stopped := some (if space = 0 then 0x3E else 0x37, 0, 0) } }
      else
        let bs := if space = 0 then Memory.readBytes dram a r.len else padTo r.len data
        let y := c.dch k
        if r.dst then
          c.setDch k { y with run := some { x with reads := rest, heldDst := x.heldDst ++ bs, slotsDst := fillSlot x.slotsDst r.len r.join }.compare }
        else
          let z := { x with reads := rest, held := x.held ++ bs, slotsSrc := fillSlot x.slotsSrc r.len r.join }
          c.setDch k { y with run := some (if d.op = 3 then z.compare else z) }

/-- DMA_READ_COMPLETION (R266). -/
def execDmaReadCompletion (k : Nat) (data : List Byte) (ok : Bool) (s : State) : Host.Outcome State Fault Refusal :=
  s.on (k < 32) fun c => c.dmaReturn s.mem.dram k data ok

/-- DESCRIPTOR_COMPLETE (R270): the last write of channel `k`'s descriptor has left, or been acknowledged where FENCE asks
for it, or the descriptor has stopped early. -/
def Chip.dmaComplete (c : Chip) (k : Nat) : Chip :=
  match c.dmaRunning k with
  | none => c
  | some (d, x) =>
    let c := if d.op = 3 ∧ (x.stopped.isSome ∨ x.done = d.total) then
        let y := c.dch k
        (c.setDch k { y with moved := y.moved + x.done }).set (R.DMA_CH.BYTES_KIB.COUNT k) (min ((y.moved + x.done) / 1024) 0xFFFFFFFF)
      else c
    match x.stopped with
    | some (status, sb, db) => c.dmaFinish k status (x.done / d.width) (x.done % d.width) sb db
    | none =>
      if x.done ≠ d.total then c
      else
        -- FENCE on a host destination: a zero-length read has been issued after the last write, and has returned
        let c := if d.op ≠ 3 ∧ d.dflags.testBit 0 ∧ d.dstSpace = 1 then c.hostReq d.own false (d.dstAt (x.done - 1)) 0 (d.dflags.testBit 2) else c
        c.dmaFinish k E.NONE d.rows 0 0 0

/-- DESCRIPTOR_COMPLETE (R270). -/
def execDescriptorComplete (k : Nat) (s : State) : Host.Outcome State Fault Refusal :=
  s.on (k < 32) fun c => c.dmaComplete k

/-! ### Removal, reset and power -/

/-- Every channel is at a boundary (R54). -/
def Chip.dmaQuiet (c : Chip) : Bool := (List.range 32).all fun k => (c.dch k).run.isNone

/-- PD_DMA powers off: slots of waiting descriptors are disarmed and armed afresh later (R269). -/
def Chip.dmaPowerOff (c : Chip) : Chip :=
  forN 32 c fun k c => match (c.dch k).slot with
    | none => c
    | some s => (if c.ssState s = SS.ARMED then c.ssDisarm s else c).setDch k { c.dch k with slot := none }

/-- Channel `k` leaves instance `vi`: what it still holds for it completes with E_CHANNEL (R264). -/
def Chip.dmaEvict (c : Chip) (k vi : Nat) : Chip :=
  let mine := fun (d : DmaDesc) => d.own == vi
  let q := (c.dch k).queue
  let c := (q.filter mine).foldl (fun (c : Chip) d => c.dmaDone d true 0x36 0 0 0 0) c
  let c := if (q.take 1).any mine then c.dmaPop k else c
  let y := c.dch k
  let left := y.queue.filter fun d => !mine d
  (c.setDch k { y with queue := left, stopCount := min y.stopCount left.length }).set (R.DMA_CH.CH_STAT.OWNER k) 0x1F

/-- The work of owner `own` on channel `k` disappears without completions (R83): what it squashed and what it cut short. -/
def Chip.dmaPurge (c : Chip) (k own : Nat) : Nat × Nat × Chip :=
  let x := c.dch k
  let mine := fun (d : DmaDesc) => d.own == own
  let headMine := match x.queue with | d :: _ => mine d | [] => false
  let drained := match c.dmaRunning k with
    | some (d, y) => b2n (mine d && d.op != 3 && y.done != 0)
    | none => 0
  let refs := x.stopRefs.filter fun e => c.ringOwn e.1 != own
  let squashed := (x.queue.filter mine).length - drained + (x.stopRefs.length - refs.length)
  let c := if headMine then c.dmaPop k else c
  let y := c.dch k
  let q := y.queue.filter fun d => !mine d
  let y := { y with queue := q, stopRefs := refs, stopCount := min y.stopCount q.length }
  let c := c.setDch k y
  (squashed, drained, if y.stopping && y.run.isNone then c.dmaStopEnd k else c)

/-- All work of owner `own` disappears (R83). -/
def Chip.dmaReset (c : Chip) (own : Nat) : Nat × Nat × Chip :=
  (List.range 32).foldl (fun a k =>
    let p := a.2.2.dmaPurge k own
    (a.1 + p.1, a.2.1 + p.2.1, p.2.2)) (0, 0, c)

/-- An emergency squashes everything (R55): the ring entries squashed. -/
def Chip.dmaAbort (c : Chip) : Nat × Chip :=
  (List.range 17).foldl (fun a own =>
    let p := a.2.dmaReset own
    (a.1 + p.1 + p.2.1, p.2.2)) (0, c)

end Sys2Proof.Machine
end

