-- ==== Sys2Proof/Machine/Policy.lean ====
section
/-! DEFINITION. The values of the policy loops under their bounds and under protection (R56–R58). -/

namespace Sys2Proof.Machine

/-- VALUE of loop `n`. -/
def Chip.loop (c : Chip) (n : Nat) : Nat := c.get (R.SYS_POLICY.STAT.VALUE n)

/-- The GPU clock is about to change: the clocks that have passed are counted at its present rate (R123). -/
def Chip.coresRan (c : Chip) : Chip :=
  let cores := c.gfx.cores.map fun x => (x.1, { x.2 with ran := x.2.ran + (c.ps - x.2.since) * c.loop 1 / 1000000, since := c.ps })
  { c with gfx := { c.gfx with cores := cores } }

/-- The bandwidth governor counts up to now: VALUE × 0.1 GB/s, of which at most 4 KiB are kept for later (R259; DESIGN CHOICE, log entry 111). -/
def Chip.govTime (c : Chip) : Chip :=
  { c with drc := { c.drc with gov := min 40960000 (c.drc.gov + (c.ps - c.drc.govAt) * c.loop 2), govAt := max c.ps c.drc.govAt } }

/-- Loop `n` takes the value `v`. -/
def Chip.setLoop (c : Chip) (n v : Nat) : Chip := (if n = 1 then c.coresRan else if n = 2 then c.govTime else c).set (R.SYS_POLICY.STAT.VALUE n) v

/-- Protection takes loop `n` below FLOOR: STAT.OVERRIDE, its count, interrupt and record (R57). -/
def Chip.overrideNote (c : Chip) (n : Nat) : Chip :=
  (((c.set (R.SYS_POLICY.STAT.OVERRIDE n) 1).bump (R.SYS_POLICY.OVERRIDE_CNT.COUNT n)).raise 0x003 (8 + n)).record
    0x0304 n (parBytes 2 (c.loop n) ++ parBytes 2 (c.get (R.SYS_POLICY.BOUNDS.FLOOR n)))

/-- A loop that protection acts on stands above or below FLOOR: each crossing downward is noted once (R57). A change of FLOOR crosses it too. -/
def Chip.overrideShow (c : Chip) (n : Nat) : Chip :=
  let low := decide (c.loop n < c.get (R.SYS_POLICY.BOUNDS.FLOOR n))
  let was := c.pow.below.contains n
  let c := { c with pow := { c.pow with below := if low then (if was then c.pow.below else n :: c.pow.below) else c.pow.below.filter (· ≠ n) } }
  if low && !was then c.overrideNote n else c

/-- Loop `n` wants the value `want`: it saturates at FLOOR or CEIL (R57). Protection, and the climb after it, keep the loop
from acting. -/
def Chip.loopStep (c : Chip) (n : Nat) (want : Int) : Chip :=
  if c.flag (R.SYS_POLICY.STAT.PROTECT n) then c.overrideShow n
  else if c.pow.recover.contains n then c
  else
    let lo := c.get (R.SYS_POLICY.BOUNDS.FLOOR n)
    let hi := c.get (R.SYS_POLICY.BOUNDS.CEIL n)
    let v := max (lo : Int) (min (hi : Int) want)
    let c := c.setLoop n v.toNat
    if v = want then c
    else ((c.set (R.SYS_POLICY.STAT.CLAMP n) 1).bump (R.SYS_POLICY.CLAMP_CNT.COUNT n)).raise 0x003 n

/-- Protection gives loop `n` the value `v`. -/
def Chip.loopProtect (c : Chip) (n v : Nat) : Chip := ((c.setLoop n v).set (R.SYS_POLICY.STAT.PROTECT n) 1).overrideShow n

/-- Protection lets loop `n` go: below FLOOR it climbs back before it acts again. -/
def Chip.loopRelease (c : Chip) (n : Nat) : Chip :=
  let low := decide (c.loop n < c.get (R.SYS_POLICY.BOUNDS.FLOOR n))
  let rest := c.pow.recover.filter (· ≠ n)
  { c.set (R.SYS_POLICY.STAT.PROTECT n) 0 with pow := { c.pow with recover := if low then n :: rest else rest, below := c.pow.below.filter (· ≠ n) } }

/-- A loop that climbs back takes one step of 50 of its units upward, and acts again once it is inside its bounds (R57; log entry 52). -/
def Chip.loopClimb (c : Chip) (n : Nat) : Chip :=
  if !c.pow.recover.contains n then c
  else
    let c := c.setLoop n (min (R.loopMax n) (c.loop n + 50))
    if c.loop n < c.get (R.SYS_POLICY.BOUNDS.FLOOR n) then c else { c with pow := { c.pow with recover := c.pow.recover.filter (· ≠ n) } }

end Sys2Proof.Machine
end

