-- ==== Sys2Proof/Machine/Haptic.lean ====
section
/-! DEFINITION. Haptic surfaces (chapter 19, R303–R315). -/

namespace Sys2Proof.Machine

/-! ### Effect images (R304) -/

/-- The times of an effect: body samples less 1, REPEAT, overdrive half-cycles, F_HZ and brake half-cycles. -/
structure RomTimes where
  len : Nat
  rep : Nat
  od : Nat
  freq : Nat
  br : Nat

/-- The duration of an effect is `lo` to `hi` ms (R305). -/
def RomTimes.lasts (t : RomTimes) (lo hi : Nat) : Bool :=
  let d := (t.od + t.br) * 4000 + (t.len + 1) * (t.rep + 1) * t.freq
  decide (lo * 8 * t.freq ≤ d) && decide (d ≤ hi * 8 * t.freq)

/-- What the table of R304 says of ROM effect `e`, and chapter 19's example of effect 3. -/
def RomTimes.ok (t : RomTimes) (e : Nat) : Bool :=
  if e = 3 then t.len == 39 && t.rep == 0 && t.od == 2 && t.freq == 250 && t.br == 3
  else if e < 16 then decide (150 ≤ t.freq) && decide (t.freq ≤ 300) && t.lasts 8 20
  else if 32 ≤ e ∧ e < 64 then t.lasts 20 500
  else if 96 ≤ e then t.lasts 0 2000
  else true

/-- Times that every row of the table but that of effect 3 admits for its kind, taken where the open ones break it. -/
def romDefault (e : Nat) : RomTimes :=
  if e = 3 then { len := 39, rep := 0, od := 2, freq := 250, br := 3 }
  else if e < 16 then { len := 39, rep := 0, od := 2, freq := 250, br := 2 }
  else { len := 255, rep := 0, od := 2, freq := 250, br := 2 }

/-- The image of ROM effect `e`: legal fields whose values the spec leaves open within its table (R304). -/
def romImage (e : Nat) : List Byte :=
  let v := fun i => (Config.romEffect e i).toNat
  let open_ : RomTimes := { len := v 0 % 256, rep := v 1 % 16, od := v 2 % 16, freq := 50 + v 4 % 951, br := v 5 % 16 }
  let t := if open_.ok e then open_ else romDefault e
  let samples := (List.range (t.len + 1)).map fun i => BitVec.ofInt 8 ((v (16 + i) % 255 : Nat) - (127 : Int))
  let head := leBytes 2 0x4846 ++ leBytes 1 t.len ++ leBytes 1 t.rep ++ leBytes 1 t.od ++ leBytes 1 (if e = 3 then 255 else v 3)
    ++ leBytes 2 t.freq ++ leBytes 1 t.br ++ leBytes 1 (v 6) ++ leBytes 1 (v 7) ++ leBytes 1 0
  head ++ leBytes 4 (crc32 (head ++ samples)) ++ samples

namespace Img

def bodyLen (b : List Byte) : Nat := fieldAt b 2 1 + 1
def rep (b : List Byte) : Nat := fieldAt b 3 1 % 16
def od (b : List Byte) : Nat := fieldAt b 4 1
def odLevel (b : List Byte) : Nat := fieldAt b 5 1
def freq (b : List Byte) : Nat := fieldAt b 6 2
def br (b : List Byte) : Nat := fieldAt b 8 1
def brLevel (b : List Byte) : Nat := fieldAt b 9 1
def env (b : List Byte) : Nat := fieldAt b 10 1
/-- Body samples over all passes. -/
def total (b : List Byte) : Nat := bodyLen b * (rep b + 1)
/-- Body sample `i`, counted over all passes. -/
def sample (b : List Byte) (i : Nat) : Int := sext 8 (fieldAt b (0x10 + i % bodyLen b) 1)

/-- An image that LOAD_EFFECT accepts (R311). -/
def ok (b : List Byte) : Bool :=
  fieldAt b 0 2 == 0x4846 && decide (fieldAt b 3 1 < 16) && decide (od b < 16) && decide (br b < 16)
    && decide (50 ≤ freq b) && decide (freq b ≤ 1000) && fieldAt b 11 1 == 0
    && ((List.range (bodyLen b)).all fun i => sample b i != -128)
    && fieldAt b 12 4 == crc32 (b.take 12 ++ padTo (bodyLen b) (b.drop 16))

end Img

/-- The image of an effect: ROM, or a RAM slot that has been loaded. -/
def Chip.hapImage (c : Chip) (e : Nat) : Option (List Byte) :=
  if e < 128 then some (romImage e) else c.hap.ram.find? (e - 128)

/-- The image of an effect that is known to be there. -/
def Chip.hapImg (c : Chip) (e : Nat) : List Byte := (c.hapImage e).getD []

/-! ### Channels -/

def Chip.hch (c : Chip) (k : Nat) : HapChan := c.hap.ch.getD k {}

/-- A channel that shows or hides a fault. -/
def Chip.hapFaulted (c : Chip) (k : Nat) : Bool := c.get (R.HAP_CH.CH_STAT.FAULT k) != 0 || (c.hch k).boostFault

/-- CH_STAT.STATE. -/
def Chip.hapState (c : Chip) (k : Nat) : Nat :=
  let x := c.hch k
  if x.testing then 6
  else if c.hapFaulted k then 7
  else match x.play with
    | some p => p.stage + 2
    | none => if c.flag (R.HAP_CH.CH_CFG.EN k) then 1 else 0

/-- The status registers of channel `k` follow its state. -/
def Chip.hapShow (c : Chip) (k : Nat) : Chip :=
  let x := c.hch k
  let drive := match x.play with | some p => p.stage != 0 | none => false
  let c := (c.set (R.HAP_CH.CH_STAT.STATE k) (c.hapState k)).set (R.HAP_CH.CH_STAT.PENDING k) (b2n x.pend.isSome)
  let c := match x.play with
    | some p => (c.set (R.HAP_CH.CH_STAT.EFFECT k) p.trig.effect).set (R.HAP_CH.CH_STAT.PRIO k) p.trig.prio
    | none => (c.set (R.HAP_CH.CH_STAT.EFFECT k) 0).set (R.HAP_CH.CH_STAT.PRIO k) 0
  (c.setBit R.HAP.HAP_STAT.PLAYING k drive).setBit R.HAP.HAP_STAT.FAULTED k (c.hapFaulted k)

/-- Put channel `k` back. -/
def Chip.setHch (c : Chip) (k : Nat) (x : HapChan) : Chip :=
  { c with hap := { c.hap with ch := c.hap.ch.put {} k x } }.hapShow k

/-! ### PLAY entries (R311) -/

/-- How a copy of a PLAY entry ended on channel `k`: 0 played, 1 cut, 2 dropped, 3 faulted. -/
def HapPlay.note (p : HapPlay) (k how : Nat) : HapPlay :=
  let bit := 1 <<< k
  let p := { p with waiting := clearBits p.waiting bit }
  if how = 0 then { p with played := p.played ||| bit } else if how = 1 then { p with cut := p.cut ||| bit }
  else if how = 2 then { p with dropped := p.dropped ||| bit } else { p with faulted := p.faulted ||| bit }

/-- Complete the PLAY entries that wait for no channel. -/
def Chip.hapSettle (c : Chip) : Chip :=
  let ends := c.hap.plays.filter fun p => p.waiting == 0
  let c := { c with hap := { c.hap with plays := c.hap.plays.filter fun p => p.waiting != 0 } }
  ends.foldl (fun c p =>
    let status := if p.faulted ≠ 0 then 0x29 else if p.dropped ≠ 0 then 0x27 else if p.cut ≠ 0 then 0x28 else 0
    c.finish p.ring p.seq status (leBytes 1 p.played ++ leBytes 1 p.cut ++ leBytes 1 p.dropped ++ leBytes 1 p.faulted)) c

/-- A copy or trigger of channel `k` has ended. -/
def Chip.hapNote (c : Chip) (t : HapTrig) (k how : Nat) : Chip :=
  match t.ref with
  | none => c
  | some (r, q) =>
    { c with hap := { c.hap with plays := c.hap.plays.map fun (p : HapPlay) => if p.ring = r ∧ p.seq = q then p.note k how else p } }.hapSettle

/-! ### Drive (R303, R309) -/

/-- min(VLIM, rail) of channel `k` in V. -/
def Chip.hapVolts (c : Chip) (k : Nat) : Nat :=
  let rail := if c.flag (R.HAP_CH.CH_CFG.MODE k) then 5 else c.get R.HAP.HAP_STAT.RAIL
  min (c.get (R.HAP_CH.CH_CFG.VLIM k)) rail

/-- D of R303 in 1/256. -/
def Chip.hapDerate (c : Chip) (prio : Nat) : Nat := if prio = 4 then 256 else c.loop 5

/-- Voltage-time, in nV·s rounded down, of a drive whose s × L × t is num / den seconds. -/
def Chip.hapVt (c : Chip) (k : Nat) (t : HapTrig) (num den : Nat) : Nat :=
  c.hapVolts k * t.gain * c.hapDerate t.prio * num * 1000000000 / (255 * 256 * den)

/-- Σ |sample| of body samples `i … j - 1`. -/
def bodySum (b : List Byte) (i j : Nat) : Nat := ((List.range (j - i)).map fun x => (Img.sample b (i + x)).natAbs).foldl (· + ·) 0

/-- Drive time (ns) and voltage-time (nV·s) of one half-cycle at a level. -/
def Chip.hapHalf (c : Chip) (k : Nat) (t : HapTrig) (b : List Byte) (level : Nat) : Nat × Nat :=
  (1000000000 / (2 * Img.freq b), c.hapVt k t level (255 * 2 * Img.freq b))

/-- The same of body samples `i … j - 1`. -/
def Chip.hapBody (c : Chip) (k : Nat) (t : HapTrig) (b : List Byte) (i j : Nat) : Nat × Nat :=
  ((j - i) * 125000, c.hapVt k t (Img.env b * bodySum b i j) (127 * 255 * 8000))

/-- The full predicted drive of an effect. -/
def Chip.hapPredict (c : Chip) (k : Nat) (t : HapTrig) (b : List Byte) : Nat × Nat :=
  let o := c.hapHalf k t b (Img.odLevel b)
  let r := c.hapHalf k t b (Img.brLevel b)
  let m := c.hapBody k t b 0 (Img.total b)
  (Img.od b * o.1 + Img.br b * r.1 + m.1, Img.od b * o.2 + Img.br b * r.2 + m.2)

/-- The number of the present bucket. -/
def Chip.hapBucket (c : Chip) : Nat := c.ps * 16 / (c.get R.HAP.WINDOW.WIN_MS * 1000000000)

/-- The buckets still inside the window. -/
def Chip.hapLive (c : Chip) (l : List HapBucket) : List HapBucket := l.filter fun b => decide (c.hapBucket < b.no + 16)

/-- Channel `k` has driven for `onNs` with voltage-time `vt`. -/
def Chip.hapDrove (c : Chip) (k : Nat) (d : Nat × Nat) : Chip :=
  let x := c.hch k
  let no := c.hapBucket
  let old := c.hapLive x.buckets
  let cur := (old.find? fun b => b.no == no).getD { no := no, onNs := 0, vt := 0 }
  let cur := { cur with onNs := cur.onNs + d.1, vt := cur.vt + d.2 }
  c.setHch k { x with buckets := (old.filter fun b => b.no != no) ++ [cur], vtStep := x.vtStep + d.2 }

/-- The budget admits a copy (R309). -/
def Chip.hapBudget (c : Chip) (k : Nat) (t : HapTrig) (b : List Byte) : Bool :=
  let l := c.hapLive (c.hch k).buckets
  let p := c.hapPredict k t b
  let on := (l.map (·.onNs)).foldl (· + ·) 0 + p.1
  let vt := (l.map (·.vt)).foldl (· + ·) 0 + p.2
  t.prio == 4 || (decide (on ≤ c.get (R.HAP_CH.CH_LIM.ON_MAX k) * 1000000)
    && decide (vt ≤ c.get (R.HAP_CH.CH_LIM.VT_MAX k) * 10000000))

/-! ### Triggers (R306–R309) -/

/-- The budget drops a copy. -/
def Chip.hapOver (c : Chip) (k : Nat) (t : HapTrig) : Chip :=
  (((c.bump (R.HAP_CH.HAP_DROPPED.COUNT k)).raise 0x1A0 1).record 0x1201 k [t.effect, t.prio]).hapNote t k 2

/-- The copy of a trigger begins to drive, with the polarity of its first half-cycle. -/
def Chip.hapDrive (c : Chip) (k : Nat) (t : HapTrig) (pol : Bool) : Chip :=
  let b := c.hapImg t.effect
  c.setHch k { c.hch k with play := some { trig := t, stage := if Img.od b = 0 then 2 else 1, pol := pol, at_ := c.ps } }

/-- A trigger that is to start on a channel that does not drive: after its delay, or at once. -/
def Chip.hapBegin (c : Chip) (k : Nat) (t : HapTrig) (delay : Nat) : Chip :=
  if !c.hapBudget k t (c.hapImg t.effect) then c.hapOver k t
  else
    let c := match (c.hch k).play with
      | some p => (c.bump (R.HAP_CH.CUT.COUNT k)).hapNote p.trig k 1
      | none => c
    if delay = 0 then c.hapDrive k t true
    else c.setHch k { c.hch k with play := some { trig := t, stage := 0, due := c.ps + delay * 1000000 } }

/-- The trigger becomes pending, in place of one of no higher priority. -/
def Chip.hapPend (c : Chip) (k : Nat) (t : HapTrig) : Chip :=
  match (c.hch k).pend with
  | none => c.setHch k { c.hch k with pend := some t }
  | some o =>
    if o.prio ≤ t.prio then ((c.bump (R.HAP_CH.PRIO_DROP.COUNT k)).hapNote o k 2).setHch k { c.hch k with pend := some t }
    else (c.bump (R.HAP_CH.PRIO_DROP.COUNT k)).hapNote t k 2

/-- A trigger reaches channel `k` (R307). -/
def Chip.hapTrigger (c : Chip) (k : Nat) (t : HapTrig) (delay : Nat) : Chip :=
  let x := c.hch k
  if t.gain = 0 then c
  else if c.hapFaulted k then c.hapNote t k 3
  else if x.testing ∨ (c.hap.tests.any fun y => y.1 == k) then (c.bump (R.HAP_CH.PRIO_DROP.COUNT k)).hapNote t k 2
  else if !c.flag (R.HAP_CH.CH_CFG.EN k) ∨ c.flag R.HAP.HAP_STAT.HOLD ∨ (c.hapImage t.effect).isNone then c.hapNote t k 2
  else match x.play with
    | none => c.hapBegin k t delay
    | some p =>
      if p.stage = 0 ∧ p.trig.prio < t.prio then c.hapBegin k t delay
      else if t.prio < p.trig.prio then (c.bump (R.HAP_CH.PRIO_DROP.COUNT k)).hapNote t k 2
      else c.hapPend k t

/-- ACTUATOR_DELAY_EXPIRY (R306): due `delay` µs after the trigger's reference instant (R16). -/
def execActuatorDelayExpiry (k : Nat) (s : State) : Host.Outcome State Fault Refusal :=
  s.on (k < 8) fun c =>
    match (c.hch k).play with
    | some p => if p.stage = 0 ∧ p.due ≤ c.ps then c.hapDrive k p.trig true else c
    | none => c

/-- The rail voltage BOOST and protection ask for (R303, R56): none in the bridge's hold (R11). -/
def Chip.hapRail (c : Chip) : Nat :=
  if !c.flag R.HAP.BOOST.EN || c.hap.railOff || c.flag R.HAP.HAP_STAT.HOLD then 0
  else if c.pow.fieldHot then min 40 (c.get R.HAP.BOOST.VBOOST) else c.get R.HAP.BOOST.VBOOST

/-- The rail follows BOOST and protection, which raises BOOST_LIMIT where it holds the rail down (R56, R315). -/
def Chip.hapRailShow (c : Chip) : Chip :=
  let v := c.hapRail
  let c := c.set R.HAP.HAP_STAT.RAIL v
  if v ≠ 0 ∧ v < c.get R.HAP.BOOST.VBOOST then c.raise 0x1A0 2 else c

/-! ### Half-cycle boundaries (R305, R307) -/

/-- The sign of the last nonzero body sample before `j`, or `d`. -/
def lastSign (b : List Byte) (j : Nat) (d : Bool) : Bool :=
  (List.range j).foldl (fun s i => if Img.sample b i = 0 then s else decide (0 < Img.sample b i)) d

/-- Sample `j` is a boundary: its sign differs from that of the previous nonzero sample. -/
def turnsAt (b : List Byte) (j : Nat) : Bool :=
  Img.sample b j != 0 && (List.range j).any (fun i => Img.sample b i != 0) && decide (0 < Img.sample b j) != lastSign b j true

/-- The body boundary after the one at `i`: a change of sign, 2 ms, or the end. -/
def bodyNext (b : List Byte) (i : Nat) : Nat :=
  let stop := min (i + 16) (Img.total b)
  match (List.range (stop - i - 1)).find? fun x => turnsAt b (i + 1 + x) with
  | some x => i + 1 + x
  | none => stop

/-- What the copy drives up to its next boundary. -/
def Chip.hapSpan (c : Chip) (k : Nat) (p : HapCopy) (b : List Byte) : Nat × Nat :=
  if p.stage = 1 then c.hapHalf k p.trig b (Img.odLevel b)
  else if p.stage = 3 then c.hapHalf k p.trig b (Img.brLevel b)
  else c.hapBody k p.trig b p.idx (bodyNext b p.idx)

/-- The polarity last driven when the boundary comes. -/
def HapCopy.drove (p : HapCopy) (b : List Byte) : Bool :=
  if p.stage = 2 then lastSign b (bodyNext b p.idx) p.pol else p.pol

/-- The copy after its next boundary, none where it has ended. -/
def HapCopy.next (p : HapCopy) (b : List Byte) : Option HapCopy :=
  let brake := fun (pol : Bool) => if Img.br b = 0 then none else some { p with stage := 3, idx := 0, pol := !pol, toBrake := false }
  if p.stage = 3 then if p.idx + 1 < Img.br b then some { p with idx := p.idx + 1, pol := !p.pol } else none
  else if p.toBrake then brake (p.drove b)
  else if p.stage = 1 then
    if p.idx + 1 < Img.od b then some { p with idx := p.idx + 1, pol := !p.pol } else some { p with stage := 2, idx := 0 }
  else
    let j := bodyNext b p.idx
    if j < Img.total b then some { p with idx := j } else brake (p.drove b)

/-- The copy of channel `k` ends by itself. -/
def Chip.hapEnded (c : Chip) (k : Nat) (p : HapCopy) : Chip :=
  ((c.setHch k { c.hch k with play := none }).bump (R.HAP_CH.PLAYED.COUNT k)).hapNote p.trig k 0

/-- The copy of channel `k` is cut (R308). -/
def Chip.hapCut (c : Chip) (k : Nat) (p : HapCopy) : Chip :=
  ((c.setHch k { c.hch k with play := none }).bump (R.HAP_CH.CUT.COUNT k)).hapNote p.trig k 1

/-- The test of channel `k` starts: a trigger that waits is dropped (R314). -/
def Chip.hapTestBegin (c : Chip) (k : Nat) : Chip :=
  let x := c.hch k
  let c := c.setHch k { x with testing := true, pend := none }
  match x.pend with
  | some t => (c.bump (R.HAP_CH.PRIO_DROP.COUNT k)).hapNote t k 2
  | none => c

/-- The next due test starts once its channel drives nothing (R314), outside the bridge's hold (R11) and the state of R73. -/
def Chip.hapTestNext (c : Chip) : Chip :=
  match c.hap.tests with
  | [] => c
  | (k, _) :: _ =>
    let x := c.hch k
    if x.testing || c.flag R.HAP.HAP_STAT.HOLD || !c.blockStarted 0x12 then c
    else match x.play with
      | none => c.hapTestBegin k
      | some p =>
        if p.stage = 0 then (c.hapCut k p).hapTestBegin k
        else c.setHch k { x with play := some { p with toTest := true } }

/-- `ps` of the next half-cycle boundary (R305): F_HZ gives it in overdrive and brake, the samples in the body. -/
def HapCopy.nextAt (p : HapCopy) (b : List Byte) : Nat :=
  p.at_ + if p.stage = 2 then (bodyNext b p.idx - p.idx) * 125000000 else 1000000000000 / (2 * Img.freq b)

/-- HALF_CYCLE_BOUNDARY (R305, R307): the copy of channel `k` reaches its next half-cycle boundary, once it is due. -/
def Chip.hapBoundary (c : Chip) (k : Nat) : Chip :=
  match (c.hch k).play with
  | none => c
  | some p =>
    let b := c.hapImg p.trig.effect
    if p.stage = 0 ∨ c.ps < p.nextAt b then c
    else
      let c := c.hapDrove k (c.hapSpan k p b)
      let nxt := p.next b
      if p.toTest then (c.hapCut k p).hapTestNext
      else
        let go := match (c.hch k).pend with
          | none => false
          | some t => decide (p.trig.prio < t.prio) || p.stage == 3 || nxt.isNone
        let step := fun (c : Chip) => match nxt with
          | some q => c.setHch k { c.hch k with play := some { q with at_ := p.nextAt b } }
          | none => c.hapEnded k p
        match go, (c.hch k).pend with
        | true, some t =>
          let c := c.setHch k { c.hch k with pend := none }
          if !c.hapBudget k t (c.hapImg t.effect) then step (c.hapOver k t)
          else if nxt.isNone then (c.hapEnded k p).hapDrive k t true
          else (c.hapCut k p).hapDrive k t (!p.drove b)
        | _, _ => step c

/-- HALF_CYCLE_BOUNDARY (R305). -/
def execHalfCycleBoundary (k : Nat) (s : State) : Host.Outcome State Fault Refusal :=
  s.on (k < 8) fun c => c.hapBoundary k

/-! ### Ring entries (R311) -/

/-- Owner `own` may use haptic channel `k` (R79, R311). -/
def Chip.hapUsable (c : Chip) (own k : Nat) : Bool :=
  if own < 16 then (c.share own).hap.testBit k else (List.range 16).all fun vi => !(c.share vi).hap.testBit k

/-- Every channel of a mask is usable. -/
def Chip.hapOwns (c : Chip) (own mask : Nat) : Bool := (List.range 8).all fun k => !mask.testBit k || c.hapUsable own k

/-- HAP_NOP (R311). -/
def execHapNop (r : Nat) (s : State) : Host.Outcome State Fault Refusal :=
  s.on (r < 64) fun c =>
    match c.freshEntry r 4 0 with
    | none => c
    | some e => c.finish r e.seq (if zeroAt e.bytes 0x10 48 then E.NONE else E.RESERVED) []

/-- The checks of a PLAY. -/
def Chip.playCheck (c : Chip) (r : Nat) (b : List Byte) : Option Nat :=
  let eff := fieldAt b 0x10 1
  let mask := fieldAt b 0x12 1
  firstFail
    [ (fieldAt b 0x11 1 / 4 == 0 && zeroAt b 0x13 1 && zeroAt b 0x24 28, E.RESERVED),
      (c.hapOwns (c.ringOwn r) mask, E.OWNER),
      (mask != 0 && decide (eff < 144), E.VALUE),
      (((List.range 8).all fun k => !mask.testBit k || c.flag (R.HAP_CH.CH_CFG.EN k)) && !c.flag R.HAP.HAP_STAT.HOLD, E.STATE),
      ((c.hapImage eff).isSome, 0x26) ]

/-- An entry completes with an effect error or another code. -/
def Chip.hapFail (c : Chip) (r seq code : Nat) : Chip :=
  (if code = 0x26 then c.bump R.HAP.EFF_ERR.COUNT else c).finish r seq code []

/-- PLAY (R311). -/
def execPlay (r : Nat) (s : State) : Host.Outcome State Fault Refusal :=
  s.on (r < 64) fun c =>
    match c.freshEntry r 4 1 with
    | none => c
    | some e =>
      match c.playCheck r e.bytes with
      | some code => c.hapFail r e.seq code
      | none =>
        let mask := fieldAt e.bytes 0x12 1
        let gain := fun k => fieldAt e.bytes (0x15 + 2 * k) 1
        let part := (List.range 8).foldl (fun m k => if mask.testBit k && gain k != 0 then m ||| 1 <<< k else m) 0
        let c := c.takeUp r e.seq
        let entry : HapPlay := { ring := r, seq := e.seq, waiting := part }
        let c := { c with hap := { c.hap with plays := c.hap.plays ++ [entry] } }
        (forN 8 c fun k c =>
          let t : HapTrig := { effect := fieldAt e.bytes 0x10 1, prio := bits (fieldAt e.bytes 0x11 1) 0 2, gain := gain k, ref := some (r, e.seq) }
          if part.testBit k then c.hapTrigger k t (fieldAt e.bytes (0x14 + 2 * k) 1) else c).hapSettle

/-- HAP_STOP (R311): masked channels go to their brake at the next boundary and lose what is pending. -/
def execHapStop (r : Nat) (s : State) : Host.Outcome State Fault Refusal :=
  s.on (r < 64) fun c =>
    match c.freshEntry r 4 2 with
    | none => c
    | some e =>
      let mask := fieldAt e.bytes 0x10 1
      if !zeroAt e.bytes 0x11 47 then c.finish r e.seq E.RESERVED []
      else if !c.hapOwns (c.ringOwn r) mask then c.finish r e.seq E.OWNER []
      else
        let c := forN 8 c fun k c =>
          if !mask.testBit k then c
          else
            let x := c.hch k
            let c := match x.pend with
              | some t => (c.setHch k { x with pend := none }).hapNote t k 2
              | none => c
            match (c.hch k).play with
            | none => c
            | some p => if p.stage = 0 then c.hapCut k p else c.setHch k { c.hch k with play := some { p with toBrake := true } }
        c.finish r e.seq E.NONE []

/-- LOAD_EFFECT (R311). -/
def Chip.hapLoad (c : Chip) (dram : Memory) (r : Nat) : Chip :=
  match c.freshEntry r 4 3 with
  | none => c
  | some e =>
    let slot := fieldAt e.bytes 0x10 1
    let a := fieldAt e.bytes 0x18 8
    let n := 16 + Img.bodyLen (Memory.readBytes dram a 16)
    let img := Memory.readBytes dram a n
    let g := c.dramCheck 19 a n
    match firstFail
      [ (zeroAt e.bytes 0x11 7 && zeroAt e.bytes 0x20 32, E.RESERVED), (decide (16 ≤ c.ringOwn r), E.OWNER),
        (decide (slot < 16), E.VALUE), (c.dmaSide (c.ringOwn r) 0 a 0 n 1, E.RANGE), (g.1, 0x3E), (Img.ok img, 0x26) ] with
    | some code => (if code = 0x3E ∨ code = 0x26 then g.2 else c).hapFail r e.seq code
    | none =>
      let c := g.2
      let old := match c.hap.shadow.find? slot with | some x => x.refs | none => []
      let c := c.takeUp r e.seq
      { c with hap := { c.hap with shadow := c.hap.shadow.insert slot { image := img, refs := old ++ [(r, e.seq)] } } }

/-- LOAD_EFFECT (R311). -/
def execLoadEffect (r : Nat) (s : State) : Host.Outcome State Fault Refusal := s.on (r < 64) fun c => c.hapLoad s.mem.dram r

/-- A channel plays or holds the effect. -/
def Chip.hapInUse (c : Chip) (eff : Nat) : Bool :=
  (List.range 8).any fun k =>
    (match (c.hch k).play with | some p => p.trig.effect == eff | none => false)
      || (match (c.hch k).pend with | some t => t.effect == eff | none => false)

/-- EFFECT_SLOT_SWAP (R311): at a tick at which no channel uses the slot, the shadow takes its place. -/
def execEffectSlotSwap (slot : Nat) (s : State) : Host.Outcome State Fault Refusal :=
  s.on (slot < 16) fun c =>
    match c.hap.shadow.find? slot with
    | none => c
    | some x =>
      if c.hapInUse (128 + slot) then c
      else
        let c := { c with hap := { c.hap with shadow := c.hap.shadow.erase slot, ram := c.hap.ram.insert slot x.image } }
        x.refs.foldl (fun c e => c.finish e.1 e.2 E.NONE []) c

/-- READ_EFFECT (R311): the image is written to DRAM. -/
def execReadEffect (r : Nat) (s : State) : Host.Outcome State Fault Refusal :=
  s.onMem (r < 64) fun c m =>
    match c.freshEntry r 4 5 with
    | none => (c, m)
    | some e =>
      let eff := fieldAt e.bytes 0x10 1
      let a := fieldAt e.bytes 0x18 8
      let img := c.hapImg eff
      match firstFail
        [ (zeroAt e.bytes 0x11 7 && zeroAt e.bytes 0x20 32, E.RESERVED), (decide (eff < 144), E.VALUE),
          ((c.hapImage eff).isSome, 0x26), (c.dmaSide (c.ringOwn r) 0 a 0 img.length 1, E.RANGE) ] with
      | some code => (c.hapFail r e.seq code, m)
      | none => (c.finish r e.seq E.NONE []).dramPut m a img

/-! ### The island (R306, R315) -/

/-- A write of ISL_PLAY. -/
def Chip.hapIsland (c : Chip) (src : Src) (data : Nat) : Chip :=
  c.port src 0x1A0 0x04C
    [ (src == .island, E.OWNER), (bits data 16 15 == 0, E.RESERVED), (decide (bits data 0 8 < 144), E.VALUE) ] fun c =>
    if data.testBit 31 then
      forN 8 (c.bump R.HAP.ISL_PLAYS.COUNT) fun k c =>
        if data.testBit (8 + k) then c.hapTrigger k { effect := bits data 0 8, prio := 4, gain := 255 } 0 else c
    else c

/-- ISL_PLAY (R306): a write of ISL_PLAY with GO set. -/
def execIslPlay (src : Src) (data : Word) (s : State) : Host.Outcome State Fault Refusal :=
  s.on true fun c => c.hapIsland src (data.toNat ||| 1 <<< 31)

/-- A zone or a forwarded trigger through focus page `n`, entry `z` (R299, R306, R351). -/
def Chip.hapZone (c : Chip) (n z eff prio : Nat) : Chip :=
  forN 8 c fun k c =>
    let i := 4 * z + k / 2
    let delay := if k % 2 = 0 then c.get (R.HAP_FOCUS.FOCUS.DELAY_A n i) else c.get (R.HAP_FOCUS.FOCUS.DELAY_B n i)
    let gain := if k % 2 = 0 then c.get (R.HAP_FOCUS.FOCUS.GAIN_A n i) else c.get (R.HAP_FOCUS.FOCUS.GAIN_B n i)
    c.hapTrigger k { effect := eff, prio := prio, gain := gain } delay

/-! ### Tests and faults (R313, R314) -/

/-- Ask for tests of the channels of a mask. -/
def Chip.hapTest (c : Chip) (mask : Nat) (ref : Option (Nat × Nat)) : Chip :=
  let l := ((List.range 8).filter fun k => mask.testBit k).map fun k => (k, ref)
  { c with hap := { c.hap with tests := c.hap.tests ++ l } }.hapTestNext

/-- A write of CH_CMD of channel `k`. -/
def Chip.hapCmd (c : Chip) (src : Src) (k data : Nat) : Chip :=
  c.port src 0x1A1 (0x04C + 0x10 * k)
    [ (c.mgrOrCtl src, E.OWNER), (data / 2 == 0, E.RESERVED), (!data.testBit 0 || !(c.hch k).testing, E.BUSY) ] fun c =>
    if data.testBit 0 then (c.set (R.HAP_CH.CH_CMD.TEST k) 1).hapTest (1 <<< k) none else c

/-- HAP_TEST (R311, R314): a TEST entry. -/
def execHapTest (r : Nat) (s : State) : Host.Outcome State Fault Refusal :=
  s.on (r < 64) fun c =>
    match c.freshEntry r 4 4 with
    | none => c
    | some e =>
      let mask := fieldAt e.bytes 0x10 1
      if !zeroAt e.bytes 0x11 47 then c.finish r e.seq E.RESERVED []
      else if !c.hapOwns (c.ringOwn r) mask then c.finish r e.seq E.OWNER []
      else if mask = 0 then c.finish r e.seq E.NONE []
      else (c.takeUp r e.seq).hapTest mask (some (r, e.seq))

/-- Channel `k` is faulted with the FAULT bits `f`: it stops driving (R313). -/
def Chip.hapFault (c : Chip) (k f : Nat) : Chip :=
  let x := c.hch k
  let c := c.set (R.HAP_CH.CH_STAT.FAULT k) (c.get (R.HAP_CH.CH_STAT.FAULT k) ||| f)
  let c := c.setHch k { x with play := none, pend := none, boostFault := x.boostFault || f == 0 }
  let c := match x.play with | some p => c.hapNote p.trig k 3 | none => c
  let c := match x.pend with | some t => c.hapNote t k 3 | none => c
  (c.raise 0x1A0 0).record 0x1202 k [c.get (R.HAP_CH.CH_STAT.FAULT k)]

/-- The FAULT bits that a test of channel `k` finds: legs shorted to ground or to a supply, another output that follows,
an open load, and the sign of the first response lobe. -/
def Chip.hapFound (c : Chip) (k : Nat) (gnd vin pair opn lobe : Bool) : Nat :=
  let wrong := lobe != (c.flag (R.HAP_CH.CH_CFG.POL_REF k) != c.flag (R.HAP_CH.CH_CFG.INVERT k))
  b2n gnd + 2 * b2n vin + 4 * b2n pair + 8 * b2n opn + 16 * b2n wrong

/-- HAP_TEST_DONE (R314): the test of the channel under test ends. `pair` is a channel whose output follows it. -/
def Chip.hapTestDone (c : Chip) (gnd vin : Bool) (pair : Option Nat) (opn lobe : Bool) : Chip :=
  match c.hap.tests with
  | [] => c
  | (k, ref) :: rest =>
    if !(c.hch k).testing then c
    else
      let f := c.hapFound k gnd vin pair.isSome opn lobe
      let c := { c with hap := { c.hap with tests := rest } }.setHch k { c.hch k with testing := false, boostFault := false }
      let c := c.set (R.HAP_CH.CH_CMD.TEST k) 0
      let c := c.set (R.HAP_CH.CH_STAT.FAULT k) 0
      let c := if f = 0 then c.hapShow k else c.hapFault k f
      let c := match pair with
        | some j => if j < 8 ∧ j ≠ k then c.hapFault j 4 else c
        | none => c
      let c := match ref with
        | none => c
        | some (r, q) =>
          if rest.any fun y => y.2 == ref then c
          else
            let mask := match ((c.ring r).issued.find? fun (e : Issued) => e.seq == q) with | some e => fieldAt e.bytes 0x10 1 | none => 0
            let bad := (List.range 8).any fun j => mask.testBit j && c.hapFaulted j
            c.finish r q (if bad then 0x29 else 0) []
      c.hapTestNext

/-- HAP_TEST_DONE (R314). -/
def execHapTestDone (gnd vin : Bool) (pair : Option Nat) (opn lobe : Bool) (s : State) : Host.Outcome State Fault Refusal :=
  s.on true fun c => c.hapTestDone gnd vin pair opn lobe

/-- ACTUATOR_OVERCURRENT (R313): a leg of channel `k` above 3 A, the high-side one or the low-side one. -/
def execActuatorOvercurrent (k : Nat) (high : Bool) (s : State) : Host.Outcome State Fault Refusal :=
  s.on (k < 8) fun c => c.hapFault k (if high then 1 else 2)

/-- The boost rail is turned off and every BRIDGE channel faulted (R313). -/
def Chip.hapBoostFault (c : Chip) : Chip :=
  let c := { c.set R.HAP.HAP_STAT.RAIL 0 with hap := { c.hap with railOff := true } }
  forN 8 c fun k c => if c.flag (R.HAP_CH.CH_CFG.MODE k) then c else c.hapFault k 0


/-- BOOST_RAIL_CHECK (R313): the rail measured 5 ms after EN, in V. -/
def execBoostRailCheck (volts : Nat) (s : State) : Host.Outcome State Fault Refusal :=
  s.on true fun c => c.when (c.flag R.HAP.BOOST.EN && !c.hap.railOff) fun c =>
    let v := c.hapRail
    if 9 * v ≤ 10 * volts ∧ 10 * volts ≤ 11 * v then c.set R.HAP.HAP_STAT.RAIL volts else c.hapBoostFault

/-- BOOST_RAIL_OVERCURRENT (R313). -/
def execBoostRailOvercurrent (s : State) : Host.Outcome State Fault Refusal :=
  s.on true fun c => c.when (c.flag R.HAP.BOOST.EN) Chip.hapBoostFault

/-! ### The thermal model (R310) -/

/-- One 10 ms step of a channel's temperature rise, in 10⁻⁹ °C: vt is in nV·s. -/
def Chip.hapHeat (c : Chip) (k : Nat) : Chip :=
  let x := c.hch k
  let up := x.dT + c.get R.HAP.THERM.HEAT_K * x.vtStep / 1024
  c.setHch k { x with dT := up - x.dT / (100 * c.get R.HAP.THERM.TAU_S), vtStep := 0 }

/-- HAP_THERMAL_STEP (R310). -/
def execHapThermalStep (s : State) : Host.Outcome State Fault Refusal :=
  s.on true fun c =>
    let c := forN 8 c fun k c => c.hapHeat k
    let w := ((List.range 8).map fun k => (c.hch k).dT).foldl max 0
    let lim : Int := c.get R.HAP.THERM.TH_LIMIT
    let v : Int := c.loop 5
    let v' := if lim * 1000000000 < (w : Int) then v - 8 else if (w : Int) < (lim - 5) * 1000000000 then v + 1 else v
    let c := c.loopStep 5 (max 0 (min 256 v'))
    if c.loop 5 < 256 then c.raise 0x1A0 3 else c

/-! ### Latch, bridge, power -/

/-- A set of HAP has latched: channels that EN turns on are tested where TEST_AT_EN asks for it, and the rail follows. -/
def Chip.hapLatched (c old : Chip) : Chip :=
  let rose := fun k => c.flag (R.HAP_CH.CH_CFG.EN k) && !old.flag (R.HAP_CH.CH_CFG.EN k)
  let c := forN 8 c fun k c =>
    if c.flag (R.HAP_CH.CH_CFG.EN k) then c.hapShow k
    else
      let x := c.hch k
      let c := match x.pend with
        | some t => (c.setHch k { x with pend := none }).hapNote t k 2
        | none => c.hapShow k
      match x.play with
      | some p => c.hapCut k p
      | none => c
  let mask := (List.range 8).foldl (fun m k => if rose k && c.flag (R.HAP_CH.CH_CFG.TEST_AT_EN k) then m ||| 1 <<< k else m) 0
  let c := if c.flag R.HAP.BOOST.EN && !old.flag R.HAP.BOOST.EN then { c with hap := { c.hap with railOff := false } } else c
  c.hapRailShow.hapTest mask none

/-- Every channel stops driving: its copy counts as cut. -/
def Chip.hapSilence (c : Chip) : Chip :=
  forN 8 c fun k c =>
    let x := c.hch k
    let c := c.setHch k { x with play := none, pend := none }
    let c := match x.play with | some p => (c.bump (R.HAP_CH.CUT.COUNT k)).hapNote p.trig k 1 | none => c
    match x.pend with | some t => c.hapNote t k 1 | none => c

/-- The bridge goes down (R11, R311): PLAY entries in flight complete with E_STATE, their unfinished channels in CUT. A test that runs stops driving
and begins anew once the hold has ended. -/
def Chip.hapBridgeDown (c : Chip) : Chip :=
  let ps := c.hap.plays
  let c := { c with hap := { c.hap with plays := [] } }
  let c := ps.foldl (fun c p => c.finish p.ring p.seq E.STATE
    (leBytes 1 p.played ++ leBytes 1 (p.cut ||| p.waiting) ++ leBytes 1 p.dropped ++ leBytes 1 p.faulted)) c
  let c := forN 8 c fun k c => if (c.hch k).testing then c.setHch k { c.hch k with testing := false } else c
  (c.hapSilence.set R.HAP.HAP_STAT.HOLD 1).set R.HAP.HAP_STAT.RAIL 0

/-- Work of owner `own` disappears without completions (R83): triggers that wait or are in their delay are squashed, an effect already started runs to
its end. -/
def Chip.hapReset (c : Chip) (own : Nat) : Nat × Chip :=
  let mine := c.hap.plays.filter fun p => c.ringOwn p.ring == own
  let tests := c.hap.tests.filter fun t => match t.2 with | some (r, _) => c.ringOwn r == own | none => false
  let c := { c with hap := { c.hap with
    plays := c.hap.plays.filter fun p => c.ringOwn p.ring != own
    tests := c.hap.tests.map fun t => match t.2 with | some (r, _) => if c.ringOwn r == own then (t.1, none) else t | none => t
    shadow := c.hap.shadow.map fun x => (x.1, { x.2 with refs := x.2.refs.filter fun e => c.ringOwn e.1 != own }) } }
  let of := fun (t : HapTrig) => match t.ref with | some (r, _) => c.ringOwn r == own | none => false
  let c := forN 8 c fun k (c : Chip) =>
    let x := c.hch k
    let pend : Option HapTrig := match x.pend with | some t => if of t then none else some t | none => none
    let play : Option HapCopy := match x.play with
      | some p => if !of p.trig then some p else if p.stage = 0 then none else some { p with trig := { p.trig with ref := none } }
      | none => none
    if pend = x.pend ∧ play = x.play then c else c.setHch k { x with pend := pend, play := play }
  (mine.length + (tests.map (·.2)).eraseDups.length, c)

end Sys2Proof.Machine
end

