-- ==== Sys2Proof/Machine/Audio.lean ====
section
/-! DEFINITION. Audio routing, mixing and amplification (chapter 20, R316–R330). -/

namespace Sys2Proof.Machine

/-! ### Numbers -/

/-- The signed value of a 16-bit word. -/
def s16 (v : Nat) : Int := sext 16 v

def satTo (n : Nat) (v : Int) : Int := max (-(2 ^ n : Nat)) (min ((2 ^ n : Nat) - 1) v)
def sat16 (v : Int) : Int := satTo 15 v

/-- Samples of `ms` milliseconds. -/
def msSamples (ms : Nat) : Nat := 48 * ms

/-! ### Registers -/

/-- The register of node (i, b). -/
def xpReg (i b : Nat) : Fld := R.AUD_XP.GAIN.GAIN (i / 10) (16 * (i % 10) + b)

/-- The reset gain of node (i, b): unity from TGb into Bb. -/
def xpDefault (i b : Nat) : Nat := if 36 ≤ i ∧ i - 36 = b then 0x4000 else 0

def Chip.stream (c : Chip) (k : Nat) : AudStream := c.aud.streams.getD k {}
def Chip.cap (c : Chip) (k : Nat) : AudStream := c.aud.caps.getD k {}
def Chip.abus (c : Chip) (b : Nat) : AudBus := c.aud.bus.getD b {}
def Chip.aamp (c : Chip) (a : Nat) : AudAmp := c.aud.amp.getD a {}

/-- Input `i` is silent (R322). -/
def Chip.audSilent (c : Chip) (i : Nat) : Bool := !c.aud.loud.contains i

/-- ST_STAT of stream `k`. -/
def Chip.streamShow (c : Chip) (k : Nat) : Chip :=
  let x := c.stream k
  let playing := match x.bufs with | b :: _ => b.pos != 0 | [] => false
  let c := (c.set (R.AUD_STREAM.ST_STAT.PLAYING k) (b2n playing)).set (R.AUD_STREAM.ST_STAT.QUEUED k) x.bufs.length
  c.set (R.AUD_STREAM.ST_STAT.SILENT k) (b2n (c.audSilent k))

def Chip.setStream (c : Chip) (k : Nat) (x : AudStream) : Chip :=
  { c with aud := { c.aud with streams := c.aud.streams.put {} k x } }.streamShow k

def Chip.setCap (c : Chip) (k : Nat) (x : AudStream) : Chip :=
  let c := { c with aud := { c.aud with caps := c.aud.caps.put {} k x } }
  let filling := match x.bufs with | b :: _ => b.pos != 0 | [] => false
  (c.set (R.AUD_STREAM.CAP_STAT.PLAYING k) (b2n filling)).set (R.AUD_STREAM.CAP_STAT.QUEUED k) x.bufs.length

def Chip.setBus (c : Chip) (b : Nat) (x : AudBus) : Chip := { c with aud := { c.aud with bus := c.aud.bus.put {} b x } }

/-! ### Amplifiers (R327) -/

/-- A class-D channel is muted: AUD never enabled (R73), the channel not configured, PD_AUD off, the bridge down or in hold, or faulted. -/
def Chip.ampMuted (c : Chip) (a : Nat) : Bool :=
  !c.blockStarted 0x11 || !c.flag (R.AUD_AMP.AMP_CFG.EN a) || !c.pdOn PD.AUD || !c.brg.up || (c.aamp a).held
    || c.get (R.AUD_AMP.AMP_STAT.FAULT a) != 0

/-- AMP_STAT follows. -/
def Chip.ampShow (c : Chip) (a : Nat) : Chip :=
  let st := if c.get (R.AUD_AMP.AMP_STAT.FAULT a) ≠ 0 then 3 else if !c.flag (R.AUD_AMP.AMP_CFG.EN a) then 0
    else if (c.aamp a).off || c.ampMuted a then 1 else 2
  (c.set (R.AUD_AMP.AMP_STAT.STATE a) st).set (R.AUD_AMP.AMP_STAT.MUTED a) (b2n (c.ampMuted a))

def Chip.setAmp (c : Chip) (a : Nat) (x : AudAmp) : Chip :=
  { c with aud := { c.aud with amp := c.aud.amp.put {} a x } }.ampShow a

/-- Both class-D channels fall silent. -/
def Chip.ampSilence (c : Chip) : Chip := forN 2 c fun a c => c.setAmp a { c.aamp a with out := 0 }

/-! ### Ring entries (R323) -/

/-- Owner `own` may use stream `k`. -/
def Chip.audUsable (c : Chip) (own k : Nat) : Bool :=
  if own < 16 then (c.share own).aud.testBit k else (List.range 16).all fun vi => !(c.share vi).aud.testBit k

/-- AUD_NOP (R323). -/
def execAudNop (r : Nat) (s : State) : Host.Outcome State Fault Refusal :=
  s.on (r < 64) fun c =>
    match c.freshEntry r 3 0 with
    | none => c
    | some e => c.finish r e.seq (if zeroAt e.bytes 0x10 48 then E.NONE else E.RESERVED) []

/-- The checks common to BUFFER and CAPTURE, with the owner's check and the values of the first byte. -/
def Chip.bufCheck (c : Chip) (r : Nat) (b : List Byte) (owner value0 : Bool) (reserved0 : Nat) (chans : Nat) : Option Nat :=
  let f := fieldAt b 0x11 1
  let host := f.testBit 0
  let frames := fieldAt b 0x14 4
  let a := fieldAt b 0x18 8
  firstFail
    [ (fieldAt b 0x10 1 / reserved0 == 0 && f / 4 == 0 && zeroAt b 0x12 2 && zeroAt b 0x20 32, E.RESERVED),
      (owner, E.OWNER),
      (value0 && decide (1 ≤ frames) && decide (frames ≤ 1048576) && !(host && c.portless r) && !(f.testBit 1 && !host), E.VALUE),
      (a % 2 == 0, E.ALIGN),
      (host || c.dmaSide (c.ringOwn r) 0 a 0 (2 * chans * frames) 1, E.RANGE) ]

/-- The buffer an entry names. -/
def Chip.audBuf (c : Chip) (r : Nat) (e : Issued) (part : Nat) : AudBuf :=
  { ring := r, seq := e.seq, own := c.ringOwn r, addr := fieldAt e.bytes 0x18 8, host := (fieldAt e.bytes 0x11 1).testBit 0,
    noSnoop := (fieldAt e.bytes 0x11 1).testBit 1, frames := fieldAt e.bytes 0x14 4, part := part }

/-- BUFFER (R323). -/
def execBuffer (r : Nat) (s : State) : Host.Outcome State Fault Refusal :=
  s.on (r < 64) fun c =>
    match c.freshEntry r 3 1 with
    | none => c
    | some e =>
      let st := bits (fieldAt e.bytes 0x10 1) 0 4
      let stereo := (fieldAt e.bytes 0x10 1).testBit 4
      let own := c.ringOwn r
      match c.bufCheck r e.bytes (c.audUsable own st && (!stereo || c.audUsable own (st + 1))) (!stereo || st % 2 == 0) 32 (1 + b2n stereo) with
      | some code => c.finish r e.seq code []
      | none =>
        let c := (c.takeUp r e.seq).set (R.AUD_STREAM.ST_STAT.OWNER st) own
        let c := c.setStream st { c.stream st with bufs := (c.stream st).bufs ++ [c.audBuf r e (b2n stereo)] }
        if stereo then
          let c := c.set (R.AUD_STREAM.ST_STAT.OWNER (st + 1)) own
          c.setStream (st + 1) { c.stream (st + 1) with bufs := (c.stream (st + 1)).bufs ++ [c.audBuf r e 2] }
        else c

/-- CAPTURE (R323): manager and control world only. -/
def execCapture (r : Nat) (s : State) : Host.Outcome State Fault Refusal :=
  s.on (r < 64) fun c =>
    match c.freshEntry r 3 2 with
    | none => c
    | some e =>
      let k := bits (fieldAt e.bytes 0x10 1) 0 2
      match c.bufCheck r e.bytes (decide (16 ≤ c.ringOwn r)) true 4 1 with
      | some code => c.finish r e.seq code []
      | none => (c.takeUp r e.seq).setCap k { c.cap k with bufs := (c.cap k).bufs ++ [c.audBuf r e 0] }

/-- The head of pair `r` names no full queue, counting the entries on their way (R323). -/
def Chip.audCan (c : Chip) (r : Nat) : Bool :=
  let coming := fun (op mask k : Nat) => ((List.range 64).map fun r' => if c.ringClass r' = 3 then
    ((c.ring r').issued.filter fun i => i.fresh && i.opcode == op && fieldAt i.bytes 0x10 1 % mask == k).length else 0).foldl (· + ·) 0
  match (c.ring r).fetched with
  | [] => false
  | e :: _ =>
    let b := fieldAt e.bytes 0x10 1
    if e.opcode = 1 then
      decide ((c.stream (b % 16)).bufs.length + coming 1 16 (b % 16) < 4)
        && (!b.testBit 4 || decide ((c.stream (b % 16 + 1)).bufs.length + coming 1 16 (b % 16 + 1) < 4))
    else if e.opcode = 2 then decide ((c.cap (b % 4)).bufs.length + coming 2 4 (b % 4) < 4)
    else true

/-! ### Chimes (R324, R325) -/

/-- Segment `s` of chime `k`, as its word. -/
def Chip.chimeSeg (c : Chip) (k s : Nat) : Nat :=
  let i := 4 * (k - 1) + s
  c.get (R.AUD_TONE.SEGMENT.DUR_MS i) + c.get (R.AUD_TONE.SEGMENT.FREQ i) * 4096 + c.get (R.AUD_TONE.SEGMENT.LEVEL i) * 2 ^ 24

/-- TG_STAT of generator `t`. -/
def Chip.setTg (c : Chip) (t : Nat) (x : Option ToneGen) : Chip :=
  match x with
  | none =>
    let c := { c with aud := { c.aud with tg := c.aud.tg.erase t, loud := c.aud.loud.filter (· ≠ 36 + t) } }
    ((c.set (R.AUD_TONE.TG_STAT.CHIME t) 0).set (R.AUD_TONE.TG_STAT.RANK t) 0).set (R.AUD_TONE.TG_STAT.SEG t) 0
  | some x =>
    let c := { c with aud := { c.aud with tg := c.aud.tg.insert t x } }
    ((c.set (R.AUD_TONE.TG_STAT.CHIME t) x.chime).set (R.AUD_TONE.TG_STAT.RANK t) x.rank).set (R.AUD_TONE.TG_STAT.SEG t) x.seg

/-- The CHIME entry of a request ends. -/
def Chip.chimeRef (c : Chip) (ref : Option (Nat × Nat)) (status : Nat) : Chip :=
  match ref with
  | none => c
  | some (r, q) => c.finish r q status []

/-- A chime request (R325). -/
def Chip.chimeReq (c : Chip) (t chime rank : Nat) (ref : Option (Nat × Nat)) : Chip :=
  if c.chimeSeg chime 0 % 4096 = 0 then
    (if ref.isNone then c.bump R.AUD.CHIME_DROP.COUNT else c).chimeRef ref 0x2A
  else
    let x : ToneGen := { chime := chime, rank := rank, segs := (List.range 4).map (c.chimeSeg chime), ref := ref }
    match c.aud.tg.find? t with
    | none => c.setTg t (some x)
    | some o =>
      if o.rank ≤ rank then (c.chimeRef o.ref 0x2C).setTg t (some x)
      else (c.bump R.AUD.CHIME_DROP.COUNT).chimeRef ref 0x2B

/-- CHIME (R325): a ring entry, of the manager or the control world. -/
def execChime (r : Nat) (s : State) : Host.Outcome State Fault Refusal :=
  s.on (r < 64) fun c =>
    match c.freshEntry r 3 3 with
    | none => c
    | some e =>
      let k := fieldAt e.bytes 0x10 1
      let t := fieldAt e.bytes 0x11 1
      match firstFail
        [ (k / 16 == 0 && t / 4 == 0 && zeroAt e.bytes 0x12 46, E.RESERVED), (decide (16 ≤ c.ringOwn r), E.OWNER), (k != 0, E.VALUE) ] with
      | some code => c.finish r e.seq code []
      | none => (c.takeUp r e.seq).chimeReq t k 0 (some (r, e.seq))

/-- A write of ISL_CHIME. -/
def Chip.chimeIsland (c : Chip) (src : Src) (data : Nat) : Chip :=
  c.port src 0x19A 0x150
    [ (src == .island, E.OWNER), (bits data 6 25 == 0, E.RESERVED), (bits data 0 4 != 0, E.VALUE) ] fun c =>
    if data.testBit 31 then c.chimeReq (bits data 4 2) (bits data 0 4) 2 none else c

/-- ISL_CHIME (R325): a write of ISL_CHIME with GO set. -/
def execIslChime (src : Src) (data : Word) (s : State) : Host.Outcome State Fault Refusal :=
  s.on true fun c => c.chimeIsland src (data.toNat ||| 1 <<< 31)

/-- The present segment's word. -/
def ToneGen.word (x : ToneGen) : Nat := x.segs.getD x.seg 0

/-- CHIME_SEGMENT_END (R324): the segment of generator `t` has lasted DUR_MS. -/
def execChimeSegmentEnd (t : Nat) (s : State) : Host.Outcome State Fault Refusal :=
  s.on (t < 4) fun c =>
    match c.aud.tg.find? t with
    | none => c
    | some x =>
      if x.phase < msSamples (x.word % 4096) then c
      else if x.seg < 3 ∧ x.segs.getD (x.seg + 1) 0 % 4096 ≠ 0 then c.setTg t (some { x with seg := x.seg + 1, phase := 0 })
      else (c.setTg t none).chimeRef x.ref E.NONE

/-- The sample of a generator (R324): a sine of FREQ from phase 0 of its segment with amplitude LEVEL / 255 × 32767, open within 1 of its exact value; a
rest gives 0. -/
def ToneGen.sample (x : ToneGen) : Int :=
  let w := x.word
  let f := bits w 12 12
  let level := bits w 24 8
  if f = 0 ∨ msSamples (w % 4096) ≤ x.phase then 0
  else
    let v : Int := (level * 32767 : Nat) * sinFix (f * x.phase % 12000 * 2 ^ 96 / 12000) / 255
    let open_ := s16 (Config.tone level f x.phase).toNat
    if (open_ * 2 ^ 96 - v).natAbs ≤ 2 ^ 96 ∧ open_.natAbs * 255 ≤ level * 32767 then open_ else (v + 2 ^ 95) / 2 ^ 96

/-! ### Inputs (R316, R322, R323) -/

/-- The sample of a buffer at frame `pos`: of DRAM, or of host memory as `host` gives it. An uncorrectable error (R256) leaves
the sample open and marks the buffer. -/
def Chip.bufRead (c : Chip) (b : AudBuf) (dram : Memory) (host : Int) (chans ch : Nat) : Int × AudBuf × Chip :=
  if b.host then (host, b, c.hostReq b.own false (b.addr + 2 * (chans * b.pos + ch)) 2 b.noSnoop)
  else
    let a := b.addr + 2 * (chans * b.pos + ch)
    let g := c.dramCheck 19 a 2
    if g.1 then (s16 (dram.readNat a 2), b, g.2) else (s16 (g.2.fresh 16).1, { b with bad := true }, (g.2.fresh 16).2)

/-- A stream moves on by one frame of its head buffer; the buffer ends with its last frame. -/
def Chip.streamNext (c : Chip) (k : Nat) (b : AudBuf) (rest : List AudBuf) : Chip :=
  let x := c.stream k
  let gap := if b.pos = 0 then x.gap else b.gap
  let c := if b.pos = 0 ∧ b.part ≠ 2 then c.addSat R.AUD.STREAM_UR.COUNT gap else c
  if b.pos + 1 < b.frames then c.setStream k { bufs := { b with pos := b.pos + 1, gap := gap } :: rest, used := true, gap := 0 }
  else
    let c := c.setStream k { bufs := rest, used := true, gap := 0 }
    if b.part = 2 then c else c.finish b.ring b.seq (if b.bad then 0x3E else E.NONE) (leBytes 4 gap)

/-- A stream that gives nothing this period. -/
def Chip.streamIdle (c : Chip) (k : Nat) : Chip :=
  let x := c.stream k
  if x.used ∧ x.bufs.isEmpty then c.setStream k { x with gap := x.gap + 1 } else c

/-- A buffer may give a sample: one that has not begun waits while the domain quiesces (R54). -/
def Chip.bufMay (c : Chip) (b : AudBuf) : Bool := b.pos != 0 || c.pdFree PD.AUD

/-- One period of streams 2j and 2j + 1: their samples. -/
def Chip.streamPair (c : Chip) (dram : Memory) (host : List Nat) (j : Nat) : (Int × Int) × Chip :=
  let l := 2 * j
  let r := l + 1
  let h := fun k => s16 (host.getD k 0)
  let one := fun (c : Chip) (k : Nat) => match (c.stream k).bufs with
    | [] => ((0 : Int), c.streamIdle k)
    | b :: rest =>
      if b.part = 0 ∧ c.bufMay b then
        let g := c.bufRead b dram (h k) 1 0
        (g.1, g.2.2.streamNext k g.2.1 rest)
      else (0, c)
  match (c.stream l).bufs, (c.stream r).bufs with
  | b :: rest, b' :: rest' =>
    if b.part = 1 then
      if b'.part = 2 ∧ b'.ring = b.ring ∧ b'.seq = b.seq then
        if c.bufMay b then
          let x := c.bufRead b dram (h l) 2 0
          let y := x.2.2.bufRead b dram (h r) 2 1
          ((x.1, y.1), (y.2.2.streamNext l { b with bad := x.2.1.bad || y.2.1.bad } rest).streamNext r b' rest')
        else ((0, 0), c)
      else
        let y := one c r
        ((0, y.1), y.2)
    else
      let x := one c l
      let y := one x.2 r
      ((x.1, y.1), y.2)
  | _, _ =>
    let x := one c l
    let y := one x.2 r
    ((x.1, y.1), y.2)

/-- The sixteen stream inputs. -/
def Chip.streamInputs (c : Chip) (dram : Memory) (host : List Nat) : List Int × Chip :=
  (List.range 8).foldl (fun a j =>
    let p := a.2.streamPair dram host j
    (a.1 ++ [p.1.1, p.1.2], p.2)) ([], c)

/-- The four tone generators' inputs; each moves on by one sample. -/
def Chip.toneInputs (c : Chip) : List Int × Chip :=
  (List.range 4).foldl (fun a t => match a.2.aud.tg.find? t with
    | none => (a.1 ++ [0], a.2)
    | some x => (a.1 ++ [x.sample], a.2.setTg t (some { x with phase := x.phase + 1 }))) ([], c)

/-- A TDM receive slot that its port carries. -/
def Chip.tdmSlot (c : Chip) (i : Nat) : Bool :=
  c.flag (R.AUD_PORTS.TDM_CFG.EN (i / 8)) && decide (i % 8 ≤ c.get (R.AUD_PORTS.TDM_CFG.SLOTS_M1 (i / 8)))

/-- The forty inputs of one period: `tdm` and `mic` as they arrive. -/
def Chip.audInputs (c : Chip) (dram : Memory) (tdm mic host : List Nat) : List Int × Chip :=
  let a := c.streamInputs dram host
  let t := (List.range 16).map fun i => if a.2.tdmSlot i then s16 (tdm.getD i 0) else 0
  let m := (List.range 4).map fun i => if (a.2.get R.AUD_PORTS.PDM_CFG.EN).testBit i then s16 (mic.getD i 0) else 0
  let g := a.2.toneInputs
  (a.1 ++ t ++ m ++ g.1, g.2)

/-- Inputs that are silent at once (R322). -/
def Chip.audMute (c : Chip) (i : Nat) : Bool :=
  if i < 16 then (match (c.stream i).bufs with | [] => true | b :: _ => !(b.pos != 0 || c.pdFree PD.AUD))
  else if i < 32 then !c.flag (R.AUD_PORTS.TDM_CFG.EN ((i - 16) / 8))
  else if i < 36 then !(c.get R.AUD_PORTS.PDM_CFG.EN).testBit (i - 32)
  else (c.aud.tg.find? (i - 36)).isNone

/-- The silence detectors see one sample of every input. `was` are the inputs that were muted before it was read. -/
def Chip.audQuiet (c : Chip) (was : Nat → Bool) (xs : List Int) : Chip :=
  let th := c.get R.AUD.SIL_CFG.SIL_TH
  forN 40 c fun i c =>
    let x := xs.getD i 0
    if was i then { c with aud := { c.aud with loud := c.aud.loud.filter (· ≠ i), quiet := c.aud.quiet.erase i } }
    else if th < x.natAbs then
      { c with aud := { c.aud with loud := if c.aud.loud.contains i then c.aud.loud else c.aud.loud ++ [i], quiet := c.aud.quiet.erase i } }
    else { c with aud := { c.aud with quiet := c.aud.quiet.insert i (c.aud.quiet.getD i 0 + 1) } }

/-- SILENCE_DETECT (R322): input `i` has stayed at or below SIL_TH for SIL_MS. -/
def execSilenceDetect (i : Nat) (s : State) : Host.Outcome State Fault Refusal :=
  s.on (i < 40) fun c =>
    if msSamples (c.get R.AUD.SIL_CFG.SIL_MS) ≤ c.aud.quiet.getD i 0 then
      let c := { c with aud := { c.aud with loud := c.aud.loud.filter (· ≠ i) } }
      if i < 16 then c.streamShow i else c
    else c

/-! ### Gain steps (R320) -/

/-- A sample at which a gain may step: 0, or of the other sign than the sample before. -/
def crossing (prev x : Int) : Bool := x == 0 || (decide (0 < prev) && decide (x < 0)) || (decide (prev < 0) && decide (0 < x))

/-- The gain of node (i, b) in force. -/
def Chip.nodeGain (c : Chip) (i b : Nat) : Nat := c.aud.gain.getD (16 * i + b) (xpDefault i b)

/-- Node (i, b) takes its committed gain. -/
def Chip.nodeTake (c : Chip) (i b : Nat) : Chip :=
  let k := 16 * i + b
  { c with aud := { c.aud with gain := c.aud.gain.put (xpDefault i b) k (c.get (xpReg i b)), gainDue := c.aud.gainDue.erase k } }

/-- The nodes of input `i` see the sample `x`. -/
def Chip.nodeStep (c : Chip) (i : Nat) (x : Int) : Chip :=
  let cross := crossing (c.aud.prev.getD i 0) x
  forN 16 c fun b c =>
    let k := 16 * i + b
    if c.get (xpReg i b) = c.nodeGain i b then { c with aud := { c.aud with gainDue := c.aud.gainDue.erase k } }
    else if cross then c.nodeTake i b
    else if (c.aud.gainDue.find? k).isSome then c
    else { c with aud := { c.aud with gainDue := c.aud.gainDue.insert k c.aud.n } }

/-! ### Buses (R317–R319) -/

/-- The sum of the contributions to bus `b`, in 28 bits. -/
def Chip.busSum (c : Chip) (xs : List Int) (b : Nat) : Int :=
  satTo 27 (((List.range 40).map fun i => (xs.getD i 0 * c.nodeGain i b + 8192) / 16384).foldl (· + ·) 0)

/-- ALERT bus `b` is active: an input with a gain into it is not silent (R319). -/
def Chip.alertActive (c : Chip) (b : Nat) : Bool := (List.range 40).any fun i => c.nodeGain i b != 0 && !c.audSilent i

/-- An ALERT and a MEDIA bus share a sink. -/
def Chip.shareSink (c : Chip) (a b : Nat) : Bool :=
  (List.range 38).any fun k =>
    c.flag (R.AUD_BUS.SINK.AEN k) && c.flag (R.AUD_BUS.SINK.MEN k) && c.get (R.AUD_BUS.SINK.ALERT k) == a
      && c.get (R.AUD_BUS.SINK.MEDIA k) == b

/-- N of a MEDIA bus. -/
def Chip.busN (c : Chip) (b : Nat) : Nat :=
  ((List.range 40).filter fun i => c.nodeGain i b != 0 && !c.audSilent i).length

/-- The autoscale target of a MEDIA bus inside the bounds of loop 6, and whether a bound holds it (R319). -/
def Chip.busTarget (c : Chip) (b : Nat) : Nat × Bool :=
  let n := c.busN b
  let t := if n = 0 then 256 else 256 / n
  let v := max (c.get (R.SYS_POLICY.BOUNDS.FLOOR 6)) (min (c.get (R.SYS_POLICY.BOUNDS.CEIL 6)) t)
  (v, v != t)

/-- A gain that steps at a crossing of the bus sum: its value and since when its change is due. -/
def stepGain (have_ want : Nat) (due : Option Nat) (cross : Bool) (n : Nat) : Nat × Option Nat :=
  if have_ = want then (have_, none)
  else if cross then (want, none)
  else (have_, some (due.getD n))

/-- Ducking of MEDIA bus `b` (R319). -/
def Chip.busDuck (c : Chip) (b : Nat) : Chip :=
  let x := c.abus b
  let hit := (List.range 4).any fun a => c.alertActive a && c.shareSink a b
  if hit then c.setBus b { x with ducked := true, hold := 0 }
  else if x.ducked then c.setBus b { x with hold := x.hold + 1 }
  else c

/-- DUCK_HOLD_EXPIRY (R319). -/
def execDuckHoldExpiry (b : Nat) (s : State) : Host.Outcome State Fault Refusal :=
  s.on (4 ≤ b && b < 16) fun c =>
    let x := c.abus b
    if x.ducked ∧ 0 < x.hold ∧ msSamples (c.get R.AUD.AUD_CFG.DUCK_HOLD) ≤ x.hold then
      (c.setBus b { x with ducked := false, hold := 0 }).setBit R.AUD.AUD_STAT.DUCKED (b - 4) false |>.set (R.AUD_BUS.BUS_STAT.DUCKED b) 0
    else c

/-- D asked of MEDIA bus `b`. -/
def Chip.busD (c : Chip) (b : Nat) : Nat := if (c.abus b).ducked then c.get R.AUD.AUD_CFG.DUCK_GAIN else 256

/-- What the chimes of the safety island add to the sum of bus `b`, where it feeds SPKA or SPKB: autoscale, a loop of rank 4, does not act on that path
(R56, R326). -/
def Chip.chimeSum (c : Chip) (xs : List Int) (b : Nat) : Int :=
  let spk := (List.range 2).any fun k => c.flag (R.AUD_BUS.SINK.MEN k) && c.get (R.AUD_BUS.SINK.MEDIA k) == b
  let mine := (List.range 4).filter fun t => match c.aud.tg.find? t with
    | some x => x.rank == 2
    | none => false
  if spk then (mine.map fun t => (xs.getD (36 + t) 0 * c.nodeGain (36 + t) b + 8192) / 16384).foldl (· + ·) 0 else 0

/-- A MEDIA bus takes its sum (R317), of which `chime` is not autoscaled: A and D step, and the scaled sample goes out one period later. -/
def Chip.mediaStep (c : Chip) (b : Nat) (sum chime : Int) : Int × Chip :=
  let c := c.busDuck b
  let t := c.busTarget b
  let c := if t.2 then ((c.set (R.SYS_POLICY.STAT.CLAMP 6) 1).bump (R.SYS_POLICY.CLAMP_CNT.COUNT 6)).raise 0x003 6 else c
  let x := c.abus b
  let cross := crossing x.prevS sum
  let a := stepGain x.aAuto t.1 x.aDue cross c.aud.n
  let d := stepGain x.dGain (c.busD b) x.dDue cross c.aud.n
  let g := a.1 * d.1 / 256
  let y := sat16 (((sum - chime) * g + chime * d.1 + 128) / 256)
  let c := c.setBus b { x with aAuto := a.1, aDue := a.2, dGain := d.1, dDue := d.2, prevS := sum, last := y }
  let c := ((c.set (R.AUD_BUS.BUS_STAT.GAIN b) g).set (R.AUD_BUS.BUS_STAT.N b) (c.busN b)).set (R.AUD_BUS.BUS_STAT.DUCKED b) (b2n x.ducked)
  (x.last, c.setBit R.AUD.AUD_STAT.DUCKED (b - 4) x.ducked)

/-- The limiter gain as a fraction: `peak` dropped it to 32767 / peak, and `n` of `t` recovery samples have passed (R318). -/
def limGain (peak n t : Nat) : Nat × Nat := if peak ≤ 32767 ∨ t ≤ n then (1, 1) else (peak * t - (peak - 32767) * (t - n), peak * t)

/-- An ALERT bus takes its sum (R318): the limited sample of 48 periods ago. -/
def Chip.alertStep (c : Chip) (b : Nat) (sum : Int) : Int × Chip :=
  let x := c.abus b
  let win := (sum :: x.win).take 49
  let peak := (win.map fun v => v.natAbs).foldl max 0
  let t := msSamples (c.get (R.AUD_BUS.BUS_CFG.LIM_REL b))
  let g := limGain x.limPeak (x.limN + 1) t
  let drop := decide (32767 < peak) && decide (32767 * g.2 < g.1 * peak)
  let x := { x with win := win, limPeak := if drop then peak else x.limPeak, limN := if drop then 0 else min (x.limN + 1) t }
  let g := limGain x.limPeak x.limN t
  let old := win.getD 48 0
  let y := sat16 ((2 * old * g.1 + g.2) / (2 * g.2))
  let c := c.setBus b x
  let c := if g.1 < g.2 then c.bump R.AUD.LIMIT_SAMPLES.COUNT else c
  let c := (c.set (R.AUD_BUS.BUS_STAT.GAIN b) (256 * g.1 / g.2)).set (R.AUD_BUS.BUS_STAT.ACTIVE b) (b2n (c.alertActive b))
  (y, c.setBit R.AUD.AUD_STAT.ACTIVE b (c.alertActive b))

/-! ### Equaliser and dynamics (R321) -/

/-- Coefficient `j` of band `k` of bus `b`. -/
def Chip.eqCoef (c : Chip) (b k j : Nat) : Nat := c.get (R.AUD_EQ.COEF.COEF (b / 4) (40 * (b % 4) + 5 * k + j))

/-- One band on one sample (FP32), transposed direct form II. -/
def Chip.eqBand (c : Chip) (b k x : Nat) : Nat × Chip :=
  let st := c.aud.eq.getD (8 * b + k) (0, 0)
  let f := fp32
  let co := c.eqCoef b k
  let y := f.add (f.mul (co 0) x) st.1
  let s1 := f.add (f.sub (f.mul (co 1) x) (f.mul (co 3) y)) st.2
  let s2 := f.sub (f.mul (co 2) x) (f.mul (co 4) y)
  if (f.val s1).finite && (f.val s2).finite then (y, { c with aud := { c.aud with eq := c.aud.eq.put (0, 0) (8 * b + k) (s1, s2) } })
  else (y, ({ c with aud := { c.aud with eq := c.aud.eq.erase (8 * b + k) } }.bump R.AUD.EQ_FAULT.COUNT).raise 0x190 2)

/-- The bands that EQ_EN applies, in ascending order. -/
def Chip.eqRun (c : Chip) (b x : Nat) : Nat × Chip :=
  (List.range 8).foldl (fun a k => if (a.2.get (R.AUD_BUS.BUS_CFG.EQ_EN b)).testBit k then a.2.eqBand b k a.1 else a) (x, c)

/-- The level of the peak detector after a sample of magnitude `x` (FP32 words): it moves from its old level toward the sample, by an open step. -/
def dynLevelOf (old x attack release : Nat) : Nat := max (min old x) (min (max old x) (Config.dynLevel old x attack release).toNat)

/-- 0.5 dB as an exponent of 2, log2(10) / 40, in units of 2^-96. -/
def halfDbFix : Nat := 0x1542A5A12E1C5AB30751324C

/-- RATIO of R321 as 1 / RATIO, a fraction; the limiter's is 0. -/
def dynRatio (r : Nat) : Nat × Nat := if r = 5 then (0, 1) else (1, [2, 3, 4, 6, 8].getD r 1)

/-- The gain of the dynamics stage (R321): 1 up to THRESH; above it what leaves THRESH + (L − THRESH) / RATIO of the level L, open within 2^-16. -/
def dynGainOf (level thresh ratio : Nat) : Nat :=
  match fp32.val level with
  | .fin _ m e =>
    if m = 0 then 0x3F800000
    else
      let l := Nat.log2 m
      let above : Int := ((l : Int) + e) * 2 ^ 96 + logBits 96 (m * 2 ^ 220 / 2 ^ l) 0 + (thresh * halfDbFix : Nat)
      if above ≤ 0 then 0x3F800000
      else
        let q := dynRatio ratio
        let x : Int := -(above * (q.2 - q.1 : Nat) / q.2)
        let i := x / 2 ^ 96
        let g : Int := (expFix ((x % 2 ^ 96).toNat * ln2Fix / 2 ^ 96) / 2 ^ (min 96 (-i).toNat) : Nat)
        fp32.pickIn (g - g / 2 ^ 16) (g + g / 2 ^ 16) (-96) (Config.dynGain level thresh ratio).toNat (fp32.nearest g (-96) false)
  | _ => (Config.dynGain level thresh ratio).toNat

/-- The dynamics stage. -/
def Chip.dynRun (c : Chip) (b x : Nat) : Nat × Chip :=
  if !c.flag (R.AUD_BUS.BUS_CFG.DYN_EN b) then (x, c)
  else
    let bus := c.abus b
    let level := dynLevelOf bus.level (bits x 0 31) (c.get (R.AUD_BUS.BUS_DYN.ATTACK b)) (c.get (R.AUD_BUS.BUS_DYN.RELEASE b))
    let g := dynGainOf level (c.get (R.AUD_BUS.BUS_DYN.THRESH b)) (c.get (R.AUD_BUS.BUS_DYN.RATIO b))
    (fp32.mul x g, c.setBus b { bus with level := level })

/-- A bus's result: rounded, and saturated to 16 bits; a NaN gives a free value. -/
def Chip.busResult (c : Chip) (b y : Nat) : Chip :=
  let v := fp32.val (fp32.mul y 0x47000000)
  let c := match v with
    | .nan => (c.fresh 16).2.setBus b { (c.fresh 16).2.abus b with out := s16 (c.fresh 16).1 }
    | .inf neg => ((c.setBus b { c.abus b with out := if neg then -32768 else 32767 }).bump R.AUD.CLIP.COUNT).raise 0x190 1
    | .fin _ _ _ =>
      let i := v.nearInt
      let c := c.setBus b { c.abus b with out := sat16 i }
      if sat16 i = i then c else (c.bump R.AUD.CLIP.COUNT).raise 0x190 1
  c

/-- One bus, from its sum to what it gives its sinks. -/
def Chip.busStep (c : Chip) (xs : List Int) (b : Nat) : Chip :=
  let sum := c.busSum xs b
  let y := if b < 4 then c.alertStep b sum else c.mediaStep b sum (c.chimeSum xs b)
  let x := fp32.ofVal ((FV.ofInt y.1).mul (.fin false 1 (-15)))
  let e := y.2.eqRun b x
  let d := e.2.dynRun b e.1
  d.2.busResult b d.1

/-! ### Sinks, captures and amplifiers -/

/-- The sample of sink `k`. -/
def Chip.sinkOf (c : Chip) (k : Nat) : Int :=
  let a := if c.flag (R.AUD_BUS.SINK.AEN k) then (c.abus (c.get (R.AUD_BUS.SINK.ALERT k))).out else 0
  let m := if c.flag (R.AUD_BUS.SINK.MEN k) then (c.abus (c.get (R.AUD_BUS.SINK.MEDIA k))).out else 0
  sat16 (a + m)

/-- Capture stream `k` takes a sample (R323). -/
def Chip.capStep (c : Chip) (m : Mems) (k : Nat) (v : Int) : Chip × Mems :=
  let x := c.cap k
  match x.bufs with
  | [] => (if x.used then c.setCap k { x with gap := x.gap + 1 } else c, m)
  | b :: rest =>
    if !c.bufMay b then (c, m)
    else
      let gap := if b.pos = 0 then x.gap else b.gap
      let c := if b.pos = 0 then c.addSat R.AUD.CAP_GAP.COUNT gap else c
      let (c, m) := c.dmaStore m (b2n b.host) b.own b.noSnoop (b.addr + 2 * b.pos) (leBytes 2 (toBits 16 v))
      if b.pos + 1 < b.frames then (c.setCap k { bufs := { b with pos := b.pos + 1, gap := gap } :: rest, used := true, gap := 0 }, m)
      else ((c.setCap k { bufs := rest, used := true, gap := 0 }).finish b.ring b.seq E.NONE (leBytes 4 gap), m)

/-- The thermal lowering of channel `a`'s ceiling is suspended by an island chime that reaches it (R326). -/
def Chip.ampShield (c : Chip) (a : Nat) : Bool :=
  (List.range 4).any fun t => match c.aud.tg.find? t with
    | none => false
    | some x => x.rank == 2 &&
      ((c.flag (R.AUD_BUS.SINK.AEN a) && c.nodeGain (36 + t) (c.get (R.AUD_BUS.SINK.ALERT a)) != 0)
        || (c.flag (R.AUD_BUS.SINK.MEN a) && c.nodeGain (36 + t) (c.get (R.AUD_BUS.SINK.MEDIA a)) != 0))

/-- A class-D channel takes its sink's sample (R327). -/
def Chip.ampStep (c : Chip) (a : Nat) (v : Int) : Chip :=
  let x := c.aamp a
  let line := (v :: x.line).take 97
  let cut := c.pow.fieldHot && !c.ampShield a
  let lim : Int := c.get (R.AUD_AMP.AMP_CFG.CEIL a) * 32767 / 255 / (if cut then 2 else 1)
  let old := line.getD 96 0
  let y := max (-lim) (min lim old)
  let y := if c.flag (R.AUD_AMP.AMP_CFG.INVERT a) then -y else y
  let quiet := if c.get R.AUD.SIL_CFG.SIL_TH < v.natAbs then 0 else x.quiet + 1
  let off := x.off && quiet != 0
  let x := { x with line := line, quiet := quiet, off := off, out := if c.ampMuted a || off then 0 else y }
  (c.setAmp a x).set (R.AUD_AMP.AMP_STAT.CEIL_CUT a) (b2n cut)

/-- AMP_POWER_DOWN (R327): the sink of stage `a` has been silent for AMP_OFF. -/
def execAmpPowerDown (a : Nat) (s : State) : Host.Outcome State Fault Refusal :=
  s.on (a < 2) fun c =>
    let x := c.aamp a
    if !c.flag (R.AUD_AMP.AMP_CFG.HOLD_ON a) ∧ 0 < x.quiet ∧ msSamples (10 * c.get R.AUD.SIL_CFG.AMP_OFF) ≤ x.quiet then
      c.setAmp a { x with off := true, out := 0 }
    else c

/-! ### One sample period (R317) -/

/-- The lowest A_auto in force on any MEDIA bus (R319). -/
def Chip.lowestAuto (c : Chip) : Nat := ((List.range 12).map fun b => (c.abus (b + 4)).aAuto).foldl min 256

/-- Output `n` sends a sample pair in its audio packets, where it carries audio and is SENDING; else the samples are discarded (R203). -/
def Chip.displayAudio (c : Chip) (n : Nat) (sinks : List Int) : Chip :=
  let x := c.scn.getD n {}
  let on := c.flag (R.SCN_OUT.OUT_CFG.AUDIO_EN n) && x.link == 2 && !c.follows n
  { c with scn := c.scn.put {} n { x with sdp := if on then some (sinks.getD (18 + 2 * n) 0, sinks.getD (19 + 2 * n) 0) else none } }

/-- One 48 kHz period: inputs, silence, gain steps, buses, sinks, captures and amplifiers. -/
def Chip.audSample (c : Chip) (m : Mems) (tdm mic host : List Nat) : Chip × Mems :=
  let muted := fun i => c.audMute i
  let a := c.audInputs m.dram tdm mic host
  let xs := a.1
  let c := a.2.audQuiet muted xs
  let c := forN 40 c fun i c => c.nodeStep i (xs.getD i 0)
  let c := forN 16 c fun b c => c.busStep xs b
  let c := { c with aud := { c.aud with prev := (List.range 40).foldl (fun p i => SMap.put p 0 i (xs.getD i 0)) c.aud.prev, n := c.aud.n + 1 } }
  let sinks := (List.range 38).map c.sinkOf
  let c := forN 8 { c with aud := { c.aud with sink := sinks } } fun n c => c.displayAudio n sinks
  let c := if c.flag (R.SYS_POLICY.STAT.PROTECT 6) then c else c.setLoop 6 c.lowestAuto
  let c := (c.ampStep 0 (sinks.getD 0 0)).ampStep 1 (sinks.getD 1 0)
  let c := forN 16 c fun k c => c.streamShow k
  (List.range 4).foldl (fun s k => s.1.capStep s.2 k (sinks.getD (34 + k) 0)) (c, m)

/-- AUDIO_SAMPLE (R317): one sample period. `tdm` and `mic` are the samples that arrive, `host` those of streams that play
from host memory. -/
def execAudioSample (tdm mic host : List Nat) (s : State) : Host.Outcome State Fault Refusal :=
  s.onMem true fun c m => if c.pdOn PD.AUD then c.audSample m tdm mic host else (c, m)

/-- ZC_TIMEOUT (R320): the change of a gain has been due for ZC_TIMEOUT: of node `i`, `b`, or (i = 40) of A_auto and (i = 41) of
D of MEDIA bus `b`. -/
def execZcTimeout (i b : Nat) (s : State) : Host.Outcome State Fault Refusal :=
  s.on (i < 42 && b < 16) fun c =>
    let lim := msSamples (c.get R.AUD.AUD_CFG.ZC_TIMEOUT)
    let late := fun (d : Option Nat) => match d with | none => false | some n => decide (n + lim ≤ c.aud.n)
    let x := c.abus b
    let done := fun (c : Chip) => c.bump R.AUD.ZC_TIMEOUTS.COUNT
    if i < 40 then (if late (c.aud.gainDue.find? (16 * i + b)) then done (c.nodeTake i b) else c)
    else if i = 40 then (if late x.aDue then done (c.setBus b { x with aAuto := (c.busTarget b).1, aDue := none }) else c)
    else (if late x.dDue then done (c.setBus b { x with dGain := c.busD b, dDue := none }) else c)

/-- EQ_COEF_WRITE (R321): coefficient `j` of band `k` of bus `b`. -/
def Chip.eqWrite (c : Chip) (src : Src) (b k j data : Nat) : Chip :=
  let i := 40 * (b % 4) + 5 * k + j
  c.port src (0x196 + b / 4) (0x040 + 4 * i) [ (c.mgrOrCtl src, E.OWNER), (bits data 23 8 != 255, E.VALUE) ] fun c =>
    c.set (R.AUD_EQ.COEF.COEF (b / 4) i) data

/-- EQ_COEF_WRITE (R321). -/
def execEqCoefWrite (src : Src) (b k j : Nat) (data : Word) (s : State) : Host.Outcome State Fault Refusal :=
  s.on (b < 16 && k < 8 && j < 5) fun c => c.eqWrite src b k j data.toNat

/-! ### Speaker faults (R329) -/

/-- A speaker channel is faulted and muted. -/
def Chip.ampFault (c : Chip) (a f : Nat) : Chip :=
  let v := c.get (R.AUD_AMP.AMP_STAT.FAULT a) ||| f
  let c := ((c.set (R.AUD_AMP.AMP_STAT.FAULT a) v).setAmp a { c.aamp a with out := 0 }).ampShow a
  ((c.bump R.AUD.AMP_FAULT_CNT.COUNT).raise 0x190 0).record 0x1101 a [v]

/-- A write of AMP_CMD of channel `a`. -/
def Chip.ampCmd (c : Chip) (src : Src) (a data : Nat) : Chip :=
  c.port src 0x19E (0x048 + 0x10 * a)
    [ (c.mgrOrCtl src, E.OWNER), (data / 2 == 0, E.RESERVED), (!data.testBit 0 || !(c.aamp a).testing, E.BUSY) ] fun c =>
    if data.testBit 0 then (c.set (R.AUD_AMP.AMP_CMD.TEST a) 1).setAmp a { c.aamp a with testing := true } else c

/-- AMP_TEST (R329): AMP_CMD.TEST. -/
def execAmpTest (src : Src) (a : Nat) (s : State) : Host.Outcome State Fault Refusal :=
  s.on (a < 2) fun c => c.ampCmd src a 1

/-- AMP_TEST_DONE (R329): what the test of channel `a` finds. Channels are tested one at a time, in ascending order (R314), and none in the bridge's hold. -/
def execAmpTestDone (a : Nat) (gnd vin pair opn lobe : Bool) (s : State) : Host.Outcome State Fault Refusal :=
  s.on (a < 2) fun c =>
    if !(c.aamp a).testing || (c.aamp a).held || (a == 1 && (c.aamp 0).testing) then c
    else
      let wrong := lobe != (c.flag (R.AUD_AMP.AMP_CFG.POL_REF a) != c.flag (R.AUD_AMP.AMP_CFG.INVERT a))
      let f := b2n gnd + 2 * b2n vin + 4 * b2n pair + 8 * b2n opn + 16 * b2n wrong
      let c := (c.set (R.AUD_AMP.AMP_CMD.TEST a) 0).set (R.AUD_AMP.AMP_STAT.FAULT a) 0
      let c := c.setAmp a { c.aamp a with testing := false }
      if f = 0 then c
      else
        let c := c.ampFault a f
        if pair then c.ampFault (1 - a) 4 else c

/-- SPEAKER_OVERCURRENT (R329): a leg of channel `a` above its limit, the high-side one or the low-side one. -/
def execSpeakerOvercurrent (a : Nat) (high : Bool) (s : State) : Host.Outcome State Fault Refusal :=
  s.on (a < 2) fun c => c.ampFault a (if high then 1 else 2)

/-- AMP_CFG of channel `a` has been written (R329): EN starts the test where TEST_AT_EN asks for it. -/
def Chip.ampConfigured (c old : Chip) (a : Nat) : Chip :=
  let rose := c.flag (R.AUD_AMP.AMP_CFG.EN a) && !old.flag (R.AUD_AMP.AMP_CFG.EN a)
  let c := c.ampShow a
  if rose && c.flag (R.AUD_AMP.AMP_CFG.TEST_AT_EN a) then c.setAmp a { c.aamp a with testing := true } else c

/-! ### Removal, reset and power -/

/-- Stream `k` leaves instance `vi` (R323): its buffers complete with E_OWNER. -/
def Chip.audEvict (c : Chip) (k vi : Nat) : Chip :=
  let x := c.stream k
  let gone := x.bufs.filter fun b => b.own == vi
  let c := gone.foldl (fun c b => if b.part = 2 then c else c.finish b.ring b.seq E.OWNER []) c
  (c.setStream k { x with bufs := x.bufs.filter fun b => b.own != vi }).set (R.AUD_STREAM.ST_STAT.OWNER k) 16

/-- The buffers and chimes of owner `own` disappear without completions (R83): squashed, drained. -/
def Chip.audReset (c : Chip) (own : Nat) : Nat × Nat × Chip :=
  let mine := fun (b : AudBuf) => b.own == own
  let all := ((List.range 16).flatMap fun k => (c.stream k).bufs.filter fun b => mine b && b.part != 2).length
  let caps := (List.range 4).flatMap fun k => (c.cap k).bufs.filter mine
  let drained := (caps.filter fun b => b.pos != 0).length
  let tones := (List.range 4).filter fun t => match c.aud.tg.find? t with
    | some x => (match x.ref with | some (r, _) => c.ringOwn r == own | none => false)
    | none => false
  let c := forN 16 c fun k c => c.setStream k { c.stream k with bufs := (c.stream k).bufs.filter fun b => !mine b }
  let c := forN 4 c fun k c => c.setCap k { c.cap k with bufs := (c.cap k).bufs.filter fun b => !mine b }
  let c := tones.foldl (fun c t => c.setTg t none) c
  (all + (caps.length - drained) + tones.length, drained, c)

/-- Every buffer is at a boundary (R54). -/
def Chip.audIdle (c : Chip) : Bool :=
  ((List.range 16).all fun k => match (c.stream k).bufs with | b :: _ => b.pos == 0 | [] => true)
    && (List.range 4).all fun k => match (c.cap k).bufs with | b :: _ => b.pos == 0 | [] => true

/-- Both class-D channels are muted by the bridge's hold (R11). -/
def Chip.ampHold (c : Chip) : Chip := forN 2 c fun a c => c.setAmp a { c.aamp a with held := true, out := 0 }

end Sys2Proof.Machine
end

