-- ==== Sys2Proof/Machine/Color.lean ====
section
/-! DEFINITION. The curves of R392, evaluated exactly and rounded once, and conversions of codes to floating point. -/

namespace Sys2Proof.Machine

/-- The largest n below 2^k that `p` accepts, for a `p` that holds up to some point. -/
def searchMax (k : Nat) (p : Nat → Bool) : Nat :=
  (List.range k).foldl (fun a i => let b := a + 2 ^ (k - 1 - i); if p b then b else a) 0

/-- ± num / den rounded to nearest even. -/
def Fmt.ofRat (f : Fmt) (neg : Bool) (num den : Nat) : Nat :=
  let n := num * 2 ^ 180 / den
  f.round neg n (-180) (num * 2 ^ 180 % den != 0)

/-- The word of the greatest n × 2^-180 that `p` accepts, rounded as the real number whose floor it is; `exact` says that
the real number is n × 2^-180 itself. -/
def roundSearch (p exact : Nat → Bool) : Nat :=
  let n := searchMax 260 p
  fp32.round false n (-180) (!exact n)

/-- A nonnegative value mag × 2^exp as a fraction. -/
def ratOf (mag : Nat) (exp : Int) : Nat × Nat := if 0 ≤ exp then (mag * 2 ^ exp.toNat, 1) else (mag, 2 ^ (-exp).toNat)

/-- (num / den)^(a / b) as an FP32 word. -/
def ratPow (num den a b : Nat) : Nat :=
  let rhs := num ^ a * 2 ^ (180 * b)
  roundSearch (fun n => decide (n ^ b * den ^ a ≤ rhs)) (fun n => n ^ b * den ^ a == rhs)

/-- The decoding curve d (R392) of an FP32 word. -/
def srgbDecode (w : Nat) : Nat :=
  match fp32.val w with
  | .fin neg mag exp =>
    let q := ratOf mag exp
    if neg ∨ q.1 * 100000 ≤ 4045 * q.2 then fp32.ofRat neg (q.1 * 100) (q.2 * 1292)
    else ratPow (1000 * q.1 + 55 * q.2) (1055 * q.2) 12 5
  | _ => w

/-- The encoding curve e (R392) of an FP32 word. -/
def srgbEncode (w : Nat) : Nat :=
  match fp32.val w with
  | .fin neg mag exp =>
    let q := ratOf mag exp
    if neg ∨ q.1 * 10000000 ≤ 31308 * q.2 then fp32.ofRat neg (q.1 * 1292) (q.2 * 100)
    else
      let k := 2 ^ 180
      let lhs := fun n => q.2 ^ 5 * (1000 * n + 55 * k) ^ 12
      let rhs := q.1 ^ 5 * (1055 * k) ^ 12
      roundSearch (fun n => decide (lhs n ≤ rhs)) (fun n => lhs n == rhs)
  | _ => w

/-- x^2.4 (R392) of an FP32 word; of a negative value an opaque one (log entry 22). -/
def pow24 (w : Nat) : Nat :=
  match fp32.val w with
  | .fin neg mag exp =>
    let q := ratOf mag exp
    if q.1 = 0 then fp32.sign neg else if neg then (Config.pow24Neg w).toNat else ratPow q.1 q.2 12 5
  | .inf true => (Config.pow24Neg w).toNat
  | _ => w

/-- A word of one format in another. -/
def Fmt.conv (f g : Fmt) (w : Nat) : Nat := f.ofVal (g.val w)

/-- The FP16 word of FP32 word `w`. -/
def toFp16 (w : Nat) : Nat := fp16.conv fp32 w

/-- The FP32 word of FP16 word `w`. -/
def toFp32 (w : Nat) : Nat := fp32.conv fp16 w

/-- A pixel: three FP16 words. -/
abbrev Rgb := Nat × Nat × Nat

/-- Apply to every channel. -/
def Rgb.map (f : Nat → Nat) (p : Rgb) : Rgb := (f p.1, f p.2.1, f p.2.2)

/-- Combine two pixels channel by channel. -/
def Rgb.zip (f : Nat → Nat → Nat) (p q : Rgb) : Rgb := (f p.1 q.1, f p.2.1 q.2.1, f p.2.2 q.2.2)

end Sys2Proof.Machine
end

