-- ==== Sys2Proof/Machine/Touch.lean ====
section
/-! DEFINITION. Capacitive touch (chapter 18, R287–R302): scan frames, baselines, contacts, reports, zones, self-tests and
wake gestures. -/

namespace Sys2Proof.Machine

/-! ### Front ends (R287) -/

def Chip.tch1 (c : Chip) (n : Nat) : Tch := c.tch.getD n {}

/-- Front end `n` leads a combined panel. -/
def Chip.tchLead (c : Chip) (n : Nat) : Bool := n % 2 == 0 && c.flag (R.TCH_CFG.TF_CFG.COMBINE n)

/-- Front end `n` is the partner of a combined pair. -/
def Chip.tchPartner (c : Chip) (n : Nat) : Bool := n % 2 == 1 && c.tchLead (n - 1)

/-- Drive lines of the panel. -/
def Chip.tchNd (c : Chip) (n : Nat) : Nat := if c.tchLead n then 112 else 56

/-- The connector position of a drive line; a partner's drive lines follow the lead's 92 positions. -/
def drivePos (d : Nat) : Nat := if d < 56 then d else 92 + (d - 56)

/-- Self phase of the present frame: none in VIGIL (R301). -/
def Chip.tchSelf (c : Chip) (n : Nat) : Bool := c.flag (R.TCH_CFG.TF_CFG.SELF_EN n) && c.mode != Mode.VIGIL

/-- The front end reports nothing: the bridge is down, its hold state lasts (R11), or the compute die is off. -/
def Chip.tchQuiet (c : Chip) (n : Nat) : Bool :=
  !c.brg.up || c.brg.hold.contains (0x1A8 + 2 * n) || c.mode == Mode.VIGIL

/-- REF_VALID (R291). -/
def Chip.tchRefOk (c : Chip) (n : Nat) : Bool :=
  match (c.tch1 n).ref with
  | none => false
  | some b => b.nd == c.tchNd n && b.swing == c.get (R.TCH_CFG.TF_CFG.SWING n) && b.stepUs == c.get (R.TCH_CFG.TIMING.STEP_US n)
      && b.selfUs == c.get (R.TCH_CFG.TIMING.SELF_US n)

/-- TF_STAT follows the front end. -/
def Chip.tchShow (c : Chip) (n : Nat) : Chip :=
  let t := c.tch1 n
  let held := !c.brg.up || c.brg.hold.contains (0x1A8 + 2 * n)
  let st := if held && (t.phase == 2 || t.phase == 3) then 4 else t.phase
  let c := (c.set (R.TCH_ST.TF_STAT.STATE n) st).set (R.TCH_ST.TF_STAT.CONTACTS n) t.contacts.length
  let c := c.set (R.TCH_ST.TF_STAT.HELD_START n) (b2n (t.contacts.any fun x => x.2.heldStart))
  (c.set (R.TCH_ST.TF_STAT.REF_VALID n) (b2n (c.tchRefOk n))).set (R.TCH_ST.TF_STAT.PARTNER n) (b2n (c.tchPartner n))

def Chip.setTch (c : Chip) (n : Nat) (t : Tch) : Chip := { c with tch := c.tch.put {} n t }.tchShow n

/-! ### Reports (R297, R298, R351) -/

/-- The port of the path to device `d` with fewer hops, JL0 on a tie (R347); none where `d` is not reachable. -/
def Chip.linkBest (c : Chip) (d : Nat) : Option Nat :=
  match (c.get R.LNK.TOPO.REACH0).testBit d, (c.get R.LNK.TOPO.REACH1).testBit d with
  | false, false => none
  | true, false => some 0
  | false, true => some 1
  | true, true => some (if c.get (R.LNK_PORT.PORT_STAT.NEIGHBOUR 0) ≠ d ∧ c.get (R.LNK_PORT.PORT_STAT.NEIGHBOUR 1) = d then 1 else 0)

/-- The port of the requests to device `d` that have no response yet. -/
def Chip.linkOld (c : Chip) (d : Nat) : Option Nat :=
  match c.lnk.reqs.find? fun q => q.dev == d with
  | some q => some q.port
  | none => (c.lnk.layers.find? fun q => q.dev == d).map (·.port)

/-- The port a message to device `d` takes (R347): that of the shortest path, which a change gives new requests only once every request outstanding on
the old path has been answered. -/
def Chip.linkPath (c : Chip) (d : Nat) : Option Nat :=
  match c.linkOld d with
  | some p => if (c.get (if p = 0 then R.LNK.TOPO.REACH0 else R.LNK.TOPO.REACH1)).testBit d then some p else c.linkBest d
  | none => c.linkBest d

/-- Send a message to each device of a mask. A forwarded event (R351) for a device that is not reachable is counted as lost. -/
def Chip.linkSend (c : Chip) (devs kind tag addr : Nat) (body : List Byte) : Chip :=
  let me := c.get R.SYS_BOOT.STRAPS.DEVID
  forN 4 c fun d c =>
    if !devs.testBit d then c
    else if let some p := c.linkPath d then
      { c with lnk := { c.lnk with out := c.lnk.out ++ [{ port := p, kind := kind, src := me, dst := d, tag := tag, addr := addr, body := body }] } }
    else if kind = 2 ∨ kind = 3 then c.bump R.LNK.EVT_FWD_LOST.COUNT
    else c

/-- An event of front end `n` goes to its ring, and where it is forwarded to the other devices. -/
def Chip.tchEvent (c : Chip) (n status x y area id st : Nat) (resync : Bool) : Chip :=
  if c.tchQuiet n then c
  else
    let res := leBytes 2 x ++ leBytes 2 y ++ leBytes 2 area ++ leBytes 1 (id + 16 * n + 64 * b2n resync) ++ leBytes 1 st
      ++ leBytes 4 (c.get (R.TCH_ST.SCAN_FRAME.COUNT n))
    let ring := c.get (R.TCH_ST.SUBSCR.RING n)
    let sub := c.get (R.TCH_ST.SUBSCR.NONE n) = 0
    let c := if sub then c.ringEvent ring status res false else c
    if c.flag (R.LNK_FWD.TCH_FWD.TOUCH n) ∧ status ≠ 0x24 then
      let seq := if sub then c.doneSeq ring else 0
      c.linkSend (c.get (R.LNK_FWD.TCH_FWD.DEVS n)) 3 0 0
        (leBytes 1 status ++ leBytes 1 6 ++ leBytes 1 ring ++ leBytes 1 5 ++ leBytes 4 seq ++ leBytes 8 c.stamp ++ leBytes 4 0 ++ res)
    else c

/-- A contact's event. -/
def Chip.contactEvent (c : Chip) (n k : Nat) (x : Contact) (st : Nat) (resync : Bool) : Chip :=
  c.tchEvent n 0x22 x.x x.y x.area k st resync

/-- Every live contact of front end `n` is reported UP and ends. -/
def Chip.tchLift (c : Chip) (n : Nat) (resync : Bool) : Chip :=
  let t := c.tch1 n
  let c := t.contacts.foldl (fun c x => c.contactEvent n x.1 x.2 2 resync) c
  c.setTch n { c.tch1 n with contacts := [] }

/-! ### Settling (R291) -/

/-- TF_STAT.WATER follows the regions (R294). -/
def Chip.tchDry (c : Chip) (n : Nat) : Chip := c.set (R.TCH_ST.TF_STAT.WATER n) 0

/-- Settling begins. The live contacts are reported UP at the end of its first frame (R293). -/
def Chip.tchSettle (c : Chip) (n : Nat) (check : Bool) : Chip :=
  let c := c.tchDry n
  let t := c.tch1 n
  let t := { t with phase := 2, measuring := false, settled := 0, sumM := [], sumS := [], startCheck := check, baseM := [], baseS := [] }
  c.setTch n { t with negM := [], negS := [], credit := 0 }

/-- `l` cut or filled with zeros to `n` numbers. -/
def padNat (n : Nat) (l : List Nat) : List Nat := (l ++ List.replicate n 0).take n

/-- Sums, element by element; an empty list stands for zeros. -/
def addLists (a b : List Nat) : List Nat := if a = [] then b else List.zipWith (· + ·) a b

/-! ### Regions (R294) -/

/-- Nodes that adjoin along a line. -/
def adjacent (a b : Nat) : Bool :=
  (a / 36 == b / 36 && (a + 1 == b || b + 1 == a)) || (a % 36 == b % 36 && (a + 36 == b || b + 36 == a))

/-- Everything of `pool` connected to `front`. -/
def growRegion (fuel : Nat) (front region pool : List Nat) : List Nat × List Nat :=
  match fuel with
  | 0 => (region ++ front, pool)
  | k + 1 =>
    if front = [] then (region, pool)
    else growRegion k (pool.filter fun x => front.any (adjacent x)) (region ++ front) (pool.filter fun x => !front.any (adjacent x))

/-- The connected regions of a set of nodes. -/
def regionsOf (fuel : Nat) (pool : List Nat) : List (List Nat) :=
  match fuel, pool with
  | 0, _ => []
  | _, [] => []
  | k + 1, p :: rest =>
    let g := growRegion (rest.length + 2) [p] [] rest
    g.1 :: regionsOf k g.2

/-- The indices at which a list meets `p`. -/
def whereIs (l : List Int) (p : Int → Bool) : List Nat := (l.zipIdx.filter fun x => p x.1).map fun x => x.2

/-- The peak of a region: its node of greatest delta, the lowest on a tie. -/
def peakOf (delta : List Int) (region : List Nat) : Nat :=
  region.foldl (fun p i => if delta.getD p 0 < delta.getD i 0 ∨ (delta.getD i 0 = delta.getD p 0 ∧ i < p) then i else p) (region.headD 0)

/-- The delta-weighted centroid of the 3 × 3 nodes around `p`: sums of weights, of drive × weight and of sense × weight. -/
def centroid (nd : Nat) (delta : List Int) (p : Nat) : Int × Int × Int :=
  (List.range 9).foldl (fun a i =>
    let d : Int := (p / 36 : Nat) + (i / 3 : Nat) - 1
    let s : Int := (p % 36 : Nat) + (i % 3 : Nat) - 1
    if 0 ≤ d ∧ d < nd ∧ 0 ≤ s ∧ s < 36 then
      let w := delta.getD (d.toNat * 36 + s.toNat) 0
      (a.1 + w, a.2.1 + d * w, a.2.2 + s * w)
    else a) (0, 0, 0)

/-- round(c × 65535 / m) of a centroid c = num / den, none where the weights give no place on the panel. -/
def coordOf (num den : Int) (m : Nat) : Option Nat :=
  if den ≤ 0 ∨ num < 0 ∨ (m : Int) * den < num then none
  else some ((2 * num * 65535 + m * den) / (2 * m * den)).toNat

/-- A contact formed from a region. The spec gives no position where the centroid has none: it is free. -/
def Chip.formContact (c : Chip) (nd : Nat) (delta : List Int) (region : List Nat) : Contact × Chip :=
  let p := peakOf delta region
  let g := centroid nd delta p
  let fx := c.fresh 16
  let fy := fx.2.fresh 16
  match coordOf g.2.1 g.1 (nd - 1), coordOf g.2.2 g.1 35 with
  | some x, some y =>
    ({ x := x, y := y, area := region.length, peak := delta.getD p 0, lastX := x, lastY := y, since := c.ps, nodes := region }, c)
  | _, _ =>
    let x := fx.1
    let y := fy.1
    ({ x := x, y := y, area := region.length, peak := delta.getD p 0, lastX := x, lastY := y, since := c.ps, nodes := region }, fy.2)

/-- Contacts of several regions. -/
def Chip.formContacts (c : Chip) (nd : Nat) (delta : List Int) (l : List (List Nat)) : List Contact × Chip :=
  l.foldl (fun a r => let f := a.2.formContact nd delta r; (a.1 ++ [f.1], f.2)) ([], c)

/-- Insert in order of a key. -/
def insBy {α : Type} (key : α → Nat) (x : α) (l : List α) : List α :=
  match l with
  | [] => [x]
  | y :: rest => if key x < key y then x :: y :: rest else y :: insBy key x rest

/-- Stable sort by a key, ascending. -/
def sortBy {α : Type} (key : α → Nat) (l : List α) : List α := l.foldl (fun a x => insBy key x a) []

/-- New contacts in descending order of peak. -/
def byPeak (l : List Contact) : List Contact := sortBy (fun x => 0x20000 - (x.peak + 0x10000).toNat) l

/-- Pairs (slot, candidate) by ascending distance, a tie to the lower slot (R294). -/
def matchPairs (limit : Nat) (old : SMap Contact) (cand : List Contact) : List (Nat × Nat) :=
  let dist := fun (a b : Contact) => ((a.x : Int) - b.x).natAbs ^ 2 + ((a.y : Int) - b.y).natAbs ^ 2
  let all := (old.map fun o => cand.zipIdx.map fun x => (dist o.2 x.1, o.1, x.2)).flatten
  let near := sortBy (fun x => x.1 * 16 + x.2.1) (all.filter fun x => x.1 ≤ limit ^ 2)
  near.foldl (fun a x => if a.any (fun y => y.1 == x.2.1 || y.2 == x.2.2) then a else a ++ [(x.2.1, x.2.2)]) []

/-- Put new contacts into the lowest free slots; what does not fit is counted. -/
def placeNew (old : SMap Contact) (l : List Contact) : SMap Contact × List Nat × Nat :=
  l.foldl (fun a x =>
    match firstIdx 10 fun k => (a.1.find? k).isNone with
    | some k => (a.1.insert k x, a.2.1 ++ [k], a.2.2)
    | none => (a.1, a.2.1, a.2.2 + 1)) (old, [], 0)

/-! ### Zones (R299) -/

/-- The first enabled zone that holds a position. -/
def Chip.tchZone (c : Chip) (n x y : Nat) : Option Nat :=
  firstIdx 64 fun z => c.flag (R.TCH_CFG.ZONE_ACT.EN n z)
    && decide (c.get (R.TCH_CFG.ZONE_X.LO n z) ≤ x) && decide (x ≤ c.get (R.TCH_CFG.ZONE_X.HI n z))
    && decide (c.get (R.TCH_CFG.ZONE_Y.LO n z) ≤ y) && decide (y ≤ c.get (R.TCH_CFG.ZONE_Y.HI n z))

/-- ZONE_TRIGGER (R299): a touch-down acts on its zone. -/
def Chip.zoneAct (c : Chip) (n x y : Nat) : Chip :=
  if c.mode = Mode.VIGIL then c
  else match c.tchZone n x y with
  | none => c
  | some z =>
    let c := c.bump (R.TCH_ST.ZONE_TRIG.COUNT n)
    let eff := c.get (R.TCH_CFG.ZONE_ACT.EFFECT n z)
    let prio := c.get (R.TCH_CFG.ZONE_ACT.PRIO n z)
    let c := if c.flag (R.TCH_CFG.ZONE_ACT.HAPTIC n z) then
        let c := c.hapZone n z eff prio
        if c.flag (R.LNK_FWD.TCH_FWD.HAP n) then
          c.linkSend (c.get (R.LNK_FWD.TCH_FWD.DEVS n)) 2 0 0 (leBytes 1 eff ++ leBytes 1 prio ++ leBytes 1 n ++ leBytes 1 z)
        else c
      else c
    if c.flag (R.TCH_CFG.ZONE_ACT.CHIME n z) ∧ c.brg.up then
      c.chimeReq (c.get (R.TCH_CFG.ZONE_ACT.BUS n z)) (c.get (R.TCH_CFG.ZONE_ACT.CHIME_IDX n z)) 1 none
    else c

/-! ### Gestures (R301) -/

/-- At most `ms` milliseconds have passed since `t`. -/
def Chip.within (c : Chip) (t ms : Nat) : Bool := decide (c.ps ≤ t + ms * 1000000000)

/-- A time of `ms` milliseconds has passed since `t`. -/
def Chip.since (c : Chip) (t ms : Nat) : Bool := decide (t + ms * 1000000000 ≤ c.ps)

/-- The gesture that wakes has been seen; `lifted` are the contacts that ended in this frame. -/
def Chip.gestureSeen (c : Chip) (n : Nat) (t : Tch) (lifted : List Contact) : Bool :=
  let live := t.contacts.filter fun x => !t.ignore.contains x.1
  let g := c.get (R.TCH_CFG.WAKE.GESTURE n)
  if g = 0 then decide (2 ≤ (live.filter fun x => c.since x.2.since 800).length)
  else if g = 1 then live.any fun x => t.swipe.any fun p =>
      p.1 == x.1 && decide (65535 ≤ 2 * ((p.2.2 : Int) - x.2.x).natAbs)
  else if g = 2 then
    match t.tap with
    | none => false
    | some (t0, x0, y0) => lifted.any fun (x : Contact) => c.within x.since 200 && c.within t0 400
        && decide (((x.x : Int) - x0).natAbs ≤ 0x1000) && decide (((x.y : Int) - y0).natAbs ≤ 0x1000)
  else match t.gFrom with
    | none => false
    | some t0 => c.since t0 300

/-- WAKE_GESTURE (R301): follow the gesture of the front end that scans in VIGIL. -/
def Chip.gesture (c : Chip) (n : Nat) (delta : List Int) (lifted : List (Nat × Contact)) : Chip :=
  if c.mode ≠ Mode.VIGIL then c
  else
    let t := c.tch1 n
    let counted := (lifted.filter fun x => !t.ignore.contains x.1).map fun x => x.2
    let high := (whereIs delta fun d => decide ((c.get (R.TCH_CFG.THRESH.TOUCH_TH n) : Int) ≤ d)).length
    let palm := decide (delta.length ≤ 4 * high) && delta != []
    let t := { t with ignore := t.ignore.filter (fun k => (t.contacts.find? k).isSome && !lifted.any (fun x => x.1 == k)) }
    let trail := t.contacts.map fun x => (x.1, c.ps, x.2.x)
    let t := { t with swipe := (t.swipe.filter fun (p : Nat × Nat × Nat) => c.within p.2.1 500 && (t.contacts.find? p.1).isSome) ++ trail }
    let t := { t with gFrom := if palm then some (t.gFrom.getD c.ps) else none }
    let seen := c.gestureSeen n t counted
    let tap := counted.foldl (fun a x => if c.within x.since 200 then some (x.since, x.x, x.y) else a) t.tap
    let c := c.setTch n { t with tap := tap }
    if seen ∧ c.flag (R.TCH_CFG.WAKE.WAKE_SRC n) ∧ c.flag R.SYS_MODE.VIGIL_CFG.WK_TOUCH ∧ !c.flag R.SYS_MODE.MODE_STAT.BUSY ∧ c.pow.wake.isNone then
      { c with pow := { c.pow with wake := some 4 } }
    else c

/-! ### Scan frames (R290) -/

/-- Measurement time M in µs. -/
def Chip.tchM (c : Chip) (n : Nat) : Nat :=
  c.tchNd n * c.get (R.TCH_CFG.TIMING.STEP_US n) + (if c.tchSelf n then c.get (R.TCH_CFG.TIMING.SELF_US n) else 0)

/-- Time between scan frames in FREE mode, in ps. -/
def Chip.tchPeriod (c : Chip) (n : Nat) : Nat :=
  1000000000000 / (if c.mode = Mode.VIGIL then 25 else c.get (R.TCH_CFG.TF_CFG.RATE_HZ n))

/-- Scan frames start by rate. -/
def Chip.tchFree (c : Chip) (n : Nat) : Bool := c.mode == Mode.VIGIL || !c.flag (R.TCH_CFG.TF_CFG.MODE n)

/-- Front end `n` may begin a scan frame: a pending set of its page latches first (R40). -/
def Chip.scanReady (c : Chip) (n : Nat) : Bool :=
  let t := c.tch1 n
  (t.phase == 2 || t.phase == 3) && !t.measuring && !c.tchPartner n && (c.stage (0x1A8 + 2 * n)).pendBy.isNone
    && (c.mode != Mode.VIGIL || (c.flag (R.TCH_CFG.WAKE.WAKE_SRC n) && c.flag R.SYS_MODE.VIGIL_CFG.WK_TOUCH))
    && (if c.tchFree n then (match t.startAt with | some t0 => decide (t0 + c.tchPeriod n ≤ c.ps) | none => true) else t.window)

/-- SCAN_FRAME_START (R290). -/
def execScanFrameStart (n : Nat) (s : State) : Host.Outcome State Fault Refusal :=
  s.on (n < 4) fun c => c.when (c.scanReady n) fun c => c.setTch n { c.tch1 n with measuring := true, startAt := some c.ps, done := 0, runAt := c.ps }

/-- Lines of the window's base begun so far. -/
def Chip.baseCount (c : Chip) (b : Nat) : Nat :=
  if b < 8 then c.led.lineNo else (c.baseNow b).1 * (c.baseNow b).2.2.1 + (c.baseNow b).2.1

/-- Measurement of the present frame done so far, in ps: in LOCKED mode what was done in earlier windows and, in an open one, since it opened. -/
def Chip.tchDone (c : Chip) (n : Nat) : Nat :=
  let t := c.tch1 n
  t.done + if c.tchFree n || t.window then c.ps - t.runAt else 0

/-- What of `e` ps of measurement stands when a window closes after the frame had done `d`: whole drive steps, and the self phase only as a whole. -/
def Chip.tchWhole (c : Chip) (n d e : Nat) : Nat :=
  let step := c.get (R.TCH_CFG.TIMING.STEP_US n) * 1000000
  let all := c.tchNd n * step
  if c.tchM n * 1000000 ≤ d + e then c.tchM n * 1000000 else min all (d + e / step * step)

/-- TOUCH_WINDOW (R28, R290): a scan window opens, and a frame that was under way goes on. -/
def Chip.tchWindow (c : Chip) (n len : Nat) : Chip :=
  c.setTch n { c.tch1 n with window := true, runAt := c.ps, winEnd := c.baseCount (c.get (R.TCH_CFG.WINDOW.BASE n)) + len }

/-- TOUCH_WINDOW_CLOSE (R290): LEN lines have passed, or the base has stopped; the next drive step waits for the next window. -/
def execTouchWindowClose (n : Nat) (s : State) : Host.Outcome State Fault Refusal :=
  s.on (n < 4) fun c =>
    let t := c.tch1 n
    let b := c.get (R.TCH_CFG.WINDOW.BASE n)
    c.when (t.window && (decide (t.winEnd ≤ c.baseCount b) || !(c.baseNow b).2.2.2)) fun c =>
      (c.setTch n { t with window := false, done := if t.measuring then c.tchWhole n t.done (c.ps - t.runAt) else 0 }).when (t.phase == 2 || t.phase == 3) fun c => c.bump (R.TCH_ST.WIN_STALL.COUNT n)

/-- Raw values saturate at 0xFFFF. -/
def rawSat (v : Int) : Nat := (max 0 (min 0xFFFF v)).toNat

/-- The mutual raw values of a frame: TCH_INJ adds its DELTA to one node (R371). -/
def Chip.tchRaw (c : Chip) (n : Nat) (l : List Nat) : List Nat :=
  let node := c.get R.PTB_PERTURB.TCH_INJ.DRIVE * 36 + c.get R.PTB_PERTURB.TCH_INJ.SENSE
  let on := c.flag R.PTB_PERTURB.TCH_INJ.EN && c.get R.PTB_PERTURB.TCH_INJ.TF == n
  (padNat (c.tchNd n * 36) l).zipIdx.map fun x =>
    rawSat ((x.1 : Int) + if on && x.2 == node then sext 12 (c.get R.PTB_PERTURB.TCH_INJ.DELTA) else 0)

/-- The nodes of faulty lines read delta 0 (R300). -/
def maskFaulty (faulty : List Nat) (l : List Int) : List Int :=
  l.zipIdx.map fun x => if faulty.contains (drivePos (x.2 / 36)) || faulty.contains (56 + x.2 % 36) then 0 else x.1

/-- The deltas of a frame. -/
def tchDelta (faulty : List Nat) (raw : List Nat) (base : List Int) : List Int :=
  maskFaulty faulty (List.zipWith (fun (r : Nat) b => (r : Int) - b) raw base)

/-- The deltas of the self lines. -/
def selfDelta (raw : List Nat) (base : List Int) : List Int := List.zipWith (fun (r : Nat) b => (r : Int) - b) raw base

/-- Give nodes their raw value as baseline. -/
def rebaseAt (nodes : List Nat) (raw : List Nat) (base : List Int) : List Int :=
  base.zipIdx.map fun x => if nodes.contains x.2 then (raw.getD x.2 0 : Int) else x.1

/-- `k` free 16-bit values. -/
def Chip.freshList (c : Chip) (k : Nat) : List Nat × Chip :=
  ((List.range k).map fun i => (Config.freeValue (c.free + i)).toNat % 65536, { c with free := c.free + k })

/-- RAW requests are answered with the frame's values (R295); values that do not exist yet are free. -/
def Chip.tchRaws (c : Chip) (m : Mems) (n : Nat) (raw self : List Nat) (dM dS : List Int) : Chip × Mems :=
  let t := c.tch1 n
  let nd := c.tchNd n
  let c := c.setTch n { t with raws := [] }
  t.raws.foldl (fun a q =>
    let f1 := a.1.freshList (nd * 36)
    let f2 := f1.2.freshList (nd + 36)
    let known := t.baseM != []
    let vM := if q.kind = 0 then raw else if !known then f1.1 else if q.kind = 1 then t.baseM.map (toBits 16) else dM.map (toBits 16)
    let vS := if !c.tchSelf n || (q.kind != 0 && !known) then f2.1
      else if q.kind = 0 then self else if q.kind = 1 then t.baseS.map (toBits 16) else dS.map (toBits 16)
    let bytes := ((vM ++ vS).map (leBytes 2)).flatten
    (f2.2.finish q.ring q.seq E.NONE []).dramPut a.2 q.addr bytes) (c, m)

/-- Entries that wait for settling to end complete. -/
def Chip.recalDone (c : Chip) (n : Nat) : Chip :=
  let t := c.tch1 n
  t.recals.foldl (fun c e => c.finish e.1 e.2 E.NONE []) (c.setTch n { t with recals := [] })

/-- The first baseline (R291): with a valid reference, suspect nodes take the reference and their regions are contacts held
at start. -/
def Chip.tchFirstBase (c : Chip) (n : Nat) (t : Tch) : Chip :=
  let avg := fun (l : List Nat) => l.map fun s => (((s + 2) / 4 : Nat) : Int)
  let bM := avg t.sumM
  let bS := avg t.sumS
  let sus : Int := c.get (R.TCH_CFG.BASE_CFG.BASE_SUSPECT n)
  match c.tchRefOk n && t.startCheck, t.ref with
  | true, some b =>
    let diff := List.zipWith (fun x (y : Nat) => x - (y : Int)) bM b.nodes
    let diff := maskFaulty t.faulty diff
    let regs := regionsOf diff.length (whereIs diff fun d => decide (sus < d))
    let pick := fun (l : List Int) (r : List Nat) => List.zipWith (fun x (y : Nat) => if (y : Int) + sus < x then (y : Int) else x) l r
    let f := c.formContacts (c.tchNd n) diff regs
    let held : List Contact := f.1.map fun (x : Contact) => { x with heldStart := true, st := 3 }
    let placed := placeNew [] (byPeak held)
    let below := (whereIs diff fun d => decide (d < -sus)).length
    let c := f.2.setTch n { t with phase := 3, baseM := pick bM b.nodes, baseS := pick bS b.self, contacts := placed.1, lastEnd := c.ps }
    let c := (c.addSat (R.TCH_ST.SUSPECT_CNT.COUNT n) (regs.length + below)).addSat (R.TCH_ST.OVER_CNT.COUNT n) placed.2.2
    let c := if regs = [] then c else c.raise (0x1A9 + 2 * n) 2
    let c := placed.1.foldl (fun c x => c.contactEvent n x.1 x.2 3 false) c
    c.set (R.TCH_ST.TF_STAT.UNCHECKED n) 0
  | _, _ =>
    let c := c.setTch n { t with phase := 3, baseM := bM, baseS := bS, lastEnd := c.ps }
    if c.tchRefOk n then c else c.set (R.TCH_ST.TF_STAT.UNCHECKED n) 1

/-- A frame of settling. -/
def Chip.settleFrame (c : Chip) (n : Nat) (raw self : List Nat) : Chip :=
  let t := c.tch1 n
  let c := if t.settled = 0 then c.tchLift n false else c
  let t := c.tch1 n
  let t := { t with settled := t.settled + 1, sumM := addLists t.sumM raw, sumS := addLists t.sumS self }
  if t.settled < 4 then c.setTch n t else (c.tchFirstBase n t).recalDone n

/-- Strong negative swing (R292): regions that stay below −NEG_TH for two frames take their raw values. -/
def Chip.tchNegative (c : Chip) (n : Nat) (raw self : List Nat) (dM dS : List Int) : Chip :=
  let t := c.tch1 n
  let lim : Int := c.get (R.TCH_CFG.THRESH2.NEG_TH n)
  let nM := whereIs dM fun d => decide (d ≤ -lim)
  let nS := whereIs dS fun d => decide (d ≤ -lim)
  let regs := regionsOf dM.length (nM.filter fun i => t.negM.contains i)
  let lines := nS.filter fun i => t.negS.contains i
  let k := regs.length + lines.length
  let c := c.setTch n { t with baseM := rebaseAt regs.flatten raw t.baseM, baseS := rebaseAt lines self t.baseS, negM := nM, negS := nS }
  if k = 0 then c else (c.addSat (R.TCH_ST.REBASE_CNT.COUNT n) k).raise (0x1A9 + 2 * n) 5

/-- A candidate is kept: some drive line and some sense line of it show a self delta (R294 step 2). -/
def Chip.tchKept (c : Chip) (n : Nat) (dS : List Int) (region : List Nat) : Bool :=
  let th : Int := c.get (R.TCH_CFG.THRESH2.SELF_TH n)
  !c.tchSelf n ||
    ((region.any fun i => decide (th ≤ dS.getD (drivePos (i / 36)) 0)) && (region.any fun i => decide (th ≤ dS.getD (56 + i % 36) 0)))

/-- TF_STAT.WATER and its counter (R294). -/
def Chip.tchWater (c : Chip) (n : Nat) (water : Bool) : Chip :=
  let was := c.flag (R.TCH_ST.TF_STAT.WATER n)
  let c := c.set (R.TCH_ST.TF_STAT.WATER n) (b2n water)
  let c := if water then c.bump (R.TCH_ST.WATER_FRAMES.COUNT n) else c
  if water && !was then c.raise (0x1A9 + 2 * n) 4 else c

/-- Tracking (R292): nodes outside the water regions, the regions of contacts (`frozen`) and what adjoins those move toward their raw value; the loop follows the mean delta. -/
def Chip.tchTrack (c : Chip) (n : Nat) (raw self : List Nat) (dM : List Int) (frozen water : List Nat) : Chip :=
  let t := c.tch1 n
  let dt := if c.tchFree n then c.tchPeriod n else c.ps - t.lastEnd
  let earned := t.credit + c.loop 4 * dt
  let step : Int := (earned / 1000000000000 : Nat)
  let move := fun (b : Int) (r : Nat) => b + max (-step) (min step ((r : Int) - b))
  let frozenAt := fun i => water.contains i || frozen.any fun j => i == j || adjacent i j
  let lines := ((frozen ++ water).map fun j => [drivePos (j / 36), 56 + j % 36]).flatten
  let bM := (List.zipWith (fun b r => (b, r)) t.baseM raw).zipIdx.map fun x => if frozenAt x.2 then x.1.1 else move x.1.1 x.1.2
  let bS := if c.tchSelf n then
      (List.zipWith (fun b r => (b, r)) t.baseS self).zipIdx.map fun x => if lines.contains x.2 then x.1.1 else move x.1.1 x.1.2
    else t.baseS
  let free := (dM.zipIdx.filter fun x => !frozenAt x.2).map fun x => x.1.natAbs
  let sum := free.foldl (· + ·) 0
  let up := c.get (R.TCH_CFG.THRESH.TOUCH_TH n) * free.length < 4 * sum
  let c := c.setTch n { t with baseM := bM, baseS := bS, credit := earned % 1000000000000, lastEnd := c.ps }
  c.loopStep 4 ((c.loop 4 : Int) + if up then 1 else -1)

/-- Contacts of a frame (R294) and their events (R297, R298). -/
def Chip.tchContacts (c : Chip) (n : Nat) (delta : List Int) (kept : List (List Nat)) : Chip :=
  let t := c.tch1 n
  let f := c.formContacts (c.tchNd n) delta kept
  let cand := f.1
  let c := f.2
  let pairs := matchPairs (c.get (R.TCH_CFG.TRACK.MATCH_DIST n)) t.contacts cand
  let lifted := t.contacts.filter fun x => !pairs.any fun p => p.1 == x.1
  let stay : SMap Contact := (t.contacts.filter fun x => pairs.any fun p => p.1 == x.1).map fun x =>
    match pairs.find? fun p => p.1 == x.1 with
    | some p =>
      match cand[p.2]? with
      | some y => (x.1, { x.2 with x := y.x, y := y.y, area := y.area, peak := y.peak, nodes := y.nodes })
      | none => x
    | none => x
  let fresh := (cand.zipIdx.filter fun x => !pairs.any fun p => p.2 == x.2).map fun x => x.1
  let placed := placeNew stay (byPeak fresh)
  let c := (c.setTch n { t with contacts := placed.1 }).addSat (R.TCH_ST.OVER_CNT.COUNT n) placed.2.2
  let c := lifted.foldl (fun c x => c.contactEvent n x.1 x.2 2 false) c
  let ring := c.get (R.TCH_ST.SUBSCR.RING n)
  let full := !c.tchQuiet n && (t.resync || (c.get (R.TCH_ST.SUBSCR.NONE n) == 0 && c.imx.resync.contains ring))
  let lim := c.get (R.TCH_CFG.TRACK.MOVE_MIN n)
  let news := sortBy id placed.2.1
  let report := fun (c : Chip) (k : Nat) (x : Contact) (st : Nat) =>
    let c := c.contactEvent n k x st full
    let t := c.tch1 n
    c.setTch n { t with contacts := t.contacts.insert k { x with lastX := x.x, lastY := x.y, st := st } }
  let c := stay.foldl (fun c x =>
    if full then report c x.1 x.2 0
    else if lim ≤ ((x.2.x : Int) - x.2.lastX).natAbs ∨ lim ≤ ((x.2.y : Int) - x.2.lastY).natAbs then report c x.1 x.2 1 else c) c
  let c := news.foldl (fun c k => match placed.1.find? k with | some x => report c k x 0 | none => c) c
  let c := if full then
      let c := c.setTch n { c.tch1 n with resync := false }
      { c with imx := { c.imx with resync := c.imx.resync.filter (· ≠ ring) } }
    else c
  let c := news.foldl (fun c k => match placed.1.find? k with
    | some x => (c.bump (R.TCH_ST.DOWN_CNT.COUNT n)).zoneAct n x.x x.y
    | none => c) c
  c.gesture n delta lifted

/-- A frame of scanning: lift-off of fingers in the baseline, candidates, water, contacts, tracking. -/
def Chip.scanFrame (c : Chip) (m : Mems) (n : Nat) (raw self : List Nat) : Chip × Mems :=
  let t := c.tch1 n
  let dM := tchDelta t.faulty raw t.baseM
  let dS := selfDelta self t.baseS
  let q := c.tchRaws m n raw self dM dS
  let c := q.1.tchNegative n raw self dM (if c.tchSelf n then dS else [])
  let t := c.tch1 n
  let dM := tchDelta t.faulty raw t.baseM
  let dS := selfDelta self t.baseS
  let rel : Int := c.get (R.TCH_CFG.THRESH.RELEASE_TH n)
  let th : Int := c.get (R.TCH_CFG.THRESH.TOUCH_TH n)
  let cand := (regionsOf dM.length (whereIs dM fun d => decide (rel ≤ d))).filter fun r => r.any fun i => decide (th ≤ dM.getD i 0)
  let kept := cand.filter (c.tchKept n dS)
  let water := cand.filter fun r => !c.tchKept n dS r
  let c := c.tchWater n (water != [])
  let c := c.tchContacts n dM kept
  let frozen := ((c.tch1 n).contacts.map fun x => x.2.nodes).flatten
  (c.tchTrack n raw self dM frozen water.flatten, q.2)

/-- SCAN_FRAME_END (R291–R299): the frame's raw values are known. -/
def Chip.frameEnd (c : Chip) (m : Mems) (n : Nat) (nodes lines : List Nat) : Chip × Mems :=
  let t := c.tch1 n
  let due := decide (c.tchM n * 1000000 ≤ c.tchDone n)
  if !t.measuring || !due then (c, m)
  else
    let raw := c.tchRaw n nodes
    let ss := padNat (c.tchNd n + 36) (lines.map fun v => min v 0xFFFF)
    let c := c.setTch n { t with measuring := false }
    let c := (c.wrap (R.TCH_ST.SCAN_FRAME.COUNT n)).bump (R.TCH_ST.FRAMES.COUNT n)
    if t.phase = 2 then
      let q := c.tchRaws m n raw ss [] []
      (q.1.settleFrame n raw ss, q.2)
    else c.scanFrame m n raw ss

/-- SCAN_FRAME_END (R294): `nodes` and `lines` are the counts measured, in the order of R296. -/
def execScanFrameEnd (n : Nat) (nodes lines : List Nat) (s : State) : Host.Outcome State Fault Refusal :=
  s.onMem (n < 4) fun c m => c.frameEnd m n nodes lines

/-- STUCK_TOUCH (R293). -/
def execStuckTouch (n k : Nat) (s : State) : Host.Outcome State Fault Refusal :=
  s.on (n < 4) fun c =>
    match (c.tch1 n).contacts.find? k with
    | none => c
    | some x =>
      let hold := c.get (R.TCH_CFG.BASE_CFG.HOLD_S n)
      if hold = 0 ∨ x.stuck ∨ !c.since x.since (hold * 1000) then c
      else
        let t := c.tch1 n
        let c := c.setTch n { t with contacts := t.contacts.insert k { x with stuck := true } }
        let c := ((c.raise (0x1A9 + 2 * n) 3).bump (R.TCH_ST.STUCK_CNT.COUNT n)).tchEvent n 0x23 x.x x.y x.area k x.st false
        c.record 0x1301 n (parBytes 2 k ++ parBytes 2 x.x ++ parBytes 2 x.y)

/-! ### Self-test (R300) -/

/-- The test begins. -/
def Chip.tchTest (c : Chip) (n : Nat) : Chip :=
  let c := (c.tchLift n false).tchDry n
  c.setTch n { c.tch1 n with phase := 1, measuring := false }

/-- The self-profile test of REVERSED: positions k where `a` and `b` differ by over 25 %, and those within 25 % mirrored. -/
def reversedBy (self ref : List Nat) : Bool :=
  let far := fun (v r : Nat) => decide (r < 4 * ((v : Int) - r).natAbs)
  let wrong := (List.range 92).filter fun k => far (self.getD k 0) (ref.getD k 0)
  let mirror := (List.range 92).filter fun k => !far (self.getD k 0) (ref.getD (91 - k) 0)
  decide (46 < wrong.length) && decide (69 < mirror.length)

/-- The lines of a set as a mask of 92 connector positions. -/
def lineMask (l : List Nat) (base : Nat) : Nat :=
  (List.range 92).foldl (fun m k => if l.contains (base + k) then m ||| 1 <<< k else m) 0

/-- FAULT_MAP of front end `n`. -/
def Chip.setFaultMap (c : Chip) (n mask : Nat) : Chip := forN 3 c fun i c => c.set (R.TCH_ST.FAULT_MAP.LINES n i) (bits mask (32 * i) 32)

/-- SELF_TEST_DONE (R300). `levels`: the level of each connector position in mV (the partner's drive lines after the lead's 92);
`pairs`: lines that follow another; `opn`: lines that read as uncoupled; `self`: the self raw values. -/
def execSelfTestDone (n : Nat) (levels : List Int) (pairs : List (Nat × Nat)) (opn self : List Nat) (s : State) :
    Host.Outcome State Fault Refusal :=
  s.on (n < 4) fun c =>
    let t := c.tch1 n
    if t.phase ≠ 1 then c
    else
      let total := if c.tchLead n then 148 else 92
      let lines := List.range total
      let gnd := lines.filter fun k => match levels[k]? with | some v => decide (v < 300) && decide (-300 ≤ v) | none => false
      let vol := lines.filter fun k => match levels[k]? with | some v => decide (3000 < v) || decide (v < -300) | none => false
      let pr := lines.filter fun k => pairs.any fun p => p.1 == k || p.2 == k
      let refOk := c.tchRefOk n
      let op := if refOk then lines.filter fun k => opn.contains k else []
      let rev := match refOk, t.ref with | true, some b => reversedBy self b.self | _, _ => false
      let bad := lines.filter fun k => gnd.contains k || vol.contains k || pr.contains k || op.contains k
      let found := b2n (gnd != []) + 2 * b2n (vol != []) + 4 * b2n (pr != []) + 8 * b2n (op != []) + 16 * b2n rev + 32 * b2n (!refOk)
      let here := (bad.filter fun k => decide (k < 92)).length
      let c := ((c.set (R.TCH_ST.TEST_RESULT.FOUND n) found).set (R.TCH_ST.TEST_RESULT.LINES n) here).setFaultMap n (lineMask bad 0)
      let c := if c.tchLead n then
          ((c.set (R.TCH_ST.TEST_RESULT.FOUND (n + 1)) found).set (R.TCH_ST.TEST_RESULT.LINES (n + 1)) (bad.length - here)).setFaultMap
            (n + 1) (lineMask bad 92)
        else c
      let c := if refOk then c else c.set (R.TCH_ST.TF_STAT.UNCHECKED n) 1
      let result := found + 256 * here
      let c := c.setTch n { t with phase := 0, faulty := bad, dead := vol, tests := [] }
      let on := c.flag (H.ENABLE (0x1A8 + 2 * n))
      let c := if rev then c.setTch n { c.tch1 n with phase := 5 } else if on then c.tchSettle n (t.recals == []) else c
      let c := c.raise (0x1A9 + 2 * n) 0
      let c := if found % 32 = 0 then c
        else ((c.raise (0x1A9 + 2 * n) 1).tchEvent n 0x24 result 0 0 0 0 false).record 0x1302 n (parBytes 4 result)
      t.tests.foldl (fun c e => c.finish e.1 e.2 E.NONE (leBytes 4 result)) c

/-- TOUCH_CURRENT_LIMIT (R362): a drive line in current limit for 3 steps is marked and the self-test starts. -/
def execTouchCurrentLimit (n line : Nat) (s : State) : Host.Outcome State Fault Refusal :=
  s.on (n < 4 && line < 56) fun c =>
    let lead := if c.tchPartner n then n - 1 else n
    let t := c.tch1 lead
    c.when (t.phase == 2 || t.phase == 3) fun c =>
      (((c.setBit (R.TCH_ST.FAULT_MAP.LINES n (line / 32)) (line % 32) true).set (R.TCH_ST.TEST_RESULT.FOUND n)
        (c.get (R.TCH_ST.TEST_RESULT.FOUND n) ||| 1))).tchTest lead

/-! ### Ring entries (R295, R296) -/

/-- Owner `own` may name front end `n`; a combined panel takes both shares. -/
def Chip.tchOwns (c : Chip) (own n : Nat) : Bool :=
  if own < 16 then (c.share own).tch.testBit n && (!c.tchLead n || (c.share own).tch.testBit (n + 1))
  else (List.range 16).all fun vi => !(c.share vi).tch.testBit n

/-- TCH_NOP (R295). -/
def execTchNop (r : Nat) (s : State) : Host.Outcome State Fault Refusal :=
  s.on (r < 64) fun c =>
    match c.freshEntry r 5 0 with
    | none => c
    | some e => c.finish r e.seq (if zeroAt e.bytes 0x10 48 then E.NONE else E.RESERVED) []

/-- A touch entry of pair `r` with opcode `op`: the checks common to all, then its own. -/
def Chip.tchEntry (c : Chip) (r op : Nat) (reserved : List Byte → Bool) (more : List Byte → List (Bool × Nat))
    (eff : Chip → Issued → Nat → Chip) : Chip :=
  match c.freshEntry r 5 op with
  | none => c
  | some e =>
    let n := fieldAt e.bytes 0x10 1 % 4
    match firstFail ([ (fieldAt e.bytes 0x10 1 / 4 == 0 && reserved e.bytes, E.RESERVED), (c.tchOwns (c.ringOwn r) n, E.OWNER),
        (!c.tchPartner n, E.STATE) ] ++ more e.bytes) with
    | some code => c.finish r e.seq code []
    | none => eff c e n

/-- SUBSCRIBE (R295, R298). -/
def execSubscribe (r : Nat) (s : State) : Host.Outcome State Fault Refusal :=
  s.on (r < 64) fun c => c.tchEntry r 1 (fun b => fieldAt b 0x11 1 / 2 == 0 && zeroAt b 0x12 46) (fun _ => []) fun c e n =>
    if fieldAt e.bytes 0x11 1 = 1 then
      let mine := c.get (R.TCH_ST.SUBSCR.NONE n) = 0 ∧ c.get (R.TCH_ST.SUBSCR.RING n) = r
      let c := if mine then (c.set (R.TCH_ST.SUBSCR.NONE n) 1).set (R.TCH_ST.SUBSCR.RING n) 0 else c
      c.finish r e.seq E.NONE []
    else
      let c := (c.set (R.TCH_ST.SUBSCR.NONE n) 0).set (R.TCH_ST.SUBSCR.RING n) r
      (c.setTch n { c.tch1 n with resync := true }).finish r e.seq E.NONE []

/-- `k` 16-bit numbers from a memory. -/
def readWords (mem : Memory) (a k : Nat) : List Nat := (List.range k).map fun i => Memory.readNat mem (a + 2 * i) 2

/-- A reference block that passes its checks (R296). -/
def refBlock (mem : Memory) (a nd : Nat) : Option TchRef :=
  let f := fun o k => Memory.readNat mem (a + o) k
  let size := 16 + nd * 72 + (nd + 36) * 2
  let crc := crc32 (Memory.readBytes mem a 12 ++ Memory.readBytes mem (a + 16) (size - 16))
  if f 0 2 = 0x5246 ∧ f 2 1 = nd ∧ f 3 1 = 36 ∧ 3 ≤ f 4 1 ∧ f 4 1 ≤ 18 ∧ 20 ≤ f 5 1 ∧ 100 ≤ f 6 2 ∧ f 6 2 ≤ 2000 ∧ f 8 4 = 0 ∧ f 12 4 = crc then
    some { nd := nd, swing := f 4 1, stepUs := f 5 1, selfUs := f 6 2, nodes := readWords mem (a + 16) (nd * 36),
           self := readWords mem (a + 16 + nd * 72) (nd + 36) }
  else none

/-- LOAD_REF (R296). -/
def execLoadRef (r : Nat) (s : State) : Host.Outcome State Fault Refusal :=
  s.on (r < 64) fun c =>
    let size := fun (b : List Byte) => let nd := c.tchNd (fieldAt b 0x10 1 % 4); 16 + nd * 72 + (nd + 36) * 2
    c.tchEntry r 2 (fun b => zeroAt b 0x11 7 && zeroAt b 0x20 32)
      (fun b => [(c.dmaSide (c.ringOwn r) 0 (fieldAt b 0x18 8) 0 (size b) 1, E.RANGE)]) fun c e n =>
      let g := c.dramCheck 19 (fieldAt e.bytes 0x18 8) (size e.bytes)
      let c := g.2
      if !g.1 then c.finish r e.seq 0x3E []
      else
      match refBlock s.mem.dram (fieldAt e.bytes 0x18 8) (c.tchNd n) with
      | none => c.finish r e.seq 0x25 []
      | some b => ((c.setTch n { c.tch1 n with ref := some b }).raise (0x1A9 + 2 * n) 6).finish r e.seq E.NONE []

/-- RECAL by an entry or by TF_CMD (R293): a test in progress comes first. -/
def Chip.tchRecal (c : Chip) (n : Nat) (ref : Option (Nat × Nat)) : Chip :=
  let t := c.tch1 n
  let c := c.setTch n { t with recals := t.recals ++ ref.toList }
  if t.phase = 2 ∨ t.phase = 3 then c.tchSettle n false else c

/-- RECAL (R293, R295). -/
def execRecal (r : Nat) (s : State) : Host.Outcome State Fault Refusal :=
  s.on (r < 64) fun c => c.tchEntry r 3 (fun b => zeroAt b 0x11 47) (fun _ => []) fun c e n =>
    (c.takeUp r e.seq).tchRecal n (some (r, e.seq))

/-- A self-test by an entry or by TF_CMD (R300). -/
def Chip.tchTestReq (c : Chip) (n : Nat) (ref : Option (Nat × Nat)) : Chip :=
  let t := c.tch1 n
  let c := c.setTch n { t with tests := t.tests ++ ref.toList }
  if t.phase = 1 then c else c.tchTest n

/-- TCH_SELF_TEST (R295, R300). -/
def execTchSelfTest (r : Nat) (s : State) : Host.Outcome State Fault Refusal :=
  s.on (r < 64) fun c => c.tchEntry r 4 (fun b => zeroAt b 0x11 47) (fun _ => []) fun c e n =>
    (c.takeUp r e.seq).tchTestReq n (some (r, e.seq))

/-- RAW (R295). -/
def execRaw (r : Nat) (s : State) : Host.Outcome State Fault Refusal :=
  s.on (r < 64) fun c =>
    let size := fun (b : List Byte) => let nd := c.tchNd (fieldAt b 0x10 1 % 4); nd * 72 + (nd + 36) * 2
    c.tchEntry r 5 (fun b => fieldAt b 0x11 1 / 4 == 0 && zeroAt b 0x12 6 && zeroAt b 0x20 32)
      (fun b => [(fieldAt b 0x11 1 != 3, E.VALUE), (c.dmaSide (c.ringOwn r) 0 (fieldAt b 0x18 8) 0 (size b) 1, E.RANGE)]) fun c e n =>
      let q : TchRaw := { ring := r, seq := e.seq, kind := fieldAt e.bytes 0x11 1, addr := fieldAt e.bytes 0x18 8 }
      let c := c.takeUp r e.seq
      c.setTch n { c.tch1 n with raws := (c.tch1 n).raws ++ [q] }

/-! ### Registers, shares and modes -/

/-- A write of TF_CMD (R302). -/
def Chip.tchCmd (c : Chip) (src : Src) (n data : Nat) : Chip :=
  c.port src (0x1A9 + 2 * n) 0x058
    [ (c.mgrOrCtl src, E.OWNER), (data / 4 == 0, E.RESERVED), (!c.tchPartner n, E.STATE),
      (data % 4 == 0 || (c.tch1 n).phase != 1, E.BUSY) ] fun c =>
    let c := if data.testBit 0 then c.tchRecal n none else c
    if data.testBit 1 then c.tchTestReq n none else c

/-- CTRL.ENABLE of front end `n` has been written: a test or settling begins, or scanning ends. -/
def Chip.tchEnable (c : Chip) (n : Nat) (on : Bool) : Chip :=
  if c.tchPartner n then c.setTch n { c.tch1 n with phase := 0 }
  else if !on then
    let t := c.tch1 n
    (c.tchDry n).setTch n { t with phase := 0, measuring := false, contacts := [], baseM := [], baseS := [] }
  else if (c.tch1 n).phase ≠ 0 then c.setTch n { c.tch1 n with resync := true }
  else if c.flag (R.TCH_CFG.TF_CFG.TEST_AT_EN n) then c.tchTest n
  else c.tchSettle n true

/-- A set of front end `n` has latched over the registers of `old` (R290, R291). -/
def Chip.tchLatched (c old : Chip) (n : Nat) : Chip :=
  let c := c.setTch n (c.tch1 n)
  let c := if n % 2 = 0 then c.setTch (n + 1) (c.tch1 (n + 1)) else c
  let keys := [R.TCH_CFG.TF_CFG.SWING n, R.TCH_CFG.TIMING.STEP_US n, R.TCH_CFG.TIMING.SELF_US n, R.TCH_CFG.TF_CFG.SELF_EN n,
    R.TCH_CFG.TF_CFG.COMBINE n]
  let phase := (c.tch1 n).phase
  let c := if (keys.any fun f => c.get f != old.get f) ∧ (phase = 2 ∨ phase = 3) then c.tchSettle n true else c
  if c.flag (R.TCH_CFG.TF_CFG.MODE n) ∧ !c.tchPartner n then
    c.ssHw (18 + n) (c.get (R.TCH_CFG.WINDOW.BASE n)) (c.get (R.TCH_CFG.WINDOW.LINE n)) 4 (n + 256 * c.get (R.TCH_CFG.WINDOW.LEN n))
  else (c.ssDisarm (18 + n)).setTch n { c.tch1 n with window := false }

/-- Front end `n` leaves an instance's share (R298). -/
def Chip.tchEvict (c : Chip) (n : Nat) : Chip :=
  let c := (c.tch1 n).contacts.foldl (fun c x => c.contactEvent n x.1 x.2 2 true) c
  (c.set (R.TCH_ST.SUBSCR.NONE n) 1).set (R.TCH_ST.SUBSCR.RING n) 0

/-- Entries of the rings that `own` accepts leave the front ends: how many were waiting. -/
def Chip.tchReset (c : Chip) (mine : Nat → Bool) : Nat × Chip :=
  (List.range 4).foldl (fun a n =>
    let t := a.2.tch1 n
    let k := (t.raws.filter fun q => mine q.ring).length + (t.recals.filter fun q => mine q.1).length
      + (t.tests.filter fun q => mine q.1).length
    (a.1 + k, a.2.setTch n { t with
      raws := t.raws.filter (fun q => !mine q.ring), recals := t.recals.filter (fun q => !mine q.1), tests := t.tests.filter (fun q => !mine q.1) })) (0, c)

/-- The front ends at the entry to VIGIL (R301): the wake source keeps its baselines, the contacts present do not count. -/
def Chip.tchVigil (c : Chip) : Chip :=
  forN 4 c fun n c =>
    let t := c.tch1 n
    c.setTch n { t with measuring := false, ignore := t.contacts.map fun x => x.1, gFrom := none, tap := none, swipe := [] }

end Sys2Proof.Machine
end

