-- ==== Sys2Proof/Machine/Mode.lean ====
section
/-! DEFINITION. What every part of the block needs of the mode controller (R5–R7, R46–R50) and of service mode (R365–R371). -/

namespace Sys2Proof.Machine

/-! ### Transitions -/

/-- A transition is in progress. -/
def Chip.modeBusy (c : Chip) : Bool := c.flag R.SYS_MODE.MODE_STAT.BUSY

/-- Target of the transition in progress. -/
def Chip.modeTarget (c : Chip) : Nat := c.get R.SYS_MODE.MODE_STAT.TARGET

/-- A transition begins. -/
def Chip.modeStart (c : Chip) (m : Nat) : Chip := (c.set R.SYS_MODE.MODE_STAT.BUSY 1).set R.SYS_MODE.MODE_STAT.TARGET m

/-- No transition is in progress. -/
def Chip.modeIdle (c : Chip) : Chip := (c.set R.SYS_MODE.MODE_STAT.BUSY 0).set R.SYS_MODE.MODE_STAT.TARGET 0

/-- A requested transition completes: the mode reads `m`. A device that leaves RUN notes which domains were on (R52). -/
def Chip.modeDone (c : Chip) (m : Nat) : Chip :=
  let c := if c.mode = Mode.RUN then { c with pow := { c.pow with savedPd := c.get R.SYS_POWER.PD_ON.ON } } else c
  ((c.modeIdle.set R.SYS_MODE.MODE_STAT.MODE m).bump R.SYS_MODE.TRANS_CNT.COUNT).raise 0x001 0

/-- A request is rejected with `code`. -/
def Chip.modeReject (c : Chip) (code : Nat) : Chip :=
  ((c.set R.SYS_MODE.MODE_STAT.LAST_ERR code).bump R.SYS_MODE.REJECT_CNT.COUNT).raise 0x001 1

/-- Held work is released and the quiescing domains are active again (R54). -/
def Chip.quiesceEnd (c : Chip) : Chip := { c with pow := { c.pow with quiesce := [] } }

/-- The transition in progress is abandoned and reported with E_STATE (R7, R51). -/
def Chip.modeAbandon (c : Chip) : Chip := if c.modeBusy then (c.modeIdle.quiesceEnd).modeReject E.STATE else c

/-- No agreement to return to RUN is pending (R47). -/
def Chip.agreeClear (c : Chip) : Chip :=
  { (c.set R.SYS_MODE.AGREE.MGR 0).set R.SYS_MODE.AGREE.SAF 0 with pow := { c.pow with agreeLeft := 0 } }

/-- An agreement is pending. -/
def Chip.agreePending (c : Chip) : Bool := c.flag R.SYS_MODE.AGREE.MGR || c.flag R.SYS_MODE.AGREE.SAF

/-- The running outputs. -/
def Chip.activeOuts (c : Chip) : List Nat := (List.range 8).filter fun n => c.outRunning n

/-- Every active output shows what the transition in progress calls for: Degraded composition, or the banner. -/
def Chip.outsSwitched (c : Chip) : Bool := c.activeOuts.all fun n => c.pow.switched.contains n

/-- The mode reads DEGRADED once every active output shows Degraded composition (R46). -/
def Chip.degradeCheck (c : Chip) : Chip :=
  if c.modeBusy && c.modeTarget == Mode.DEGRADED && c.outsSwitched then c.modeDone Mode.DEGRADED else c

/-- Degraded composition begins to be called for on the pipes `ps`: they keep it until a CMP commit latches that is accepted once it is called for no
more (R46, R218). -/
def Chip.cmpHold (c : Chip) (ps : List Nat) : Chip :=
  let leads := ps.map c.leadOf
  let commits := c.cmp.commits.map fun (k : RingCommit) => if leads.contains k.pipe then { k with ok := false } else k
  let pipe := leads.foldl (fun (p : SMap CmpPipe) n => p.put {} n { p.getD n {} with regOk := false }) c.cmp.pipe
  { c with cmp := { c.cmp with hold := ps ++ c.cmp.hold.filter (fun p => !ps.contains p), commits := commits, pipe := pipe } }

/-- RUN → DEGRADED begins. -/
def Chip.degradeStart (c : Chip) : Chip :=
  ({ (c.cmpHold (List.range 8)).modeStart Mode.DEGRADED with pow := { c.pow with switched := [] } }).degradeCheck

/-- The SERVICE banner is called for: in SERVICE, and while RUN → SERVICE waits for it to show (R46, R367). -/
def Chip.bannerWant (c : Chip) : Bool := c.mode == Mode.SERVICE || (c.modeBusy && c.modeTarget == Mode.SERVICE)

/-- Pipes that already compose their output's next frame follow with their banner. -/
def Chip.bannerNow (c : Chip) : Chip :=
  forN 8 c fun n c =>
    let x := c.cmp.pipe.getD n {}
    if x.on && x.frame != c.get (R.LDG_OUTS.FRAME.FRAME n) then { c with cmp := { c.cmp with pipe := c.cmp.pipe.put {} n { x with banner := c.bannerWant } } } else c

/-- A request of the safety island for DEGRADED (R7, R46, R47, R50), with the code that rejects it. -/
def Chip.islandDegrade (c : Chip) : Option Nat × Chip :=
  let m := c.mode
  if m = Mode.BOOT then (some E.MODE, (c.modeReject E.MODE).record 0x0102 0xFF [m])
  else if m = Mode.SERVICE then (none, { c with pow := { c.pow with islandHeld := true } }.record 0x0102 0xFF [m])
  else if m = Mode.RUN then
    if !c.modeBusy then (none, c.degradeStart)
    else if c.modeTarget = Mode.VIGIL ∨ c.modeTarget = Mode.SERVICE then (none, c.modeAbandon.bannerNow.degradeStart)
    else (some E.BUSY, c.modeReject E.BUSY)
  else if m = Mode.DEGRADED ∧ c.agreePending then (none, c.agreeClear)
  else (some E.MODE, c.modeReject E.MODE)

/-! ### Perturbations (R366, R370) -/

/-- PTB_STAT follows the mode, the test and the perturbations. -/
def Chip.ptbShow (c : Chip) : Chip :=
  let act := b2n (c.get R.PTB_PERTURB.FAB_STALL.PORTS != 0) + 2 * b2n (c.get R.PTB_PERTURB.DRAM_DELAY.CHANNELS != 0)
    + 4 * b2n (c.fab.pressed != 0 && decide (c.ps < c.fab.pressedUntil)) + 8 * b2n (c.get R.PTB_PERTURB.WM_FORCE.PIPES != 0)
    + 16 * b2n (c.ptb.sigWait || c.ptb.sigLeft != 0) + 32 * b2n (c.flag R.PTB_PERTURB.ECC_INJ.ARM) + 64 * b2n (c.flag R.PTB_PERTURB.TCH_INJ.EN)
  ((c.set R.PTB.PTB_STAT.SERVICE (b2n (c.mode == Mode.SERVICE))).set R.PTB.PTB_STAT.TEST_BUSY (b2n c.ptb.proof.isSome)).set R.PTB.PTB_STAT.ACTIVE act

/-- RUN → SERVICE is complete once the banner shows on every active output (R46; log entry 88): the entry is recorded (R366). -/
def Chip.serviceCheck (c : Chip) : Chip :=
  if c.modeBusy && c.modeTarget == Mode.SERVICE && c.outsSwitched then ((c.modeDone Mode.SERVICE).record 0x1503 0xFF [1, 0]).ptbShow else c

/-- A proof test ends (R368). Outcomes: 1 PASS, 2 FAIL, 3 ABORTED. -/
def Chip.proofEnd (c : Chip) (outcome detail : Nat) : Chip :=
  match c.ptb.proof with
  | none => c
  | some p =>
    let c := if p.test = 6 then { c with flaws := SMap.erase c.flaws (Ecc.key Ecc.ISL Config.reservedWord.toNat) } else c
    let c := { c with ptb := { c.ptb with proof := none, sigWait := c.ptb.sigWait && p.test != 3, sigLeft := if p.test = 3 then 0 else c.ptb.sigLeft } }
    let c := ((c.set R.PTB.TEST_RESULT.TEST p.test).set R.PTB.TEST_RESULT.OUTCOME outcome).set R.PTB.TEST_RESULT.DETAIL detail
    let c := (c.set R.PTB.TEST_MS.COUNT ((c.ps - p.start) / 1000000000)).raise 0x1C0 0
    let c := if outcome = 2 then (c.bump R.PTB.TESTS_FAILED.COUNT).raise 0x1C0 1 else c
    (c.record 0x1501 0xFF ([p.test, outcome] ++ parBytes 2 detail)).ptbShow

/-- Every perturbation is cleared. -/
def Chip.perturbClear (c : Chip) : Chip :=
  let c := c.pressSettle.set R.FAB.CREDIT_STAT.FULL 0
  let c := { c with fab := { c.fab with pressed := 0, pressedUntil := 0 }, ptb := { c.ptb with sigWait := false, sigLeft := 0 } }
  let c := ((c.set R.PTB_PERTURB.FAB_STALL.PORTS 0).set R.PTB_PERTURB.DRAM_DELAY.CHANNELS 0).set R.PTB_PERTURB.WM_FORCE.PIPES 0
  ((c.set R.PTB_PERTURB.ECC_INJ.ARM 0).set R.PTB_PERTURB.TCH_INJ.EN 0).ptbShow

/-- SERVICE_EXIT (R366): what leaving SERVICE ends, with its cause (0 request, 1 SERVICE_EN, 2 emergency). -/
def Chip.serviceExit (c : Chip) (cause : Nat) : Chip :=
  let c := (c.proofEnd 3 0).perturbClear
  { c with ptb := { c.ptb with halted := [] } }.record 0x1503 0xFF [0, cause]

/-- SERVICE → RUN (R46), and on into DEGRADED for a request the island made meanwhile (R7). -/
def Chip.serviceLeave (c : Chip) (cause : Nat) : Chip :=
  let c := ((c.serviceExit cause).modeDone Mode.RUN).ptbShow
  if c.pow.islandHeld then { c with pow := { c.pow with islandHeld := false } }.degradeStart else c

end Sys2Proof.Machine
end

