-- ==== Sys2Proof/Machine/Safety.lean ====
section
/-! DEFINITION. The safety island, safety planes and signatures (chapter 13, R208–R223). -/

namespace Sys2Proof.Machine

/-! ### Writes to the SAF pages (R223) -/

/-- A write of the island: any other writer is turned down. -/
def Chip.safWrite (c : Chip) (src : Src) (p off : Nat) (checks : List (Bool × Nat)) (eff : Chip → Chip) : Chip :=
  c.port src p off ((src == .island, E.OWNER) :: checks) eff

/-! ### SAFE_OK (R221) -/

/-- A lasting forcing condition holds. -/
def Chip.safeHeld (c : Chip) : Bool :=
  c.get R.SAF.ISL_STAT.STATE != 1 || c.saf.clkBad.contains 1 || c.saf.clkBad.contains 2
    || (!c.brg.up && c.flag R.SAF.SAFE_OK.FIELD_DROP) || !c.pdOn PD.SAFE

/-- SAFE_OK_FORCE (R221): both outputs go inactive and cause `b` is recorded. -/
def Chip.safeForce (c : Chip) (b : Nat) : Chip :=
  (((c.set R.SAF.SAFE_OK.EN_A 0).set R.SAF.SAFE_OK.EN_B 0).setBit R.SAF.SAFE_OK.FORCED b true).raise 0x130 2

/-- A write of SAFE_OK. Setting FIELD_DROP while the bridge is down begins that condition; clearing FORCED ends none. -/
def Chip.safeOkWrite (c : Chip) (src : Src) (data : Nat) : Chip :=
  let up := (data.testBit 0 && !c.flag R.SAF.SAFE_OK.EN_A) || (data.testBit 1 && !c.flag R.SAF.SAFE_OK.EN_B)
  let drops := data.testBit 4 && !c.flag R.SAF.SAFE_OK.FIELD_DROP
  c.safWrite src 0x130 0x054
    [ (bits data 5 11 == 0 && data / 2 ^ 22 == 0, E.RESERVED), (!(up && c.safeHeld), E.STATE) ] fun c =>
    let c := ((c.set R.SAF.SAFE_OK.EN_A (bits data 0 1)).set R.SAF.SAFE_OK.EN_B (bits data 1 1)).set R.SAF.SAFE_OK.DYN_A (bits data 2 1)
    let c := (c.set R.SAF.SAFE_OK.DYN_B (bits data 3 1)).set R.SAF.SAFE_OK.FIELD_DROP (bits data 4 1)
    let c := c.set R.SAF.SAFE_OK.FORCED (clearBits (c.get R.SAF.SAFE_OK.FORCED) (bits data 16 6))
    if drops && !c.brg.up then c.safeForce 4 else c

/-- SAFE_OK_ENABLE (R221): a write of SAFE_OK with EN_A or EN_B set. -/
def execSafeOkEnable (src : Src) (data : Word) (s : State) : Host.Outcome State Fault Refusal :=
  s.on true fun c => c.safeOkWrite src data.toNat

/-! ### Fault resets (R209) -/

/-- RECENT counts the fault resets of the last 60 s. -/
def Chip.safRecent (c : Chip) : Chip :=
  let l := c.saf.resets.filter fun t => decide (c.ps < t + 60000000000000)
  { c.set R.SAF.ISL_STAT.RECENT (min 3 l.length) with saf := { c.saf with resets := l } }

/-- No plane is drawn and no region is checked until a set latches again. -/
def Chip.planesClear (c : Chip) : Chip :=
  let c := { c with saf := { c.saf with clear := List.range 8, crc := [] } }
  forN 8 c fun n c => forN 16 c fun r c => c.set (R.SAF_P.RG_STAT.RUN n r) 0

/-- Bytes of the island SRAM. -/
def islSize : Nat := 2 ^ 21

/-- ISLAND_FAULT_RESET (R209) with ISL_STAT.CAUSE `cause`; the third within 60 s leaves the island in FAULT. -/
def Chip.islandFault (c : Chip) (cause : Nat) : Chip :=
  let c := (c.safeForce 0).planesClear
  let c := ((c.set R.SAF.ISL_STAT.STATE 0).set R.SAF.ISL_STAT.CAUSE cause).set R.SAF.WDOG_CFG.ARM 0
  let c := { c.set R.SYS_MODE.AGREE.SAF 0 with saf := { c.saf with resets := c.saf.resets ++ [c.ps] } }.safRecent
  let c := if cause = 1 then c.bump R.SAF.LOCKSTEP_ERR.COUNT else if cause = 2 ∨ cause = 3 then c.bump R.SAF.WDOG_FAULT.COUNT
    else if cause = 5 then (c.bump R.SAF.ECC_UNCORR.COUNT).raise 0x130 1 else c
  let c := (c.lkLose 22).record 0x0C02 0xFF [cause]
  if c.get R.SAF.ISL_STAT.RECENT = 3 then { c.set R.SAF.ISL_STAT.STATE 2 with pow := { c.pow with islDead := true } } else c

/-- The island runs. -/
def Chip.islandRuns (c : Chip) : Bool := c.get R.SAF.ISL_STAT.STATE == 1

/-- ISLAND_FAULT_RESET (R209): cause 6 is the island's own write of ISL_CTRL.RESET; causes 1 and 5 come from its cores. -/
def execIslandFaultReset (src : Src) (cause : Nat) (s : State) : Host.Outcome State Fault Refusal :=
  s.on (1 ≤ cause && cause ≤ 6) fun c =>
    if cause = 6 then c.safWrite src 0x130 0x044 [] fun c => c.islandFault 6
    else c.when c.islandRuns fun c => c.islandFault cause

/-- The island stays in FAULT until the next entry to BOOT (R67, R209). -/
def Chip.islandDies (c : Chip) : Chip := { c.set R.SAF.ISL_STAT.STATE 2 with pow := { c.pow with islDead := true } }

/-! ### Images in the BOOT flash (R65, R66) -/

/-- The partition table the boot ROM uses: the first copy whose CRC-32 is correct, up to its end mark. -/
def partTable (tables : List FlashTable) : Option (List (List Byte)) :=
  ((tables.take 2).find? fun t => t.crcOk).map fun t => (t.entries.map (padTo 16)).takeWhile fun e => fieldAt e 0 1 != 0xFF

/-- Image `x` may be used as the copy that the entry of type `kind` describes: the entry's reserved half-word is 0 (one that is not makes the copy no
good: DESIGN CHOICE, log entry 94) and its length, which is the image's, within `limit`; the image's CRC-32 is correct and its version no less than `least`. -/
def copyOk (part : List (List Byte)) (kind limit least : Nat) (x : FlashImage) : Bool :=
  match part.find? fun e => fieldAt e 0 1 == kind with
  | none => false
  | some e => zeroAt e 2 2 && decide (fieldAt e 8 4 ≤ limit) && x.bytes.length == fieldAt e 8 4 && x.crcOk && decide (least ≤ fieldAt e 12 4)

/-- The copy to use of two images whose entries have the types `kind` and `kind` + 1: copy A if it is good, else copy B (R66). -/
def pickCopy (part : List (List Byte)) (kind limit least : Nat) (good : FlashImage → Bool) (images : List FlashImage) : Option (Bool × FlashImage) :=
  ((images.take 2).zipIdx.find? fun (x : FlashImage × Nat) => copyOk part (kind + x.2) limit least x.1 && good x.1).map fun x => (x.2 == 1, x.1)

/-- The island's image is loaded into its SRAM and the island runs; with no good copy it stays in FAULT with ERR = 0x12 (R66, R67, R209). -/
def Chip.islandLoad (c : Chip) (isl : Memory) (images : List FlashImage) : Chip × Memory :=
  match pickCopy c.pow.part 0x01 islSize (c.get R.SEC_FUSE.ISL_ROLLBACK.COUNT) (fun _ => true) images with
  | none => (c.islandDies.set R.SYS_BOOT.BOOT_STAT.ERR 0x12, isl)
  | some (b, x) =>
    let c := (c.set R.SYS_BOOT.BOOT_STAT.ISL_COPY (b2n b)).set R.SAF.ISL_STAT.STATE 1
    let c := { c with saf := { c.saf with startedAt := c.ps } }
    (if b then c.record 0x0103 0xFF [0] else c, Memory.writeBytes isl 0 x.bytes)

/-- ISLAND_RELOAD_DONE (R209): the boot ROM has read copies A and B of the image again, which `images` holds. -/
def execIslandReloadDone (images : List FlashImage) (s : State) : Host.Outcome State Fault Refusal :=
  s.onMem true fun c m =>
    if c.get R.SAF.ISL_STAT.STATE ≠ 0 ∨ c.get R.SAF.ISL_STAT.CAUSE = 0 ∨ !c.pdOn PD.SAFE then (c, m)
    else
      let r := c.islandLoad m.isl images
      (r.1, { m with isl := r.2 })

/-! ### SRAM (R208) -/

/-- Words of an ECC memory (target `t`) with `k` flipped bits. -/
def Chip.flawed (c : Chip) (t k : Nat) : List Nat := (c.flaws.filter fun f => f.1 / 2 ^ 48 == t && f.2 == k).map fun f => f.1

/-- `n` bytes of the island SRAM from `a` are read: a word with a single-bit error is corrected, written back and counted (R208). Answers the words that are
uncorrectable. -/
def Chip.islRead (c : Chip) (a n : Nat) : List Nat × Chip :=
  let fl := c.eccFlaws Ecc.ISL a n
  let one := fl.filter fun f => f.2 == 1
  let c := { c with flaws := one.foldl (fun (m : SMap Nat) (f : Nat × Nat) => SMap.erase m (Ecc.key Ecc.ISL f.1)) c.flaws }
  ((fl.filter fun f => f.2 != 1).map fun f => f.1, c.addSat R.SAF.ECC_CORR.COUNT one.length)

/-- Plane `n` has met `k` uncorrectable words (R214, R221). -/
def Chip.planeEcc (c : Chip) (n k : Nat) : Chip :=
  if k = 0 then c
  else (((c.addSat R.SAF.ECC_UNCORR.COUNT k).addSat (R.SAF_P.PLANE_ECC_CNT.COUNT n) k).raise (0x131 + n) 3).safeForce 2

/-- The plane block at `a` as plane `n` reads it (R211, R214). A descriptor or palette entry with an uncorrectable word is read as 0, which leaves its sprite,
or its pixels, transparent (DESIGN CHOICE, log entry 109). -/
def Chip.planeBlock (c : Chip) (isl : Memory) (n a : Nat) : List Byte × Chip :=
  let r := c.islRead a 1536
  let dead := fun (i : Nat) => r.1.any fun w => if i < 0x200 then (w - a) / 16 == i / 16 else (w - a) / 4 == i / 4
  ((Memory.readBytes isl a 1536).zipIdx.map fun (x : Byte × Nat) => if dead x.2 then 0 else x.1, r.2.planeEcc n r.1.length)

/-- SRAM_SCRUB (R208): `single` and `double` are the errors found beside those that ECC_INJ left. -/
def execSramScrub (single double : Nat) (s : State) : Host.Outcome State Fault Refusal :=
  s.on true fun c => c.when (c.pdOn PD.SAFE) fun c =>
    let fixed := c.flawed 0 1
    let k := double + (c.flawed 0 2).length
    let c := { c with flaws := c.flaws.filter fun f => !fixed.contains f.1 }
    let c := c.addSat R.SAF.ECC_CORR.COUNT (single + fixed.length)
    if k = 0 then c else ((c.addSat R.SAF.ECC_UNCORR.COUNT k).raise 0x130 1).safeForce 2

/-! ### Watchdog (R219) -/

/-- The watchdog is armed: the key sequence begins anew. -/
def Chip.wdogArm (c : Chip) : Chip := { c.set R.SAF.WDOG_CFG.ARM 1 with saf := { c.saf with wdBase := c.ps, wdKey := 0x5A } }

/-- A write of WDOG_CFG. -/
def Chip.wdogCfg (c : Chip) (src : Src) (data : Nat) : Chip :=
  c.safWrite src 0x130 0x04C
    [ (!c.flag R.SAF.WDOG_CFG.ARM, E.LOCKED), (decide (bits data 0 16 < bits data 16 15), E.VALUE) ] fun c =>
    let c := (c.set R.SAF.WDOG_CFG.WIN_MIN (bits data 0 16)).set R.SAF.WDOG_CFG.WIN_MAX (bits data 16 15)
    if data.testBit 31 then c.wdogArm else c

/-- WDOG_ARM (R219): a write of WDOG_CFG with ARM set. -/
def execWdogArm (src : Src) (data : Word) (s : State) : Host.Outcome State Fault Refusal :=
  s.on true fun c => c.wdogCfg src (data.toNat ||| 1 <<< 31)

/-- WDOG_SELF_ARM (R219). -/
def execWdogSelfArm (s : State) : Host.Outcome State Fault Refusal :=
  s.on true fun c => c.when (c.islandRuns && !c.flag R.SAF.WDOG_CFG.ARM && decide (c.saf.startedAt + 150000000000 ≤ c.ps)) Chip.wdogArm

/-- A kick with `key`. -/
def Chip.wdogKicked (c : Chip) (key : Nat) : Chip :=
  if !c.flag R.SAF.WDOG_CFG.ARM then c
  else if key ≠ c.saf.wdKey ∨ c.ps < c.saf.wdBase + c.get R.SAF.WDOG_CFG.WIN_MIN * 10000000 then c.islandFault 3
  else { c with saf := { c.saf with wdBase := c.ps, wdKey := if c.saf.wdKey = 0x5A then 0xA5 else 0x5A } }

/-- A write of WDOG_KICK. -/
def Chip.wdogKick (c : Chip) (src : Src) (data : Nat) : Chip :=
  c.safWrite src 0x130 0x050 [(data / 256 == 0, E.RESERVED)] fun c => c.wdogKicked (bits data 0 8)

/-- WDOG_KICK (R219). -/
def execWdogKick (src : Src) (data : Word) (s : State) : Host.Outcome State Fault Refusal :=
  s.on true fun c => c.wdogKick src data.toNat

/-- WDOG_EXPIRY (R219). -/
def execWdogExpiry (s : State) : Host.Outcome State Fault Refusal :=
  s.on true fun c => c.when (c.islandRuns && c.flag R.SAF.WDOG_CFG.ARM
    && decide (c.saf.wdBase + c.get R.SAF.WDOG_CFG.WIN_MAX * 10000000 ≤ c.ps)) fun c => c.islandFault 2

/-! ### Clock monitor (R220) -/

/-- A count of one 20 µs window is within ±10 % of the nominal count. -/
def clockOk (nominal count : Nat) : Bool := decide (9 * nominal ≤ 10 * count) && decide (10 * count ≤ 11 * nominal)

/-- Clock `k` has a clock fault: the island clock's resets the island, one that is still loading too. -/
def Chip.clockFault (c : Chip) (k : Nat) : Chip :=
  let c := { c with saf := { c.saf with clkBad := k :: c.saf.clkBad.filter (· ≠ k) } }.bump R.SAF.CLK_FAULT_CNT.COUNT
  if k = 0 then
    let c := c.set R.SAF.CLK_STAT.ISL 1
    if c.get R.SAF.ISL_STAT.STATE = 2 then c else c.islandFault 4
  else
    let c := if k = 1 then c.set R.SAF.CLK_STAT.CMP 1 else c.set R.SAF.CLK_STAT.REF 1
    ((c.safeForce 1).raise 0x130 0).record 0x0C03 0xFF [1 <<< k]

/-- Clock `k` in one window: two windows in a row change what is known of it. -/
def Chip.clockWindow (c : Chip) (k : Nat) (ok : Bool) : Chip :=
  let bad := c.saf.clkBad.contains k
  if ok != bad then { c with saf := { c.saf with clkRun := c.saf.clkRun.erase k } }
  else if c.saf.clkRun.getD k 0 = 0 then { c with saf := { c.saf with clkRun := c.saf.clkRun.insert k 1 } }
  else
    let c := { c with saf := { c.saf with clkRun := c.saf.clkRun.erase k } }
    if bad then { c with saf := { c.saf with clkBad := c.saf.clkBad.filter (· ≠ k) } } else c.clockFault k

/-- CLOCK_MONITOR_WINDOW (R220): the cycles of the island clock (400 MHz), the composition clock (600 MHz) and REFCLK (25 MHz)
counted in 20 µs. The CLKMON proof test presents the composition clock 15 % low (R369). -/
def execClockMonitorWindow (isl cmp ref : Nat) (s : State) : Host.Outcome State Fault Refusal :=
  s.on true fun c => c.when (c.pdOn PD.SAFE) fun c =>
    let low := match c.ptb.proof with | some p => p.test == 5 && decide (p.stage < 2) | none => false
    let c := if low then
        { c with ptb := { c.ptb with proof := c.ptb.proof.map fun (p : Proof) => { p with stage := p.stage + 1 } } }
      else c
    ((c.clockWindow 0 (clockOk 8000 isl)).clockWindow 1 (clockOk 12000 (if low then 10200 else cmp))).clockWindow 2 (clockOk 500 ref)

/-! ### Degraded pipes (R218) -/

/-- A write of PIPE_DEGR. -/
def Chip.pipeDegr (c : Chip) (src : Src) (data : Nat) : Chip :=
  c.safWrite src 0x130 0x060 [(data / 256 == 0, E.RESERVED)] fun c =>
    (c.set R.SAF.PIPE_DEGR.PIPES (bits data 0 8)).cmpHold ((List.range 8).filter data.testBit)

/-- PIPE_DEGR_WRITE (R218). -/
def execPipeDegrWrite (src : Src) (data : Word) (s : State) : Host.Outcome State Fault Refusal :=
  s.on true fun c => c.pipeDegr src data.toNat

/-! ### Plane sets (R210, R211, R213) -/

/-- The value a field will have in the next frame: of an accepted set, else live. -/
def Chip.coming (c : Chip) (f : Fld) : Nat :=
  match (c.stage (stageHome f.page)).pending.find? (fun y => y.1 = f) with
  | some y => y.2
  | none => c.get f

namespace Sprite

def atlas (b : List Byte) (s : Nat) : Nat := fieldAt b (16 * s) 4
def stride (b : List Byte) (s : Nat) : Nat := fieldAt b (16 * s + 4) 2
def sflags (b : List Byte) (s : Nat) : Nat := fieldAt b (16 * s + 6) 2
def en (b : List Byte) (s : Nat) : Bool := (sflags b s).testBit 0
def scale (b : List Byte) (s : Nat) : Nat := bits (sflags b s) 1 2
def w (b : List Byte) (s : Nat) : Nat := fieldAt b (16 * s + 8) 2 % 512 + 1
def h (b : List Byte) (s : Nat) : Nat := fieldAt b (16 * s + 10) 2 % 512 + 1
def x (b : List Byte) (s : Nat) : Int := sext 16 (fieldAt b (16 * s + 12) 2)
def y (b : List Byte) (s : Nat) : Int := sext 16 (fieldAt b (16 * s + 14) 2)
/-- Magnification k. -/
def k (b : List Byte) (s : Nat) : Nat := 2 ^ scale b s
/-- Palette entry `i`. -/
def pal (b : List Byte) (i : Nat) : Nat := fieldAt b (0x200 + 4 * i) 4

/-- Reserved bits of an enabled descriptor are 0. -/
def clean (b : List Byte) (s : Nat) : Bool :=
  decide (atlas b s < islSize) && sflags b s / 8 == 0 && fieldAt b (16 * s + 8) 2 / 512 == 0 && fieldAt b (16 * s + 10) 2 / 512 == 0

end Sprite

/-- The enabled sprites of a block. -/
def sprites (b : List Byte) : List Nat := (List.range 32).filter (Sprite.en b)

/-- Rectangle of region `r` lies inside an active area. -/
def regionIn (x y w h ha va : Nat) : Bool := decide (1 ≤ w) && decide (1 ≤ h) && decide (x + w ≤ ha) && decide (y + h ≤ va)

/-- The first failed check of the shadow of plane `n` (R213), in the order of R38; `b` is the plane block. -/
def Chip.planeCheck (c : Chip) (n : Nat) (b : List Byte) : Option Nat :=
  let ha := c.coming (R.SCN_OUT.H_TIMING.ACTIVE (c.leadOf n))
  let va := c.coming (R.SCN_OUT.V_TIMING.ACTIVE (c.leadOf n))
  let en := c.staged (R.SAF_P.TABLE.EN n) = 1
  let t := c.staged (R.SAF_P.TABLE.ADDR n)
  let sp := if en then sprites b else []
  let region := fun r => c.staged (R.SAF_P.RG_CFG.EN n r) == 0 ||
    regionIn (c.staged (R.SAF_P.RG_XY.X n r)) (c.staged (R.SAF_P.RG_XY.Y n r)) (c.staged (R.SAF_P.RG_WH.W n r)) (c.staged (R.SAF_P.RG_WH.H n r)) ha va
  firstFail
    [ (!en || t % 16 == 0, E.ALIGN),
      (!en || decide (t + 1536 ≤ islSize), E.RANGE),
      (sp.all fun s => decide (Sprite.atlas b s % islSize + (Sprite.h b s - 1) * Sprite.stride b s + Sprite.w b s ≤ islSize), E.RANGE),
      (sp.all (Sprite.clean b), E.RESERVED),
      (sp.all fun s => Sprite.scale b s != 3 && decide (Sprite.w b s ≤ Sprite.stride b s) && decide (Sprite.stride b s ≤ 4096), E.VALUE),
      ((List.range 16).all region, E.VALUE),
      (decide ((sp.map fun s => Sprite.w b s * Sprite.k b s).foldl (· + ·) 0 ≤ 4 * ha), E.SHORT) ]

/-- Output `n` is the follower of an LVDS dual link (R199). -/
def Chip.dualFollower (c : Chip) (n : Nat) : Bool := n % 2 == 1 && c.get (R.SCN_OUT.OUT_CFG.MODE (n - 1)) == 3

/-- PLANE_SWAP and PLANE_CANCEL (R210): a write of PLANE_CTRL. -/
def Chip.planeCtrl (c : Chip) (isl : Memory) (src : Src) (n data : Nat) : Chip :=
  let pend := c.flag (R.SAF_P.PLANE_STAT.PENDING n)
  let swap := data.testBit 0
  c.safWrite src (0x131 + n) 0x040
    [ (data / 4 == 0, E.RESERVED), (!(swap && pend && !data.testBit 1), E.BUSY), (!(swap && c.dualFollower n), E.STATE) ] fun c =>
    let drop := fun (c : Chip) =>
      let x := c.stage (0x131 + n)
      (c.putStage { x with pending := [] }).set (R.SAF_P.PLANE_STAT.PENDING n) 0
    let c := if data.testBit 1 then drop c else c
    if !swap then c
    else
      let t := c.staged (R.SAF_P.TABLE.ADDR n)
      let r : List Byte × Chip := if c.staged (R.SAF_P.TABLE.EN n) = 1 ∧ t % 16 = 0 ∧ t + 1536 ≤ islSize then c.planeBlock isl n t else ([], c)
      let c := r.2
      match c.planeCheck n r.1 with
      | some code => c.set (R.SAF_P.PLANE_STAT.RESULT n) code
      | none =>
        let x := c.stage (0x131 + n)
        ((c.putStage { x with pending := x.shadow }).set (R.SAF_P.PLANE_STAT.PENDING n) 1).set (R.SAF_P.PLANE_STAT.RESULT n) 0

/-- PLANE_SWAP (R210). -/
def execPlaneSwap (src : Src) (n : Nat) (s : State) : Host.Outcome State Fault Refusal :=
  s.on (n < 8) fun c => c.planeCtrl s.mem.isl src n 1

/-- PLANE_CANCEL (R210). -/
def execPlaneCancel (src : Src) (n : Nat) (s : State) : Host.Outcome State Fault Refusal :=
  s.on (n < 8) fun c => c.planeCtrl s.mem.isl src n 2

/-- Region `r` of output `n` lies inside the live active area. -/
def Chip.regionInside (c : Chip) (n r : Nat) : Bool :=
  regionIn (c.get (R.SAF_P.RG_XY.X n r)) (c.get (R.SAF_P.RG_XY.Y n r)) (c.get (R.SAF_P.RG_WH.W n r)) (c.get (R.SAF_P.RG_WH.H n r))
    (c.hActive n) (c.vActive n)

/-- The registers of region `r` whose change clears RUN and HAVE_REF (R216). -/
def regionKeys (n r : Nat) : List Fld :=
  [R.SAF_P.RG_XY.X n r, R.SAF_P.RG_XY.Y n r, R.SAF_P.RG_WH.W n r, R.SAF_P.RG_WH.H n r, R.SAF_P.RG_CFG.MODE n r, R.SAF_P.RG_CFG.THRESH n r,
    R.SAF_P.RG_EXPECT.CRC n r]

/-- Region `r` of output `n` lies inside the active area that an accepted timing will give. -/
def Chip.regionComing (c : Chip) (n r : Nat) : Bool :=
  regionIn (c.get (R.SAF_P.RG_XY.X n r)) (c.get (R.SAF_P.RG_XY.Y n r)) (c.get (R.SAF_P.RG_WH.W n r)) (c.get (R.SAF_P.RG_WH.H n r))
    (c.coming (R.SCN_OUT.H_TIMING.ACTIVE (c.leadOf n))) (c.coming (R.SCN_OUT.V_TIMING.ACTIVE (c.leadOf n)))

/-- PLANE_LATCH (R210): at the flip line an accepted set becomes live and its block is copied. A region is valid where it lies inside the live active area,
or inside the one that SWAP judged it against and that latches at the next line 0 (R213, R216). -/
def Chip.planeLatch (c : Chip) (isl : Memory) (n : Nat) : Chip :=
  if !c.flag (R.SAF_P.PLANE_STAT.PENDING n) then c
  else
    let x := c.stage (0x131 + n)
    let old := c
    let c := (c.putStage { x with pending := [] }).overlay x.pending
    let c := forN 16 c fun r c =>
      let c := if (regionKeys n r).any fun f => c.get f != old.get f then
          (c.set (R.SAF_P.RG_STAT.RUN n r) 0).set (R.SAF_P.RG_STAT.HAVE_REF n r) 0 else c
      c.set (R.SAF_P.RG_STAT.VALID n r) (b2n (c.regionInside n r || c.regionComing n r))
    let b : List Byte × Chip := if c.flag (R.SAF_P.TABLE.EN n) then c.planeBlock isl n (c.get (R.SAF_P.TABLE.ADDR n)) else ([], c)
    let c := b.2
    let blocks := if c.flag (R.SAF_P.TABLE.EN n) then c.saf.blocks.insert n b.1 else c.saf.blocks.erase n
    let clear := if c.islandRuns then c.saf.clear.filter (· ≠ n) else c.saf.clear
    let crc := c.saf.crc.filter fun e => e.1 / 16 != n
    let c := { c with saf := { c.saf with blocks := blocks, clear := clear, crc := crc } }
    (c.set (R.SAF_P.PLANE_STAT.PENDING n) 0).raise (0x131 + n) 0

/-- A timing change of output `n` has latched: enabled regions outside the new active area are no longer valid (R216). -/
def Chip.regionsRetimed (c : Chip) (n : Nat) : Chip :=
  let c := { c with saf := { c.saf with crc := c.saf.crc.filter fun e => e.1 / 16 != n } }
  forN 16 c fun r c =>
    if c.flag (R.SAF_P.RG_CFG.EN n r) ∧ c.flag (R.SAF_P.RG_STAT.VALID n r) ∧ !c.regionInside n r then
      (c.set (R.SAF_P.RG_STAT.VALID n r) 0).raise (0x131 + n) 2
    else c

/-! ### Drawing (R212, R214, R367) -/

/-- Channel value of a palette component: fp16(srgb_decode(fp32(C / 255))). -/
def palColor (v : Nat) : Nat := toFp16 (srgbDecode (fp32.ofRat false (v % 256) 255))

/-- P = c × a + P × (1 − a). -/
def blendOver (e : Nat) (p : Rgb) : Rgb :=
  let a := fp16.ofRat false (bits e 24 8) 255
  let na := fp16.sub fp16.one a
  let col : Rgb := (palColor (bits e 16 8), palColor (bits e 8 8), palColor (bits e 0 8))
  Rgb.zip (fun v q => fp16.add (fp16.mul v a) (fp16.mul q na)) col p

/-- Sprite `s` on line `y` of a line of pixels; a flawed word of the atlas leaves it transparent for the rest of the line.
Answers the line and whether a flaw was met. -/
def spriteLine (isl : Memory) (flawed : Nat → Bool) (b : List Byte) (s y : Nat) (line : List Rgb) : List Rgb × Bool :=
  let k := Sprite.k b s
  let dy := (y : Int) - Sprite.y b s
  if dy < 0 ∨ (Sprite.h b s * k : Nat) ≤ dy then (line, false)
  else
    let row := Sprite.atlas b s + dy.toNat / k * Sprite.stride b s
    let r := line.foldl (fun (a : List Rgb × Bool × Nat) p =>
      let dx := (a.2.2 : Int) - Sprite.x b s
      if dx < 0 ∨ (Sprite.w b s * k : Nat) ≤ dx ∨ a.2.1 then (p :: a.1, a.2.1, a.2.2 + 1)
      else
        let at_ := row + dx.toNat / k
        if flawed at_ then (p :: a.1, true, a.2.2 + 1)
        else (blendOver (Sprite.pal b (Memory.read isl at_).toNat) p :: a.1, false, a.2.2 + 1)) ([], false, 0)
    (r.1.reverse, r.2.1)

/-- The SERVICE banner on line `y` (R367). Which yellow is not stated (log entry 23). -/
def bannerLine (va y : Nat) (line : List Rgb) : List Rgb :=
  let k := if va < 1080 then 1 else if va < 2160 then 2 else 4
  let yellow := Config.bannerYellow.toNat
  line.zipIdx.map fun q =>
    if q.2 < 128 * k ∧ y < 16 * k then (if Config.bannerInk (q.2 / k) (y / k) then (0, 0, 0) else (bits yellow 0 16, bits yellow 16 16, bits yellow 32 16)) else q.1

/-- The atlas bytes that sprite `s` reads on line `y` of a line of `w` pixels: address and count. -/
def spriteSpan (b : List Byte) (s y w : Nat) : Nat × Nat :=
  let k := Sprite.k b s
  let dy := (y : Int) - Sprite.y b s
  let lo := (max 0 (-Sprite.x b s)).toNat / k
  let end_ := min (Sprite.w b s) ((max 0 ((w : Int) - Sprite.x b s)).toNat + k - 1) / k
  if dy < 0 ∨ (Sprite.h b s * k : Nat) ≤ dy ∨ end_ ≤ lo then (0, 0)
  else (Sprite.atlas b s + dy.toNat / k * Sprite.stride b s + lo, end_ - lo)

/-- Plane `n` draws on line `y` of a frame of `va` lines (R177 step 2). -/
def Chip.planeLine (c : Chip) (isl : Memory) (n y va : Nat) (line : List Rgb) : List Rgb × Chip :=
  let draw : List Rgb × Chip := match c.saf.blocks.find? n with
    | some b =>
      if c.saf.clear.contains n then (line, c)
      else (sprites b).foldl (fun (a : List Rgb × Chip) s =>
        let span := spriteSpan b s y line.length
        let bad := a.2.islRead span.1 span.2
        let r := spriteLine isl (fun x => bad.1.contains (x / 4 * 4)) b s y a.1
        (r.1, bad.2.planeEcc n (b2n r.2))) (line, c)
    | none => (line, c)
  (if (c.cmp.pipe.getD n {}).banner then bannerLine va y draw.1 else draw.1, draw.2)

/-! ### Signatures (R215–R217) -/

/-- act(n, r) of R217. The request for DEGRADED is made once for all regions that act at the end of one line (`saf.ask`). -/
def Chip.sigAct (c : Chip) (n r crc : Nat) : Chip :=
  let act := c.get (R.SAF_P.RG_CFG.ACT n r)
  let exp := if c.flag (R.SAF_P.RG_CFG.MODE n r) then 0 else c.get (R.SAF_P.RG_EXPECT.CRC n r)
  let c := (c.raise (0x131 + n) 1).record 0x0C01 n
    ([r, act] ++ parBytes 2 0 ++ parBytes 4 (c.get (R.LDG_OUTS.FRAME.FRAME n)) ++ parBytes 4 crc ++ parBytes 4 exp)
  let c := { c with ptb := { c.ptb with proof := c.ptb.proof.map fun (p : Proof) =>
    if p.test = 3 ∧ p.arg = 16 * n + r ∧ p.seen = 0 then { p with seen := p.stage + 1 } else p } }
  let c := if act = 1 then
      let ps := if c.splits (n / 2 * 2) then [n / 2 * 2, n / 2 * 2 + 1] else [n]
      (ps.foldl (fun (c : Chip) p => c.setBit R.SAF.PIPE_DEGR.PIPES p true) c).cmpHold ps
    else c
  let c := if 2 ≤ act then { c with saf := { c.saf with ask := true } } else c
  if act = 3 then c.safeForce 3 else c

/-- REGION_CHECK (R216) of region `r` of output `n` with signature `s`. -/
def Chip.regionCheck (c : Chip) (n r s : Nat) : Chip :=
  let key := 16 * n + r
  let expect := !c.flag (R.SAF_P.RG_CFG.MODE n r)
  let have_ := c.flag (R.SAF_P.RG_STAT.HAVE_REF n r)
  let ok := if expect then s == c.get (R.SAF_P.RG_EXPECT.CRC n r) else !have_ || s == c.saf.ref.getD key 0
  let c := c.set (R.SAF_P.RG_CRC.CRC n r) s
  let c := if !expect && !have_ then c.set (R.SAF_P.RG_STAT.HAVE_REF n r) 1 else c
  let c := { c with saf := { c.saf with ref := c.saf.ref.insert key s } }
  let c := (c.bump (R.SAF_P.FRAMES_CHECKED.COUNT n)).set (R.SAF_P.RG_STAT.LAST_OK n r) (b2n ok)
  if ok then c.set (R.SAF_P.RG_STAT.RUN n r) 0
  else
    let run := min (c.get (R.SAF_P.RG_STAT.RUN n r) + 1) 15
    let c := (c.bump (R.SAF_P.MISMATCH_CNT.COUNT n r)).set (R.SAF_P.RG_STAT.RUN n r) run
    if run = c.get (R.SAF_P.RG_CFG.THRESH n r) then c.sigAct n r s else c

/-- The bytes of R215 for the codes of a region's row. -/
def codeBytes (l : List Nat) : List Byte := (l.map fun w => leBytes 4 (w % 2 ^ 30)).flatten

/-- SIG_INJ disturbs this frame of region `r` of output `n` (R371). -/
def Chip.sigHit (c : Chip) (n r : Nat) : Bool := !c.ptb.sigWait && c.ptb.sigLeft != 0 && c.ptb.sigOut == n && c.ptb.sigReg == r

/-- Line `y` of output `n` has been sent with these 10:10:10 codes: the regions' CRCs run on, and a region whose last line
this is is checked (R215, R216). -/
def Chip.regionLine (c : Chip) (n y : Nat) (codes : List Nat) : Chip :=
  if c.saf.clear.contains n then c
  else
  forN 16 c fun r c =>
    let y0 := c.get (R.SAF_P.RG_XY.Y n r)
    let h := c.get (R.SAF_P.RG_WH.H n r)
    if !c.flag (R.SAF_P.RG_CFG.EN n r) || !c.flag (R.SAF_P.RG_STAT.VALID n r) || decide (y < y0) || decide (y0 + h ≤ y) then c
    else
      let key := 16 * n + r
      let row := (codes.drop (c.get (R.SAF_P.RG_XY.X n r))).take (c.get (R.SAF_P.RG_WH.W n r))
      let row := if y = y0 ∧ c.sigHit n r then (match row with | [] => [] | p :: rest => (p ^^^ 1) :: rest) else row
      match (if y = y0 then some 0xFFFFFFFF else c.saf.crc.find? key) with
      | none => c
      | some old =>
        let new := ((codeBytes row).foldl crcByte (BitVec.ofNat 32 old)).toNat
        if y + 1 = y0 + h then
          let c := { c with saf := { c.saf with crc := c.saf.crc.erase key } }
          c.regionCheck n r (2 ^ 32 - 1 - new)
        else { c with saf := { c.saf with crc := c.saf.crc.insert key new } }

/-- The next line 0 of output `n`: an injection begins, or one frame of it is over (R371). -/
def Chip.sigFrame (c : Chip) (n : Nat) : Chip :=
  if c.ptb.sigOut ≠ n then c
  else if c.ptb.sigWait then
    { c with ptb := { c.ptb with sigWait := false, proof := c.ptb.proof.map fun (p : Proof) => if p.test = 3 then { p with stage := p.stage + 1 } else p } }
  else if c.ptb.sigLeft ≠ 0 then
    { c with ptb := { c.ptb with sigLeft := c.ptb.sigLeft - 1, proof := c.ptb.proof.map fun (p : Proof) =>
      if p.test = 3 then { p with stage := p.stage + 1 } else p } }.ptbShow
  else c

end Sys2Proof.Machine
end

