-- ==== Sys2Proof/Machine/Time.lean ====
section
/-! DEFINITION. Time: picoseconds, ledger nanoseconds and the sub-line fraction (R19, R20). -/

namespace Sys2Proof.Machine

/-- Duration of a line of output `n`, in ps. -/
def Chip.linePs (c : Chip) (n : Nat) : Nat := c.get (R.SCN_OUT.H_TIMING.TOTAL (c.leadOf n)) * 1000000000 / c.get (R.SCN_OUT.PCLK.KHZ (c.leadOf n))

/-- Duration of a line of the ledger's source, in ps. -/
def Chip.ledLinePs (c : Chip) : Nat :=
  if c.ledIdle then c.get R.LDG.IDLE_TIMING.LINE_PERIOD * 2500 else c.linePs c.anchor

/-- The sub-line fraction of R19 at time `t` of the present line: whole pixel clocks of the anchor; on the idle raster, which has neither H_TOTAL nor a
pixel clock, the part of the line period that has gone by (DESIGN CHOICE, log entry 76). -/
def Chip.fractionAt (c : Chip) (t : Nat) : Nat :=
  let d := t - c.led.lineStart
  let f := if c.ledIdle then d * 65536 / c.ledLinePs
    else d * c.get (R.SCN_OUT.PCLK.KHZ (c.leadOf c.anchor)) / 1000000000 * 65536 / c.get (R.SCN_OUT.H_TIMING.TOTAL (c.leadOf c.anchor))
  min 65535 f

/-- The sub-line fraction now. -/
def Chip.fraction (c : Chip) : Nat := c.fractionAt c.ps

/-- The ledger stamp of an instant `t` of the present line (R24). -/
def Chip.stampAt (c : Chip) (t : Nat) : Nat :=
  c.get R.LDG.LIVE_FRAME.FRAME * 2 ^ 32 + c.get R.LDG.LIVE_LINE.LINE * 2 ^ 16 + c.fractionAt t

/-- Ledger nanoseconds after `n` more (R30): at half rate while the counter was ahead of D0's at the first sync, with later corrections made by
at most one nanosecond each microsecond. -/
def Ledger.addNs (l : Ledger) (n : Nat) : Ledger :=
  let s := min n l.slow
  let half := l.odd + s
  let age := l.slewAge + n
  let k := min l.slew.natAbs (age / 1000)
  let d : Int := if 0 ≤ l.slew then k else -(k : Int)
  { l with ns := (((l.ns + half / 2 + (n - s) : Nat) : Int) + d).toNat % 2 ^ 64, slow := l.slow - s, odd := if l.slow ≤ s then 0 else half % 2,
           slew := l.slew - d, slewAge := age % 1000 }

/-- The secure watchdog counts `n` ps more, unless a debug halt in SERVICE pauses it (R284). -/
def Chip.swdCount (c : Chip) (n : Nat) : Chip :=
  let paused := c.mode == Mode.SERVICE && c.flag R.SEC_WDOG.WD_CFG.DBG_PAUSE && c.get R.CTL.CC_STAT.HALTED != 0
  if !c.flag R.SEC_WDOG.WD_CFG.ARMED || paused then c
  else
    let c := { c with ctl := { c.ctl with wdAge := c.ctl.wdAge + n } }
    c.set R.SEC_WDOG.WD_STAT.ELAPSED (min 0xFFFF (c.ctl.wdAge / 1000000000))

/-- The control cores that run count `n` ps more, at half rate while protection holds them at 800 MHz (R56), in the bank of the world each is in
(R276, R283). -/
def Chip.coreCount (c : Chip) (n : Nat) : Chip :=
  if !c.pdOn PD.CTL then c
  else forN 4 c fun k c =>
    if !(c.get R.CTL.CC_STAT.RUNNING).testBit k then c
    else
      let x := c.ctl.core.getD k {}
      let d := if c.pow.halved then n else 2 * n
      let x := if (c.get R.CTL.CC_STAT.SECURE).testBit k then { x with sec := { x.sec with ran := x.sec.ran + d } }
        else { x with norm := { x.norm with ran := x.norm.ran + d } }
      { c with ctl := { c.ctl with core := c.ctl.core.put {} k x } }

/-- Time is at least `t`: the ledger counts with it while PD_DISP is powered. -/
def Chip.advance (c : Chip) (t : Nat) : Chip :=
  if t ≤ c.ps then c
  else
    let run := c.pdOn PD.DISP
    let c := (c.swdCount (t - c.ps)).coreCount (t - c.ps)
    let r := c.led.nsRem + (t - c.ps)
    let led := if run then { c.led.addNs (r / 1000) with nsRem := r % 1000 } else c.led
    let c := { c with ps := t, led := led }
    let c := if run then c.set R.LDG.LIVE_LINE.FRAC c.fraction else c
    c.safRecent.pressSettle

end Sys2Proof.Machine
end

