-- ==== Sys2Proof/Machine/Nfr.lean ====
section
/-! DEFINITION. The fixed-rate surface layouts NFR-A and NFR-H (R141–R144). -/

namespace Sys2Proof.Machine

/-- Byte offset of the block of pixel (x, y) in an NFR surface of `pitch` tiles per row and `b` bytes per block. -/
def nfrBlockAt (pitch b x y : Nat) : Nat :=
  (y / 32 * pitch + x / 32) * (64 * b) + (8 * (y % 32 / 4) + x % 32 / 4) * b

/-- The half of a block in which pixel `k` lies. -/
def nfrHalf (orient k : Nat) : Nat := if orient = 0 then k / 8 else k % 4 / 2

/-- Channel `c` of a colour whose channels are `w` bits wide. -/
def channel (w c v : Nat) : Nat := bits v (w * c) w

/-- Four channels as one colour. -/
def ofChannels (w : Nat) (f : Nat → Nat) : Nat := f 0 + f 1 * 2 ^ w + f 2 * 2 ^ (2 * w) + f 3 * 2 ^ (3 * w)

/-- An INTERP channel of NFR-A. -/
def interpA (e0 e1 i : Nat) : Nat := (e0 * (15 - i) + e1 * i + 7) / 15

/-- An INTERP channel of NFR-H (FP16 words). -/
def interpH (e0 e1 i : Nat) : Nat :=
  if i = 0 then e0 else if i = 15 then e1
  else
    let a := fp32.mul (toFp32 e0) (fp32.ofInt (15 - i : Nat))
    let b := fp32.mul (toFp32 e1) (fp32.ofInt i)
    toFp16 (fp32.mul (fp32.add a b) 0x3D888889)

/-- Shape of a layout: channel width, most palette colours, bits of a palette index, where indices, palette and endpoints lie, and
whether unused palette colours must be 0. -/
structure NfrKind where
  w : Nat
  ncol : Nat
  nbits : Nat
  ibits : Nat
  pidx : Nat
  pcol : Nat
  pend : Nat
  eidx : Nat
  eend : Nat
  total : Nat
  float : Bool
  strict : Bool
  deriving DecidableEq, Repr

def nfrA : NfrKind :=
  { w := 8, ncol := 6, nbits := 3, ibits := 3, pidx := 5, pcol := 53, pend := 245, eidx := 68, eend := 196, total := 256, float := false, strict := true }

def nfrH : NfrKind :=
  { w := 16, ncol := 4, nbits := 2, ibits := 2, pidx := 4, pcol := 36, pend := 292, eidx := 68, eend := 324, total := 384, float := true, strict := false }

/-- The interpolated colour. -/
def NfrKind.interp (q : NfrKind) (e0 e1 i : Nat) : Nat :=
  ofChannels q.w fun c =>
    if q.float then interpH (channel q.w c e0) (channel q.w c e1) i else interpA (channel q.w c e0) (channel q.w c e1) i

/-- Pixel `k` of a block, none for a reserved block (R142–R144). -/
def NfrKind.pixel (q : NfrKind) (v k : Nat) : Option Nat :=
  let cw := 4 * q.w
  let mode := bits v 0 2
  if mode = 0 then (if v / 2 ^ (cw + 2) = 0 then some (bits v 2 cw) else none)
  else if mode = 1 then
    let n := bits v 2 q.nbits + 1
    let idx := fun k => bits v (q.pidx + q.ibits * k) q.ibits
    let unused := !q.strict || (List.range q.ncol).all fun c => decide (c < n) || bits v (q.pcol + cw * c) cw == 0
    let ok := decide (n ≤ q.ncol) && ((List.range 16).all fun k => decide (idx k < n)) && unused && v / 2 ^ q.pend == 0
    if ok then some (bits v (q.pcol + cw * idx k) cw) else none
  else if mode = 2 then
    if bits v 3 1 = 0 ∧ v / 2 ^ q.eend = 0 then
      let h := nfrHalf (bits v 2 1) k
      some (q.interp (bits v (q.eidx + cw * (2 * h)) cw) (bits v (q.eidx + cw * (2 * h + 1)) cw) (bits v (4 + 4 * k) 4))
    else none
  else none

/-- The distinct numbers of a list, in order of first appearance. -/
def distinct (l : List Nat) : List Nat := l.foldl (fun a x => if a.contains x then a else a ++ [x]) []

/-- Colours as INTERP takes them: NaN is +0, infinities the largest finite values, −0 is +0 (R144). -/
def NfrKind.tidy (q : NfrKind) (v : Nat) : Nat :=
  if !q.float then v
  else ofChannels 16 fun c =>
    let x := channel 16 c v
    match fp16.val x with
    | .fin _ 0 _ => 0
    | .fin _ _ _ => x
    | .inf neg => if neg then 0xFBFF else 0x7BFF
    | .nan => 0

/-- a < b for channel words. -/
def NfrKind.less (q : NfrKind) (a b : Nat) : Bool := if q.float then (fp16.val a).lt (fp16.val b) else decide (a < b)

/-- Channel-wise least or greatest of a list of colours. -/
def NfrKind.extreme (q : NfrKind) (most : Bool) (l : List Nat) : Nat :=
  ofChannels q.w fun c => (l.map (channel q.w c)).foldl (fun m x => if (if most then q.less m x else q.less x m) then x else m) (channel q.w c (l.headD 0))

/-- Sum of squared channel errors in FP32. -/
def NfrKind.error (q : NfrKind) (a b : Nat) : Nat :=
  let word := fun x => if q.float then toFp32 x else fp32.ofInt x
  (List.range 4).foldl (fun s c =>
    let d := fp32.sub (word (channel q.w c a)) (word (channel q.w c b))
    fp32.add s (fp32.mul d d)) 0

/-- The best index of a pixel between two endpoints, with its error. -/
def NfrKind.best (q : NfrKind) (e0 e1 p : Nat) : Nat × Nat :=
  (List.range 16).foldl (fun (b : Nat × Nat) i =>
    let e := q.error p (q.interp e0 e1 i)
    if (fp32.val e).lt (fp32.val b.2) then (i, e) else b) (0, q.error p (q.interp e0 e1 0))

/-- INTERP for one orientation: the block and its total error. -/
def NfrKind.fit (q : NfrKind) (orient : Nat) (px : List Nat) : Nat × Nat :=
  let part := fun h => (px.zipIdx.filter fun x => nfrHalf orient x.2 == h).map fun x => x.1
  let ends := (List.range 2).map fun h => (q.extreme false (part h), q.extreme true (part h))
  let e := fun k => ends.getD (nfrHalf orient k) (0, 0)
  let fits := px.zipIdx.map fun x => q.best (e x.2).1 (e x.2).2 x.1
  let idx := (fits.zipIdx.map fun x => x.1.1 * 2 ^ (4 + 4 * x.2)).foldl (· + ·) 0
  let cols := (ends.zipIdx.map fun x => x.1.1 * 2 ^ (q.eidx + 4 * q.w * (2 * x.2)) + x.1.2 * 2 ^ (q.eidx + 4 * q.w * (2 * x.2 + 1))).foldl (· + ·) 0
  (2 + orient * 4 + idx + cols, fits.foldl (fun s x => fp32.add s x.2) 0)

/-- The block the encoder writes for 16 pixels (R144). -/
def NfrKind.encode (q : NfrKind) (px : List Nat) : Nat :=
  let d := distinct px
  if d.length ≤ 1 then d.headD 0 * 4
  else if d.length ≤ q.ncol then
    let idx := (px.zipIdx.map fun x => (d.idxOf x.1) * 2 ^ (q.pidx + q.ibits * x.2)).foldl (· + ·) 0
    let cols := (d.zipIdx.map fun x => x.1 * 2 ^ (q.pcol + 4 * q.w * x.2)).foldl (· + ·) 0
    1 + (d.length - 1) * 4 + idx + cols
  else
    let t := px.map q.tidy
    let a := q.fit 0 t
    let b := q.fit 1 t
    if (fp32.val b.2).lt (fp32.val a.2) then b.1 else a.1

/-- A texel of format `f` as a colour of an NFR block, and back: BGRA8 has red and blue in the other order (R142). -/
def nfrColor (f v : Nat) : Nat := if f = 2 then bits v 16 8 + bits v 8 8 * 2 ^ 8 + bits v 0 8 * 2 ^ 16 + bits v 24 8 * 2 ^ 24 else v

/-- The block of pixel (x, y) of an NFR surface at `base`. -/
def NfrKind.block (q : NfrKind) (mem : Memory) (base pitch x y : Nat) : Nat :=
  Memory.readNat mem (base + nfrBlockAt pitch (q.total / 8) x y) (q.total / 8)

/-- The colour of pixel (x, y) of an NFR surface at `base`: a reserved block reads as zeros. -/
def NfrKind.read (q : NfrKind) (mem : Memory) (base pitch x y : Nat) : Nat :=
  (q.pixel (q.block mem base pitch x y) (4 * (y % 4) + x % 4)).getD 0

/-- The layout of an NFR surface by its code (R126): 1 NFR-A, 2 NFR-H. -/
def nfrKind (lay : Nat) : NfrKind := if lay = 1 then nfrA else nfrH

end Sys2Proof.Machine
end

