-- ==== Sys2Proof/Machine/Dram.lean ====
section
/-! DEFINITION. The DRAM controller (chapter 15, R242–R260): queues and the pick, refresh, self-refresh, error regions, training and
the bandwidth governor. -/

namespace Sys2Proof.Machine

/-- Hidden state of channel `k`. -/
def Chip.dch1 (c : Chip) (k : Nat) : DramChan := c.drc.ch.getD k {}

def Chip.setDch1 (c : Chip) (k : Nat) (x : DramChan) : Chip := { c with drc := { c.drc with ch := c.drc.ch.put {} k x } }

/-- Training has succeeded (R243). -/
def Chip.drcReady (c : Chip) : Bool := c.flag R.DRC.TRAIN.DONE && c.pdOn PD.MEM

/-! ### Addresses (R244) -/

/-- The address within the channel. -/
def dramAddr (a : Nat) : Nat := a / 3072 * 256 + a % 256

/-- Bank of an offset, ranks counted on: rank, bank in the group, bank group. -/
def Chip.dramBank (c : Chip) (a : Nat) : Nat :=
  let x := dramAddr a
  bits x 8 4 + 16 * (if c.flag R.DRC.MEM_CFG.DENSITY then bits x 31 1 else bits x 30 1)

/-- Row of an offset. -/
def Chip.dramRow (c : Chip) (a : Nat) : Nat := bits (dramAddr a) 15 (if c.flag R.DRC.MEM_CFG.DENSITY then 16 else 15)

/-! ### Refresh debt (R249–R251) -/

/-- tREFI at ×1 in ps. -/
def trefi : Nat := 3906000

/-- Rate multiplier in force on channel `k`. -/
def Chip.dcRate (c : Chip) (k : Nat) : Nat := 2 ^ c.get (R.DRC_DC.DC_STAT.RATE k)

/-- The limit L that POSTPONE_MAX gives channel `k`. -/
def Chip.dcLimit (c : Chip) (k : Nat) : Nat := max 1 (c.get R.DRC.REF_CFG.POSTPONE_MAX / c.dcRate k)

/-- POSTPONE_MAX as it now stands comes into force for channel `k` (R249), and REF_BOUND follows it (R251). -/
def Chip.limitShow (c : Chip) (k : Nat) : Chip :=
  (c.set (R.DRC_DC.DEBT.LIMIT k) (c.dcLimit k)).set R.DRC.REF_STAT.REF_BOUND (c.get R.DRC.REF_CFG.POSTPONE_MAX * c.drc.unitPs / 1000)

def Chip.debt (c : Chip) (k : Nat) : Nat := c.get (R.DRC_DC.DEBT.D k)

/-- `t` ps add to the debt of channel `k`. -/
def Chip.debtGrow (c : Chip) (k t : Nat) : Chip :=
  let x := c.dch1 k
  let n := t * 256 * c.dcRate k + x.rem
  (c.setDch1 k { x with rem := n % trefi }).set (R.DRC_DC.DEBT.D k) (min 4095 (c.debt k + n / trefi))

/-- `n` units are paid. -/
def Chip.debtPay (c : Chip) (k n : Nat) : Chip :=
  (c.set (R.DRC_DC.DEBT.D k) (c.debt k - 256 * n)).addSat (R.DRC_DC.REF_UNITS.COUNT k) n

/-- The debt of channel `k` is counted up to now; a channel in self-refresh owes nothing (R252). Units owed in vertical blank, or
beyond the limit, are paid, but not while a retraining step holds the channel (R258). -/
def Chip.debtNow (c : Chip) (k : Nat) : Chip :=
  let x := c.dch1 k
  let c := c.setDch1 k { x with upTo := max x.upTo c.ps }
  if !c.drcReady ∨ 2 ≤ c.get (R.DRC_DC.DC_STAT.SR k) then c
  else
    let c := c.debtGrow k (c.ps - x.upTo)
    let n := c.debt k / 256
    let l := c.get (R.DRC_DC.DEBT.LIMIT k)
    if c.flag (R.DRC_DC.DC_STAT.RETRAINING k) then c
    else if c.drc.blank then c.debtPay k n
    else if l < n then (c.debtPay k (n - l)).addSat R.DRC.REF_MIDLINE.COUNT (n - l)
    else c

/-- REFRESH_DEBT_TICK (R249): a tREFI of channel `k` has passed. -/
def execRefreshDebtTick (k : Nat) (s : State) : Host.Outcome State Fault Refusal :=
  s.on (k < 12) fun c => c.debtNow k

/-- An anchor line `l` begins: a batch point in the active lines; line 0 ends the vertical-blank period (R249). -/
def Chip.drcLine (c : Chip) (l : Nat) : Chip :=
  let c := if l = 0 then { c with drc := { c.drc with blank := false, frames := c.drc.frames + 1 } } else c
  let c := { c with drc := { c.drc with reserve := c.get R.FAB.ISO_CFG.RESERVE } }
  forN 12 c fun k c =>
    let c := c.debtNow k
    if c.ledVActive ≤ l then c
    else
      let c := c.limitShow k
      if c.flag (R.DRC_DC.DC_STAT.RETRAINING k) then c else c.debtPay k (c.debt k / 256)

/-- DRAM_REFRESH (R249): the vertical-blank refresh period begins. -/
def Chip.drcBlank (c : Chip) : Chip :=
  let c := { c with drc := { c.drc with blank := true } }
  forN 12 c fun k c => c.debtNow k

/-- A forced catch-up (R250): units paid until the debt is within the limit, each taking its time. -/
def Chip.catchUp (c : Chip) (k fuel n : Nat) : Nat × Chip :=
  match fuel with
  | 0 => (n, c)
  | f + 1 =>
    if c.debt k / 256 ≤ c.get (R.DRC_DC.DEBT.LIMIT k) then (n, c)
    else
      let c := (c.debtPay k 1).debtGrow k c.drc.unitPs
      let x := c.dch1 k
      Chip.catchUp (c.setDch1 k { x with upTo := x.upTo + c.drc.unitPs }) k f (n + 1)

/-- REF_STAT.RATE is the highest multiplier. -/
def Chip.rateShow (c : Chip) : Chip :=
  c.set R.DRC.REF_STAT.RATE (((List.range 12).map fun k => c.get (R.DRC_DC.DC_STAT.RATE k)).foldl max 0)

/-- MR4_POLL (R250): channel `k` has read MR4 of every rank: the highest multiplier (0 up to ×1, 1 ×2, 2 ×4) and a temperature. -/
def execMr4Poll (k rate temp : Nat) (s : State) : Host.Outcome State Fault Refusal :=
  s.on (k < 12 && rate < 3) fun c =>
    if !c.drcReady then c
    else
    let c := (c.debtNow k).set (R.DRC_DC.DC_STAT.TEMP k) temp
    let old := c.get (R.DRC_DC.DC_STAT.RATE k)
    if rate = old then c
    else
      let c := (c.set (R.DRC_DC.DEBT.D k) (min 4095 (c.debt k * 2 ^ rate / 2 ^ old))).set (R.DRC_DC.DC_STAT.RATE k) rate
      let c := ((c.set (R.DRC_DC.DEBT.LIMIT k) (c.dcLimit k)).rateShow).raise 0x160 4
      let c := if old < rate ∧ c.get (R.DRC_DC.DEBT.LIMIT k) < c.debt k / 256 then
          let before := c.debt k
          let r := c.catchUp k 64 0
          ((r.2.bump R.DRC.REFRESH_FORCED.COUNT).raise 0x160 0).record 0x0F01 k (parBytes 2 before ++ parBytes 2 (r.2.debt k) ++ parBytes 2 r.1)
        else c
      if rate = 2 then c.raise 0x160 5 else c

/-! ### Self-refresh (R252) -/

/-- An entry under way reaches its point of no return 0.4 µs after its start. -/
def Chip.srSettle (c : Chip) (k : Nat) : Chip :=
  if c.get (R.DRC_DC.DC_STAT.SR k) = 1 ∧ (c.dch1 k).srAt + 400000 ≤ c.ps then
    ((c.set (R.DRC_DC.DC_STAT.SR k) 2).set (R.DRC_DC.DEBT.D k) 0).bump R.DRC.SR_ENTRY.COUNT
  else c

/-- Some pipe fetches in a raised class (R194). -/
def Chip.fetchRaised (c : Chip) : Bool := (List.range 8).any fun n => c.get (R.SCN_OUT.OUT_STAT.CLASS n) != 0

/-- SR_IDLE_EXPIRY (R252). -/
def execSrIdleExpiry (k : Nat) (s : State) : Host.Outcome State Fault Refusal :=
  s.on (k < 12) fun c =>
    let c := c.srSettle k
    let x := c.dch1 k
    if c.drcReady && c.flag R.DRC.LP_CFG.SR_EN && c.mode == Mode.RUN && c.get (R.DRC_DC.DC_STAT.SR k) == 0 && x.ents.isEmpty
        && !c.fetchRaised && decide (x.idleAt + c.get R.DRC.LP_CFG.SR_IDLE * 1000000 ≤ c.ps) then
      let c := c.debtNow k
      let c := c.debtPay k (c.debt k / 256)
      (c.setDch1 k { c.dch1 k with srAt := c.ps, rows := [] }).set (R.DRC_DC.DC_STAT.SR k) 1
    else c

/-! ### Queues (R245, R248) -/

/-- A request leaves no order open with an earlier one: they share a granule and one of them writes (R248). -/
def DramEnt.clashes (e f : DramEnt) : Bool :=
  (e.write || f.write) && decide (e.off / 64 * 64 < f.off + f.len) && decide (f.off / 64 * 64 < e.off + e.len)

/-- Entries of bank `b` of channel `k`. -/
def Chip.bankEnts (c : Chip) (k b : Nat) : List DramEnt := (c.dch1 k).ents.filter fun e => c.dramBank e.off == b

/-- A bank queue takes a request of this kind. -/
def Chip.bankTakes (c : Chip) (k b : Nat) (isoRead : Bool) : Bool :=
  let l := c.bankEnts k b
  decide (l.length < 16) && (isoRead || decide ((l.filter fun e => !(e.cls == 0 && !e.write)).length < 12))

/-- An enabled region that is still being filled holds the request (R255). -/
def Chip.eccHeld (c : Chip) (a : Nat) : Bool :=
  (List.range 8).any fun k =>
    let b := c.get (R.DRC_ECC.REG_BASE.ADDR k) * 2 ^ 21
    c.flag (R.DRC_ECC.REG_BASE.INIT_BUSY k) && decide (b ≤ a) && decide (a < b + c.get (R.DRC_ECC.REG_SIZE.ADDR k) * 2 ^ 21)

/-- DC_STAT.QUEUED follows the queues. -/
def Chip.dcShow (c : Chip) (k : Nat) : Chip := c.set (R.DRC_DC.DC_STAT.QUEUED k) (min 255 (c.dch1 k).ents.length)

def Chip.dramAnswer (c : Chip) (x : DramAns) : Chip := { c with drc := { c.drc with answers := c.drc.answers ++ [x] } }

/-! ### Admission (R231, R245) -/

/-- The class of a request, 0 isochronous to 3 background: of a layer fetch the class of its pipe, of a GPU job urgent once it is escalated (R122, R195). -/
def Chip.askClass (c : Chip) (a : DramAsk) : Nat :=
  match a.who with
  | .pipe n => 2 - c.get (R.SCN_OUT.OUT_STAT.CLASS n)
  | .job k => match c.gfx.jobs.find? k with
    | some j => if j.escalated.isSome then 1 else 2
    | none => 2
  | .other _ cls => max 1 cls

/-- The owner a request is weighted as. -/
def Chip.askOwner (c : Chip) (a : DramAsk) : Nat :=
  match a.who with
  | .pipe _ => 16
  | .job k => match c.gfx.jobs.find? k with
    | some j => min j.own 16
    | none => 16
  | .other own _ => min own 16

/-- The weight of an owner: an instance's share in force, and what the instances leave for the manager and the control cluster (R80). -/
def Chip.askWeight (c : Chip) (own : Nat) : Nat := if own < 16 then (c.share own).bw else 256 - c.get R.IMX.BW_SUM.SUM

/-- Every owner may be granted as often as its weight again. -/
def Chip.creditReload (c : Chip) (k : Nat) : Chip :=
  c.setDch1 k { c.dch1 k with credit := (List.range 17).foldl (fun (m : SMap Nat) o => m.put 0 o (c.askWeight o)) [] }

/-- The requests among which channel `k` rotates: those of the highest level; in the normal level those with a weight come before the others, and of these
the ones whose owner has credit, which is given anew where no owner that asks has any (the accounts are DESIGN CHOICE, log entry 100). -/
def Chip.askPool (c : Chip) (k : Nat) (asks : List DramAsk) : List DramAsk × Chip :=
  let top := (asks.map c.askClass).foldl min 3
  let l := asks.filter fun a => c.askClass a == top
  let w := l.filter fun a => c.askWeight (c.askOwner a) != 0
  if top ≠ 2 ∨ w.isEmpty then (l, c)
  else
    let rich := w.filter fun a => (c.dch1 k).credit.getD (c.askOwner a) 0 != 0
    if rich.isEmpty then (w, c.creditReload k) else (rich, c)

/-- The request that channel `k` grants: the first port after the pointer among those of the pool. -/
def Chip.askPick (c : Chip) (k : Nat) (asks : List DramAsk) : Option (DramAsk × Chip) :=
  let p := c.askPool k asks
  match nextAfter 20 (p.2.arbPtr k 20) fun i => p.1.any fun a => a.port == i with
  | none => none
  | some i => match p.1.find? fun a => a.port == i with
    | none => none
    | some a =>
      let c := p.2.arbGrantTag k 20 i a.sec fun j => asks.any fun b => b.port == j && !b.sec
      let o := c.askOwner a
      some (a, if c.askClass a = 2 then c.setDch1 k { c.dch1 k with credit := (c.dch1 k).credit.put 0 o ((c.dch1 k).credit.getD o 0 - 1) } else c)

/-- The bandwidth governor meters what ports 0 and 1 ask for that is not isochronous (R259). -/
def Chip.askMetered (c : Chip) (a : DramAsk) : Bool := decide (a.port < 2) && c.askClass a != 0

/-- A request may enter its queue: its region is not being filled, no perturbation and no governor holds it, and its bank has a free entry of its kind. One
that may not waits in the fabric with its own credits. -/
def Chip.askFits (c : Chip) (k : Nat) (a : DramAsk) : Bool :=
  let cls := c.askClass a
  (!c.askMetered a || decide (a.len * 10000 ≤ c.drc.gov)) &&
  !(c.eccHeld a.off || c.fabHeld a.port (if cls = 0 then 0 else if a.write then 2 else 3)) && c.bankTakes k (c.dramBank a.off) (cls == 0 && !a.write)

/-- The granted request joins its queue; a channel in self-refresh wakes (R252). -/
def Chip.askAdmit (c : Chip) (k : Nat) (a : DramAsk) : Chip :=
  let c := if c.get (R.DRC_DC.DC_STAT.SR k) = 1 then (c.set (R.DRC_DC.DC_STAT.SR k) 0).bump R.DRC.SR_CANCEL.COUNT
    else if c.get (R.DRC_DC.DC_STAT.SR k) = 2 then c.set (R.DRC_DC.DC_STAT.SR k) 3 else c
  let x := c.dch1 k
  let e : DramEnt := { write := a.write, cls := c.askClass a, port := a.port, off := a.off, len := a.len, data := if a.write then padTo a.len a.data else [],
                       since := c.ps, sec := a.sec }
  let e := { e with held := x.ents.any fun f => e.clashes f }
  let c := if c.askMetered a then { c with drc := { c.drc with gov := c.drc.gov - a.len * 10000 } } else c
  (c.setDch1 k { x with ents := x.ents ++ [e] }).dcShow k

/-- The request that each fabric port presents: the first it issued, whatever the levels of its others (R229). -/
def askHeads (asks : List DramAsk) : List DramAsk := asks.foldl (fun l a => if l.any fun b => b.port == a.port then l else l ++ [a]) []

/-- DRAM_REQUEST_ADMIT (R229, R231, R243, R245, R252): one cycle of the admission of a channel, at which this request of 32–256 B within one 256 B chunk stands
and, after it in the order in which each port issued them, those of `rest`. Requests outside the usable DRAM, or before training, are answered with an error; of the
others one is granted. -/
def execDramRequestAdmit (port : Nat) (who : DramWho) (write : Bool) (off len : Nat) (rest : DramRest) (s : State) : Host.Outcome State Fault Refusal :=
  s.on (port < 20 && 1 ≤ len && off % 256 + len ≤ 256 && rest.others.all DramAsk.fits) fun c =>
    let k := dramChan off
    let asks := { port := port, who := who, sec := rest.sec, write := write, off := off, len := len, data := rest.data } ::
      rest.others.filter fun a => dramChan a.off == k
    let bad := fun (a : DramAsk) => !c.drcReady || decide (c.dramUsable < a.off + a.len)
    let c := (asks.filter bad).foldl (fun (c : Chip) a => c.dramAnswer { port := a.port, off := a.off, ok := false, data := [] }) c
    let c := (c.srSettle k).govTime
    match c.askPick k ((askHeads (asks.filter fun a => !bad a)).filter (c.askFits k)) with
    | none => c
    | some (a, c) => c.askAdmit k a

/-! ### The pick (R246, R247) -/

/-- Entries that R248 does not hold, with their places in the queue. -/
def freeEnts (seen l : List DramEnt) (i : Nat) : List (Nat × DramEnt) :=
  match l with
  | [] => []
  | e :: rest => if seen.any (fun f => e.clashes f) then freeEnts (e :: seen) rest (i + 1) else (i, e) :: freeEnts (e :: seen) rest (i + 1)

/-- The entries among which the pick chooses: by class, and by direction where the direction has some. -/
def pickPool (iso dir : Bool) (ready : List (Nat × DramEnt)) : List (Nat × DramEnt) :=
  let isoEnts := ready.filter fun x => x.2.cls == 0
  let top := (ready.map fun x => x.2.cls).foldl min 3
  let pool := if iso && !isoEnts.isEmpty then isoEnts else ready.filter fun x => x.2.cls == top
  let same := pool.filter fun x => x.2.write == dir
  if same.isEmpty then pool else same

/-- Open rows, the oldest run first. -/
def rowsByAge (l : SMap DramRow) : List (Nat × DramRow) :=
  l.foldl (fun acc r => acc.filter (fun x => decide (x.2.since < r.2.since)) ++ r :: acc.filter (fun x => decide (r.2.since ≤ x.2.since))) []

/-- Direction of the next command: writes are drained at 64, or when the oldest has waited 4 µs, down to 32 (R246). -/
def Chip.pickDir (c : Chip) (k : Nat) : Bool :=
  let w := (c.dch1 k).ents.filter fun e => e.write
  let old := match w with | [] => false | e :: _ => decide (e.since + 4000000 ≤ c.ps)
  let dir := c.flag (R.DRC_DC.DC_STAT.WRITE_DIR k) || decide (64 ≤ w.length) || old
  dir && decide (32 < w.length)

/-- The entry that is picked, and whether it continues a row run. -/
def Chip.pickEnt (c : Chip) (k : Nat) (pool : List (Nat × DramEnt)) : Option (Nat × DramEnt × Bool) :=
  if c.flag R.DRC.MEM_CFG.PICK then
    match nextAfter 32 (c.dch1 k).pointer (fun b => pool.any fun x => c.dramBank x.2.off == b) with
    | none => none
    | some b => (pool.find? fun x => c.dramBank x.2.off == b).map fun x =>
        (x.1, x.2, match (c.dch1 k).rows.find? b with | some r => r.row == c.dramRow x.2.off | none => false)
  else
    let run := (rowsByAge (c.dch1 k).rows).findSome? fun r =>
      if r.2.run < c.get R.DRC.MEM_CFG.ROW_RUN_MAX then
        pool.find? fun x => c.dramBank x.2.off == r.1 && c.dramRow x.2.off == r.2.row
      else none
    match run with
    | some x => some (x.1, x.2, true)
    | none => pool.head?.map fun x => (x.1, x.2, false)

/-- The row of the bank after a column command: it stays open while the policy of R247 keeps it. -/
def Chip.rowAfter (c : Chip) (k : Nat) (e : DramEnt) (cont last : Bool) : Chip :=
  let x := c.dch1 k
  let b := c.dramBank e.off
  let row := c.dramRow e.off
  let old := x.rows.getD b { row := row, run := 0, since := x.runs }
  let r : DramRow := if cont then { old with run := old.run + 1 } else { row := row, run := 1, since := x.runs }
  let more := x.ents.any fun f => c.dramBank f.off == b && c.dramRow f.off == row
  let keep := if c.flag R.DRC.MEM_CFG.PICK then !last else more && decide (r.run < c.get R.DRC.MEM_CFG.ROW_RUN_MAX)
  c.setDch1 k { x with rows := if keep then x.rows.insert b r else x.rows.erase b, runs := if cont then x.runs else x.runs + 1, pointer := b }

/-- Entries that the end of `e` frees count the clocks they were held; the count of the controller's clocks is open. -/
def Chip.hazardCount (c : Chip) (k : Nat) : Chip :=
  let ready := (freeEnts [] (c.dch1 k).ents 0).map fun x => x.1
  let freed := ((c.dch1 k).ents.zipIdx.filter fun x => x.1.held && !x.1.sec && ready.contains x.2).length
  let c := forN freed c fun _ c => (c.fresh 32).2.addSat (R.DRC_DC.HAZARD_WAIT.COUNT k) (c.fresh 32).1
  c.setDch1 k { c.dch1 k with ents := (c.dch1 k).ents.zipIdx.map fun x => if ready.contains x.2 then { x.1 with held := false } else x.1 }

/-- A served request: a write reaches memory, a read answers with its data or an error (R254, R256), later where DRAM_DELAY or BACKPRESS
holds it back (R371). -/
def Chip.dramServe (c : Chip) (m : Mems) (k : Nat) (e : DramEnt) (link : Nat) : Chip × Mems :=
  if e.write then
    let w := (if e.sec then c else c.bump (R.DRC_DC.WR_CNT.COUNT k)).dramPut m e.off e.data
    (w.1.dramAnswer { port := e.port, off := e.off, ok := true, data := [] }, w.2)
  else
    let g := (if e.sec then c else c.bump (R.DRC_DC.RD_CNT.COUNT k)).dramCheck e.port e.off e.len
    let c := if link = 3 then g.2.dramUe e.port e.off else g.2
    let ok := g.1 && link != 3
    let late := if (c.get R.PTB_PERTURB.DRAM_DELAY.CHANNELS).testBit k then c.ps + 1000 * c.get R.PTB_PERTURB.DRAM_DELAY.NS else 0
    let due := if c.fab.pressed.testBit 1 then max late c.fab.pressedUntil else late
    (c.dramAnswer { port := e.port, off := e.off, ok := ok, data := if ok then Memory.readBytes m.dram e.off e.len else [], due := due }, m)

/-- The next command slot of channel `k`: whether it is an ISO slot, which `iso` asks for. RESERVE of every 64 slots are (R226); which of them the spec leaves
open. -/
def Chip.isoSlot (c : Chip) (k : Nat) (iso : Bool) : Bool × Chip :=
  let x := c.dch1 k
  let left := c.drc.reserve - x.isoSlot
  let i := left != 0 && (iso || decide (64 - x.slot ≤ left))
  (i, c.setDch1 k (if 63 ≤ x.slot then { x with slot := 0, isoSlot := 0 } else { x with slot := x.slot + 1, isoSlot := x.isoSlot + b2n i }))

/-- DRAM_COLUMN_ISSUE (R226, R246–R248): a command slot of channel `k`. `iso`: it is to be an ISO slot, where RESERVE allows it. `busy`: banks whose next command the
standard's timing or a refresh does not allow. `link`: 0 no link error, 1 corrected, 2 a read that succeeded on its retry, 3 one that failed
twice (R254). -/
def execDramColumnIssue (k : Nat) (iso : Bool) (busy : List Nat) (link : Nat) (s : State) : Host.Outcome State Fault Refusal :=
  s.onMem (k < 12) fun c m =>
    if !c.drcReady ∨ c.flag (R.DRC_DC.DC_STAT.RETRAINING k) then (c, m)
    else
      let ready := (freeEnts [] (c.dch1 k).ents 0).filter fun x => !busy.contains (c.dramBank x.2.off)
      let dir := c.pickDir k
      let slot := (c.set (R.DRC_DC.DC_STAT.WRITE_DIR k) (b2n dir)).isoSlot k iso
      let iso := slot.1
      let c := slot.2
      match c.pickEnt k (pickPool iso dir ready) with
      | none => (c, m)
      | some (i, e, cont) =>
        let c := if 2 ≤ c.get (R.DRC_DC.DC_STAT.SR k) then
            (c.setDch1 k { c.dch1 k with upTo := max (c.dch1 k).upTo c.ps }).set (R.DRC_DC.DC_STAT.SR k) 0 else c
        let n := min (e.len - e.sent) (32 - (e.off + e.sent) % 32)
        let last := decide (e.len ≤ e.sent + n)
        let x := c.dch1 k
        let ents := if last then x.ents.eraseIdx i else x.ents.set i { e with sent := e.sent + n }
        let c := c.setDch1 k { x with ents := ents, idleAt := if ents.isEmpty then c.ps else x.idleAt }
        let c := (c.rowAfter k e cont last).dcShow k
        let c := if cont && !e.sec then c.bump (R.DRC_DC.ROW_COALESCE.COUNT k) else c
        let c := if e.cls = 0 then c.bump R.FAB.ISO_SLOT_CNT.COUNT else c
        let c := if link = 1 then c.bump (R.DRC_DC.LINK_CE.COUNT k) else c
        if last then (c.hazardCount k).dramServe m k e link else (c, m)

/-! ### Retraining (R258) -/

/-- A retraining step of channel `k` is due. -/
def Chip.retrainDue (c : Chip) (k : Nat) : Bool :=
  let x := c.dch1 k
  let t := c.get (R.DRC_DC.DC_STAT.TEMP k)
  decide (c.get R.DRC.RETRAIN.FRAMES ≤ c.drc.frames - x.stepFrame) || decide (c.get R.DRC.RETRAIN.DRIFT_C ≤ max t x.stepTemp - min t x.stepTemp)

/-- DRAM_RETRAIN (R258): the lowest-numbered due channel takes a step. -/
def Chip.drcRetrain (c : Chip) : Chip :=
  if !c.drcReady ∨ !c.flag R.DRC.RETRAIN.EN then c
  else match firstIdx 12 c.retrainDue with
    | none => c
    | some k => (c.setDch1 k { c.dch1 k with rtAt := c.ps, rows := [] }).set (R.DRC_DC.DC_STAT.RETRAINING k) 1

/-- RETRAIN_STEP_DONE (R258). -/
def execRetrainStepDone (k : Nat) (ok : Bool) (s : State) : Host.Outcome State Fault Refusal :=
  s.on (k < 12) fun c => c.when (c.flag (R.DRC_DC.DC_STAT.RETRAINING k)) fun c =>
    let x := c.dch1 k
    let c := c.setDch1 k { x with stepFrame := c.drc.frames, stepTemp := c.get (R.DRC_DC.DC_STAT.TEMP k) }
    let c := c.debtNow k
    let c := (((c.set (R.DRC_DC.DC_STAT.RETRAINING k) 0).debtNow k).bump R.DRC.RETRAIN_CNT.COUNT).addSat (R.DRC_DC.RETRAIN_US.COUNT k) ((c.ps - x.rtAt) / 1000000)
    if ok then c else (c.raise 0x160 3).record 0x0F03 k []

/-! ### Governor (R259) -/

/-- An anchor line has ended: loop 2 moves. -/
def Chip.governor (c : Chip) : Chip :=
  let iso := c.drc.iso || (List.range 8).any fun n => c.get (R.SCN_OUT.OUT_STAT.CLASS n) == 2
  ({ c with drc := { c.drc with iso := false } }).loopStep 2 (if iso then (c.loop 2 : Int) - 10 else (c.loop 2 : Int) + 1)

/-! ### Training (R257) -/

/-- A write of TRAIN. -/
def Chip.trainWrite (c : Chip) (src : Src) (data : Nat) : Chip :=
  c.port src 0x160 0x04C
    [ (isSecure src || (c.mgrOrCtl src && !data.testBit 0), E.OWNER), (!data.testBit 0 || c.mode == Mode.BOOT, E.MODE),
      (bits data 4 12 == 0 && data / 2 ^ 28 == 0, E.RESERVED), (!data.testBit 0 || !c.flag R.DRC.TRAIN.BUSY, E.BUSY) ] fun c =>
    c.when (data.testBit 0) fun c => c.set R.DRC.TRAIN.BUSY 1

/-- TRAIN_GO (R257). -/
def execTrainGo (src : Src) (s : State) : Host.Outcome State Fault Refusal := s.on true fun c => c.trainWrite src 1

/-- GiB that DENSITY and RANKS fit (R242). -/
def Chip.fittedGib (c : Chip) : Nat := 12 * 2 ^ c.get R.DRC.MEM_CFG.DENSITY * 2 ^ c.get R.DRC.MEM_CFG.RANKS

/-- CAPACITY.USABLE_2M is the fitted capacity less the carve-out. -/
def Chip.usableShow (c : Chip) : Chip := c.set R.DRC.CAPACITY.USABLE_2M (c.get R.DRC.CAPACITY.GIB * 512 - c.get R.DRC_ECC.ECC_CARVE.SIZE)

/-- TRAIN_DONE (R257, R243): `failed` are the channels that failed, `unitPs` the time of one refresh unit of the fitted devices. -/
def execTrainDone (failed unitPs : Nat) (s : State) : Host.Outcome State Fault Refusal :=
  s.on (failed < 4096) fun c => c.when (c.flag R.DRC.TRAIN.BUSY) fun c =>
    let c := (c.set R.DRC.TRAIN.BUSY 0).set R.DRC.TRAIN.FAILED failed
    if failed = 0 then
      let c := { (c.set R.DRC.TRAIN.DONE 1).set R.DRC.TRAIN.FAIL 0 with drc := { c.drc with unitPs := unitPs } }
      let c := (c.set R.DRC.CAPACITY.GIB c.fittedGib).usableShow
      let c := c.set R.DRC.REF_STAT.REF_BOUND (c.get R.DRC.REF_CFG.POSTPONE_MAX * unitPs / 1000)
      let c := forN 12 c fun k c => c.setDch1 k { c.dch1 k with upTo := c.ps, idleAt := c.ps }
      c.raise 0x160 2
    else (c.set R.DRC.TRAIN.FAIL 1).raise 0x160 2

/-! ### ECC regions (R255) -/

/-- Base and length of the enabled regions other than `k`. -/
def Chip.otherRegions (c : Chip) (k : Nat) : List (Nat × Nat) :=
  ((List.range 8).filter fun j => j != k && c.flag (R.DRC_ECC.REG_BASE.EN j)).map fun j =>
    (c.get (R.DRC_ECC.REG_BASE.ADDR j), c.get (R.DRC_ECC.REG_SIZE.ADDR j))

/-- A region of `n` units from `b` may stand beside `others` with a carve-out of `carve` units: no overlap, within the capacity that the
carve-out leaves, and its check bits fit. -/
def Chip.regionOk (c : Chip) (b n carve : Nat) (others : List (Nat × Nat)) : Bool :=
  decide (b + n + carve ≤ c.get R.DRC.CAPACITY.GIB * 512) && (others.all fun (o : Nat × Nat) => decide (b + n ≤ o.1) || decide (o.1 + o.2 ≤ b))
    && decide ((others.map fun o => o.2).foldl (· + ·) n ≤ 8 * carve)

/-- Checks that every write to a region or carve-out register meets. -/
def Chip.eccChecks (c : Chip) (src : Src) : List (Bool × Nat) :=
  [ (isSecure src, E.OWNER), (c.mode == Mode.BOOT, E.MODE), (!c.flag R.DRC_ECC.ECC_CARVE.ECC_LOCK, E.LOCKED) ]

/-- A write of REG_BASE of region `k`. -/
def Chip.regBase (c : Chip) (src : Src) (k data : Nat) : Chip :=
  c.port src 0x161 (0x040 + 8 * k)
    (c.eccChecks src ++
      [ (data / 2 ^ 18 == 0, E.RESERVED),
        (!data.testBit 0 || c.regionOk (bits data 3 15) (c.get (R.DRC_ECC.REG_SIZE.ADDR k)) (c.get R.DRC_ECC.ECC_CARVE.SIZE) (c.otherRegions k), E.VALUE) ]) fun c =>
    let rises := data.testBit 0 && !c.flag (R.DRC_ECC.REG_BASE.EN k)
    let c := ((c.set (R.DRC_ECC.REG_BASE.EN k) (bits data 0 1)).set (R.DRC_ECC.REG_BASE.INIT k) (bits data 1 1)).set (R.DRC_ECC.REG_BASE.ADDR k) (bits data 3 15)
    if rises && data.testBit 1 then c.set (R.DRC_ECC.REG_BASE.INIT_BUSY k) 1 else c

/-- A write of REG_SIZE of region `k`. -/
def Chip.regSize (c : Chip) (src : Src) (k data : Nat) : Chip :=
  c.port src 0x161 (0x044 + 8 * k)
    (c.eccChecks src ++
      [ (data / 2 ^ 18 == 0 && bits data 0 3 == 0, E.RESERVED),
        (!c.flag (R.DRC_ECC.REG_BASE.EN k) || c.regionOk (c.get (R.DRC_ECC.REG_BASE.ADDR k)) (bits data 3 15) (c.get R.DRC_ECC.ECC_CARVE.SIZE) (c.otherRegions k), E.VALUE) ])
    fun c => c.set (R.DRC_ECC.REG_SIZE.ADDR k) (bits data 3 15)

/-- A write of ECC_CARVE. -/
def Chip.eccCarve (c : Chip) (src : Src) (data : Nat) : Chip :=
  let ok := (List.range 8).all fun k => !c.flag (R.DRC_ECC.REG_BASE.EN k) ||
    c.regionOk (c.get (R.DRC_ECC.REG_BASE.ADDR k)) (c.get (R.DRC_ECC.REG_SIZE.ADDR k)) (bits data 0 12) (c.otherRegions k)
  c.port src 0x161 0x080 (c.eccChecks src ++ [ (bits data 12 19 == 0, E.RESERVED), (ok, E.VALUE) ]) fun c =>
    ((c.set R.DRC_ECC.ECC_CARVE.SIZE (bits data 0 12)).set R.DRC_ECC.ECC_CARVE.ECC_LOCK (bits data 31 1)).usableShow

/-- ECC_REGION_ENABLE (R255): a write of REG_BASE with EN set. -/
def execEccRegionEnable (src : Src) (k : Nat) (data : Word) (s : State) : Host.Outcome State Fault Refusal :=
  s.on (k < 8) fun c => c.regBase src k (data.toNat ||| 1)

/-- ECC_INIT_DONE (R255): the zero-fill of region `k` ends. -/
def execEccInitDone (k : Nat) (s : State) : Host.Outcome State Fault Refusal :=
  s.onMem (k < 8) fun c m =>
    if !c.flag (R.DRC_ECC.REG_BASE.INIT_BUSY k) then (c, m)
    else
      let b := c.get (R.DRC_ECC.REG_BASE.ADDR k) * 2 ^ 21
      let e := b + c.get (R.DRC_ECC.REG_SIZE.ADDR k) * 2 ^ 21
      let c := { c with flaws := c.flaws.filter fun f => f.1 / 2 ^ 48 != Ecc.DRAM || decide (f.1 % 2 ^ 48 < b) || decide (e ≤ f.1 % 2 ^ 48) }
      ((c.set (R.DRC_ECC.REG_BASE.INIT_BUSY k) 0).raise 0x161 0, { m with dram := m.dram.filter fun x => decide (x.1 < b) || decide (e ≤ x.1) })

/-- Time has passed: entries to self-refresh settle. -/
def Chip.drcTime (c : Chip) : Chip := forN 12 c fun k c => c.srSettle k

end Sys2Proof.Machine
end

