-- ==== Sys2Proof/Machine/Layer.lean ====
section
/-! DEFINITION. A layer from its source in memory to linear premultiplied FP16, scaled (R171–R175), and the stack of a pipe (R176). -/

namespace Sys2Proof.Machine

/-- The configuration of a layer unit. -/
structure LayerCfg where
  unit : Nat
  fmt : Nat
  layout : Nat
  alpha : Nat
  xfer : Nat
  csc : Bool
  full : Bool
  hf : Nat
  vf : Nat
  ga : Nat
  remote : Bool
  dev : Nat
  addr : Nat
  chroma : Nat
  pitch : Nat
  sx : Nat
  sy : Nat
  sw : Nat
  sh : Nat
  dx : Int
  dy : Int
  dw : Nat
  dh : Nat
  bleft : Nat
  btop : Nat
  bw : Nat
  bh : Nat
  deriving DecidableEq, Repr

/-- The configuration of unit `u` in a view of the registers. R171 gives layers the codes 0x40–0x42, and the table of LAYER_CTRL gives FORMAT six bits:
bit 6 of the code stands in bit 30, which that table leaves reserved (log entry 108). -/
def layerCfg (v : Fld → Nat) (u : Nat) : LayerCfg :=
  { unit := u, fmt := v (R.CMP_L.LAYER_CTRL.FORMAT u) + 64 * v (R.CMP_L.LAYER_CTRL.FORMAT_HI u), layout := v (R.CMP_L.LAYER_CTRL.LAYOUT u), alpha := v (R.CMP_L.LAYER_CTRL.ALPHA_MODE u),
    xfer := v (R.CMP_L.LAYER_CTRL.TRANSFER u), csc := v (R.CMP_L.LAYER_CTRL.CSC u) == 1, full := v (R.CMP_L.LAYER_CTRL.FULL u) == 1,
    hf := v (R.CMP_L.LAYER_CTRL.HFILT u), vf := v (R.CMP_L.LAYER_CTRL.VFILT u), ga := v (R.CMP_L.LAYER_CTRL.GA u),
    remote := v (R.CMP_L.LAYER_CTRL.REMOTE u) == 1, dev := v (R.CMP_L.LAYER_CTRL.DEV u),
    addr := v (R.CMP_L.ADDR_LO.VALUE u) + 2 ^ 32 * v (R.CMP_L.ADDR_HI.VALUE u), chroma := v (R.CMP_L.CHROMA_OFF.VALUE u),
    pitch := v (R.CMP_L.PITCH.VALUE u), sx := v (R.CMP_L.SRC_XY.X u), sy := v (R.CMP_L.SRC_XY.Y u), sw := v (R.CMP_L.SRC_WH.W u),
    sh := v (R.CMP_L.SRC_WH.H u), dx := sext 16 (v (R.CMP_L.DST_XY.X u)), dy := sext 16 (v (R.CMP_L.DST_XY.Y u)),
    dw := v (R.CMP_L.DST_WH.W u), dh := v (R.CMP_L.DST_WH.H u), bleft := v (R.CMP_L.BOUND_XY.X u), btop := v (R.CMP_L.BOUND_XY.Y u),
    bw := v (R.CMP_L.BOUND_WH.W u), bh := v (R.CMP_L.BOUND_WH.H u) }

namespace LayerCfg

/-- A two-plane YCbCr format. -/
def yuv (q : LayerCfg) : Bool := q.fmt == 0x40 || q.fmt == 0x41

/-- Bytes per pixel, of YCbCr bytes per luma sample (R172). -/
def bpp (q : LayerCfg) : Nat := if q.fmt < 4 then 4 else if q.fmt = 4 then 8 else if q.fmt = 0x40 then 1 else 2

/-- The combinations that R171 allows. -/
def formatOk (q : LayerCfg) : Bool :=
  let lin := q.layout == 0
  let a := lin || q.layout == 1
  if q.fmt = 0 ∨ q.fmt = 2 then a && decide (q.xfer ≤ 2)
  else if q.fmt = 1 then a && q.xfer == 1
  else if q.fmt = 3 then lin && decide (q.xfer ≤ 2)
  else if q.fmt = 4 then (lin || q.layout == 2) && q.xfer == 0
  else if q.fmt = 0x40 ∨ q.fmt = 0x41 ∨ q.fmt = 0x42 then lin && decide (q.xfer ≤ 2)
  else false

/-- The scaling steps of R174. -/
def stepH (q : LayerCfg) : Nat := q.sw * 65536 / q.dw
def stepV (q : LayerCfg) : Nat := q.sh * 65536 / q.dh

/-- Taps of a filter. -/
def tapCount (f : Nat) : Nat := if f = 0 then 1 else if f = 1 then 2 else 4

/-- Line-buffer bytes (R175). -/
def need (q : LayerCfg) : Nat := q.sw * 8 * (tapCount q.vf + (q.stepV + 65535) / 65536)

/-! ### The bytes a unit reads (R172) -/

/-- Bytes of a tile and of a block row of an NFR layout. -/
def tileSize (q : LayerCfg) : Nat := if q.layout = 1 then 2048 else 3072

/-- Ranges of bytes, start and length, that source row `y` needs. -/
def rowSpans (q : LayerCfg) (y : Nat) : List (Nat × Nat) :=
  if q.layout = 0 then
    let p := q.pitch * 256
    let luma := [(q.addr + y * p + q.sx * q.bpp, q.sw * q.bpp)]
    let row := fun (k : Nat) => (q.addr + q.chroma + k * p + q.sx * q.bpp, q.sw * q.bpp)
    let top := (q.sy + q.sh) / 2 - 1
    if q.yuv then luma ++ [row (max (q.sy / 2) (min top (if y % 2 = 0 then y / 2 - 1 else y / 2))), row (max (q.sy / 2) (min top (if y % 2 = 0 then y / 2 else y / 2 + 1)))]
    else luma
  else
    let t0 := q.sx / 32
    let t1 := (q.sx + q.sw - 1) / 32
    [(q.addr + (y / 32 * q.pitch + t0) * q.tileSize, (t1 + 1 - t0) * q.tileSize)]

/-- Everything the source rectangle reads. -/
def spans (q : LayerCfg) : List (Nat × Nat) :=
  let rows := if q.layout = 0 then (List.range q.sh).map (q.sy + ·)
    else (List.range ((q.sy + q.sh - 1) / 32 + 1 - q.sy / 32)).map fun i => (q.sy / 32 + i) * 32
  (rows.map q.rowSpans).flatten

end LayerCfg

/-! ### One source pixel (R173) -/

/-- A premultiplied pixel in FP16. -/
structure Px where
  c : Rgb
  a : Nat
  deriving DecidableEq, Repr

def Px.zero : Px := { c := (0, 0, 0), a := 0 }

/-- An `n`-bit code as a fraction of full scale, in FP16. -/
def unorm (n v : Nat) : Nat := toFp16 (fp32.ofRat false v (2 ^ n - 1))

/-- A nonnegative FP16 word in units of 2^-24. -/
def num16 (w : Nat) : Nat :=
  match fp16.val w with
  | .fin _ mag exp => mag * 2 ^ (exp + 24).toNat
  | _ => 0

/-- A rational number: numerator and positive denominator. -/
abbrev Rat2 := Int × Nat

def Rat2.add (a b : Rat2) : Rat2 := (a.1 * b.2 + b.1 * a.2, a.2 * b.2)
def Rat2.mul (a b : Rat2) : Rat2 := (a.1 * b.1, a.2 * b.2)

/-- A channel clamped to [0, 1]. The rounding of the conversion inside FP32 is open between the two neighbours. -/
def Rat2.channel (x : Rat2) : Nat :=
  if x.1 ≤ 0 then 0
  else if (x.2 : Int) ≤ x.1 then fp16.one
  else
    let n := x.1.toNat * 2 ^ 120
    toFp16 (fp32.pickUlp 1 (n / x.2 : Nat) (-120) (n % x.2 != 0) (Config.roundPick x.1.toNat x.2 0))

namespace LayerCfg

/-- Luma sample of pixel (x, y), an FP16 fraction. -/
def lumaAt (q : LayerCfg) (m : Memory) (x y : Nat) : Nat :=
  let a := q.addr + y * q.pitch * 256 + x * q.bpp
  if q.fmt = 0x40 then unorm 8 (m.readNat a 1) else unorm 10 (m.readNat a 2 / 64)

/-- Chroma sample `k` (0 Cb, 1 Cr) of chroma site (x, y), which stays inside the source rectangle. -/
def chromaAt (q : LayerCfg) (m : Memory) (k : Nat) (x y : Int) : Nat :=
  let cx := (max ((q.sx / 2 : Nat) : Int) (min ((((q.sx + q.sw) / 2 : Nat) : Int) - 1) x)).toNat
  let cy := (max ((q.sy / 2 : Nat) : Int) (min ((((q.sy + q.sh) / 2 : Nat) : Int) - 1) y)).toNat
  let a := q.addr + q.chroma + cy * q.pitch * 256 + (2 * cx + k) * q.bpp
  num16 (if q.fmt = 0x40 then unorm 8 (m.readNat a 1) else unorm 10 (m.readNat a 2 / 64))

/-- Chroma at pixel (x, y) in units of 2^-27: co-sited horizontally, centred between lines vertically. -/
def chroma27 (q : LayerCfg) (m : Memory) (k x y : Nat) : Nat :=
  let near : Int := (y / 2 : Nat)
  let far : Int := if y % 2 = 0 then near - 1 else near + 1
  let row := fun (r : Int) =>
    let l := q.chromaAt m k (x / 2 : Nat) r
    if x % 2 = 0 then 2 * l else l + q.chromaAt m k ((x / 2 + 1 : Nat) : Int) r
  3 * row near + row far

/-- Pixel (x, y) of a YCbCr source as R'G'B' (R173 step 2). -/
def yuvPixel (q : LayerCfg) (m : Memory) (x y : Nat) : Rgb :=
  let s : Int := if q.fmt = 0x40 then 255 else 1023
  let k : Int := if q.fmt = 0x40 then 1 else 4
  let yn : Int := num16 (q.lumaAt m x y)
  let yy : Rat2 := if q.full then (yn, 2 ^ 24) else (s * yn - 16 * k * 2 ^ 24, 219 * k.toNat * 2 ^ 24)
  let ch := fun (i : Nat) =>
    let cn : Int := q.chroma27 m i x y
    ((s * cn - 128 * k * 2 ^ 27, (if q.full then s.toNat else 224 * k.toNat) * 2 ^ 27) : Rat2)
  let kr : Nat := if q.csc then 2126 else 2990
  let kb : Nat := if q.csc then 722 else 1140
  let kg := 10000 - kr - kb
  let cb : Rat2 := ch 0
  let cr : Rat2 := ch 1
  let r := yy.add (cr.mul ((2 * (10000 - kr) : Nat), 10000))
  let b := yy.add (cb.mul ((2 * (10000 - kb) : Nat), 10000))
  let g := (yy.add (cb.mul (-((2 * kb * (10000 - kb) : Nat) : Int), 10000 * kg))).add (cr.mul (-((2 * kr * (10000 - kr) : Nat) : Int), 10000 * kg))
  (r.channel, g.channel, b.channel)

/-- Pixel (x, y) unpacked (R173 steps 1 and 2). -/
def unpack (q : LayerCfg) (m : Memory) (x y : Nat) : Px :=
  if q.yuv then { c := q.yuvPixel m x y, a := fp16.one }
  else if q.layout = 1 then
    let w := nfrA.read m q.addr q.pitch x y
    { c := (unorm 8 (bits w 0 8), unorm 8 (bits w 8 8), unorm 8 (bits w 16 8)), a := unorm 8 (bits w 24 8) }
  else if q.layout = 2 then
    let w := nfrH.read m q.addr q.pitch x y
    { c := (fp16.sat (bits w 0 16), fp16.sat (bits w 16 16), fp16.sat (bits w 32 16)), a := fp16.sat (bits w 48 16) }
  else
    let w := m.readNat (q.addr + y * q.pitch * 256 + x * q.bpp) q.bpp
    if q.fmt = 2 then { c := (unorm 8 (bits w 16 8), unorm 8 (bits w 8 8), unorm 8 (bits w 0 8)), a := unorm 8 (bits w 24 8) }
    else if q.fmt = 3 then { c := (unorm 10 (bits w 0 10), unorm 10 (bits w 10 10), unorm 10 (bits w 20 10)), a := unorm 2 (bits w 30 2) }
    else if q.fmt = 4 then
      { c := (fp16.sat (bits w 0 16), fp16.sat (bits w 16 16), fp16.sat (bits w 32 16)), a := fp16.sat (bits w 48 16) }
    else if q.fmt = 0x42 then { c := (unorm 5 (bits w 11 5), unorm 6 (bits w 5 6), unorm 5 (bits w 0 5)), a := fp16.one }
    else { c := (unorm 8 (bits w 0 8), unorm 8 (bits w 8 8), unorm 8 (bits w 16 8)), a := unorm 8 (bits w 24 8) }

/-- The transfer of R173 step 3. -/
def transfer (q : LayerCfg) (p : Px) : Px :=
  if q.xfer = 1 then { p with c := p.c.map fun w => toFp16 (srgbDecode (toFp32 w)) }
  else if q.xfer = 2 then { p with c := p.c.map fun w => toFp16 (pow24 (toFp32 w)) }
  else p

/-- The alpha mode of R173 step 4. -/
def premultiply (q : LayerCfg) (p : Px) : Px :=
  if q.alpha = 1 then { p with c := p.c.map fun w => toFp16 (fp32.mul (toFp32 w) (toFp32 p.a)) }
  else if q.alpha = 2 then { p with a := fp16.one }
  else { p with c := p.c.map fun w => fp16.ofVal (FV.min (FV.max (fp16.val w) (.fin false 0 0)) (fp16.val p.a)) }

/-- Source pixel (x, y) as a linear premultiplied value. -/
def pixel (q : LayerCfg) (m : Memory) (x y : Nat) : Px := q.premultiply (q.transfer (q.unpack m x y))

end LayerCfg

/-! ### Scaling (R174) -/

/-- Sample position of destination pixel `d`, from the source rectangle's start: pixel and phase in 1/64. -/
def samplePos (step d : Nat) : Int × Nat :=
  let n : Int := ((2 * d + 1) * step : Nat) - 65536
  let q := n / 2048
  let r := n % 2048
  let q := if 1024 < r ∨ (r = 1024 ∧ q % 2 ≠ 0) then q + 1 else q
  (q / 64, (q % 64).toNat)

/-- A Catmull-Rom coefficient with 14 fractional bits; `n` is 32 times its exact value. -/
def cubicCoef (phase tap : Nat) (n : Int) : Int := n / 32 + (if n % 32 ≠ 0 ∧ Config.cubicUp phase tap then 1 else 0)

/-- Taps of a filter at a position: pixel and coefficient in 2^-14. -/
def taps (filt : Nat) (pos : Int × Nat) : List (Int × Int) :=
  let i := pos.1
  let p : Int := pos.2
  if filt = 0 then [(if 32 < p ∨ (p = 32 ∧ Config.nearestUp) then i + 1 else i, 16384)]
  else if filt = 1 then [(i, (64 - p) * 256), (i + 1, p * 256)]
  else
    [ (i - 1, cubicCoef pos.2 0 (-(p * p * p) + 128 * p * p - 4096 * p)), (i, cubicCoef pos.2 1 (3 * p * p * p - 320 * p * p + 524288)),
      (i + 1, cubicCoef pos.2 2 (-(3 * p * p * p) + 256 * p * p + 4096 * p)), (i + 2, cubicCoef pos.2 3 (p * p * p - 64 * p * p)) ]

/-- A filter sum, taken in FP32 and rounded to FP16. With four taps the order of the sum is open: the result is a neighbour of the exact
sum. -/
def filterSum (filt : Nat) (ws : List Int) (vs : List Nat) : Nat :=
  if filt = 0 then vs.headD 0
  else
    let sum := (List.zipWith (fun (w : Int) v => FV.mul (fp16.val v) (.fin (decide (w < 0)) w.natAbs (-14))) ws vs).foldl FV.add (.fin false 0 0)
    if filt = 1 then toFp16 (fp32.ofVal sum)
    else match sum with
      | .fin neg mag exp => if mag = 0 then 0 else toFp16 (fp32.pickUlp 1 (lowOf neg mag false) exp false (Config.roundPick mag (exp + 100).toNat 1))
      | v => toFp16 (fp32.ofVal v)

/-- A filter over pixels. -/
def filterPx (filt : Nat) (ws : List Int) (ps : List Px) : Px :=
  let f := fun (g : Px → Nat) => filterSum filt ws (ps.map g)
  { c := (f fun p => p.c.1, f fun p => p.c.2.1, f fun p => p.c.2.2), a := f fun p => p.a }

/-- Index `i` kept inside 0 … n − 1: taps beyond the source rectangle repeat its edge. -/
def edge (n : Nat) (i : Int) : Nat := (max 0 (min ((n : Int) - 1) i)).toNat

namespace LayerCfg

/-- Destination line `y` shows the unit. -/
def onLine (q : LayerCfg) (y : Nat) : Bool :=
  decide (q.dy ≤ y) && decide ((y : Int) < q.dy + q.dh) && decide (q.btop ≤ y) && decide (y < q.btop + q.bh)

/-- Vertical taps of destination line `y`, as rows of the source rectangle. -/
def vTaps (q : LayerCfg) (y : Nat) : List (Nat × Int) :=
  (taps q.vf (samplePos q.stepV ((y : Int) - q.dy).toNat)).map fun t => (edge q.sh t.1, t.2)

/-- Source rows that destination line `y` uses. -/
def rowsOf (q : LayerCfg) (y : Nat) : List Nat := (q.vTaps y).map fun t => q.sy + t.1

/-- The unit's pixels for columns `x0` … `x0 + w − 1` of destination line `y`. -/
def line (q : LayerCfg) (m : Memory) (y x0 w : Nat) : List Px :=
  let vt := q.vTaps y
  let cols := (List.range q.sw).map fun x => filterPx q.vf (vt.map fun t => t.2) (vt.map fun t => q.pixel m (q.sx + x) (q.sy + t.1))
  (List.range w).map fun i =>
    let x := x0 + i
    if (x : Int) < q.dx ∨ q.dx + q.dw ≤ (x : Int) ∨ x < q.bleft ∨ q.bleft + q.bw ≤ x then Px.zero
    else
      let ht := taps q.hf (samplePos q.stepH ((x : Int) - q.dx).toNat)
      filterPx q.hf (ht.map fun t => t.2) (ht.map fun t => cols.getD (edge q.sw t.1) Px.zero)

end LayerCfg

/-! ### Blending (R176) -/

/-- One layer over the stack. -/
def stackPx (ga : Nat) (s : Px) (p : Px) : Px :=
  let g := fp16.ofRat false ga 255
  let a := fp16.mul p.a g
  let na := fp16.sub fp16.one a
  { c := Rgb.zip (fun l o => fp16.add (fp16.mul l g) (fp16.mul o na)) p.c s.c, a := fp16.add a (fp16.mul s.a na) }

end Sys2Proof.Machine
end

