-- ==== Sys2Proof/Machine/Compose.lean ====
section
/-! DEFINITION. Slice composition (chapter 11, R162–R188): commits, rings, the flip line, slices and lines. -/

namespace Sys2Proof.Machine

/-! ### Units and pipes -/

def Chip.cpipe (c : Chip) (n : Nat) : CmpPipe := c.cmp.pipe.getD n {}
def Chip.setPipe (c : Chip) (n : Nat) (x : CmpPipe) : Chip := { c with cmp := { c.cmp with pipe := c.cmp.pipe.put {} n x } }

def Chip.scnOut (c : Chip) (n : Nat) : ScnOut := c.scn.getD n {}
def Chip.setScn (c : Chip) (n : Nat) (x : ScnOut) : Chip := { c with scn := c.scn.put {} n x }

/-- Page of pipe `n` and of unit `u`. -/
def pipePage (n : Nat) : Nat := 0x0E0 + n
def unitPage (u : Nat) : Nat := 0x0E8 + u

/-- Who owns unit `u`: an instance, or 16. -/
def Chip.unitOwner (c : Chip) (u : Nat) : Nat := ((List.range 16).find? fun vi => (c.share vi).layers.testBit u).getD 16

/-- The pipes a commit of pipe `n` covers: both of a split pair. -/
def Chip.pipesOf (c : Chip) (n : Nat) : List Nat := if c.splits n then [n, n + 1] else [n]

/-- Units whose PIPE in a view is among `pipes`. -/
def unitsOn (v : Fld → Nat) (pipes : List Nat) : List Nat := (List.range 48).filter fun u => pipes.contains (v (R.CMP_L.LAYER_MGR.PIPE u))

/-- Unit `u` is a member of a gang (R168). -/
def isMember (v : Fld → Nat) (u : Nat) : Bool :=
  (u % 2 == 1 && v (R.CMP_L.LAYER_MGR.GANG (u - 1)) == 1) || (u % 4 != 0 && v (R.CMP_L.LAYER_MGR.GANG (u / 4 * 4)) == 2)

/-- Units of `pipes` that take part in composition. -/
def shownUnits (v : Fld → Nat) (pipes : List Nat) : List Nat :=
  (unitsOn v pipes).filter fun u => v (R.CMP_L.LAYER_CTRL.ENABLE u) == 1 && !isMember v u

/-- Status registers follow the live configuration: units per pipe, all attached units, need and owner. With PD_CMP off a layer page reads its reset
values (R170). -/
def Chip.cmpShow (c : Chip) : Chip :=
  let mask := fun (l : List Nat) => (l.map fun u => 2 ^ u).foldl (· + ·) 0
  let c := forN 8 c fun n c =>
    let us := unitsOn c.get [n]
    let m := mask us
    let c := ((c.set (R.CMP_P.UNITS.UNITS n 0) m).set (R.CMP_P.UNITS.UNITS n 1) (m / 2 ^ 32)).set (R.CMP_P.PIPE_STAT.UNITS n) us.length
    c.set (R.CMP_P.PIPE_STAT.SPLIT n) (b2n (c.splits (n / 2 * 2)))
  let m := mask (unitsOn c.get (List.range 8))
  let c := (c.set (R.CMP.ATTACH.UNITS 0) m).set (R.CMP.ATTACH.UNITS 1) (m / 2 ^ 32)
  forN 48 c fun u c =>
    let q := layerCfg c.get u
    (c.set (R.CMP_L.LAYER_STAT.NEED_KIB u) ((q.need + 1023) / 1024)).set (R.CMP_L.LAYER_STAT.OWNER u) (if c.pdOn PD.CMP then c.unitOwner u else 16)

/-- Lines the slice buffer holds at active width `w` (R163). -/
def bufLines (w : Nat) : Nat := 1048576 / (w * 4)

/-! ### Validation (R165–R175, R181) -/

/-- A range lies inside the enabled windows of instance `vi` together (R81). -/
def Chip.inWindows (c : Chip) (vi a n fuel : Nat) : Bool :=
  match fuel with
  | 0 => n == 0
  | f + 1 =>
    if n = 0 then true
    else
      let w := (List.range 4).find? fun k =>
        let b := c.get (R.IMX_VI.WIN_BASE.ADDR vi k) * 2 ^ 21
        c.flag (R.IMX_VI.WIN_BASE.EN vi k) && decide (b ≤ a) && decide (a < b + c.get (R.IMX_VI.WIN_SIZE.ADDR vi k) * 2 ^ 21)
      match w with
      | none => false
      | some k =>
        let e := (c.get (R.IMX_VI.WIN_BASE.ADDR vi k) + c.get (R.IMX_VI.WIN_SIZE.ADDR vi k)) * 2 ^ 21
        Chip.inWindows c vi e (n - (e - a)) f

/-- Device `d` is reachable over the link. -/
def Chip.reaches (c : Chip) (d : Nat) : Bool := (c.get R.LNK.TOPO.REACH0 ||| c.get R.LNK.TOPO.REACH1).testBit d

/-- A range of bytes may be read by unit `q` of owner `own`; `sec`: the secure world configured it (R172, R350). -/
def Chip.spanOk (c : Chip) (q : LayerCfg) (own : Nat) (sec : Bool) (r : Nat × Nat) : Bool :=
  if q.remote then
    match c.lnk.dacc.find? q.dev with
    | none => false
    | some d => c.reaches q.dev && decide (d.1 * 2 ^ 21 ≤ r.1) && decide (r.1 + r.2 ≤ (d.1 + d.2) * 2 ^ 21)
  else if own < 16 then c.inWindows own r.1 r.2 5 && decide (r.1 + r.2 ≤ c.dramUsable)
  else decide (r.1 + r.2 ≤ c.dramSize) && (sec || decide (c.get R.SEC.DRAM_WMARK.WMARK * 2 ^ 21 ≤ r.1))

/-- The gang conditions of unit `u` (R168). -/
def Chip.gangOk (c : Chip) (v : Fld → Nat) (u : Nat) : Bool :=
  let g := v (R.CMP_L.LAYER_MGR.GANG u)
  let k := 2 ^ g
  g == 0 || (u % k == 0 && (List.range k).all fun i => i == 0 ||
    (v (R.CMP_L.LAYER_MGR.PIPE (u + i)) == v (R.CMP_L.LAYER_MGR.PIPE u) && c.unitOwner (u + i) == c.unitOwner u
      && v (R.CMP_L.LAYER_MGR.GANG (u + i)) == 0 && v (R.CMP_L.LAYER_CTRL.ENABLE (u + i)) == 0))

/-- The gang of lead `u`, or of `u` alone. -/
def gangUnits (v : Fld → Nat) (u : Nat) : List Nat := (List.range (2 ^ v (R.CMP_L.LAYER_MGR.GANG u))).map (u + ·)

/-- Every gang that has a unit on one of `pipes`, now or in view `v`, meets its conditions in `v` (R168): so a commit can neither take a lead away from
its members nor a member from its lead. -/
def Chip.gangsOk (c : Chip) (v : Fld → Nat) (pipes : List Nat) : Bool :=
  (List.range 48).all fun u =>
    !((gangUnits v u).any fun k => pipes.contains (v (R.CMP_L.LAYER_MGR.PIPE k)) || pipes.contains (c.get (R.CMP_L.LAYER_MGR.PIPE k))) || c.gangOk v u

/-- No two of these units have the same pipe and ZPOS (R167); detached units have no stacking order. -/
def zposOk (v : Fld → Nat) (us : List Nat) : Bool :=
  us.all fun a => us.all fun b => a == b || v (R.CMP_L.LAYER_MGR.PIPE a) == 15 || v (R.CMP_L.LAYER_MGR.PIPE a) != v (R.CMP_L.LAYER_MGR.PIPE b)
    || v (R.CMP_L.LAYER_MGR.ZPOS a) != v (R.CMP_L.LAYER_MGR.ZPOS b)

/-- The first failed check of a set of pipes in a view (R181): the units judged are those whose PIPE, live or in the view, is among them. `own`, `attach`
and `lead` are the checks that belong to the kind of commit. -/
def Chip.cmpCheck (c : Chip) (v : Fld → Nat) (pipes : List Nat) (sec : Nat → Bool) (own attach lead : Bool) : Option Nat :=
  let left := (unitsOn c.get pipes).filter fun u => v (R.CMP_L.LAYER_CTRL.ENABLE u) == 1 && !isMember v u && !pipes.contains (v (R.CMP_L.LAYER_MGR.PIPE u))
  let qs := (shownUnits v pipes ++ left).map (layerCfg v)
  let cap := fun (q : LayerCfg) => 196608 * 2 ^ v (R.CMP_L.LAYER_MGR.GANG q.unit)
  let ratio := fun n => decide (0x2000 ≤ n) && decide (n ≤ 0x40000)
  firstFail
    [ (qs.all fun q => q.addr % 256 == 0 && q.chroma % 256 == 0
        && (!q.yuv || (q.sx % 2 == 0 && q.sy % 2 == 0 && q.sw % 2 == 0 && q.sh % 2 == 0)), E.ALIGN),
      (own && qs.all fun q => !q.remote || c.unitOwner q.unit == 16, E.OWNER),
      (qs.all fun q => q.spans.all (c.spanOk q (c.unitOwner q.unit) (sec q.unit)), E.RANGE),
      (qs.all LayerCfg.formatOk, 0x38),
      (zposOk v (shownUnits v pipes)
        && (qs.all fun q => q.layout != 0 || decide ((q.sx + q.sw) * q.bpp ≤ q.pitch * 256))
        && (qs.all fun q => ratio q.stepH && ratio q.stepV), E.VALUE),
      (attach, E.STATE),
      (c.gangsOk v pipes, 0x3A),
      (lead && (pipes.all fun p => p == 15 || decide ((unitsOn v [p]).length ≤ 12)) && (qs.all fun q => decide (q.need ≤ cap q)), E.SHORT) ]

/-! ### Register commits -/

/-- The pages whose staged sets the COMMIT of pipe `n` covers: its pipe and every unit whose live or staged PIPE it is (R181). -/
def Chip.cmpPages (c : Chip) (n : Nat) : List Nat :=
  let ps := c.pipesOf n
  (ps.map pipePage) ++ ((List.range 48).filter fun u =>
    ps.contains (c.get (R.CMP_L.LAYER_MGR.PIPE u)) || ps.contains (c.staged (R.CMP_L.LAYER_MGR.PIPE u))).map unitPage

/-- The pages whose staged sets the COMMIT of CMP_GLOBAL covers. -/
def Chip.cmpFreePages (c : Chip) : List Nat :=
  ((List.range 48).filter fun u => c.get (R.CMP_L.LAYER_MGR.PIPE u) == 15 && c.staged (R.CMP_L.LAYER_MGR.PIPE u) == 15).map unitPage

/-- The registers as they will be if the sets of `pages` latch. -/
def Chip.viewWith (c : Chip) (pages : List Nat) (f : Fld) : Nat := if pages.contains f.page then c.staged f else c.coming f

/-- The last writer of a unit's source was the secure world, or will be once a set of `pages` from it latches. -/
def Chip.secView (c : Chip) (pages : List Nat) (sec : Bool) (u : Nat) : Bool :=
  if pages.contains (unitPage u) ∧ !(c.stage (unitPage u)).shadow.isEmpty then sec else c.cmp.secure.contains u

/-- No unit is attached that is not free (R167). -/
def Chip.attachOk (c : Chip) (pages : List Nat) : Bool :=
  (List.range 48).all fun u =>
    let live := c.get (R.CMP_L.LAYER_MGR.PIPE u)
    let new := c.staged (R.CMP_L.LAYER_MGR.PIPE u)
    !pages.contains (unitPage u) || new == live || new == 15 || (live == 15 && c.coming (R.CMP_L.LAYER_MGR.PIPE u) == 15)

/-- Validation of the COMMIT of pipe `n` (R181); `sec`: the secure world gave GO. -/
def Chip.pipeCheck (c : Chip) (n : Nat) (sec : Bool) : Option Nat :=
  let pages := c.cmpPages n
  let v := c.viewWith pages
  c.cmpCheck v (c.pipesOf n) (c.secView pages sec) true (c.attachOk pages)
    (decide (v (R.CMP_P.PIPE_CFG.LEAD n) ≤ bufLines (c.coming (R.SCN_OUT.H_TIMING.ACTIVE n))))

/-- Validation of the COMMIT of CMP_GLOBAL. -/
def Chip.freeCheck (c : Chip) (sec : Bool) : Option Nat :=
  let pages := c.cmpFreePages
  c.cmpCheck (c.viewWith pages) [15] (c.secView pages sec) true true true

/-- Units whose sets have latched were configured by the secure world, or no longer. -/
def Chip.secMark (c : Chip) (pages : List Nat) (sec : Bool) : Chip :=
  let us := (List.range 48).filter fun u => pages.contains (unitPage u)
  let rest := c.cmp.secure.filter fun u => !us.contains u
  { c with cmp := { c.cmp with secure := if sec then rest ++ us else rest } }

/-! ### Rings (R182–R185) -/

/-- The field of a LAYER record that a register field takes. -/
def recField (b : List Byte) (f : Fld) : Nat := bits (fieldAt b (f.off - 0x04C + 0x14) 4) f.lo f.w

/-- A record gives a register: only ADDR and CHROMA_OFF where ADDR_ONLY is set. -/
def recHas (b : List Byte) (f : Fld) : Bool :=
  decide (0x04C ≤ f.off) && decide (f.off ≤ 0x06C) && ((fieldAt b 0x11 1) % 2 == 0 || (decide (0x050 ≤ f.off) && decide (f.off ≤ 0x058)))

/-- The records over a view of the registers. -/
def recView (recs : List (Nat × List Byte)) (v : Fld → Nat) (f : Fld) : Nat :=
  match recs.find? fun r => unitPage r.1 == f.page && recHas r.2 f with
  | some r => recField r.2 f
  | none => v f

/-- The owner fields of unit `u`. -/
def ownerFields (u : Nat) : List FSpec :=
  let nr := pageRows (unitPage u)
  ((nr.2.filter fun r => decide (0x04C ≤ r.off) && decide (r.off ≤ 0x06C)).map fun r => r.fields nr.1 0).flatten

/-- The reserved bits and bytes of a LAYER record are 0 (R93, R183). -/
def layerClean (b : List Byte) : Bool :=
  let only := (fieldAt b 0x11 1).testBit 0
  let u := fieldAt b 0x10 1
  let specs := ownerFields (u % 48)
  let reserved := (List.range 9).all fun i =>
    let o := 0x04C + 4 * i
    clearBits (fieldAt b (0x14 + 4 * i) 4) ((specs.filter fun f => f.fld.off == o).foldl (fun m f => m ||| f.mask) 0) == 0
  u / 64 == 0 && fieldAt b 0x11 1 / 2 == 0 && zeroAt b 0x12 2 && zeroAt b 0x38 8 && reserved && (!only || (zeroAt b 0x14 4 && zeroAt b 0x24 20))

/-- The check of a LAYER record at issue (R183): reserved bits, then the per-field rules. -/
def Chip.layerCheck (c : Chip) (b : List Byte) : Option Nat :=
  let only := (fieldAt b 0x11 1).testBit 0
  let u := fieldAt b 0x10 1
  let specs := ownerFields (u % 48)
  let v := fun (f : Fld) => recField b f
  firstFail
    [ (layerClean b, E.RESERVED),
      (decide (u < 48), E.VALUE),
      (only || specs.all fun f => f.legal.ok (v f.fld), E.VALUE),
      (only || !(v (R.CMP_L.LAYER_CTRL.REMOTE (u % 48)) == 1 && v (R.CMP_L.LAYER_CTRL.DEV (u % 48)) == c.get R.LDG_SYNC.SYNC_STATE.DEVID), E.VALUE) ]

def Chip.copen (c : Chip) (r : Nat) : CmpOpen := c.cmp.opens.getD r {}
def Chip.setOpen (c : Chip) (r : Nat) (x : CmpOpen) : Chip := { c with cmp := { c.cmp with opens := c.cmp.opens.put {} r x } }

/-- CMP_NOP (R182). -/
def execCmpNop (r : Nat) (s : State) : Host.Outcome State Fault Refusal :=
  s.on (r < 64) fun c => match c.freshEntry r 1 0 with
    | none => c
    | some e => c.finish r e.seq E.NONE []

/-- LAYER (R183): after a failed record a LAYER is E_DISCARDED, unless the reserved bytes of its payload, which are judged before it, are not 0 (R93). -/
def Chip.layerEntry (c : Chip) (r : Nat) (e : Issued) : Chip :=
  let x := c.copen r
  let fail := fun (c : Chip) code => (c.setOpen r { recs := [], failed := true }).finish r e.seq code []
  if x.failed then c.finish r e.seq (if layerClean e.bytes then 0x39 else E.RESERVED) []
  else match c.layerCheck e.bytes with
    | some code => fail c code
    | none =>
      let u := fieldAt e.bytes 0x10 1
      let rest := x.recs.filter fun y => y.1 != u
      if 12 ≤ rest.length then fail c E.SHORT
      else (c.setOpen r { x with recs := rest ++ [(u, e.bytes)] }).finish r e.seq E.NONE []

/-- LAYER (R183). -/
def execLayer (r : Nat) (s : State) : Host.Outcome State Fault Refusal :=
  s.on (r < 64) fun c => match c.freshEntry r 1 1 with
    | none => c
    | some e => c.layerEntry r e

/-- PIPE_DEGR or the mode asks for Degraded composition on pipe `n`: a commit that is accepted meanwhile does not end it (R46, R218). -/
def Chip.cmpAsked (c : Chip) (n : Nat) : Bool :=
  (c.get R.SAF.PIPE_DEGR.PIPES).testBit n || c.mode == Mode.DEGRADED || (c.modeBusy && c.modeTarget == Mode.DEGRADED)

/-- Degraded composition is called for on pipe `n` (R46, R48, R49, R50, R218). -/
def Chip.cmpWant (c : Chip) (n : Nat) : Bool :=
  c.cmpAsked n || c.mode == Mode.BOOT || c.mode == Mode.VIGIL || c.mode == Mode.DORMANT || !c.pdOn PD.CMP

/-- A commit for pipe `n`, no follower, accepted now, ends the Degraded composition of its pipes when it latches (R46, R71, R218). -/
def Chip.cmpFrees (c : Chip) (n : Nat) : Bool := !(c.pipesOf n).any c.cmpAsked

/-- Validation of a ring COMMIT of owner `own` for pipe `p` (R185). -/
def Chip.ringCommitCheck (c : Chip) (own p : Nat) (recs : List (Nat × List Byte)) (sec : Bool) : Option Nat :=
  let ps := c.pipesOf p
  let v := recView recs c.coming
  let us := recs.map fun r => r.1
  let owned := (us.all fun u => c.unitOwner u == own && (own == 16 || v (R.CMP_L.LAYER_CTRL.REMOTE u) == 0)) && (unitsOn c.coming ps).any fun u => c.unitOwner u == own
  let attached := us.all fun u => ps.contains (c.coming (R.CMP_L.LAYER_MGR.PIPE u))
  c.cmpCheck v ps (fun u => if us.contains u then sec else c.cmp.secure.contains u) owned
    (attached && !(p % 2 == 1 && c.splits (p - 1))) true

/-- CMP_COMMIT (R184, R185). -/
def Chip.commitEntry (c : Chip) (r : Nat) (e : Issued) : Chip :=
  let x := c.copen r
  let own := c.ringOwn r
  let p := fieldAt e.bytes 0x10 1
  let fl := fieldAt e.bytes 0x11 1
  let c := c.setOpen r {}
  if p / 8 ≠ 0 ∨ fl / 2 ≠ 0 ∨ !zeroAt e.bytes 0x12 2 ∨ !zeroAt e.bytes 0x18 40 then c.finish r e.seq E.RESERVED []
  else if x.failed then c.finish r e.seq 0x39 []
  else if c.mode = Mode.DEGRADED then c.finish r e.seq E.MODE []
  else match c.ringCommitCheck own p x.recs false with
    | some code => c.finish r e.seq code []
    | none =>
      let k : RingCommit := { ring := r, seq := e.seq, own := own, pipe := p, recs := x.recs, frameEn := fl == 1, frame := fieldAt e.bytes 0x14 4,
                              ok := c.cmpFrees p }
      { c.takeUp r e.seq with cmp := { c.cmp with commits := c.cmp.commits ++ [k] } }

/-- CMP_COMMIT (R185). -/
def execCmpCommit (r : Nat) (s : State) : Host.Outcome State Fault Refusal :=
  s.on (r < 64) fun c => match c.freshEntry r 1 2 with
    | none => c
    | some e => c.commitEntry r e

/-- The class's own conditions on a head (R49, R185): a LAYER or COMMIT waits while PD_CMP is being powered on, a COMMIT while its owner has
another on the same pipe. -/
def Chip.cmpCan (c : Chip) (r : Nat) : Bool :=
  match (c.ring r).fetched with
  | [] => false
  | e :: _ =>
    if e.opcode = 0 then true
    else
      let p := fieldAt e.bytes 0x10 1
      let own := c.ringOwn r
      (c.mode == Mode.DEGRADED || c.pdFree PD.CMP) &&
        (e.opcode != 2 || !((c.cmp.commits.any fun k => k.own == own && k.pipe == p)
          || (List.range 64).any fun q => c.ringOwn q == own && (c.ring q).issued.any fun i => i.fresh && i.opcode == 2 && c.ringClass q == 1 && fieldAt i.bytes 0x10 1 == p))

/-! ### Events that reach composition (R170) -/

/-- Unit `u` leaves its owner: its owner fields take their reset values. -/
def Chip.unitReset (c : Chip) (u : Nat) : Chip :=
  let x := c.stage (unitPage u)
  let keep := x.shadow.filter fun y => y.1.off < 0x04C
  let c := c.putStage { x with shadow := keep, owner := if keep.isEmpty then none else x.owner, pending := x.pending.filter fun y => y.1.off < 0x04C }
  { (ownerFields u).foldl (fun c f => c.set f.fld f.fld.rst) c with cmp := { c.cmp with secure := c.cmp.secure.filter (· ≠ u) } }

/-- The layer shares of the units that `now` names change to what the share registers hold (R79). -/
def Chip.layerShares (c : Chip) (now : Nat → Bool) : Chip :=
  let mask := ((List.range 48).filter now).foldl (fun m u => m + 2 ^ u) 0
  let reg := fun (c : Chip) vi => c.get (R.IMX_VI.SH_LAYER.UNITS vi 0) + 2 ^ 32 * c.get (R.IMX_VI.SH_LAYER.UNITS vi 1) % 2 ^ 48
  let gone := fun (c : Chip) vi => (List.range 48).filter fun u => now u && (c.share vi).layers.testBit u && !(reg c vi).testBit u
  let lost := ((List.range 16).map (gone c)).flatten
  let c := forN 16 c fun vi c =>
    let s := c.share vi
    let new := clearBits s.layers mask ||| (reg c vi &&& mask)
    if new = s.layers ∧ !(c.get (R.IMX_VI.VI_STAT.PEND vi)).testBit 2 then c
    else
      let c := { c with imx := { c.imx with shares := c.imx.shares.put {} vi { s with layers := new } } }
      let was := (c.get (R.IMX_VI.VI_STAT.PEND vi)).testBit 2
      let c := c.setBit (R.IMX_VI.VI_STAT.PEND vi) 2 (new != reg c vi)
      if was && new == reg c vi then c.raise (0x060 + vi) 2 else c
  (lost.foldl (fun c u => c.unitReset u) c).cmpShow

/-- An instance reset squashes the open and pending ring commits of owner `own` without completions (R170). -/
def Chip.cmpSquash (c : Chip) (own : Nat) : Chip :=
  { c with cmp := { c.cmp with opens := c.cmp.opens.filter fun x => c.ringOwn x.1 != own, commits := c.cmp.commits.filter fun k => k.own != own } }

/-- The mode has become DEGRADED: pending ring commits complete with E_MODE (R170), and every pipe stays in Degraded composition until a commit. -/
def Chip.cmpDegraded (c : Chip) : Chip :=
  let c := c.cmp.commits.foldl (fun c k => c.finish k.ring k.seq E.MODE []) c
  { c with cmp := { c.cmp with commits := [], hold := List.range 8 } }

/-- RUN → DEGRADED and RUN → SERVICE complete where every active output has switched (R46). -/
def Chip.modeDegrades (c : Chip) : Chip :=
  let was := c.mode
  let c := c.degradeCheck.serviceCheck
  if was ≠ Mode.DEGRADED ∧ c.mode = Mode.DEGRADED then c.cmpDegraded else c

/-- PD_CMP is powered off: every layer page and CMP_GLOBAL return to their reset values (R170). -/
def Chip.cmpPowerOff (c : Chip) : Chip :=
  let inCmp := fun (p : Nat) => decide (0x0E8 ≤ p) && decide (p ≤ 0x118)
  let c := { c with rf := c.rf.filter fun x => !inCmp (x.1 / 32 / 1024), stg := c.stg.filter fun x => !inCmp x.page }
  { c with cmp := { c.cmp with hold := List.range 8, secure := [], remote := [] } }.cmpShow

/-! ### The flip line (R40, R186) -/

/-- A ring commit that waits may latch at a flip line that ends frame `f` (R184). -/
def RingCommit.due (k : RingCommit) (f : Nat) : Bool := !k.frameEn || decide (sub32 (f + 1) k.frame < 2 ^ 31)

/-- One ring commit at the flip line that ends frame `f`: applied, or dropped whole. Answers whether records have latched. -/
def Chip.ringLatch (c : Chip) (ps : List Nat) (f : Nat) (k : RingCommit) : Bool × Chip :=
  let c := { c with cmp := { c.cmp with commits := c.cmp.commits.filter fun x => !(x.ring == k.ring && x.seq == k.seq) } }
  if !k.recs.all fun r => c.unitOwner r.1 == k.own && ps.contains (c.get (R.CMP_L.LAYER_MGR.PIPE r.1)) then
    (false, ((c.finish k.ring k.seq E.OWNER []).raise (pipePage k.pipe) 4).bump (R.CMP_P.DROP_CNT.COUNT k.pipe))
  else
    let c := k.recs.foldl (fun c r => (ownerFields r.1).foldl (fun c s => if recHas r.2 s.fld then c.set s.fld (recField r.2 s.fld) else c) c) c
    let us := k.recs.map fun r => r.1
    let hold := if k.ok then c.cmp.hold.filter fun p => !ps.contains p else c.cmp.hold
    let c := { c with cmp := { c.cmp with secure := c.cmp.secure.filter (fun u => !us.contains u), hold := hold,
                                          outFrame := if k.own < 16 then c.cmp.outFrame.put 0 (8 * k.own + k.pipe) ((f + 1) % 2 ^ 32) else c.cmp.outFrame } }
    let c := if k.recs.isEmpty then c else (c.bump (R.CMP_P.LATCH_CNT.COUNT k.pipe)).raise (pipePage k.pipe) 0
    (!k.recs.isEmpty, c.finish k.ring k.seq E.NONE (leBytes 4 ((f + 1) % 2 ^ 32) ++ leBytes 1 k.recs.length))

/-- The capacity of the slice buffer is shown, and the lead clipped where it no longer fits (R165). -/
def Chip.leadClip (c : Chip) (n : Nat) : Chip :=
  let k := bufLines (c.hActive n)
  let c := c.set (R.CMP_P.PIPE_STAT.CAP n) (min 255 k)
  if k < c.get (R.CMP_P.PIPE_CFG.LEAD n) ∧ !c.flag (R.CMP_P.PIPE_STAT.LEAD_CLIP n) then
    (c.set (R.CMP_P.PIPE_STAT.LEAD_CLIP n) 1).raise (pipePage n) 3
  else c

/-- The CMP sets of pipe `n` (no follower) latch at the flip line that ends frame `f`. Answers whether any has. -/
def Chip.cmpFlip (c : Chip) (n f : Nat) : Bool × Chip :=
  let ps := c.pipesOf n
  let reg := c.flag (H.PENDING (pipePage n))
  let before := unitsOn c.get ps
  let c := if reg then
      let pages := (c.stg.filter fun x => x.pendBy == some (pipePage n)).map fun x => x.page
      let c := (c.latchBy (pipePage n)).raise (pipePage n) 0
      let c := if c.get (R.CMP_P.PIPE_CFG.LEAD n) ≤ bufLines (c.hActive n) then c.set (R.CMP_P.PIPE_STAT.LEAD_CLIP n) 0 else c
      let c := c.secMark pages (c.cpipe n).regSec
      if (c.cpipe n).regOk then { c with cmp := { c.cmp with hold := c.cmp.hold.filter fun p => !ps.contains p } } else c
    else c
  let c := c.layerShares fun u => before.contains u || ps.contains (c.get (R.CMP_L.LAYER_MGR.PIPE u))
  let due := c.cmp.commits.filter fun k => k.pipe == n && k.due f
  let r := due.foldl (fun (a : Bool × Chip) k => let x := a.2.ringLatch ps f k; (a.1 || x.1, x.2)) (reg, c)
  (r.1, r.2.cmpShow)

/-- Pipe `n` begins to compose frame `f` of its output (R164): the set now live is the frame's. -/
def Chip.cmpBegin (c : Chip) (n f : Nat) : Chip :=
  let deg := c.cmp.hold.contains n || c.cmpWant n
  let us := unitsOn c.get [n]
  let c := { c with cmp := { c.cmp with rows := c.cmp.rows.filter (fun x => !us.contains x.1), bad := c.cmp.bad.filter (fun x => !us.contains x.1),
                                        remote := c.cmp.remote.filter fun x => !us.contains x.unit },
                      lnk := { c.lnk with layers := c.lnk.layers.filter fun x => !us.contains x.unit } }
  let c := c.setPipe n { c.cpipe n with on := true, frame := f % 2 ^ 32, slices := 0, next := 0, waitAt := none, degraded := deg, banner := c.bannerWant }
  c.set (R.CMP_P.PIPE_STAT.DEGRADED n) (b2n deg)

/-! ### Slices and lines (R163, R164, R166) -/

/-- The line scan-out is sending, counted from line 0 of the frame pipe `n` composes. -/
def Chip.beam (c : Chip) (n : Nat) : Int :=
  let l : Int := c.get (R.LDG_OUTS.LINE.LINE n)
  if c.get (R.LDG_OUTS.FRAME.FRAME n) = (c.cpipe n).frame then l else l - c.vTotal n

/-- Active width and lines of the frame pipe `n` composes: of an accepted timing that latches with it, else live. -/
def Chip.cmpSize (c : Chip) (n : Nat) : Nat × Nat :=
  let l := c.leadOf n
  if c.get (R.LDG_OUTS.FRAME.FRAME n) = (c.cpipe n).frame then (c.hActive n, c.vActive n)
  else (c.coming (R.SCN_OUT.H_TIMING.ACTIVE l), c.coming (R.SCN_OUT.V_TIMING.ACTIVE l))

/-- The lead in force (R164, R165). -/
def Chip.leadNow (c : Chip) (n : Nat) : Nat := min (c.get (R.CMP_P.PIPE_CFG.LEAD (c.leadOf n))) (bufLines (c.cmpSize n).1)

/-- SLICE_START (R164): pipe `n` starts its next slice once the beam has reached the lead point. -/
def execSliceStart (n : Nat) (s : State) : Host.Outcome State Fault Refusal :=
  s.on (n < 8) fun c =>
    let x := c.cpipe n
    let va := (c.cmpSize n).2
    if x.on && decide (16 * x.slices < va) && x.next == 16 * x.slices && decide ((16 * x.slices : Nat) - (c.leadNow n : Int) ≤ c.beam n) then
      c.setPipe n { x with slices := x.slices + 1 }
    else c

/-- Margin M of R194: lines from the beam to the next line to compose. -/
def Chip.margin (c : Chip) (n : Nat) : Int :=
  let x := c.cpipe n
  let nxt : Int := if x.on ∧ x.next < (c.cmpSize n).2 then x.next else c.vTotal n
  let b : Int := if x.on then c.beam n else c.get (R.LDG_OUTS.LINE.LINE n)
  nxt - b

/-- The class that follows class `cls` at margin `m` (R194). -/
def nextClass (cls : Nat) (m : Int) (eff crit : Nat) : Nat :=
  if cls = 2 then (if (crit : Int) + 2 ≤ m then 1 else 2)
  else if m < crit then 2
  else if cls = 1 then (if (eff : Int) + 2 ≤ m then 0 else 1)
  else if m < eff then 1 else 0

/-- Output `n` shows class `k`; entry to ISOCHRONOUS raises ISO (R195). -/
def Chip.showClass (c : Chip) (n k : Nat) : Chip :=
  let old := c.get (R.SCN_OUT.OUT_STAT.CLASS n)
  let c := c.set (R.SCN_OUT.OUT_STAT.CLASS n) k
  let x := c.scnOut n
  let c := c.setScn n { x with iso := x.iso || (k == 2 && old != 2), normal := x.normal && k == 0 }
  if k = 2 then
    let c := { c with drc := { c.drc with iso := true } }
    if old = 2 then c else c.raise (0x120 + n) 2
  else c

/-- The fetch class of pipe `n`, and of its pair, is set anew (R194, R371). -/
def Chip.fetchClass (c : Chip) (n : Nat) : Chip :=
  let l := c.leadOf n
  let m := c.margin n
  let f := c.get R.PTB_PERTURB.WM_FORCE.CLASS
  let k := if (c.get R.PTB_PERTURB.WM_FORCE.PIPES).testBit n ∧ f ≠ 0 then f - 1
    else nextClass (c.scnOut n).cls m (c.get (R.SCN_OUT.OUT_STAT.WM_EFF l)) (c.get (R.SCN_OUT.WATERMARK.WM_CRIT l))
  let c := (c.setScn n { c.scnOut n with cls := k }).set (R.SCN_OUT.OUT_STAT.MARGIN n) (max 0 (min 255 m)).toNat
  if c.splits (n / 2 * 2) then
    let both := max (c.scnOut (n / 2 * 2)).cls (c.scnOut (n / 2 * 2 + 1)).cls
    (c.showClass (n / 2 * 2) both).showClass (n / 2 * 2 + 1) both
  else c.showClass n k

/-- A layer fetch of unit `u` has failed at source line `row` (R180). -/
def Chip.fetchFails (c : Chip) (n u row : Nat) : Chip :=
  let bad := c.cmp.bad.getD u []
  let c := { c with cmp := { c.cmp with bad := c.cmp.bad.insert u (row :: bad.filter (· ≠ row)) } }
  ((c.bump (R.CMP_L.FETCH_ERR.COUNT u)).bump (R.CMP_P.FETCH_ERR.COUNT n)).raise (pipePage n) 2

/-- Pipe `n` composes no layers: its frame is Degraded composition, or PD_CMP quiesces (R54). -/
def Chip.bare (c : Chip) (n : Nat) : Bool := (c.cpipe n).degraded || c.pow.quiesce.contains PD.CMP

/-- LAYER_FETCH_ERROR (R180): a fetch of source line `row` of unit `u` has returned an error or been refused. -/
def execLayerFetchError (u row : Nat) (s : State) : Host.Outcome State Fault Refusal :=
  s.on (u < 48) fun c =>
    let n := c.get (R.CMP_L.LAYER_MGR.PIPE u)
    c.when (decide (n < 8) && (c.cpipe n).on && !c.bare n && c.flag (R.CMP_L.LAYER_CTRL.ENABLE u)) fun c => c.fetchFails n u row

/-- The memory a unit's source lies in: DRAM, or what has arrived from another device. -/
def Chip.unitMem (c : Chip) (dram : Memory) (q : LayerCfg) : Memory :=
  if q.remote then (c.cmp.remote.filter fun x => x.unit == q.unit).foldl (fun (m : Memory) x => m.writeBytes x.addr x.bytes) [] else dram

/-- All bytes of a range have arrived for remote unit `u`, taking the arrivals in the order of their requests. -/
def Chip.remoteHas (c : Chip) (u : Nat) (r : Nat × Nat) : Bool :=
  let left := (c.cmp.remote.filter fun x => x.unit == u).foldl (fun (need : Nat × Nat) (x : RemoteData) =>
    if x.addr ≤ need.1 ∧ need.1 < x.addr + x.bytes.length then
      let k := min need.2 (x.addr + x.bytes.length - need.1)
      (need.1 + k, need.2 - k)
    else need) r
  left.2 == 0

/-- Every source line that destination line `y` needs of a remote unit has arrived, or has failed. -/
def Chip.remoteReady (c : Chip) (q : LayerCfg) (y : Nat) : Bool :=
  !q.remote || (q.rowsOf y).all fun r => (c.cmp.bad.getD q.unit []).contains r || (q.rowSpans r).all (c.remoteHas q.unit)

/-- Ask for `n` bytes of row `r` from `a` of a remote unit, in messages of at most 2 KiB (R342, R350). Where the device is not reachable the row fails. -/
def Chip.layerAsk (c : Chip) (n : Nat) (q : LayerCfg) (r a len : Nat) : Chip :=
  match c.linkPath q.dev with
  | none => c.fetchFails n q.unit r
  | some p =>
    forN ((len + 2047) / 2048) c fun i c =>
      let k := min 2048 (len - 2048 * i)
      let t := c.lnk.tag
      let x : LayerReq := { tag := t, dev := q.dev, port := p, pipe := n, unit := q.unit, row := r, addr := a + 2048 * i, len := k }
      { c with lnk := { c.lnk with tag := (t + 1) % 65536, layers := c.lnk.layers ++ [x] } }.linkSend (2 ^ q.dev) 4 t (a + 2048 * i) (leBytes 4 k)

/-- Unit `q` fetches the source lines that destination line `y` needs and that it has not fetched yet. -/
def Chip.fetchLines (c : Chip) (n : Nat) (q : LayerCfg) (y : Nat) : Chip :=
  let u := q.unit
  let rows := distinct (q.rowsOf y)
  let new := rows.filter fun r => decide (c.cmp.rows.getD u 0 ≤ r)
  let c := { c with cmp := { c.cmp with rows := c.cmp.rows.put 0 u (rows.foldl (fun m r => max m (r + 1)) (c.cmp.rows.getD u 0)) } }
  let c := c.addSat (R.CMP_L.LINES_FETCHED.COUNT u) new.length
  if q.remote then new.foldl (fun c r => (q.rowSpans r).foldl (fun c s => c.layerAsk n q r s.1 s.2) c) c
  else new.foldl (fun c r =>
    let g := (q.rowSpans r).foldl (fun (a : Bool × Chip) s => let g := a.2.dramCheck (2 + n) s.1 s.2; (a.1 && g.1, g.2)) (true, c)
    if g.1 then g.2 else g.2.fetchFails n u r) c

/-- Stacking order: ZPOS, the lowest first. -/
def stackOrder (v : Fld → Nat) (us : List Nat) : List Nat :=
  let below := fun a b =>
    let za := v (R.CMP_L.LAYER_MGR.ZPOS a)
    let zb := v (R.CMP_L.LAYER_MGR.ZPOS b)
    decide (za < zb) || (za == zb && Config.tieBelow a b)
  us.foldl (fun acc u => acc.filter (fun x => !below u x) ++ u :: acc.filter (fun x => below u x)) []

/-- The output transfer of R178: the 10-bit code of a channel. -/
def xferCode (mode : Nat) (g : Nat → Nat) (w : Nat) : Nat :=
  let x := fp32.sat (toFp32 w)
  if mode = 0 then (fp32.val (fp32.mul x 0x447FC000)).nearInt.toNat
  else if mode = 1 then (fp32.val (fp32.mul (srgbEncode x) 0x447FC000)).nearInt.toNat
  else
    let t := fp32.mul (srgbEncode x) 0x43800000
    let i := (fp32.val t).floorInt.toNat
    let f := fp32.sub t (fp32.ofInt (i : Nat))
    let g0 := g i
    let g1 := g (min 256 (i + 1))
    (fp32.val (fp32.add (fp32.ofInt (g0 : Nat)) (fp32.mul (fp32.ofInt ((g1 : Int) - g0)) f))).nearInt.toNat

/-- The 10:10:10 code of a pixel of pipe `n`. -/
def Chip.pixelCode (c : Chip) (n : Nat) (p : Rgb) : Nat :=
  let l := c.leadOf n
  let m := c.get (R.CMP_P.PIPE_CFG.XFER l)
  xferCode m (fun i => c.get (R.CMP_P.GAMMA.R l i)) p.1 * 2 ^ 20 + xferCode m (fun i => c.get (R.CMP_P.GAMMA.G l i)) p.2.1 * 2 ^ 10
    + xferCode m (fun i => c.get (R.CMP_P.GAMMA.B l i)) p.2.2

/-- A 10:10:10 linear colour in FP16. -/
def linear10 (v : Nat) : Rgb := (fp16.ofRat false (bits v 20 10) 1023, fp16.ofRat false (bits v 10 10) 1023, fp16.ofRat false (bits v 0 10) 1023)

/-- The background of pipe `n` (R177, R218). -/
def Chip.background (c : Chip) (n : Nat) : Rgb :=
  let l := c.leadOf n
  if c.bare n ∧ c.flag (R.SAF_P.DEG_BG.USE n) then linear10 (c.get (R.SAF_P.DEG_BG.RGB n))
  else linear10 (c.get (R.CMP_P.BG.R l) * 2 ^ 20 + c.get (R.CMP_P.BG.G l) * 2 ^ 10 + c.get (R.CMP_P.BG.B l))

/-- Units that pipe `n` shows on line `y`, bottom to top. -/
def Chip.lineUnits (c : Chip) (n y : Nat) : List LayerCfg :=
  if c.bare n then []
  else ((stackOrder c.get (shownUnits c.get [n])).map (layerCfg c.get)).filter fun q => q.onLine y

/-- Line `y` of pipe `n`: its 10:10:10 codes (R173–R178). -/
def Chip.composeLine (c : Chip) (dram isl : Memory) (n y : Nat) : List Nat × Chip :=
  let w := (c.cmpSize n).1
  let x0 := if n % 2 = 1 ∧ c.splits (n - 1) then w else 0
  let qs := c.lineUnits n y
  let c := qs.foldl (fun c q => c.fetchLines n q y) c
  let good := qs.filter fun q => (q.rowsOf y).all fun r => !(c.cmp.bad.getD q.unit []).contains r
  let stack := good.foldl (fun (st : List Px) q => List.zipWith (stackPx q.ga) st (q.line (c.unitMem dram q) y x0 w)) (List.replicate w Px.zero)
  let bg := c.background n
  let px := stack.map fun s =>
    let k := fp16.sub fp16.one s.a
    Rgb.zip (fun v b => fp16.add v (fp16.mul b k)) s.c bg
  let p := c.planeLine isl n y (c.cmpSize n).2 px
  (p.1.map (p.2.pixelCode n), p.2)

/-- Pipe `n` goes on to the next line; a slice whose last line this was is counted. -/
def Chip.lineDone (c : Chip) (n : Nat) : Chip :=
  let x := c.cpipe n
  let k := x.next + 1
  let c := c.setPipe n { x with next := k, waitAt := none }
  if k = min (16 * x.slices) (c.cmpSize n).2 then c.bump (R.CMP_P.SLICE_CNT.COUNT n) else c

/-- PIPE_STAT.BUFFERED. -/
def Chip.bufShow (c : Chip) (n : Nat) : Chip := c.set (R.CMP_P.PIPE_STAT.BUFFERED n) (min 255 (c.cpipe n).buf.length)

/-- One step of compose_frame (R164): the next line of pipe `n` is skipped, waits for space, or is composed. -/
def Chip.lineStep (c : Chip) (dram isl : Memory) (n : Nat) : Chip :=
  let x := c.cpipe n
  let z := c.cmpSize n
  let b := c.beam n
  if !x.on ∨ min (16 * x.slices) z.2 ≤ x.next then c
  else if (x.next : Int) ≤ b then ((c.bump (R.CMP_P.LINE_SKIP.COUNT n)).raise (pipePage n) 1).lineDone n
  else if (bufLines z.1 : Int) ≤ x.next - b then
    if x.waitAt = some b then c else (c.setPipe n { x with waitAt := some b }).bump (R.CMP_P.SPACE_WAIT.COUNT n)
  else if !(c.lineUnits n x.next).all (fun q => c.remoteReady q x.next) then c
  else
    let r := c.composeLine dram isl n x.next
    let c := r.2.setPipe n { r.2.cpipe n with buf := (r.2.cpipe n).buf ++ [(x.next, r.1)] }
    ((c.lineDone n).bufShow n).fetchClass n

/-- LINE_COMPOSE (R164). -/
def execLineCompose (n : Nat) (s : State) : Host.Outcome State Fault Refusal :=
  s.on (n < 8) fun c => c.lineStep s.mem.dram s.mem.isl n

end Sys2Proof.Machine
end

