-- ==== Sys2Proof/Machine/Raster.lean ====
section
/-! DEFINITION. The line ledger and the hardware slots (chapter 2, R19–R32). -/

namespace Sys2Proof.Machine

/-! ### Slots that end (R21, R25) -/

/-- An armed slot is rejected with `code`; an engine that waits on it hears of it (R25, R268). -/
def Chip.slotDrop (c : Chip) (k code : Nat) : Chip := ((c.ssReject k code).raise 0x010 1).dmaSlotRejected k code

/-- Apply `f` to every armed slot that `p` names, in ascending order. -/
def Chip.eachArmed (c : Chip) (p : Chip → Nat → Bool) (f : Chip → Nat → Chip) : Chip :=
  forN 128 c fun k c => if c.ssState k = SS.ARMED && p c k then f c k else c

/-- The base output `n` has stopped (R25). -/
def Chip.baseStopped (c : Chip) (n : Nat) : Chip :=
  c.eachArmed (fun c k => c.ssBase k == 8 + n) fun c k => c.slotDrop k E.STATE

/-! ### Flip lines in anchor lines, escalation (R29) -/

/-- Output `n` is locked to the anchor (R22). -/
def Chip.locked (c : Chip) (n : Nat) : Bool :=
  n != c.anchor && c.flag (R.LDG_OUTS.LOCK.LOCK_EN n) && c.get (R.LDG_OUTS.LINE.LOCK_STATE n) != 3

/-- Lines of output `n` in anchor lines, as a fraction: T_line,out / T_line,anchor. -/
def Chip.lineRatio (c : Chip) (n : Nat) : Nat × Nat :=
  let o := c.leadOf n
  let ht := c.get (R.SCN_OUT.H_TIMING.TOTAL o)
  let pk := c.get (R.SCN_OUT.PCLK.KHZ o)
  if c.ledIdle then (ht * 400000, pk * c.get R.LDG.IDLE_TIMING.LINE_PERIOD)
  else
    let a := c.leadOf c.anchor
    (ht * c.get (R.SCN_OUT.PCLK.KHZ a), pk * c.get (R.SCN_OUT.H_TIMING.TOTAL a))

/-- FLIP_AT of output `n` (R29). -/
def Chip.flipAt (c : Chip) (n : Nat) : Nat :=
  let l := c.get (R.SCN_OUT.FLIP.FLIP_LINE (c.leadOf n))
  if n = c.anchor then l
  else if c.locked n then
    let r := c.lineRatio n
    (c.get (R.LDG_OUTS.LOCK.LOCK_OFFSET n) + l * r.1 / r.2) % c.ledVTotal
  else 0xFFFF

/-- Output `n`, or its lead, is the anchor or locked to it. -/
def Chip.onAnchor (c : Chip) (n : Nat) : Bool := c.leadOf n == c.anchor || c.locked (c.leadOf n)

/-- The escalation slot of output `n` (R29, R121). A follower has one of its own, on the timing of its lead. -/
def Chip.escalateSlot (c : Chip) (n : Nat) : Chip :=
  let k := 8 + n
  let lead := c.get (R.GFX.ESCALATE.LINES n)
  let onAnchor := c.onAnchor n
  let vt := if onAnchor then c.ledVTotal else c.vTotal n
  let flip := if onAnchor then c.get (R.LDG_OUTS.FLIP_AT.ANCHOR_LINE n) else c.get (R.SCN_OUT.FLIP.FLIP_LINE (c.leadOf n))
  if lead = 0 ∨ !c.outRunning n then (if c.ssState k = SS.ARMED then c.ssDisarm k else c)
  else if vt ≤ lead then (c.ssDisarm k).raise 0x0A0 0
  else c.ssHw k (if onAnchor then 0 else 8 + n) ((flip + vt - lead) % vt) 2 n

/-- Followers show what their lead shows (R22). -/
def Chip.followShow (c : Chip) : Chip :=
  forN 8 c fun n c =>
    if c.follows n then
      let l := n - 1
      let c := (c.set (R.LDG_OUTS.FRAME.FRAME n) (c.get (R.LDG_OUTS.FRAME.FRAME l))).set (R.LDG_OUTS.LINE.LINE n) (c.get (R.LDG_OUTS.LINE.LINE l))
      let c := (c.set (R.LDG_OUTS.LINE.RUNNING n) (c.get (R.LDG_OUTS.LINE.RUNNING l))).set (R.LDG_OUTS.LINE.LOCK_STATE n) (c.get (R.LDG_OUTS.LINE.LOCK_STATE l))
      c.set (R.LDG_OUTS.FLIP_AT.ANCHOR_LINE n) (c.get (R.LDG_OUTS.FLIP_AT.ANCHOR_LINE l))
    else c

/-- FLIP_AT and the escalation target of running output `n` are computed anew (R29). -/
def Chip.retime (c : Chip) (n : Nat) : Chip :=
  if c.follows n then c.escalateSlot n
  else
    let c := if c.outRunning n then ((c.set (R.LDG_OUTS.FLIP_AT.ANCHOR_LINE n) (c.flipAt n)).escalateSlot n).followShow else c.escalateSlot n
    c.when (c.follows (n + 1)) fun c => c.escalateSlot (n + 1)

/-- All of them. -/
def Chip.retimeAll (c : Chip) : Chip := forN 8 c fun n c => c.retime n

/-! ### Refresh and retraining slots, source changes (R21) -/

/-- SS16 and SS17 fire at V_ACTIVE and V_ACTIVE + 2 from the source's next line 0. -/
def Chip.drcSlots (c : Chip) : Chip :=
  let f := c.get R.LDG.LIVE_FRAME.FRAME + (if c.get R.LDG.LIVE_LINE.LINE = 0 then 0 else 1)
  let v := c.ledVActive
  ((c.ssPut 16 0 f v 1 5 0).ssArm 16).ssPut 17 0 f (v + 2) 1 6 0 |>.ssArm 17

/-- The ledger's source has changed (R21). -/
def Chip.sourceChanged (c : Chip) : Chip :=
  let c := c.drcSlots.retimeAll
  c.eachArmed (fun c k => decide (c.ssBase k < 8) && decide (c.ledVTotal ≤ c.ssLine k)) fun c k => c.slotDrop k E.VALUE

/-- ANCHOR.SOURCE while the anchor output is the source: 2 on a device that follows D0 over the link. -/
def Chip.outSource (c : Chip) : Nat :=
  if c.get R.LDG_SYNC.SYNC_STATE.DEVID ≠ 0 ∧ 2 ≤ c.get R.LDG_SYNC.SYNC_STATE.STATE then 2 else 1

/-! ### A new line of the ledger (R19) -/

/-- D0 sends a sync at its anchor line 0 (R30). -/
def Chip.syncSend (c : Chip) : Chip :=
  if c.get R.SYS_BOOT.STRAPS.DEVID = 0 ∧ c.pdOn PD.LINK then
    c.linkSend ((c.get R.LNK.TOPO.REACH0 ||| c.get R.LNK.TOPO.REACH1) / 2 * 2) 1 0 c.led.ns (leBytes 4 (c.get R.LDG.LIVE_FRAME.FRAME))
  else c

/-- The shader cores' service accounts are cleared at anchor line 0 (R123). -/
def Chip.accountsClear (c : Chip) : Chip :=
  let cores := c.gfx.cores.map fun x => (x.1, { x.2 with since := c.ps, ran := 0, spent := 0 })
  { c with gfx := { c.gfx with served := [], cores := cores } }

/-- A further anchor line passes for every parked job (R125). -/
def Chip.parkLine (c : Chip) : Chip := c.addSat R.GRIST.PARK_LINES.COUNT (c.gfx.jobs.filter fun x => x.2.parked.isSome).length

/-- The next frame count: one more, or on a follower whose count differs, D0's (R30). -/
def Chip.nextFrame (c : Chip) : Chip :=
  match c.led.adopt with
  | none => c.wrap R.LDG.LIVE_FRAME.FRAME
  | some f =>
    let old := c.get R.LDG.LIVE_FRAME.FRAME
    let new := (f + 1) % 2 ^ 32
    { c.set R.LDG.LIVE_FRAME.FRAME new with led := { c.led with adopt := none } }.record 0x0202 0xFF (parBytes 4 old ++ parBytes 4 new)

/-- The ledger's source begins line `line` at time `t`, a new frame where `wrap`. -/
def Chip.ledgerLine (c : Chip) (wrap : Bool) (line t : Nat) : Chip :=
  let c := c.governor
  let c := if wrap then c.nextFrame else c
  let c := (c.set R.LDG.LIVE_LINE.LINE line).set R.LDG.LIVE_LINE.FRAC 0
  let c := { c with led := { c.led with lineStart := t, lineNo := c.led.lineNo + 1 } }
  let c := if wrap then
      let c := { c with led := { c.led with sinceSync := c.led.sinceSync + 1 }, pow := { c.pow with agreeLeft := c.pow.agreeLeft - 1 } }
      (c.accountsClear.syncSend).raise 0x010 0
    else c
  ((c.parkLine.drcLine line).stallLine).lkLine

/-! ### LDG sets (R32) -/

/-- Fields of LDG's staged set that are being changed by the pending one. -/
def Chip.ldgPending (c : Chip) (f : Fld) : Bool := (c.stage 0x010).pending.any fun y => y.1 == f

/-- Validation of the LDG set (R21, R22, R32). -/
def Chip.ldgCheck (c : Chip) : Option Nat :=
  let a := c.staged R.LDG.ANCHOR.ANCHOR
  let idle := a = c.anchor && c.ledIdle
  let vt := if idle then c.staged R.LDG.IDLE_TIMING.V_TOTAL else c.coming (R.SCN_OUT.V_TIMING.TOTAL (c.leadOf a))
  let va := c.staged R.LDG.IDLE_ACTIVE.V_ACTIVE
  firstFail
    [ ((List.range 8).all fun n => a == n || c.follows n || c.staged (R.LDG_OUTS.LOCK.LOCK_EN n) == 0 || decide (c.staged (R.LDG_OUTS.LOCK.LOCK_OFFSET n) < vt),
        E.VALUE),
      (decide (1 ≤ va) && decide (va + 3 ≤ c.staged R.LDG.IDLE_TIMING.V_TOTAL), E.VALUE),
      (a == c.anchor || c.outRunning a, E.STATE) ]

/-- A lock register of output `n` has latched (R22): `old` is the chip before, `wrote` whether the set held the register. -/
def Chip.lockLatched (c old : Chip) (n : Nat) (wrote : Bool) : Chip :=
  let st := c.get (R.LDG_OUTS.LINE.LOCK_STATE n)
  if c.follows n ∨ !c.outRunning n then c
  else if n = c.anchor ∨ !c.flag (R.LDG_OUTS.LOCK.LOCK_EN n) then
    let l := { c.led with lockNext := c.led.lockNext.filter (· ≠ n), acquiring := c.led.acquiring.erase n, phaseBad := c.led.phaseBad.erase n }
    { c.set (R.LDG_OUTS.LINE.LOCK_STATE n) 0 with led := l }
  else
    let wasOn := n != old.anchor && old.flag (R.LDG_OUTS.LOCK.LOCK_EN n)
    let moved := st ≠ 3 && c.get (R.LDG_OUTS.LOCK.LOCK_OFFSET n) != old.get (R.LDG_OUTS.LOCK.LOCK_OFFSET n)
    if !wasOn || moved || (wrote && st == 3) then
      let c := if st = 3 then c.set (R.LDG_OUTS.LINE.LOCK_STATE n) 0 else c
      { c with led := { c.led with lockNext := n :: c.led.lockNext.filter (· ≠ n), phaseBad := c.led.phaseBad.erase n } }
    else c

/-- The accepted LDG set latches (R32). -/
def Chip.ldgLatch (c : Chip) : Chip :=
  let old := c
  let wrote := (List.range 8).filter fun n => c.ldgPending (R.LDG_OUTS.LOCK.LOCK_EN n)
  let c := { c.latchBy 0x010 with pow := { c.pow with anchorOpen := false } }
  let c := forN 8 c fun n c => c.lockLatched old n (wrote.contains n)
  let c := if c.ledIdle then c.drcSlots else c
  c.retimeAll

/-- The pending LDG set changes ANCHOR. -/
def Chip.anchorComing (c : Chip) : Option Nat :=
  let a := c.coming R.LDG.ANCHOR.ANCHOR
  if c.flag (H.PENDING 0x010) && a != c.anchor then some a else none

/-- A set that does not change ANCHOR latches at the source's line 0. -/
def Chip.ldgLineZero (c : Chip) : Chip := if c.flag (H.PENDING 0x010) ∧ c.anchorComing = none then c.ldgLatch else c

/-- The idle raster begins its next line. -/
def Chip.idleLine (c : Chip) : Chip :=
  let t := c.led.lineStart + c.ledLinePs
  let c := c.advance t
  let l := c.get R.LDG.LIVE_LINE.LINE + 1
  if c.ledVTotal ≤ l then (c.ledgerLine true 0 t).ldgLineZero else c.ledgerLine false l t

/-- Anchor output `n` begins its line 0 as the ledger's new source at time `t` (R21). -/
def Chip.anchorTakes (c : Chip) (t : Nat) : Chip :=
  let c := (c.set R.LDG.ANCHOR.SOURCE c.outSource).ledgerLine true 0 t
  c.sourceChanged

/-- Output `n` begins its line 0 at `t`: a committed change of ANCHOR to it latches, or it becomes the source as the anchor, or it is the
source (R21). -/
def Chip.ledgerZero (c : Chip) (n t : Nat) : Chip :=
  if (c.anchorComing.map c.leadOf) = some n then
    let c := c.ldgLatch
    (c.anchorTakes t).raise 0x010 2
  else if c.leadOf c.anchor ≠ n then c
  else if c.ledIdle then (c.anchorTakes t).ldgLineZero
  else (c.ledgerLine true 0 t).ldgLineZero

/-- The anchor's timing generator has stopped where its next line would have begun at `t` (R21). -/
def Chip.idleTakes (c : Chip) (lastVTotal t : Nat) : Chip :=
  let l := c.get R.LDG.LIVE_LINE.LINE + 1
  let c := c.set R.LDG.ANCHOR.SOURCE 0
  let c := if lastVTotal ≤ l ∨ c.ledVTotal ≤ l then (c.ledgerLine true 0 t).ldgLineZero else c.ledgerLine false l t
  c.sourceChanged.raise 0x010 3

/-! ### Snapshots and slot registers (R24–R27) -/

/-- A write of SNAP (R24, R32). -/
def Chip.snapWrite (c : Chip) (src : Src) (data : Nat) : Chip :=
  c.port src 0x010 0x050 [(decide (data < 2), E.RESERVED)] fun c =>
    if data = 0 then c
    else
      let f := if c.pdOn PD.DISP then c.fraction else c.get R.LDG.LIVE_LINE.FRAC
      let c := (c.set R.LDG.SNAP_FRAME.VALUE (c.get R.LDG.LIVE_FRAME.FRAME)).set R.LDG.SNAP_LINE.LINE (c.get R.LDG.LIVE_LINE.LINE)
      ((c.set R.LDG.SNAP_LINE.FRAC f).set R.LDG.SNAP_NS_LO.VALUE (c.led.ns % 2 ^ 32)).set R.LDG.SNAP_NS_HI.VALUE (c.led.ns / 2 ^ 32)

/-- SNAP_TAKE (R24). -/
def execSnapTake (src : Src) (s : State) : Host.Outcome State Fault Refusal := s.on true fun c => c.snapWrite src 1

/-- Who may write slot `k` (R27). -/
def Chip.slotOwner (c : Chip) (src : Src) (k : Nat) : Bool := decide (32 ≤ k) && !c.ssPool k && c.mgrOrCtl src

def slotPage (k : Nat) : Nat := 0x012 + k / 64
def slotOff (k i : Nat) : Nat := 0x040 + 16 * (k % 64) + 4 * i

/-- A write of SS_ACT of slot `k` (R25, R26). An armed slot takes only DISARM with the fields it holds; ARM with DISARM is E_VALUE (log entry 78).
A code that the slot cannot take leaves it as it stands (the example of 03_register_model.md), with ERR. -/
def Chip.slotAct (c : Chip) (src : Src) (k data : Nat) : Chip :=
  let act := bits data 0 8
  let arg := bits data 8 16
  let disarm := data.testBit 30
  let arm := data.testBit 31
  let armed := c.ssState k == SS.ARMED
  let same := act == c.ssAction k && arg == c.ssArg k
  c.port src (slotPage k) (slotOff k 2)
    [ (c.slotOwner src k, E.OWNER), (bits data 24 6 == 0, E.RESERVED), (!(arm && disarm), E.VALUE), (!(arm && armed) || armable k act, E.VALUE),
      (!armed || (disarm && same), E.STATE) ] fun c =>
    let keep := fun (c : Chip) => (c.set (R.LDG_SLOTS.SS_ACT.ACTION (k / 64) (k % 64)) act).set (R.LDG_SLOTS.SS_ACT.ARG (k / 64) (k % 64)) arg
    if armed then c.ssDisarm k
    else if disarm then (keep c).setSs k SS.IDLE
    else if arm then
      match c.armCode k (c.ssBase k) (c.ssFrame k) (c.ssLine k) act with
      | some code =>
        let c := c.reject (slotPage k) (slotOff k 2) (srcCode src) code
        if armable k act then c.ssReject k code else c.set (R.LDG_SLOTS.SS_STAT.ERR (k / 64) (k % 64)) code
      | none => (keep c).ssArm k
    else keep c

/-- SLOT_ARM (R25). -/
def execSlotArm (src : Src) (slot : Nat) (data : Word) (s : State) : Host.Outcome State Fault Refusal :=
  s.on (slot < 128) fun c => c.slotAct src slot (data.toNat % 2 ^ 30 + 2 ^ 31)

/-- SLOT_DISARM (R26). -/
def execSlotDisarm (src : Src) (slot : Nat) (data : Word) (s : State) : Host.Outcome State Fault Refusal :=
  s.on (slot < 128) fun c => c.slotAct src slot (data.toNat % 2 ^ 30 + 2 ^ 30)

/-- A write of SS_TGT or SS_FRAME (i = 0, 1) of slot `k`. -/
def Chip.slotTgt (c : Chip) (src : Src) (k i data : Nat) : Chip :=
  c.genericWrite src (slotPage k) (slotOff k i) data (c.slotOwner src k) false [(c.ssState k != SS.ARMED, E.STATE)]

/-- A write of SLOT_POOLm (R27). -/
def Chip.slotPool (c : Chip) (src : Src) (m data : Nat) : Chip :=
  let changed := data ^^^ c.get (R.LDG.SLOT_POOL.POOL m)
  let free := (List.range 32).all fun i => !changed.testBit i || (c.ssState (32 + 32 * m + i) != SS.ARMED && (c.led.held.find? (32 + 32 * m + i)).isNone)
  c.port src 0x010 (0x064 + 4 * m) [(c.mgrOrCtl src, E.OWNER), (free, E.STATE)] fun c => c.set (R.LDG.SLOT_POOL.POOL m) data

/-! ### Linked devices (R30) -/

/-- SYNC_ERR_READ (R30): the register is shown and MAX_ERR cleared. -/
def execSyncErrRead (s : State) : Host.Outcome State Fault Refusal :=
  s.on true fun c =>
    { c.set R.LDG_SYNC.SYNC_ERR.MAX_ERR 0 with readData := c.get R.LDG_SYNC.SYNC_ERR.ERR + 65536 * c.get R.LDG_SYNC.SYNC_ERR.MAX_ERR }

/-- The synchronisation state of a follower changes. -/
def Chip.syncState (c : Chip) (st : Nat) : Chip :=
  let c := c.set R.LDG_SYNC.SYNC_STATE.STATE st
  if c.ledIdle then c else c.set R.LDG.ANCHOR.SOURCE c.outSource

/-- The frame of the ledger's anchor output, in ps, and how far D0's phase lets its pixel clock trim it (R30): ±500 ppm, and while re-acquiring one pixel
clock per line. -/
def Chip.anchorTrim (c : Chip) (err : Int) (slow : Bool) : Int :=
  let o := c.leadOf c.anchor
  let frame := c.linePs o * c.vTotal o
  let px := c.linePs o / max 1 (c.get (R.SCN_OUT.H_TIMING.TOTAL o))
  let most : Int := ((if slow then min (frame / 2000) (c.vTotal o * px) else frame / 2000 : Nat) : Int)
  max (-most) (min most (err * (px : Nat)))

/-- LINK_HOLDOVER (R30): due after 3 frames without a sync, or 4 syncs with an error above 4 pixel clocks. -/
def execLinkHoldover (s : State) : Host.Outcome State Fault Refusal :=
  s.on true fun c =>
    let st := c.get R.LDG_SYNC.SYNC_STATE.STATE
    c.when ((st == 2 || st == 3) && (decide (3 ≤ c.led.sinceSync) || decide (4 ≤ c.led.badPhase))) fun c => (c.syncState 4).raise 0x010 5

/-- A SYNC from D0 (R30): its frame count and ledger ns, corrected for the path, the phase error the follower has measured in pixel clocks (positive
where the follower leads), and whether its anchor's timing is D0's. In HOLDOVER an error above 4 pixel clocks leaves the state (log entry 79). -/
def Chip.syncTaken (c : Chip) (frame ns : Nat) (err : Int) (matching : Bool) : Chip :=
  if c.get R.LDG_SYNC.SYNC_STATE.DEVID = 0 then c
  else
    let e := err.natAbs
    let c := (c.set R.LDG_SYNC.SYNC_ERR.ERR (toBits 16 err)).set R.LDG_SYNC.SYNC_ERR.MAX_ERR (max (c.get R.LDG_SYNC.SYNC_ERR.MAX_ERR) (min 65535 e))
    let st := c.get R.LDG_SYNC.SYNC_STATE.STATE
    let c := { c with led := { c.led with sinceSync := 0, badPhase := if 4 < e then c.led.badPhase + 1 else 0 } }
    if !matching ∨ c.ledIdle then c.syncState 1
    else
      let first := st == 0 || st == 1
      -- the first sync steps forward or falls back to half rate; every later correction is a slew
      let c := if !first then { c with led := { c.led with slew := if c.led.slow = 0 then (ns : Int) - c.led.ns else 0 } }
        else if c.led.ns < ns then
          { c with led := { c.led with ns := ns, slow := 0, slew := 0 } }.record 0x0200 0xFF (parBytes 4 0x05C ++ parBytes 4 ns)
        else { c with led := { c.led with slow := 2 * (c.led.ns - ns), slew := 0 } }
      let near := decide ((max c.led.ns ns - min c.led.ns ns) * c.get (R.SCN_OUT.PCLK.KHZ (c.leadOf c.anchor)) ≤ 1000000)
      let c := { c with led := { c.led with trim := c.anchorTrim err (st == 4 || (st == 2 && c.led.badPhase != 0)),
                                            adopt := if frame = c.get R.LDG.LIVE_FRAME.FRAME then none else some frame } }
      if first then c.syncState 2
      else if st = 4 ∧ 4 < e then c
      else if st ≠ 4 ∧ e ≤ 1 ∧ near then c.syncState 3
      else c.syncState 2

/-- LINK_SYNC_RX (R30): a SYNC message has arrived. -/
def execLinkSyncRx (frame ns : Nat) (err : Int) (matching : Bool) (s : State) : Host.Outcome State Fault Refusal :=
  s.on true fun c => c.syncTaken frame ns err matching

end Sys2Proof.Machine
end

