-- ==== Sys2Proof/Machine/Scanout.lean ====
section
/-! DEFINITION. Scan-out and display outputs (chapter 12, R189–R206). -/

namespace Sys2Proof.Machine

def outPage (n : Nat) : Nat := 0x120 + n
def phyPage (n : Nat) : Nat := 0x128 + n

/-! ### The link of an output (R200, R201, R205, R206) -/

namespace LinkSt

def OFF : Nat := 0
def TRAINING : Nat := 1
def SENDING : Nat := 2
def IDLE : Nat := 3

end LinkSt

/-- The output drives LVDS. -/
def Chip.lvds (c : Chip) (n : Nat) : Bool := decide (2 ≤ c.get (R.SCN_OUT.OUT_CFG.MODE (c.leadOf n)))

/-- OUT_STAT.STATE shows the link, or FOLLOWER (R198, R199, R201). -/
def Chip.linkShow (c : Chip) (n : Nat) : Chip := c.set (R.SCN_OUT.OUT_STAT.STATE n) (if c.follows n then 4 else (c.scnOut n).link)

/-- The link of output `n` enters a state; BLn_EN is low outside SENDING (R206), and so is the audio (R203). A software AUX request that waited for the end of
training goes to the sink now (R202). -/
def Chip.setLink (c : Chip) (n st cause : Nat) : Chip :=
  let x := c.scnOut n
  let on := st == LinkSt.SENDING
  let c := c.setScn n
    { x with link := st, training := false, blEn := x.blEn && on, sending := if on then x.sending else 0, sdp := if on then x.sdp else none,
             maud := if on then x.maud else none, aux := if x.training then x.aux.map fun q => { q with since := c.ps } else x.aux }
  (c.set (R.SCN_OUT.OUT_STAT.IDLE_CAUSE n) cause).linkShow n

/-- The link of an enabled output starts: LVDS drives its lanes, the others train if a sink is there (R192, R201). -/
def Chip.linkStart (c : Chip) (n : Nat) (again : Bool) : Chip :=
  let c := c.setScn n { c.scnOut n with offLanes := 0, retrain := false }
  if c.lvds n then c.setLink n LinkSt.SENDING 0
  else if c.flag (R.SCN_OUT.OUT_STAT.HPD n) then
    let c := if again then c.bump (R.SCN_OUT.RETRAIN.COUNT n) else c
    c.setLink n LinkSt.TRAINING 0
  else c.setLink n LinkSt.IDLE 1

/-- The sink offers the committed lanes and rate (R201). The codes of DPCD 0x00001–0x00003 are DisplayPort's (PRESUMED, log entry 80). -/
def Chip.sinkOk (c : Chip) (n : Nat) (caps : List Byte) : Bool :=
  let o := c.leadOf n
  decide (c.get (R.SCN_OUT.OUT_CFG.LANES o) ≤ fieldAt caps 2 1 % 32) && decide ([6, 10, 20, 30].getD (c.get (R.SCN_OUT.OUT_CFG.RATE o)) 0 ≤ fieldAt caps 1 1)

/-- The pattern of channel equalisation: TPS2, at HBR3 TPS4, or TPS3 where the sink has no TPS4 (R201). -/
def Chip.eqPattern (c : Chip) (n : Nat) (caps : List Byte) : Nat :=
  if c.get (R.SCN_OUT.OUT_CFG.RATE (c.leadOf n)) ≠ 3 then 2 else if (fieldAt caps 3 1).testBit 7 then 4 else 3

/-! ### Outputs of the early picture (R69) -/

/-- Milliseconds since t0. -/
def Chip.sinceT0 (c : Chip) : Nat := (c.ps - c.pow.t0) / 1000000000

/-- The early anchor where no entry names it: the lowest lit output, as long as the ledger has not begun to follow a lit one (R69). -/
def Chip.earlyAnchor (c : Chip) : Chip :=
  let lit := c.get R.SYS_BOOT.EARLY.LIT
  match (List.range 8).find? fun n => lit.testBit n with
  | none => c
  | some a =>
    if !c.pow.anchorOpen ∨ (!c.ledIdle && lit.testBit c.anchor) then c
    else
      let d := (c.set R.SYS_BOOT.EARLY.ANCHOR a).set R.LDG.ANCHOR.ANCHOR a
      if c.ledIdle ∨ a = c.anchor then d.retimeAll else ((d.set R.LDG.ANCHOR.SOURCE 0).sourceChanged).raise 0x010 3

/-- An early output shows its picture. -/
def Chip.earlyLit (c : Chip) (n : Nat) : Chip :=
  let c := (c.setBit R.SYS_BOOT.EARLY.LIT n true).setBit R.SYS_BOOT.EARLY.SKIPPED n (c.pow.earlyBad.testBit n)
  let c := if c.get R.SYS_BOOT.BOOT_MS.EARLY_MS = 0xFFFF then c.set R.SYS_BOOT.BOOT_MS.EARLY_MS (min 0xFFFE c.sinceT0) else c
  c.earlyAnchor

/-- An early output stays dark for now. -/
def Chip.earlySkip (c : Chip) (n : Nat) : Chip := (c.setBit R.SYS_BOOT.EARLY.LIT n false).setBit R.SYS_BOOT.EARLY.SKIPPED n true

/-- An output of the early picture no longer sends: its LIT bit clears (R75). -/
def Chip.earlyDark (c : Chip) (n : Nat) : Chip := if (c.pow.early.find? n).isNone then c else c.setBit R.SYS_BOOT.EARLY.LIT n false

/-- The training of an output of the early table has ended (R69). -/
def Chip.earlyTrained (c : Chip) (n : Nat) (ok : Bool) : Chip :=
  if (c.pow.early.find? n).isNone then c else if ok then c.earlyLit n else c.earlySkip n

/-- Training ends with TRAIN_ERR code `err` (R201); after the retrain of an IRQ_HPD, HPD_IRQ is raised. -/
def Chip.trainEnds (c : Chip) (n err : Nat) : Chip :=
  let re := (c.scnOut n).retrain
  let c := (c.set (R.SCN_PHY.PHY_STAT.TRAIN_ERR n) err).setScn n { c.scnOut n with retrain := false }
  let c := if err = 0 then (c.setLink n LinkSt.SENDING 0).raise (outPage n) 8
    else (c.setLink n LinkSt.IDLE (if err = 1 then 4 else 2)).raise (outPage n) 6
  let c := c.earlyTrained n (err = 0)
  if re then c.raise (outPage n) 5 else c

/-- LINK_TRAINING (R201): the training of an output in TRAINING begins, with the receiver capabilities that the sink answers. -/
def execLinkTraining (sink : LinkSink) (s : State) : Host.Outcome State Fault Refusal :=
  let n := sink.out
  let caps := sink.caps
  s.on (sink.out < 8 && sink.caps.length ≤ 16) fun c => c.when ((c.scnOut n).link == LinkSt.TRAINING && !(c.scnOut n).training) fun c =>
    let eDp := c.get (R.SCN_OUT.OUT_CFG.MODE (c.leadOf n)) == 1
    let c := c.setScn n
      { c.scnOut n with training := true, caps := caps, eqTps := c.eqPattern n caps, assr := eDp && c.flag (R.SCN_OUT.OUT_CFG.ASSR (c.leadOf n)), drive := (0, 0) }
    let c := ((c.set (R.SCN_PHY.PHY_STAT.CR_DONE n) 0).set (R.SCN_PHY.PHY_STAT.EQ_DONE n) 0).set (R.SCN_PHY.PHY_STAT.TRAIN_ERR n) 0
    if c.sinkOk n caps then c else c.trainEnds n 1

/-- LINK_TRAINING_END (R201): `err` is 0 or the TRAIN_ERR code of the phase that failed, `cr` and `eq` the lanes that finished each phase. -/
def execLinkTrainingEnd (n err cr eq : Nat) (drive : TrainDrive) (s : State) : Host.Outcome State Fault Refusal :=
  s.on (n < 8) fun c => c.when ((c.scnOut n).training && err != 1) fun c =>
    let c := (c.set (R.SCN_PHY.PHY_STAT.CR_DONE n) cr).set (R.SCN_PHY.PHY_STAT.EQ_DONE n) eq
    let c := c.addSat (R.SCN_PHY.TRAIN_ATTEMPTS.COUNT n) (max 1 (min drive.attempts 10))
    let p := if c.splits (c.leadOf n) then c.leadOf n else n
    let c := c.setScn n { c.scnOut n with drive := (min drive.swing (c.get (R.SCN_PHY.PHY_CFG.MAX_SWING p)), min drive.pre (c.get (R.SCN_PHY.PHY_CFG.MAX_PRE p))) }
    c.trainEnds n err

/-- HPD_CONNECT (R204). -/
def execHpdConnect (n : Nat) (s : State) : Host.Outcome State Fault Refusal :=
  s.on (n < 8) fun c => c.when (!c.lvds n) fun c =>
    let c := ((c.set (R.SCN_PHY.PHY_STAT.HPD_RAW n) 1).set (R.SCN_OUT.OUT_STAT.HPD n) 1).raise (outPage n) 4
    if (c.scnOut n).link = LinkSt.IDLE ∧ c.get (R.SCN_OUT.OUT_STAT.IDLE_CAUSE n) = 1 ∧ c.flag (R.SCN_OUT.OUT_CFG.AUTO_RETRAIN (c.leadOf n)) then c.linkStart n true
    else c

/-- IRQ_HPD (R201, R204): `lost` says that a lane has lost lock or alignment. -/
def execIrqHpd (n : Nat) (lost : Bool) (s : State) : Host.Outcome State Fault Refusal :=
  s.on (n < 8) fun c => c.when (!c.lvds n && c.flag (R.SCN_OUT.OUT_STAT.HPD n)) fun c =>
    let c := c.bump (R.SCN_PHY.HPD_IRQ_CNT.COUNT n)
    if lost ∧ (c.scnOut n).link = LinkSt.SENDING then
      let c := (c.setLink n LinkSt.TRAINING 0).bump (R.SCN_OUT.RETRAIN.COUNT n)
      c.setScn n { c.scnOut n with retrain := true }
    else c.raise (outPage n) 5

/-- HPD_LOSS (R204). -/
def execHpdLoss (n : Nat) (s : State) : Host.Outcome State Fault Refusal :=
  s.on (n < 8) fun c => c.when (!c.lvds n && c.flag (R.SCN_OUT.OUT_STAT.HPD n)) fun c =>
    let c := ((c.set (R.SCN_PHY.PHY_STAT.HPD_RAW n) 0).set (R.SCN_OUT.OUT_STAT.HPD n) 0).raise (outPage n) 3
    let c := c.bump (R.SCN_OUT.HPD_LOSS.COUNT n)
    if (c.scnOut n).link = LinkSt.OFF then c else (c.setLink n LinkSt.IDLE 1).earlyDark n

/-- The output a PHY belongs to: the lead of an LVDS dual link (R199), else its own. -/
def Chip.phyOut (c : Chip) (n : Nat) : Nat := if c.dualFollower n then n - 1 else n

/-- Physical lanes that PHY `n` drives: bit 4 is the AUX or clock pair (R200, R205). The follower of a split pair runs on its lead's registers (R198). -/
def Chip.drivenLane (c : Chip) (n lane : Nat) : Bool :=
  let l := c.leadOf n
  let used := if c.lvds n then (if c.get (R.SCN_OUT.OUT_CFG.LVDS_MAP l) = 2 then 3 else 4) else c.get (R.SCN_OUT.OUT_CFG.LANES l)
  lane == 4 || (List.range used).any fun i => bits (c.get (R.SCN_PHY.PHY_CFG.LANE_MAP (if c.splits l then l else n))) (2 * i) 2 == lane

/-- A lane fault of PHY `n` (R205): the drivers of the lanes `lanes` are off. An output that is OFF stays OFF. -/
def Chip.laneFault (c : Chip) (n lanes : Nat) : Chip :=
  let o := c.phyOut n
  let c := c.setScn n { c.scnOut n with offLanes := (c.scnOut n).offLanes ||| lanes }
  let c := if (c.scnOut o).link = LinkSt.OFF then c else (c.setLink o LinkSt.IDLE 3).earlyDark o
  let c := (c.bump (R.SCN_PHY.LANE_FAULT_CNT.COUNT n)).raise (outPage o) 7
  c.record 0x0B01 n [c.get (R.SCN_PHY.PHY_STAT.SHORT n), c.get (R.SCN_PHY.PHY_STAT.OPEN n)]

/-- PHY `n` drives its lanes. -/
def Chip.driving (c : Chip) (n : Nat) : Bool :=
  let st := (c.scnOut (c.phyOut n)).link
  st == LinkSt.TRAINING || st == LinkSt.SENDING

/-- LANE_SHORT (R205): a leg of physical lane `lane` (4: the AUX or clock pair) is shorted to ground. -/
def execLaneShort (n lane : Nat) (s : State) : Host.Outcome State Fault Refusal :=
  s.on (n < 8) fun c => c.when (decide (lane < 5) && c.driving n && c.drivenLane n lane) fun c =>
    (c.setBit (R.SCN_PHY.PHY_STAT.SHORT n) lane true).laneFault n (2 ^ lane)

/-- LVDS_OPEN_CHECK (R205): the physical lanes found open. -/
def execLvdsOpenCheck (n opens : Nat) (s : State) : Host.Outcome State Fault Refusal :=
  s.on (n < 8) fun c => c.when (c.lvds n && (c.scnOut (c.phyOut n)).link == LinkSt.SENDING) fun c =>
    let found := ((List.range 5).filter fun i => opens.testBit i && c.drivenLane n i).foldl (fun m i => m + 2 ^ i) 0
    if found = 0 then c
    else (c.set (R.SCN_PHY.PHY_STAT.OPEN n) (c.get (R.SCN_PHY.PHY_STAT.OPEN n) ||| found)).laneFault n found

/-- A write of LANE_TEST (R205). -/
def Chip.laneTest (c : Chip) (src : Src) (n data : Nat) : Chip :=
  let st := (c.scnOut (c.phyOut n)).link
  c.port src (phyPage n) 0x048
    [ (c.mgrOrCtl src, E.OWNER), (data / 4 == 0, E.RESERVED),
      (!data.testBit 0 || st == LinkSt.OFF || st == LinkSt.IDLE, E.STATE), (!data.testBit 0 || !c.flag (R.SCN_PHY.LANE_TEST.BUSY n), E.BUSY) ] fun c =>
    if !data.testBit 0 then c
    else (c.set (R.SCN_PHY.LANE_TEST.BUSY n) 1).setScn n { c.scnOut n with testAt := c.ps }

/-- LANE_TEST (R205). -/
def execLaneTest (src : Src) (n : Nat) (s : State) : Host.Outcome State Fault Refusal := s.on (n < 8) fun c => c.laneTest src n 1

/-- LANE_TEST_DONE (R205): the check has ended with these shorted and open lanes. -/
def execLaneTestDone (n shorts opens : Nat) (s : State) : Host.Outcome State Fault Refusal :=
  s.on (n < 8) fun c => c.when (c.flag (R.SCN_PHY.LANE_TEST.BUSY n)) fun c =>
    let keep := fun (v : Nat) => ((List.range 5).filter fun i => v.testBit i && (!c.lvds n || c.drivenLane n i)).foldl (fun m i => m + 2 ^ i) 0
    let c := ((c.set (R.SCN_PHY.LANE_TEST.BUSY n) 0).set (R.SCN_PHY.PHY_STAT.SHORT n) (keep shorts)).set (R.SCN_PHY.PHY_STAT.OPEN n) (keep opens)
    let c := c.raise (phyPage n) 1
    let o := c.phyOut n
    if c.lvds n ∧ keep opens ≠ 0 then c.laneFault n (keep opens)
    else if keep shorts = 0 ∧ keep opens = 0 ∧ c.flag (R.SCN_OUT.OUT_CFG.ENABLE (c.leadOf o)) ∧ (c.scnOut o).link = LinkSt.IDLE
        ∧ c.get (R.SCN_OUT.OUT_STAT.IDLE_CAUSE o) = 3 then c.linkStart o true
    else c

/-- BACKLIGHT_ENABLE (R206): BLn_EN rises once BL.ON and ON_DELAY whole frames of SENDING have come together; the lead's for both of a pair. -/
def execBacklightEnable (n : Nat) (s : State) : Host.Outcome State Fault Refusal :=
  s.on (n < 8) fun c =>
    let l := c.leadOf n
    c.when ((c.scnOut l).link == LinkSt.SENDING && c.flag (R.SCN_OUT.BL.ON l) && (c.scnOut l).offLeft.isNone
        && decide (c.get (R.SCN_OUT.BL.ON_DELAY l) ≤ (c.scnOut l).sending)) fun c =>
      if (c.scnOut l).blEn then c else c.setScn l { c.scnOut l with blEn := true, pwmAt := c.ps, pwmFrom := c.ps }

/-- The output whose backlight pins those of output `n` follow (R198). -/
def Chip.blOf (c : Chip) (n : Nat) : Nat := if c.splits (c.leadOf n) then c.leadOf n else n

/-- Level of BLn_EN. -/
def Chip.blPin (c : Chip) (n : Nat) : Bool := (c.scnOut (c.blOf n)).blEn

/-- A PWM period of output `n`, in ps. -/
def Chip.pwmPeriod (c : Chip) (n : Nat) : Nat := 100000000000 / max 1 (c.get (R.SCN_OUT.BL.FREQ n))

/-- Level of BLn_PWM at `c.ps` (R206): high for DUTY/255 of each period while BLn_EN is high. A FREQ change takes effect at once (log entry 81). -/
def Chip.pwmPin (c : Chip) (n : Nat) : Bool :=
  let o := c.blOf n
  let x := c.scnOut o
  let duty := if c.ps < x.pwmFrom then x.pwmOld else c.get (R.SCN_OUT.BL.DUTY o)
  x.blEn && decide ((c.ps - x.pwmAt) % c.pwmPeriod o * 255 < duty * c.pwmPeriod o)

/-- A latch has changed DUTY of output `n`, which was `old`: the new value holds from the next period on. -/
def Chip.dutyLatched (c : Chip) (n old : Nat) : Chip :=
  let x := c.scnOut n
  let p := c.pwmPeriod n
  let next := c.ps + (p - (c.ps - x.pwmAt) % p) % p
  c.setScn n { x with pwmOld := if c.ps < x.pwmFrom then x.pwmOld else old, pwmFrom := next }

/-- With LINE_SYNC, line 0 begins a PWM period. -/
def Chip.pwmSync (c : Chip) (n t : Nat) : Chip :=
  if c.flag (R.SCN_OUT.BL.LINE_SYNC n) then c.setScn n { c.scnOut n with pwmAt := t, pwmFrom := min t (c.scnOut n).pwmFrom } else c

/-! ### AUX (R202) -/

/-- A write of AUX_CMD. -/
def Chip.auxCmd (c : Chip) (src : Src) (n data : Nat) : Chip :=
  let cmd := bits data 0 4
  let go := data.testBit 31
  c.port src (phyPage n) 0x04C
    [ (c.mgrOrCtl src, E.OWNER), (bits data 28 3 == 0, E.RESERVED), ([8, 9, 0, 4, 1, 5].contains cmd, E.VALUE),
      (!c.lvds n, E.STATE), (!go || !c.flag (R.SCN_PHY.AUX_STAT.BUSY n), E.BUSY) ] fun c =>
    let c := ((c.set (R.SCN_PHY.AUX_CMD.CMD n) cmd).set (R.SCN_PHY.AUX_CMD.LEN_M1 n) (bits data 4 4)).set (R.SCN_PHY.AUX_CMD.ADDR n) (bits data 8 20)
    if !go then c
    else (c.set (R.SCN_PHY.AUX_STAT.BUSY n) 1).setScn n { c.scnOut n with aux := some { cmd := cmd, len := bits data 4 4 + 1, addr := bits data 8 20, since := c.ps } }

/-- The word with another command and GO. -/
def auxWord (data cmd : Nat) : Nat := data / 16 % 2 ^ 27 * 16 + cmd + 2 ^ 31

/-- AUX_NATIVE_WRITE (R202): a write of AUX_CMD with GO and CMD 0x8. -/
def execAuxNativeWrite (src : Src) (n : Nat) (data : Word) (s : State) : Host.Outcome State Fault Refusal :=
  s.on (n < 8) fun c => c.auxCmd src n (auxWord data.toNat 8)

/-- AUX_NATIVE_READ (R202): CMD 0x9. -/
def execAuxNativeRead (src : Src) (n : Nat) (data : Word) (s : State) : Host.Outcome State Fault Refusal :=
  s.on (n < 8) fun c => c.auxCmd src n (auxWord data.toNat 9)

/-- AUX_I2C_WRITE (R202): CMD 0x0, or 0x4 with MOT. -/
def execAuxI2cWrite (src : Src) (n : Nat) (mot : Bool) (data : Word) (s : State) : Host.Outcome State Fault Refusal :=
  s.on (n < 8) fun c => c.auxCmd src n (auxWord data.toNat (if mot then 4 else 0))

/-- AUX_I2C_READ (R202): CMD 0x1, or 0x5 with MOT. -/
def execAuxI2cRead (src : Src) (n : Nat) (mot : Bool) (data : Word) (s : State) : Host.Outcome State Fault Refusal :=
  s.on (n < 8) fun c => c.auxCmd src n (auxWord data.toNat (if mot then 5 else 1))

/-- A transfer ends with a REPLY code after `bytes` bytes. -/
def Chip.auxEnd (c : Chip) (n reply bytes : Nat) : Chip :=
  let c := (c.setScn n { c.scnOut n with aux := none }).set (R.SCN_PHY.AUX_STAT.BUSY n) 0
  let c := (c.set (R.SCN_PHY.AUX_STAT.REPLY n) reply).set (R.SCN_PHY.AUX_STAT.BYTES n) bytes
  (if reply = 0 then c else c.bump (R.SCN_PHY.AUX_ERR.COUNT n)).raise (phyPage n) 0

/-- The software request that the sink has been asked: none while the device's own transactions of a training go first (R202). -/
def Chip.auxAsked (c : Chip) (n : Nat) : Option AuxReq := if (c.scnOut n).training then none else (c.scnOut n).aux

/-- AUX_REPLY (R202): the sink answers 0 ACK, 1 NACK or 2 DEFER, with the bytes of a read. -/
def execAuxReply (n reply : Nat) (data : List Byte) (s : State) : Host.Outcome State Fault Refusal :=
  s.on (n < 8) fun c => match c.auxAsked n with
    | none => c
    | some q =>
      if reply = 2 then
        if q.defers < 7 then c.setScn n { c.scnOut n with aux := some { q with defers := q.defers + 1, since := c.ps } } else c.auxEnd n 2 0
      else if reply = 1 then c.auxEnd n 1 0
      else if q.cmd % 2 = 1 then
        let got := data.take q.len
        let c := forN 16 c fun i c => match got[i]? with
          | none => c
          | some b =>
            let f := R.SCN_PHY.AUX_DATA.DATA n (i / 4)
            let old := c.get f
            c.set f (old - bits old (8 * (i % 4)) 8 * 2 ^ (8 * (i % 4)) + b.toNat * 2 ^ (8 * (i % 4)))
        c.auxEnd n 0 got.length
      else c.auxEnd n 0 q.len

/-- AUX_TIMEOUT (R202): no reply has come for 400 µs. -/
def execAuxTimeout (n : Nat) (s : State) : Host.Outcome State Fault Refusal :=
  s.on (n < 8) fun c => match c.auxAsked n with
    | none => c
    | some q => c.when (decide (q.since + 400000000 ≤ c.ps)) fun c => c.auxEnd n 3 0

/-! ### Commits (R190–R192, R198–R200) -/

/-- The timing fields of output `n`. -/
def timingFields (n : Nat) : List Fld :=
  [R.SCN_OUT.H_TIMING.ACTIVE n, R.SCN_OUT.H_TIMING.TOTAL n, R.SCN_OUT.V_TIMING.ACTIVE n, R.SCN_OUT.V_TIMING.TOTAL n, R.SCN_OUT.H_SYNC.START n,
   R.SCN_OUT.H_SYNC.WIDTH n, R.SCN_OUT.V_SYNC.START n, R.SCN_OUT.V_SYNC.WIDTH n, R.SCN_OUT.PCLK.KHZ n, R.SCN_OUT.PCLK.HSYNC_POS n, R.SCN_OUT.PCLK.VSYNC_POS n]

/-- The link fields of output `n`. -/
def linkFields (n : Nat) : List Fld :=
  [R.SCN_OUT.OUT_CFG.MODE n, R.SCN_OUT.OUT_CFG.LANES n, R.SCN_OUT.OUT_CFG.RATE n, R.SCN_OUT.OUT_CFG.BPC n, R.SCN_OUT.OUT_CFG.LVDS_MAP n,
   R.SCN_OUT.OUT_CFG.SPLIT n, R.SCN_OUT.OUT_CFG.SSC n, R.SCN_OUT.OUT_CFG.ASSR n]

/-- An active pixel rate in kpix/s, as a fraction (R191); none where the output is not enabled in the view. -/
def pixelRate (v : Fld → Nat) (n : Nat) : Nat × Nat :=
  if v (R.SCN_OUT.OUT_CFG.ENABLE n) = 0 then (0, 1)
  else
    let k := if v (R.SCN_OUT.OUT_CFG.SPLIT n) = 1 then 2 else 1
    (k * v (R.SCN_OUT.H_TIMING.ACTIVE n) * v (R.SCN_OUT.V_TIMING.ACTIVE n) * v (R.SCN_OUT.PCLK.KHZ n),
      max 1 (v (R.SCN_OUT.H_TIMING.TOTAL n) * v (R.SCN_OUT.V_TIMING.TOTAL n)))

/-- The aggregate pixel rate stays within 3.2 Gpix/s once the set of output `n` latches (R191). -/
def Chip.rateOk (c : Chip) (n : Nat) : Bool :=
  let sum := (List.range 8).foldl (fun (a : Nat × Nat) m =>
    let r := if m = n then pixelRate c.staged m
      else if c.follows m then ((0, 1) : Nat × Nat)
      else
        let x := pixelRate c.get m
        let y := pixelRate c.coming m
        if x.1 * y.2 < y.1 * x.2 then y else x
    (a.1 * r.2 + r.1 * a.2, a.2 * r.2)) (0, 1)
  decide (sum.1 ≤ 3200000 * sum.2)

/-- The timing of a view is legal (R190). -/
def timingOk (v : Fld → Nat) (n : Nat) : Bool :=
  let ha := v (R.SCN_OUT.H_TIMING.ACTIVE n)
  let ht := v (R.SCN_OUT.H_TIMING.TOTAL n)
  let va := v (R.SCN_OUT.V_TIMING.ACTIVE n)
  let vt := v (R.SCN_OUT.V_TIMING.TOTAL n)
  let sync := fun act tot start width => decide (act ≤ start) && decide (1 ≤ width) && decide (start + width ≤ tot)
  let within := fun lo hi x => decide (lo ≤ x) && decide (x ≤ hi)
  let pk := v (R.SCN_OUT.PCLK.KHZ n)
  let m := v (R.SCN_OUT.OUT_CFG.MODE n)
  within 64 4096 ha && within 64 4096 va && within (ha + 32) 8192 ht && within (va + 3) 8192 vt
    && sync ha ht (v (R.SCN_OUT.H_SYNC.START n)) (v (R.SCN_OUT.H_SYNC.WIDTH n)) && sync va vt (v (R.SCN_OUT.V_SYNC.START n)) (v (R.SCN_OUT.V_SYNC.WIDTH n))
    && (if m < 2 then within 25000 600000 pk else if m = 2 then within 25000 150000 pk else within 50000 300000 pk)
    && within va (vt - 1) (v (R.SCN_OUT.FLIP.FLIP_LINE n))
    && decide (v (R.SCN_OUT.WATERMARK.WM_CRIT n) < v (R.SCN_OUT.WATERMARK.WM_URGENT n))

/-- Every field is allowed in the chosen MODE (R190, R203, OUT_CFG). -/
def modeFieldsOk (v : Fld → Nat) (n : Nat) : Bool :=
  let m := v (R.SCN_OUT.OUT_CFG.MODE n)
  let bpc := v (R.SCN_OUT.OUT_CFG.BPC n)
  let map := v (R.SCN_OUT.OUT_CFG.LVDS_MAP n)
  (m == 1 || v (R.SCN_OUT.OUT_CFG.ASSR n) == 0)
    && (m < 2 || (v (R.SCN_OUT.OUT_CFG.LANES n) == 4 && v (R.SCN_OUT.OUT_CFG.RATE n) == 0 && (if map = 2 then bpc == 0 else bpc == 1)
      && v (R.SCN_OUT.OUT_CFG.SSC n) == 0 && v (R.SCN_OUT.OUT_CFG.AUDIO_EN n) == 0))
    && (n % 2 == 0 || v (R.SCN_OUT.OUT_CFG.SPLIT n) == 0)

/-- The link carries the timing (R200). -/
def capacityOk (v : Fld → Nat) (n : Nat) : Bool :=
  let rate := [1620000, 2700000, 5400000, 8100000].getD (v (R.SCN_OUT.OUT_CFG.RATE n)) 0
  decide (2 ≤ v (R.SCN_OUT.OUT_CFG.MODE n))
    || decide (v (R.SCN_OUT.PCLK.KHZ n) * 3 * (6 + 2 * v (R.SCN_OUT.OUT_CFG.BPC n)) * 10 ≤ v (R.SCN_OUT.OUT_CFG.LANES n) * rate * 8)

/-- Split-pair and dual-link conditions (R198, R199). -/
def Chip.pairOk (c : Chip) (n : Nat) : Bool :=
  let v := c.staged
  let other := c.flag (R.SCN_OUT.OUT_CFG.ENABLE (n + 1)) || c.coming (R.SCN_OUT.OUT_CFG.ENABLE (n + 1)) == 1
  let m := v (R.SCN_OUT.OUT_CFG.MODE n)
  let split := v (R.SCN_OUT.OUT_CFG.SPLIT n) == 1
  (!split || (m != 3 && (c.flag (R.SCN_OUT.OUT_CFG.SPLIT n) || !other)))
    && (m != 3 || (n % 2 == 0 && !other && v (R.SCN_OUT.H_TIMING.ACTIVE n) % 2 == 0 && v (R.SCN_OUT.H_TIMING.TOTAL n) % 2 == 0
      && v (R.SCN_OUT.H_SYNC.START n) % 2 == 0 && v (R.SCN_OUT.H_SYNC.WIDTH n) % 2 == 0))
    && (!c.dualFollower n || v (R.SCN_OUT.OUT_CFG.ENABLE n) == 0)

/-- Validation of the SCN set of output `n` (R190). -/
def Chip.scnCheck (c : Chip) (n : Nat) : Option Nat :=
  let v := c.staged
  firstFail
    [ (timingOk v n && modeFieldsOk v n, E.VALUE),
      (!c.flag (R.SCN_OUT.OUT_CFG.ENABLE n) || (linkFields n).all fun f => v f == c.get f, E.STATE),
      (capacityOk v n, 0x3B),
      (c.pairOk n, 0x3C),
      (c.rateOk n, E.SHORT) ]

/-! ### Watermarks (R196) -/

/-- WM_EFF of output `n` takes the value `want` under the bounds of loop 3 (R57, R196). -/
def Chip.wmStep (c : Chip) (n : Nat) (want : Nat) : Chip :=
  let v := max (c.get (R.SYS_POLICY.BOUNDS.FLOOR 3)) (min (c.get (R.SYS_POLICY.BOUNDS.CEIL 3)) want)
  let c := (c.set (R.SCN_OUT.OUT_STAT.WM_EFF n) v).setLoop 3 v
  if v = want then c
  else ((c.set (R.SYS_POLICY.STAT.CLAMP 3) 1).bump (R.SYS_POLICY.CLAMP_CNT.COUNT 3)).raise 0x003 3

/-- WM_URGENT of output `n` has been set: WM_EFF follows it, within the bounds of loop 3 where the loop acts (R196). -/
def Chip.wmCommit (c : Chip) (n : Nat) : Chip :=
  let v := c.get (R.SCN_OUT.WATERMARK.WM_URGENT n)
  if c.flag (R.SCN_OUT.WATERMARK.WM_ADAPT n) then c.wmStep n v else c.set (R.SCN_OUT.OUT_STAT.WM_EFF n) v

/-- The frame of output `n` that has ended is judged (R196). -/
def Chip.wmJudge (c : Chip) (n : Nat) : Chip :=
  let x := c.scnOut n
  if x.judged then c
  else
    -- the follower of a split pair runs on its lead's registers (R198)
    let urgent := c.get (R.SCN_OUT.WATERMARK.WM_URGENT (c.leadOf n))
    let eff := c.get (R.SCN_OUT.OUT_STAT.WM_EFF n)
    let low := decide (64 ≤ x.normalRun)
    let c := c.setScn n { x with judged := true, normalRun := if low then 0 else x.normalRun }
    if !c.flag (R.SCN_OUT.WATERMARK.WM_ADAPT (c.leadOf n)) then c.set (R.SCN_OUT.OUT_STAT.WM_EFF n) urgent
    else if x.lastIso then c.wmStep n (eff + 2)
    else if low then c.wmStep n (max urgent (eff - 1))
    else c.wmStep n eff

/-- WM_EFF_ADJUST (R196). -/
def execWmEffAdjust (n : Nat) (s : State) : Host.Outcome State Fault Refusal := s.on (n < 8) fun c => c.wmJudge n

/-- A frame of output `n` ends: it will be judged; its classes of the pair count together. -/
def Chip.wmFrame (c : Chip) (n : Nat) : Chip :=
  let c := c.wmJudge n
  let x := c.scnOut n
  let k := c.get (R.SCN_OUT.OUT_STAT.CLASS n)
  c.setScn n { x with iso := false, normal := k == 0, lastIso := x.iso, lastNormal := x.normal, normalRun := if x.normal then x.normalRun + 1 else 0, judged := false }

/-- UR_REARM (R197). -/
def Chip.urRearm (c : Chip) (src : Src) (n data : Nat) : Chip :=
  c.port src (outPage n) 0x07C [(c.mgrOrCtl src, E.OWNER), (decide (data < 2), E.RESERVED)] fun c =>
    if data = 0 then c
    else ((c.set (R.SCN_OUT.UR_FIRST_LO.STAMP n) 0).set (R.SCN_OUT.UR_FIRST_HI.STAMP n) 0).setScn n { c.scnOut n with captured := false }

/-- UR_REARM (R197). -/
def execUrRearm (src : Src) (n : Nat) (s : State) : Host.Outcome State Fault Refusal := s.on (n < 8) fun c => c.urRearm src n 1

/-! ### Starting and stopping (R22, R192) -/

/-- Outputs of the pair that `n` leads, or `n` alone. -/
def Chip.partners (c : Chip) (n : Nat) : List Nat :=
  if n % 2 = 0 ∧ (c.flag (R.SCN_OUT.OUT_CFG.SPLIT n) ∨ c.get (R.SCN_OUT.OUT_CFG.MODE n) = 3) then [n, n + 1] else [n]

/-- The first instant of the lock phase of output `n` at or after `t` (R22): LOCK_OFFSET anchor lines after an anchor line 0. -/
def Chip.phaseAt (c : Chip) (n t : Nat) : Nat :=
  let l := c.ledLinePs
  let p := l * c.ledVTotal
  let off : Int := (c.led.lineStart : Int) - (c.get R.LDG.LIVE_LINE.LINE * l : Nat) + (c.get (R.LDG_OUTS.LOCK.LOCK_OFFSET n) * l : Nat)
  -- the least off + k p that is at least t
  let d := ((t : Int) - off) % (max 1 p : Nat)
  if d = 0 then t else t + (max 1 p) - d.toNat

/-- The lead-in of output `n` begins at `t` (R192): line FLIP_LINE of frame N, a flip line in every sense. -/
def Chip.leadIn (c : Chip) (n t : Nat) : Chip :=
  let x := c.scnOut n
  let f := if x.ran || (c.get (R.LDG_OUTS.FRAME.FRAME n) != 0) then c.get (R.LDG_OUTS.FRAME.FRAME n) + 1 else 0
  let l := c.get (R.SCN_OUT.FLIP.FLIP_LINE n)
  let c := (c.partners n).foldl (fun c m => c.setScn m { c.scnOut m with ran := true }) c
  let c := c.setScn n { c.scnOut n with leadIn := true, startAt := none, lineAt := t, cur := [], offLeft := none, lastPx := none, wire := [], lanes := [], trim := 0 }
  let c := ((c.set (R.LDG_OUTS.FRAME.FRAME n) f).set (R.LDG_OUTS.LINE.LINE n) l).set (R.LDG_OUTS.LINE.RUNNING n) 1
  let c := c.set (R.LDG_OUTS.LINE.LOCK_STATE n) (if n ≠ c.anchor ∧ c.flag (R.LDG_OUTS.LOCK.LOCK_EN n) then 1 else 0)
  let c := (c.partners n).foldl (fun c m => (c.setScn m { c.scnOut m with lastPx := none }).linkStart m false) c
  let c := (c.ssPut n (8 + n) (f % 2 ^ 32) l 1 1 n).ssArm n
  (c.retime n).followShow

/-- The timing generator of output `n` starts, now or where the lock phase puts the lead-in (R192). -/
def Chip.outStart (c : Chip) (n : Nat) : Chip :=
  if n ≠ c.anchor ∧ c.flag (R.LDG_OUTS.LOCK.LOCK_EN n) then
    let d := (c.get (R.SCN_OUT.V_TIMING.TOTAL n) - c.get (R.SCN_OUT.FLIP.FLIP_LINE n)) * c.linePs n
    c.setScn n { c.scnOut n with startAt := some (c.phaseAt n (c.ps + d) - d) }
  else c.leadIn n c.ps

/-- The flip line and what rests on the timing of output `n` have changed at line `line` (R165, R192, R216). -/
def Chip.outRetimed (c : Chip) (n : Nat) (timing : Bool) : Chip :=
  let c := (c.partners n).foldl (fun c m => if timing then (c.regionsRetimed m).leadClip m else c) c
  if !c.outRunning n then c
  else
    let l := c.get (R.SCN_OUT.FLIP.FLIP_LINE n)
    let f := c.get (R.LDG_OUTS.FRAME.FRAME n) + (if c.get (R.LDG_OUTS.LINE.LINE n) = 0 then 0 else 1)
    let c := if l ≠ c.ssLine n then (c.ssPut n (8 + n) (f % 2 ^ 32) l 1 1 n).ssArm n else c
    let c := if timing ∧ c.leadOf c.anchor = n ∧ !c.ledIdle then (c.drcSlots).retimeAll else c
    c.retime n

/-- The accepted SCN set of output `n` latches (R192). -/
def Chip.scnLatch (c : Chip) (n : Nat) : Chip :=
  let old := c
  let wasOn := c.flag (R.SCN_OUT.OUT_CFG.ENABLE n)
  let c := c.latchBy (outPage n)
  let changed := fun (f : Fld) => c.get f != old.get f
  let timing := (timingFields n).any changed
  let flip := changed (R.SCN_OUT.FLIP.FLIP_LINE n)
  let c := if changed (R.SCN_OUT.WATERMARK.WM_URGENT n) || !c.flag (R.SCN_OUT.WATERMARK.WM_ADAPT n) then
      (c.partners n).foldl (fun c m => if m = n then c.wmCommit m else c.set (R.SCN_OUT.OUT_STAT.WM_EFF m) (c.get (R.SCN_OUT.OUT_STAT.WM_EFF n))) c else c
  let c := if changed (R.SCN_OUT.BL.DUTY n) then c.dutyLatched n (old.get (R.SCN_OUT.BL.DUTY n)) else c
  let c := if changed (R.SCN_OUT.OUT_CFG.SPLIT n) || changed (R.SCN_OUT.OUT_CFG.MODE n) then
      (if n % 2 = 0 then c.linkShow (n + 1) else c).followShow.cmpShow else c
  let c := if timing || flip then c.outRetimed n timing else c
  let c := if c.flag (R.SCN_OUT.BL.ON n) then c else c.setScn n { c.scnOut n with blEn := false }
  let on := c.flag (R.SCN_OUT.OUT_CFG.ENABLE n)
  if !wasOn && on then c.outStart n
  else if wasOn && !on then
    let x := { c.scnOut n with blEn := false, startAt := none }
    if c.outRunning n then c.setScn n { x with offLeft := some (c.get (R.SCN_OUT.BL.OFF_DELAY n)) } else c.setScn n x
  else c

/-- The timing generator of output `n` stops where its next line would have begun at `t` (R192). -/
def Chip.outStop (c : Chip) (n t : Nat) : Chip :=
  let vt := c.vTotal n
  let ps := c.partners n
  let c := c.set (R.LDG_OUTS.LINE.RUNNING n) 0
  let c := c.setScn n { c.scnOut n with leadIn := false, offLeft := none, cur := [], wire := [], lanes := [] }
  let c := ps.foldl (fun c m => (c.setLink m LinkSt.OFF 0).setPipe m { c.cpipe m with on := false, buf := [] }) c
  let c := c.followShow
  let c := { c with led := { c.led with lockNext := c.led.lockNext.filter (· ≠ n), acquiring := c.led.acquiring.erase n, phaseBad := c.led.phaseBad.erase n } }
  let c := (c.set (R.LDG_OUTS.LINE.LOCK_STATE n) 0).followShow
  let c := ps.foldl (fun c m => c.baseStopped m) c
  let c := if c.leadOf c.anchor = n ∧ !c.ledIdle then c.idleTakes vt t else c
  let c := c.layerShares fun u => ps.contains (c.get (R.CMP_L.LAYER_MGR.PIPE u))
  let c := c.modeDegrades
  if c.flag (H.PENDING (outPage n)) then c.scnLatch n else c

/-- The pending SCN set of output `n` enables it while its timing generator still runs in OFF_DELAY: it waits for the stop (log entry 82). -/
def Chip.enableComing (c : Chip) (n : Nat) : Bool :=
  c.flag (H.PENDING (outPage n)) && !c.flag (R.SCN_OUT.OUT_CFG.ENABLE n) && c.coming (R.SCN_OUT.OUT_CFG.ENABLE n) == 1

/-- The pending SCN set of output `n` changes its timing (R192). -/
def Chip.timingComing (c : Chip) (n : Nat) : Bool :=
  c.flag (H.PENDING (outPage n)) && !c.enableComing n && (timingFields n).any fun f => c.coming f != c.get f

/-- An accepted SCN set latches at once where the timing generator does not run (R192). A set that enables an output still in its
OFF_DELAY latches when it has stopped. -/
def Chip.scnAccepted (c : Chip) (n : Nat) : Chip := if c.outRunning n then c else c.scnLatch n

/-! ### The flip line (R186, R193) -/

/-- The ledger stamp of the start of output `n`'s present line (R24). -/
def Chip.lineStamp (c : Chip) (n : Nat) : Nat := c.stampAt (c.scnOut n).lineAt

/-- FLIP_LATCH (R186): the CMP sets, ring commits, the ordinary SCN set and the plane sets of output `n` (a lead) latch at its flip line. -/
def Chip.flipLatch (c : Chip) (isl : Memory) (n : Nat) : Chip :=
  if c.follows n ∨ !c.outRunning n then c
  else
    let f := c.get (R.LDG_OUTS.FRAME.FRAME n)
    let dual := c.get (R.SCN_OUT.OUT_CFG.MODE n) = 3
    let ps := if dual then [n] else c.partners n
    let r := c.cmpFlip n f
    let c := r.2
    let scn := c.flag (H.PENDING (outPage n)) && !c.timingComing n && !c.enableComing n
    let c := if scn then c.scnLatch n else c
    let c := ps.foldl (fun c m => c.planeLatch isl m) c
    let c := if r.1 || scn then
        let st := c.lineStamp n
        let c := (c.set (R.SCN_OUT.LAST_FLIP_LO.STAMP n) (st % 2 ^ 32)).set (R.SCN_OUT.LAST_FLIP_HI.STAMP n) (st / 2 ^ 32)
        (c.set (R.SCN_OUT.FLIP_FRAME.FRAME n) (f + 1)).raise (outPage n) 0
      else c
    -- OFF_DELAY frames have been sent: the lanes enter electrical idle (R192)
    if (c.scnOut n).offLeft = some 0 then (c.partners n).foldl (fun c m => c.setLink m LinkSt.OFF 0) c else ps.foldl (fun c m => c.cmpBegin m (f + 1)) c

/-! ### Lines (R179, R194–R197) -/

/-- The dither matrix of R179. -/
def ditherM (y x : Nat) : Nat := [0, 8, 2, 10, 12, 4, 14, 6, 3, 11, 1, 9, 15, 7, 13, 5].getD (y % 4 * 4 + x % 4) 0

/-- One channel after dither and depth (R179). -/
def ditherOut (depth dither f y x code : Nat) : Nat :=
  let k := 4 ^ depth
  let d := if depth = 0 ∨ dither = 0 then (if k = 1 then 0 else k / 2)
    else if dither = 1 then ditherM y x * k / 16 else ditherM (y + f) (x + 2 * f) * k / 16
  min ((code + d) / k) (1023 / k)

/-- A line on its way to the wire; x counts from 0 on each output. -/
def Chip.ditherLine (c : Chip) (n y : Nat) (codes : List Nat) : List Nat :=
  let depth := c.get (R.CMP_P.PIPE_CFG.DEPTH n)
  let mode := c.get (R.CMP_P.PIPE_CFG.DITHER n)
  let f := c.get (R.LDG_OUTS.FRAME.FRAME n) % 4
  codes.zipIdx.map fun p =>
    let g := fun lo => ditherOut depth mode f y p.2 (bits p.1 lo 10)
    g 20 * 2 ^ 20 + g 10 * 2 ^ 10 + g 0

/-! ### Sync and the LVDS maps (R189, R199, R200) -/

/-- Horizontal sync of output `n` is asserted at position `x`. -/
def Chip.hSync (c : Chip) (n x : Nat) : Bool :=
  decide (c.get (R.SCN_OUT.H_SYNC.START n) ≤ x) && decide (x < c.get (R.SCN_OUT.H_SYNC.START n) + c.get (R.SCN_OUT.H_SYNC.WIDTH n))

/-- Vertical sync of output `n` is asserted at position `x` of line `y`: from position H_SYNC_START of line V_SYNC_START on, for V_SYNC_WIDTH lines. -/
def Chip.vSync (c : Chip) (n y x : Nat) : Bool :=
  let ht := c.get (R.SCN_OUT.H_TIMING.TOTAL n)
  let a := c.get (R.SCN_OUT.V_SYNC.START n) * ht + c.get (R.SCN_OUT.H_SYNC.START n)
  let b := a + c.get (R.SCN_OUT.V_SYNC.WIDTH n) * ht
  let inside := fun p => decide (a ≤ p) && decide (p < b)
  inside (y * ht + x) || inside ((y + c.vTotal n) * ht + x)

/-- Levels of the sync signals of lead `n`, in the polarity of PCLK. -/
def Chip.hLevel (c : Chip) (n x : Nat) : Bool := c.hSync n x == c.flag (R.SCN_OUT.PCLK.HSYNC_POS n)
def Chip.vLevel (c : Chip) (n y x : Nat) : Bool := c.vSync n y x == c.flag (R.SCN_OUT.PCLK.VSYNC_POS n)

/-- A colour of `have_` bits as the `bpc` bits that the link carries (R179). -/
def linkBits (have_ bpc v : Nat) : Nat := if bpc ≤ have_ then v / 2 ^ (have_ - bpc) else v * 2 ^ (bpc - have_)

/-- The 7-bit words of the data lanes in one pixel clock: map 0 VESA, 1 JEIDA, 2 18-bit (PRESUMED, log entry 83). DE, VSYNC and HSYNC are control bits of
lane 2. -/
def lvdsWord (map r g b : Nat) (de vs hs : Bool) : List Nat :=
  let lo := if map = 1 then 2 else 0
  let ctl := b2n de * 64 + b2n vs * 32 + b2n hs * 16
  let three := [bits g lo 1 * 64 + bits r lo 6, bits b lo 2 * 32 + bits g (lo + 1) 5, ctl + bits b (lo + 2) 4]
  if map = 2 then three
  else if map = 1 then three ++ [bits b 0 2 * 16 + bits g 0 2 * 4 + bits r 0 2]
  else three ++ [bits b 6 2 * 16 + bits g 6 2 * 4 + bits r 6 2]

/-- Line `y` of lead `n` on its data lanes, one entry for each position, with these colours. -/
def Chip.lvdsLine (c : Chip) (n y : Nat) (wire : List Nat) : List (List Nat) :=
  let have_ := 10 - 2 * c.get (R.CMP_P.PIPE_CFG.DEPTH n)
  let map := c.get (R.SCN_OUT.OUT_CFG.LVDS_MAP n)
  let f := fun v lo => linkBits have_ (if map = 2 then 6 else 8) (bits v lo 10)
  (List.range (c.get (R.SCN_OUT.H_TIMING.TOTAL n))).map fun x =>
    let v := (wire[x]?).getD 0
    lvdsWord map (f v 20) (f v 10) (f v 0) (decide (x < wire.length)) (c.vLevel n y x) (c.hLevel n x)

/-- The entries at even (`odd` = 0) or odd positions. -/
def everyOther {α : Type} (odd : Nat) (l : List α) : List α := (l.zipIdx.filter fun p => p.2 % 2 == odd).map fun p => p.1

/-- Pipe `m` of lead `n` puts line `y` on the lanes of an LVDS link: the even pixels of a dual link on its own PHY, the odd ones on the next (R199). -/
def Chip.lvdsSend (c : Chip) (n m y : Nat) : Chip :=
  if !c.lvds n then c
  else if (c.scnOut m).link ≠ LinkSt.SENDING then c.setScn m { c.scnOut m with lanes := [] }
  else
    let l := c.lvdsLine n y (c.scnOut m).wire
    if c.get (R.SCN_OUT.OUT_CFG.MODE n) = 3 then
      let c := c.setScn n { c.scnOut n with lanes := everyOther 0 l }
      c.setScn (n + 1) { c.scnOut (n + 1) with lanes := everyOther 1 l }
    else c.setScn m { c.scnOut m with lanes := l }

/-- What the packets of a DisplayPort frame carry (R200, R203): the MSA with the timing and BPC, and with audio Maud and Naud, 512 × 48 kHz over the
link symbol clock in kHz (PRESUMED, log entry 83). -/
def Chip.frameHead (c : Chip) (n m : Nat) : Chip :=
  let x := c.scnOut m
  if c.lvds n || x.link != LinkSt.SENDING then c.setScn m { x with msa := [], maud := none }
  else
    let clk := [162000, 270000, 540000, 810000].getD (c.get (R.SCN_OUT.OUT_CFG.RATE n)) 0
    c.setScn m { x with msa := (timingFields n).map c.get ++ [c.get (R.SCN_OUT.OUT_CFG.BPC n)],
                        maud := if c.flag (R.SCN_OUT.OUT_CFG.AUDIO_EN n) then some (24576, clk) else none }

/-- `codes` as exactly `w` pixels: where the width has changed since they were composed the others are open values. -/
def Chip.fitLine (c : Chip) (w : Nat) (codes : List Nat) : List Nat × Chip :=
  forN (w - codes.length) (codes.take w, c) fun _ r => let v := r.2.fresh 30; (r.1 ++ [v.1], v.2)

/-- Pipe `m` of lead `n` sends active line `y`: the composed line, or an underrun (R197). -/
def Chip.sendLine (c : Chip) (n m y : Nat) : Chip :=
  let w := c.hActive n
  let p := c.cpipe m
  let x := c.scnOut m
  let hit := if p.frame = c.get (R.LDG_OUTS.FRAME.FRAME n) then (p.buf.find? fun l => l.1 == y).map fun l => l.2 else none
  let r : List Nat × Chip := match hit with
    | some l =>
      let g := c.fitLine w l
      (g.1, g.2.setScn m { x with lastPx := g.1.getLast?, cur := g.1 })
    | none =>
      let l := List.replicate w (x.lastPx.getD 0)
      let c := (c.bump (R.SCN_OUT.UR_LINES.COUNT m)).addSat (R.SCN_OUT.UR_PIXELS.COUNT m) w
      let c := if x.ur then c else (c.bump (R.SCN_OUT.UR_FRAMES.COUNT m)).raise (outPage m) 1
      let st := c.lineStamp n
      let c := if x.captured then c
        else (c.set (R.SCN_OUT.UR_FIRST_LO.STAMP m) (st % 2 ^ 32)).set (R.SCN_OUT.UR_FIRST_HI.STAMP m) (st / 2 ^ 32)
      (l, c.setScn m { x with ur := true, captured := true, cur := l })
  let c := r.2
  c.setScn m { c.scnOut m with wire := if (c.scnOut m).link = LinkSt.SENDING then c.ditherLine n y r.1 else [] }

/-- The present line of pipe `m` has ended: signature regions take it, and the slice buffer gives up its lines. -/
def Chip.lineOver (c : Chip) (n m : Nat) : Chip :=
  let y := c.get (R.LDG_OUTS.LINE.LINE n)
  let cur := (c.scnOut m).cur
  let c := if cur.isEmpty then c else c.regionLine m y cur
  let p := c.cpipe m
  let c := if p.frame = c.get (R.LDG_OUTS.FRAME.FRAME n) then c.setPipe m { p with buf := p.buf.filter fun l => decide (y < l.1) } else c
  (c.setScn m { c.scnOut m with cur := [], wire := [] }).bufShow m

/-- Classes of output `m` at the start of a line, and the time spent in them (R194, R195). -/
def Chip.lineClass (c : Chip) (m : Nat) : Chip :=
  let c := c.fetchClass m
  let k := c.get (R.SCN_OUT.OUT_STAT.CLASS m)
  if k = 1 then c.bump (R.SCN_OUT.URGENT_LINES.COUNT m) else if k = 2 then c.bump (R.SCN_OUT.ISO_LINES.COUNT m) else c

/-- How far the lock phase of output `n` lies behind `t`, or ahead of it where that is nearer. -/
def Chip.phaseErr (c : Chip) (n t : Nat) : Int :=
  let late := c.phaseAt n t - t
  let early := c.ledLinePs * c.ledVTotal - late
  if late ≤ early then late else -(early : Int)

/-- By how much the pixel clock of locked output `n`, trimmed by up to ±500 ppm, lengthens the frame that begins at `t` (R22; log entry 84). -/
def Chip.frameTrim (c : Chip) (n t : Nat) : Int :=
  let frame := c.linePs n * c.vTotal n
  max (-((frame / 2000 : Nat) : Int)) (min ((frame / 2000 : Nat) : Int) (c.phaseErr n (t + frame)))

/-- Picoseconds of line `l` of output `n`, with the trim of a locked output (R22) or of a follower device's anchor (R30). -/
def Chip.lineTime (c : Chip) (n l : Nat) : Nat :=
  let vt : Int := max 1 (c.vTotal n)
  let linked := c.leadOf c.anchor = n && c.get R.LDG.ANCHOR.SOURCE == 2
  let t := if linked then c.led.trim else if c.get (R.LDG_OUTS.LINE.LOCK_STATE n) = 2 then (c.scnOut n).trim else 0
  ((c.linePs n : Int) + (t * (l + 1) / vt - t * l / vt)).toNat

/-- Where the last line of a locked output's frame ends, if it would end at `t`, and whether the phase error exceeded what that line may absorb (R22): one line
longer, or half a line shorter. -/
def Chip.lockedEnd (c : Chip) (n t : Nat) : Nat × Bool :=
  let l := c.linePs n
  let e := c.phaseErr n t
  let k := max (-((l / 2 : Nat) : Int)) (min (l : Int) e)
  ((t + k).toNat, k != e)

/-- Output `n` begins line 0 of its next frame at `t`. -/
def Chip.lineZero (c : Chip) (n t : Nat) : Chip :=
  let ps := c.partners n
  let pipes := if c.get (R.SCN_OUT.OUT_CFG.MODE n) = 3 then [n] else ps
  let c := (c.wrap (R.LDG_OUTS.FRAME.FRAME n)).set (R.LDG_OUTS.LINE.LINE n) 0
  let first := (c.scnOut n).leadIn
  -- a lead-in ends on the lock phase; an acquiring frame ends on its new phase; the next frame may be an acquiring one
  let c := if (first && c.get (R.LDG_OUTS.LINE.LOCK_STATE n) == 1) || (c.led.acquiring.find? n).isSome then
      { c.set (R.LDG_OUTS.LINE.LOCK_STATE n) 2 with led := { c.led with acquiring := c.led.acquiring.erase n, phaseBad := c.led.phaseBad.erase n } } else c
  let c := if c.led.lockNext.contains n then
      let need := max (max (c.get (R.SCN_OUT.V_TIMING.ACTIVE n) + 3) (c.get (R.SCN_OUT.V_SYNC.START n) + c.get (R.SCN_OUT.V_SYNC.WIDTH n)))
        (c.get (R.SCN_OUT.FLIP.FLIP_LINE n) + 1)
      let e := c.phaseAt n (t + need * c.linePs n)
      { c.set (R.LDG_OUTS.LINE.LOCK_STATE n) 1 with led := { c.led with lockNext := c.led.lockNext.filter (· ≠ n), acquiring := c.led.acquiring.insert n e } }
    else c
  let x := c.scnOut n
  let c := c.setScn n { x with leadIn := false, lineAt := t, offLeft := x.offLeft.map (· - 1) }
  let c := if c.timingComing n then c.scnLatch n else c
  let c := c.setScn n { c.scnOut n with trim := c.frameTrim n t }
  let c := (c.pwmSync n t).ledgerZero n t
  let c := pipes.foldl (fun (c : Chip) m =>
    let c := c.wmFrame m
    let x := c.scnOut m
    let c := c.setScn m { x with ur := false, sending := if x.link = LinkSt.SENDING then x.sending + 1 else 0 }
    let c := (if x.link = LinkSt.SENDING then c.bump (R.SCN_OUT.FRAMES_SENT.COUNT m) else c).frameHead n m
    let c := c.sigFrame m
    let shown := if c.modeTarget = Mode.SERVICE then (c.cpipe m).banner else (c.cpipe m).degraded
    if shown && (c.cpipe m).frame == c.get (R.LDG_OUTS.FRAME.FRAME n) && !c.pow.switched.contains m then
      { c with pow := { c.pow with switched := m :: c.pow.switched } } else c) c
  let c := { c with pow := { c.pow with switched := c.pow.switched ++ ((ps.filter fun m => !pipes.contains m && c.pow.switched.contains n)) } }
  c.modeDegrades

/-- What output `n` does on the line it has begun. -/
def Chip.lineBegun (c : Chip) (n : Nat) : Chip :=
  let y := c.get (R.LDG_OUTS.LINE.LINE n)
  let pipes := if c.get (R.SCN_OUT.OUT_CFG.MODE n) = 3 then [n] else c.partners n
  let c := c.followShow
  let c := pipes.foldl (fun c m => c.lineClass m) c
  let c := if y < c.vActive n then pipes.foldl (fun c m => c.sendLine n m y) c else c
  pipes.foldl (fun c m => c.lvdsSend n m y) c

/-- The regions that acted at the end of a line with ACT 2 or 3 have asked for DEGRADED, together (R217). -/
def Chip.regionsAsk (c : Chip) : Chip :=
  if !c.saf.ask then c
  else
    let r := { c with saf := { c.saf with ask := false } }.islandDegrade.2
    if c.mode ≠ Mode.DEGRADED ∧ r.mode = Mode.DEGRADED then r.cmpDegraded else r

/-- The output's next line begins (R19, R22, R189). -/
def Chip.outputLine (c : Chip) (n : Nat) : Chip :=
  let x := c.scnOut n
  match x.startAt with
  | some t => (c.advance t).leadIn n t
  | none =>
    if !c.outRunning n then c
    else
      let l := c.get (R.LDG_OUTS.LINE.LINE n)
      let nominal := x.lineAt + c.lineTime n l
      let acq := c.led.acquiring.find? n
      let last := match acq with
        | some e => decide (e ≤ nominal)
        | none => decide (c.vTotal n ≤ l + 1)
      let lock := c.get (R.LDG_OUTS.LINE.LOCK_STATE n) == 2 && !c.led.lockNext.contains n
      let e : Nat × Bool := match acq with
        | some e => (min e nominal, false)
        | none => if last && lock then c.lockedEnd n nominal else (nominal, false)
      let c := c.advance e.1
      let pipes := if c.get (R.SCN_OUT.OUT_CFG.MODE n) = 3 then [n] else c.partners n
      let c := (pipes.foldl (fun c m => c.lineOver n m) c).regionsAsk
      let c := if last && lock then
          { c with led := { c.led with phaseBad := if e.2 then c.led.phaseBad.put 0 n (c.led.phaseBad.getD n 0 + 1) else c.led.phaseBad.erase n } } else c
      if last then
        if x.offLeft = some 0 then c.outStop n e.1 else (c.lineZero n e.1).lineBegun n
      else
        let c := (c.set (R.LDG_OUTS.LINE.LINE n) (l + 1)).setScn n { c.scnOut n with lineAt := e.1 }
        let c := if c.leadOf c.anchor = n ∧ !c.ledIdle then c.ledgerLine false (l + 1) e.1 else c
        c.lineBegun n

/-- OUTPUT_LINE_START (R194): output `n` begins its next line; a follower begins every line with its lead. -/
def execOutputLineStart (n : Nat) (s : State) : Host.Outcome State Fault Refusal :=
  s.on (n < 8) fun c => c.when (!c.follows n) fun c => c.outputLine n

/-- TIMING_GEN_STOP (R192): due at the end of the last frame after OFF_DELAY. -/
def execTimingGenStop (n : Nat) (s : State) : Host.Outcome State Fault Refusal :=
  s.on (n < 8) fun c => c.when (!c.follows n && c.outRunning n && (c.scnOut n).offLeft == some 0
    && decide (c.vTotal n ≤ c.get (R.LDG_OUTS.LINE.LINE n) + 1)) fun c => c.outputLine n

/-- LEDGER_LINE_ADVANCE (R19): the ledger's source, the idle raster or the anchor output, begins its next line. -/
def execLedgerLineAdvance (s : State) : Host.Outcome State Fault Refusal :=
  s.on true fun c => c.when (c.pdOn PD.DISP) fun c => if c.ledIdle then c.idleLine else c.outputLine (c.leadOf c.anchor)

/-- LOCK_LOST (R22): due once the limits have been exceeded in 2 consecutive frames. -/
def execLockLost (out : Nat) (s : State) : Host.Outcome State Fault Refusal :=
  s.on (out < 8) fun c => c.when (c.get (R.LDG_OUTS.LINE.LOCK_STATE out) == 2 && !c.follows out && decide (2 ≤ c.led.phaseBad.getD out 0)) fun c =>
    let c := { c.set (R.LDG_OUTS.LINE.LOCK_STATE out) 3 with led := { c.led with phaseBad := c.led.phaseBad.erase out } }
    (((c.retime out).followShow).raise 0x010 4).record 0x0201 out (parBytes 4 (c.get R.LDG.LIVE_FRAME.FRAME))

/-- LOCK_ACQUIRED (R22): due where the acquiring frame ends with the present line; the next frame begins on the new phase, LOCKED. -/
def execLockAcquired (out : Nat) (s : State) : Host.Outcome State Fault Refusal :=
  s.on (out < 8) fun c => c.when (match c.led.acquiring.find? out with
    | none => false
    | some e => decide (e ≤ (c.scnOut out).lineAt + c.lineTime out (c.get (R.LDG_OUTS.LINE.LINE out))) && c.outRunning out && !c.follows out) fun c => c.outputLine out

end Sys2Proof.Machine
end

