-- ==== Sys2Proof/Machine/Boot.lean ====
section
/-! DEFINITION. Entries to BOOT and to DORMANT, and the start-up sequence (R51, R55, R61–R73, R391). -/

namespace Sys2Proof.Machine

/-! ### What a reset leaves -/

/-- The registers of the pages that `keep` names; every other register has its reset value. The live level of SERVICE_EN stays (R63). -/
def Chip.keepPages (c : Chip) (keep : Nat → Bool) : SMap Nat :=
  c.rf.filter fun x => keep (x.1 / 32768) || x.1 == R.SYS_BOOT.STRAPS.SERVICE_EN.key

/-- A chip with nothing but time, the outside world's levels and the registers of some pages. -/
def Chip.cleared (c : Chip) (keep : Nat → Bool) : Chip :=
  { rf := c.keepPages keep, ps := c.ps, free := c.free, readData := c.readData, deliveries := c.deliveries,
    brg := { lastFrame := c.ps }, imx := { perst := c.imx.perst, perstAt := c.imx.perstAt } }

/-- Memories whose power has been lost: host memory and the log medium are not the device's. -/
def Mems.lost (m : Mems) : Mems := { host := m.host, cask := m.cask }

/-- Work of the rings that has neither finished nor been refused. -/
def Chip.workHeld (c : Chip) : Nat :=
  (c.imx.rings.map fun x => x.2.fetched.length + (x.2.issued.filter fun e => e.done.isNone).length).foldl (· + ·) 0

/-- The record of a forced transition (R51, R333). -/
def Chip.recordForced (c : Chip) (new cause squashed : Nat) : Chip := c.record 0x0101 0xFF ([c.mode, new, cause, 0] ++ parBytes 4 squashed)

/-- Pages of PD_AON, which a cold entry to BOOT leaves powered: the field die's own logic, Cask, and the fuses. -/
def isAonPage (p : Nat) : Bool := (0x020 ≤ p && p < 0x030) || (0x1B0 ≤ p && p < 0x1B4) || p == 0x032

/-- Domains powered before step 6 of R61 releases the others: PD_AON and PD_FIELD. -/
def railsPd : Nat := 3

/-- Cold entry to BOOT by SYS_RSTn (cause 2) or the secure watchdog (cause 3) (R51, R337). -/
def Chip.coldBoot (c : Chip) (m : Mems) (cause : Nat) : Chip × Mems :=
  let c := c.modeAbandon.recordForced Mode.BOOT cause c.workHeld
  let c := if c.mode = Mode.SERVICE then c.serviceExit 2 else c
  let d := c.get R.SYS_MODE.MODE_STAT.DCAUSE
  let n : Chip := { c.cleared isAonPage with csk := c.csk, pow := { t0 := c.ps } }
  let n := (n.set R.SYS_MODE.MODE_STAT.CAUSE cause).set R.SYS_MODE.MODE_STAT.DCAUSE d
  let n := (n.set R.PWR_ENTRY.PFW_CFG.LOCK 0).set R.SYS_POWER.PD_ON.ON railsPd
  (n.cskBootEntry, m.lost)

/-- SYS_RSTN (R51): SYS_RSTn goes low. -/
def execSysRstn (s : State) : Host.Outcome State Fault Refusal :=
  s.onMem true fun c m => if c.mode = Mode.DORMANT then (c, m) else c.coldBoot m 2

/-- Cask admits every event that waits and commits up to `n` staged records, past FREEZE (R338, R339). While the medium is not located the
records are lost. -/
def Chip.cskFlush (c : Chip) (m : Mems) (n : Nat) : Chip × Mems :=
  let c := forN (c.csk.waiting.length + c.csk.bridgeBuf.length + 1) c fun _ c => c.eventAdmit
  let c := (c.set R.CSK.CSK_CTRL.FREEZE 0).cskSettle
  let st := c.get R.CSK.CSK_STAT.STATE
  if st = CSK.COMMITTING ∨ st = CSK.IDLE then forN (min n c.csk.staging.length) (c, m) fun _ r => r.1.cskCommit r.2 false true true
  else (c, m)

/-- Registers that DORMANT leaves: the fuses and the RTC, which VBAT powers. -/
def isDormantPage (p : Nat) : Bool := p == 0x032 || p == 0x1B3

/-- A thermal or supply emergency pre-empts the resets in progress: RST_RESULT holds the counts reached so far, with CAUSE 7 (R84). -/
def Chip.resetsCut (c : Chip) : Chip :=
  let d := c.imx.resets.foldl (fun (c : Chip) x =>
    let c := (c.set (R.IMX_VI.RST_RESULT.SQUASHED x.1) (min x.2.squashed 0x3FF)).set (R.IMX_VI.RST_RESULT.DRAINED x.1) (min x.2.drained 0xFF)
    (c.set (R.IMX_VI.RST_RESULT.CAUSE x.1) 7).set (R.IMX_VI.RST_RESULT.US x.1) (min ((c.ps - x.2.start) / 1000000) 0x7FF)) c
  { d with imx := { d.imx with resets := [] } }

/-- Entry to DORMANT (R51, R55): `dcause` 1 VIGIL timeout, 2 under-voltage, 3 thermal shutdown. What was in flight is squashed and counted. -/
def Chip.toDormant (c : Chip) (m : Mems) (dcause written : Nat) (forced : Bool) : Chip × Mems :=
  let sq := c.workHeld
  let c := if c.mode = Mode.SERVICE then c.serviceExit 2 else c
  let c := if forced then c.recordForced Mode.DORMANT dcause sq else c
  let r := c.cskFlush m written
  let c := r.1
  let cause := c.get R.SYS_MODE.MODE_STAT.CAUSE
  let n : Chip := { c.cleared isDormantPage with
    csk := { rtcBase := c.csk.rtcBase, rtcFrom := c.csk.rtcFrom, heldFrac := c.csk.heldFrac, heldLo := c.csk.heldLo, heldHi := c.csk.heldHi } }
  let n := ((n.set R.SYS_MODE.MODE_STAT.MODE Mode.DORMANT).set R.SYS_MODE.MODE_STAT.CAUSE cause).set R.SYS_MODE.MODE_STAT.DCAUSE dcause
  ((n.set R.SYS_POWER.PD_ON.ON 0).set R.SYS_POWER.ABORT_CNT.COUNT sq, r.2.lost)

/-- t0: DORMANT is left for BOOT (R46, R61). -/
def Chip.enterBoot (c : Chip) (cause : Nat) : Chip :=
  let c := { c with pow := { t0 := c.ps }, brg := { lastFrame := c.ps } }
  let c := (c.set R.SYS_MODE.MODE_STAT.MODE Mode.BOOT).set R.SYS_MODE.MODE_STAT.CAUSE cause
  c.set R.SYS_POWER.PD_ON.ON railsPd

/-- A wake of the dormant device: held back while Tj is above 100 °C after a thermal shutdown (R46). -/
def Chip.wakeDormant (c : Chip) (cause : Nat) : Chip :=
  if c.pow.hot then { c with pow := { c.pow with bootHeld := c.pow.bootHeld.or (some cause) } } else c.enterBoot cause

/-- VIGIL is entered or left: a wake source is latched (R74). -/
def Chip.vigilWakes (c : Chip) : Bool := (c.mode == Mode.VIGIL && !c.modeBusy) || (c.mode == Mode.RUN && c.modeBusy && c.modeTarget == Mode.VIGIL)

/-- An enabled wake source has been seen. -/
def Chip.wakeSeen (c : Chip) (cause : Nat) : Chip :=
  if c.vigilWakes && c.pow.wake.isNone then { c with pow := { c.pow with wake := some cause } } else c

/-- WAKE_RISE (R46, R62): a rising edge at WAKE; from DORMANT it counts while VIN is valid. -/
def execWakeRise (vinValid : Bool) (s : State) : Host.Outcome State Fault Refusal :=
  s.on true fun c =>
    if c.mode = Mode.DORMANT then (if vinValid then c.wakeDormant 0 else c)
    else if c.flag R.SYS_MODE.VIGIL_CFG.WK_PIN then c.wakeSeen 0 else c

/-- WAKE_GPIO (R46). -/
def execWakeGpio (s : State) : Host.Outcome State Fault Refusal :=
  s.on true fun c => if c.flag R.SYS_MODE.VIGIL_CFG.WK_GPIO then c.wakeSeen 6 else c

/-- RTC_ALARM (R46): due in the second that RTC_ALARM names. -/
def execRtcAlarm (s : State) : Host.Outcome State Fault Refusal :=
  s.on true fun c =>
    if c.flag R.SYS_MODE.VIGIL_CFG.WK_RTC && c.rtc / 1024 % 2 ^ 32 == c.get R.CSK_RTC.RTC_ALARM.SEC then c.wakeSeen 5 else c

/-- 50 ms have passed since PFWn removed the rails (R359). -/
def Chip.holdoffOver (c : Chip) : Bool :=
  match c.pow.railsOff with
  | none => true
  | some t => decide (t + 50000000000 ≤ c.ps)

/-- VIN_RECOVERY (R46): VIN rises past 8.6 V; `fell` says that it has been below 8.0 V, which a device whose rails PFWn removed takes for
granted (R359). -/
def execVinRecovery (fell : Bool) (s : State) : Host.Outcome State Fault Refusal :=
  s.on true fun c => c.when (c.mode == Mode.DORMANT && (fell || c.pow.railsOff.isSome) && c.holdoffOver) fun c => c.wakeDormant 1

/-- PFW_WAKE_HOLDOFF_EXPIRY (R359): `vin` in mV. -/
def execPfwWakeHoldoffExpiry (vin : Nat) (s : State) : Host.Outcome State Fault Refusal :=
  s.on true fun c => c.when (c.mode == Mode.DORMANT && c.pow.railsOff.isSome && c.holdoffOver && decide (8600 < vin)) fun c => c.wakeDormant 1

/-- THERMAL_BOOT_RELEASE (R46): Tj, in °C, has fallen to 100 °C after a thermal shutdown. -/
def execThermalBootRelease (tj : Int) (s : State) : Host.Outcome State Fault Refusal :=
  s.on true fun c => c.when (c.mode == Mode.DORMANT && c.pow.hot && decide (tj ≤ 100)) fun c =>
    match c.pow.bootHeld with
    | some cause => c.enterBoot cause
    | none => { c with pow := { c.pow with hot := false } }

/-! ### Rails, straps and domains (R61–R64) -/

/-- BOOT_STAT.STAGE changes. -/
def Chip.setStage (c : Chip) (v : Nat) : Chip := (c.set R.SYS_BOOT.BOOT_STAT.STAGE v).raise 0x004 0

/-- Boot halts with `err`. -/
def Chip.bootHalt (c : Chip) (err : Nat) : Chip := ((c.set R.SYS_BOOT.BOOT_STAT.ERR err).setStage 6).raise 0x004 1

/-- Boot ends before the early picture: no output is lit (R75). -/
def Chip.noEarly (c : Chip) : Chip := c.set R.SYS_BOOT.BOOT_MS.EARLY_MS 0xFFFF

/-- PD_DISP is released: the ledger begins the first line of its idle raster, with its refresh and retraining slots (R19, R21). -/
def Chip.ledgerBegins (c : Chip) : Chip := { c with led := { c.led with lineStart := c.ps, nsRem := 0 } }.drcSlots

/-- POWER_UP_SEQUENCE (R61, R63, R64): steps 1 to 6, with the straps and the two levels sampled; step 6 releases the domains. MANAGER reads 7 where the
straps select no manager. -/
def execPowerUpSequence (bootsel devid : Nat) (serviceEn ovg : Bool) (s : State) : Host.Outcome State Fault Refusal :=
  s.on (bootsel < 8 && devid < 4) fun c => c.when (c.mode == Mode.BOOT && c.get R.SYS_BOOT.BOOT_STAT.STAGE == 0) fun c =>
    let c := ((c.set R.PWR_ENTRY.ENTRY_STAT.REVG_ON 1).set R.PWR_ENTRY.ENTRY_STAT.OVG_FITTED (b2n ovg)).set R.PWR_RAILS.RAIL_STAT.ON 0xFF
    let c := ((c.set R.SYS_BOOT.STRAPS.BOOTSEL bootsel).set R.SYS_BOOT.STRAPS.DEVID devid).set R.SYS_BOOT.STRAPS.SERVICE_EN (b2n serviceEn)
    let c := (c.set R.IMX.MANAGER.MGR (if bootsel = 5 then 0 else if 5 < bootsel then 7 else bootsel)).set R.LDG_SYNC.SYNC_STATE.DEVID devid
    let c := c.set R.SYS_POWER.PD_ON.ON R.SYS_POWER.PD_ON.ON.rst
    let c := { c with led := { c.led with ns := 0 } }.ledgerBegins
    if 5 < bootsel then (c.bootHalt 0x15).noEarly else c.setStage 1

/-- RAIL_STEP_TIMEOUT (R62): step `step` of the table missed its time for rail `rail`. -/
def execRailStepTimeout (step rail : Nat) (s : State) : Host.Outcome State Fault Refusal :=
  s.onMem (1 ≤ step && step ≤ 6) fun c m =>
    if c.mode = Mode.BOOT ∧ c.get R.SYS_BOOT.BOOT_STAT.STAGE = 0 then (c.record 0x0301 0xFF [step, rail]).toDormant m 2 1024 false else (c, m)

/-! ### The early picture (R66–R69, R391) -/

namespace Early

def out (e : List Byte) : Nat := fieldAt e 0x00 1
def mode (e : List Byte) : Nat := fieldAt e 0x01 1
def lanes (e : List Byte) : Nat := fieldAt e 0x02 1
def rate (e : List Byte) : Nat := fieldAt e 0x03 1
def pclk (e : List Byte) : Nat := fieldAt e 0x14 4
def eflags (e : List Byte) : Nat := fieldAt e 0x18 1
def bg (e : List Byte) : Nat := fieldAt e 0x1C 4

/-- Every field holds a value that the table of R68 allows. -/
def valuesOk (e : List Byte) : Bool :=
  decide (out e < 8) && decide (mode e ≤ 3) && (mode e != 3 || out e % 2 == 0) && [1, 2, 4].contains (lanes e)
    && (if mode e < 2 then decide (rate e ≤ 3) else rate e == 0) && decide (pclk e ≤ 600000) && decide (eflags e < 16)
    && fieldAt e 0x1B 1 == 0 && decide (bg e < 2 ^ 30)

/-- The SCN fields that an entry gives, and those that R391 gives besides. -/
def scn (e : List Byte) : List (Fld × Nat) :=
  let n := out e
  [ (R.SCN_OUT.OUT_CFG.MODE n, mode e), (R.SCN_OUT.OUT_CFG.LANES n, lanes e), (R.SCN_OUT.OUT_CFG.RATE n, rate e),
    (R.SCN_OUT.OUT_CFG.BPC n, 1),
    (R.SCN_OUT.H_TIMING.ACTIVE n, fieldAt e 0x04 2), (R.SCN_OUT.H_TIMING.TOTAL n, fieldAt e 0x06 2),
    (R.SCN_OUT.H_SYNC.START n, fieldAt e 0x08 2), (R.SCN_OUT.H_SYNC.WIDTH n, fieldAt e 0x0A 2),
    (R.SCN_OUT.V_TIMING.ACTIVE n, fieldAt e 0x0C 2), (R.SCN_OUT.V_TIMING.TOTAL n, fieldAt e 0x0E 2),
    (R.SCN_OUT.V_SYNC.START n, fieldAt e 0x10 2), (R.SCN_OUT.V_SYNC.WIDTH n, fieldAt e 0x12 2),
    (R.SCN_OUT.PCLK.KHZ n, pclk e), (R.SCN_OUT.PCLK.HSYNC_POS n, bits (eflags e) 0 1), (R.SCN_OUT.PCLK.VSYNC_POS n, bits (eflags e) 1 1),
    (R.SCN_OUT.FLIP.FLIP_LINE n, fieldAt e 0x0C 2), (R.SCN_OUT.BL.ON n, bits (eflags e) 3 1), (R.SCN_OUT.BL.DUTY n, fieldAt e 0x19 1),
    (R.SCN_OUT.OUT_CFG.ENABLE n, 1) ]

/-- The entries up to the end mark, at most eight. -/
def table (l : List (List Byte)) : List (List Byte) := (l.map (padTo 32)).take 8 |>.takeWhile fun e => out e != 0xFF

end Early

/-- Every writable field of a page has its reset value. -/
def Chip.pageReset (c : Chip) (p : Nat) : Chip :=
  let nr := pageRows p
  nr.2.foldl (fun c r => forN r.cnt c fun i c => (r.fields nr.1 i).foldl (fun c f => if f.writable then c.set f.fld f.fld.rst else c) c) c

/-- The entry would be accepted by the checks of an SCN commit (R68, R190). -/
def Chip.earlyChecks (c : Chip) (e : List Byte) : Bool :=
  let p := outPage (Early.out e)
  let c := c.putStage { page := p }
  (c.putStage { page := p, shadow := Early.scn e }).scnCheck (Early.out e) = none

/-- The fields of an entry become live, without the output being started (R391); its pipe has Degraded composition until a CMP commit for it latches
(R68, R71). -/
def Chip.earlyWrite (c : Chip) (e : List Byte) : Chip :=
  let n := Early.out e
  let c := c.cmpHold [n]
  let c := ((c.pageReset (outPage n)).pageReset (phyPage n)).pageReset (pipePage n)
  let c := (c.overlay (Early.scn e)).set (R.CMP_P.PIPE_CFG.DEPTH n) 1
  let c := (c.set (R.SAF_P.DEG_BG.RGB n) (Early.bg e)).set (R.SAF_P.DEG_BG.USE n) 1
  (c.set (R.LDG_OUTS.LOCK.LOCK_EN n) 0).set (R.SCN_OUT.OUT_STAT.WM_EFF n) (c.get (R.SCN_OUT.WATERMARK.WM_URGENT n))

/-- A sink is needed and there is none (R69). -/
def Chip.earlyNoSink (c : Chip) (e : List Byte) : Bool := decide (Early.mode e < 2) && !c.flag (R.SCN_OUT.OUT_STAT.HPD (Early.out e))

/-- Entries are judged in table order (R68): the legal ones are written where they can be lit now; the outputs of the others are skipped. An entry with no
sink yet does not take its output from a later one. -/
def Chip.earlyJudge (c : Chip) (l : List (List Byte)) : List (List Byte) × Chip :=
  l.foldl (fun (a : List (List Byte) × Chip) e =>
    let c := a.2
    let n := Early.out e
    let taken := (a.1.filter fun x => !c.earlyNoSink x).any fun x =>
      Early.out x == n || (Early.mode x == 3 && Early.out x + 1 == n) || (Early.mode e == 3 && Early.out x == n + 1)
    if Early.valuesOk e && !taken && c.earlyChecks e then
      (a.1 ++ [e], if c.earlyNoSink e then c else c.earlyWrite e)
    else if n < 8 then
      (a.1, { c.setBit R.SYS_BOOT.EARLY.SKIPPED n true with pow := { c.pow with earlyBad := putBit c.pow.earlyBad n true } })
    else (a.1, c)) ([], c)

/-- Start the output of a legal entry, or skip it for want of a sink (R69). -/
def Chip.earlyStart (c : Chip) (e : List Byte) : Chip :=
  let n := Early.out e
  if c.earlyNoSink e then c.earlySkip n
  else
    let c := c.outStart n
    if (c.scnOut n).link = LinkSt.SENDING then c.earlyLit n else c

/-- The early picture (R68, R69). The anchor is the output of the first legal entry that asks for it, else the lowest lit output. -/
def Chip.earlyPicture (c : Chip) (entries : List (List Byte)) : Chip :=
  let r := c.earlyJudge (Early.table entries)
  let legal := r.1
  let c := r.2.noEarly
  let asks := legal.find? fun e => (Early.eflags e).testBit 2
  let a := match asks with
    | some e => Early.out e
    | none => 0
  let c := (c.set R.SYS_BOOT.EARLY.ANCHOR a).set R.LDG.ANCHOR.ANCHOR a
  let held := legal.foldl (fun (m : SMap (List Byte)) e =>
    if (m.find? (Early.out e)).isNone ∨ !c.earlyNoSink e then SMap.insert m (Early.out e) e else m) []
  let c := { c with pow := { c.pow with early := held, anchorOpen := asks.isNone } }
  legal.foldl (fun c e => c.earlyStart e) c

/-- EARLY_RETRY (R69): HPD of a skipped early output rises. -/
def execEarlyRetry (n : Nat) (s : State) : Host.Outcome State Fault Refusal :=
  s.on (n < 8) fun c => match c.pow.early.find? n with
    | none => c
    | some e => c.when ((c.get R.SYS_BOOT.EARLY.SKIPPED).testBit n && c.flag (R.SCN_OUT.OUT_STAT.HPD n) && decide (Early.mode e < 2)) fun c =>
      let c := c.raise 0x004 2
      if c.flag (R.SCN_OUT.OUT_CFG.ENABLE n) then
        if (c.scnOut n).link = LinkSt.IDLE then c.linkStart n true else c
      else if c.earlyChecks e then (c.earlyWrite e).earlyStart e
      else c

/-- The island waits for its image: in BOOT, or in a warm resume (R66, R74). -/
def Chip.islandDue (c : Chip) : Bool :=
  (c.mode == Mode.BOOT && c.get R.SYS_BOOT.BOOT_STAT.STAGE == 1)
    || (c.get R.SYS_BOOT.BOOT_STAT.STAGE == 7 && c.get R.SAF.ISL_STAT.STATE == 0 && c.pdOn PD.SAFE)

/-- The CRC-32 after the early timing table is correct; it runs over the entries with the parameters of R146, the only ones the spec gives (DEDUCED, log
entry 94). -/
def earlyCrcOk (x : FlashImage) : Bool := decide (x.early.length ≤ 8) && crc32 ((x.early.map (padTo 32)).flatten) == x.earlyCrc.toNat

/-- ISLAND_IMAGE_LOADED (R65–R69): what the boot ROM finds in the flash: whether there is one, the two copies of the partition table, and copies A and B
of the island image as the table in use places them. -/
def execIslandImageLoaded (found : Bool) (tableA tableB : FlashTable) (copyA copyB : FlashImage) (s : State) : Host.Outcome State Fault Refusal :=
  s.onMem true fun c m =>
    if !c.islandDue then (c, m)
    else
      let boot := c.mode = Mode.BOOT
      match (if found then partTable [tableA, tableB] else none) with
      | none => ((c.islandDies.noEarly).bootHalt (if found then 0x11 else 0x10), m)
      | some part =>
        let c := { c with pow := { c.pow with part := part } }
        let r := c.islandLoad m.isl [copyA, copyB]
        let m := { m with isl := r.2 }
        let c := r.1
        let c := match pickCopy part 0x01 islSize (c.get R.SEC_FUSE.ISL_ROLLBACK.COUNT) (fun _ => true) [copyA, copyB] with
          | none => c.noEarly
          | some (_, x) =>
            let c := if boot then c.setStage 2 else c
            if earlyCrcOk x then c.earlyPicture x.early else (c.set R.SYS_BOOT.BOOT_STAT.ERR 0x13).noEarly
        (if boot then c.setStage 3 else c, m)

/-! ### The first stage and manager ready (R64, R70, R71, R74) -/

/-- On-chip SRAM: its base in the control cores' map and its size (R42, R275). -/
def sramBase : Nat := 0x01000000
def sramSize : Nat := 2 ^ 21

/-- The boot ROM arms the secure watchdog (R284). -/
def Chip.swdArm (c : Chip) : Chip :=
  let c := { c with ctl := { c.ctl with wdAge := 0, wdLimit := c.get R.SEC_WDOG.WD_CFG.TIMEOUT, wdWarned := false } }
  ((c.set R.SEC_WDOG.WD_CFG.ARMED 1).set R.SEC_WDOG.WD_STAT.NEXT_KEY 0).set R.SEC_WDOG.WD_STAT.ELAPSED 0

/-- CC0 enters authenticated firmware at `pc`, in the secure world and M mode. -/
def Chip.cc0Enter (c : Chip) (pc : Nat) : Chip :=
  let c := (c.setBit R.CTL.CC_STAT.SECURE 0 true).setBit R.CTL.CC_STAT.RUNNING 0 true
  { c with ctl := { c.ctl with core := SMap.insert c.ctl.core 0 { pc := pc } } }

/-- The digest of the image-signing key that is fused (R66). -/
def Chip.keyFused (c : Chip) : Nat := ((List.range 12).map fun i => c.get (R.SEC_FUSE.KEY_DIGEST.DIGEST i) * 2 ^ (32 * i)).foldl (· + ·) 0

/-- An image is authentic: its signature is correct and made with the fused key (R66). -/
def Chip.authentic (c : Chip) (x : FlashImage) : Bool := x.sigOk && x.keyDigest == c.keyFused

/-- Bytes of the largest first stage (R64, R65). -/
def ccSize : Nat := 0x1C0000

/-- The first stage to enter: copy A or B of the flash, or in recovery what the host has written to SRAM, whose checks are those of a flash image
(R64, R66). -/
def Chip.ccPick (c : Chip) (copies : List FlashImage) (sram : FlashImage) : Option (Bool × FlashImage) :=
  let least := c.get R.SEC_FUSE.CC_ROLLBACK.COUNT
  if c.get R.SYS_BOOT.STRAPS.BOOTSEL = 5 then
    if decide (sram.bytes.length ≤ ccSize) && sram.crcOk && decide (least ≤ sram.version) && c.authentic sram then some (false, sram) else none
  else pickCopy c.pow.part 0x03 ccSize least c.authentic copies

/-- CC_IMAGE_LOADED (R64, R66, R70): the boot ROM has read copies A and B of the first stage, or in recovery has the image in SRAM, `sram`. -/
def execCcImageLoaded (copyA copyB sram : FlashImage) (s : State) : Host.Outcome State Fault Refusal :=
  s.onMem true fun c m =>
    let rec_ := c.get R.SYS_BOOT.STRAPS.BOOTSEL == 5
    let there := Memory.readBytes m.sram 0 sram.bytes.length == sram.bytes
    if c.mode ≠ Mode.BOOT ∨ c.get R.SYS_BOOT.BOOT_STAT.STAGE ≠ 3 ∨ (rec_ && !(c.pow.loaded && there)) then (c, m)
    else match c.ccPick [copyA, copyB] sram with
      | none => (c.bootHalt 0x14, m)
      | some (b, x) =>
        let m := if rec_ then m else { m with sram := Memory.writeBytes m.sram 0 x.bytes }
        let c := c.set R.SYS_BOOT.BOOT_STAT.CC_COPY (b2n b)
        let c := if b then c.record 0x0103 0xFF [1] else c
        ((c.swdArm.cc0Enter sramBase).setStage 4, m)

/-- Manager ready in BOOT or at the end of a warm resume (R46, R71, R74). -/
def Chip.bootReady (c : Chip) : Chip :=
  let st := c.get R.SYS_BOOT.BOOT_STAT.STAGE
  let go := fun (c : Chip) (pd : Nat) =>
    let c := (c.modeDone Mode.RUN).set R.SYS_POWER.PD_ON.ON pd
    (c.set R.SYS_BOOT.BOOT_MS.READY_MS (min 0xFFFF c.sinceT0)).setStage 5 |>.cmpShow
  if c.mode = Mode.BOOT ∧ st = 4 then go (c.set R.SYS_BOOT.BOOT_CTRL.READY 1) 0x1FFFFFF
  else if c.mode = Mode.VIGIL ∧ c.modeBusy ∧ st = 7 ∧ c.flag R.SEC_WDOG.WD_CFG.ARMED then go (c.set R.SYS_BOOT.BOOT_CTRL.READY 1) c.pow.savedPd
  else c

/-- A write of BOOT_CTRL (R75): READY by the secure world, LOAD by the physical function of HP0 in recovery. The register's text gives any other writer
E_OWNER and its field table E_MODE: E_MODE is taken where the device is not in recovery, E_OWNER for another writer in recovery (DESIGN CHOICE, log
entry 93). -/
def Chip.bootCtrl (c : Chip) (src : Src) (data : Nat) : Chip :=
  let load := data.testBit 1
  c.port src 0x004 0x050
    [ ((load && !data.testBit 0) || isSecure src, E.OWNER), (!load || c.get R.SYS_BOOT.STRAPS.BOOTSEL == 5, E.MODE), (!load || src == .pf 0, E.OWNER),
      (data / 4 == 0, E.RESERVED) ] fun c =>
    if load then { c.set R.SYS_BOOT.BOOT_CTRL.LOAD 1 with pow := { c.pow with loaded := true } }
    else if data.testBit 0 then c.bootReady
    else c.set R.SYS_BOOT.BOOT_CTRL.READY 0

/-- BOOT_READY (R71): a write of BOOT_CTRL with READY. -/
def execBootReady (src : Src) (s : State) : Host.Outcome State Fault Refusal := s.on true fun c => c.bootCtrl src 1

/-- RECOVERY_LOAD (R64): a write of BOOT_CTRL with LOAD. -/
def execRecoveryLoad (src : Src) (s : State) : Host.Outcome State Fault Refusal := s.on true fun c => c.bootCtrl src 2

/-! ### PCIe readiness (R72) -/

/-- PERSTN_DEASSERT (R72). -/
def execPerstnDeassert (port : Nat) (s : State) : Host.Outcome State Fault Refusal :=
  s.on (port < 4) fun c => c.when (c.imx.perst.contains port) fun c =>
    { c with imx := { c.imx with perst := c.imx.perst.filter (· ≠ port), perstAt := SMap.insert c.imx.perstAt port c.ps } }

/-- The instant from which a port's readiness is counted: the later of t0, or the wake event, and PERSTn's deassertion (R72, R74). -/
def Chip.portFrom (c : Chip) (port : Nat) : Nat := max c.pow.t0 (c.imx.perstAt.getD port 0)

/-- PCIE_PORT_READY (R72, R76): due 90 ms after t0 and after PERSTn; the link has come up with `width` lanes, 1, 2 or 4, at speed 1 to 4 (2.5, 5, 8 and
16 GT/s). -/
def execPciePortReady (port width speed : Nat) (s : State) : Host.Outcome State Fault Refusal :=
  s.on (port < 4 && (width == 1 || width == 2 || width == 4) && 1 ≤ speed && speed ≤ 4) fun c =>
    c.when (c.pdOn PD.HOST && !c.imx.perst.contains port && decide (c.portFrom port + 90000000000 ≤ c.ps)) fun c =>
      let c := (c.set (R.IMX.PORT_LINK.WIDTH port) width).set (R.IMX.PORT_LINK.SPEED port) speed
      { c with imx := { c.imx with ready := if c.imx.ready.contains port then c.imx.ready else port :: c.imx.ready } }

end Sys2Proof.Machine
end

