-- ==== Sys2Proof/Machine/Trans.lean ====
section
/-! DEFINITION. The transcendental operations of the shader cores (R154): one fixed function of the argument within the stated accuracy.
Exact values are evaluated in fixed point with 96 fraction bits. -/

namespace Sys2Proof.Machine

/-- 2^x of a value, within 2 ulp. -/
def Fmt.exp2 (f : Fmt) (a pick : Nat) : Nat :=
  match f.val a with
  | .nan => f.nan
  | .inf n => if n then 0 else f.inf false
  | .fin neg m e =>
    let v := scaled neg m e (-200)
    let i := v / (2 ^ 200 : Int)
    let r := (v % (2 ^ 200 : Int)).toNat
    if 400 < i then f.inf false
    else if i < -400 then f.pickUlp 2 0 (-400) true pick
    else f.pickUlp 2 (expFix (r / 2 ^ 104 * ln2Fix / 2 ^ 96)) (i - 96) (r != 0) pick

/-- log2 of a value, within 2 ulp. -/
def Fmt.log2 (f : Fmt) (a pick : Nat) : Nat :=
  match f.val a with
  | .nan => f.nan
  | .inf n => if n then f.nan else f.inf false
  | .fin neg m e =>
    if m = 0 then f.inf true
    else if neg then f.nan
    else
      let l := Nat.log2 m
      let frac := logBits 96 (m * 2 ^ 220 / 2 ^ l) 0
      let v : Int := ((l : Int) + e) * 2 ^ 96 + frac
      f.pickUlp 2 v (-96) (m != 2 ^ l) pick

/-- sin, or with a quarter turn cos, of 2π × x within the absolute error of R154; beyond 256 turns, and at an infinity, the value is open. -/
def Fmt.sinTurns (f : Fmt) (quarter : Bool) (a pick : Nat) : Nat :=
  let free := f.ofVal (f.val (pick % 2 ^ f.width))
  match f.val a with
  | .nan => f.nan
  | .inf _ => free
  | .fin neg m e =>
    let v := scaled neg m e (-200)
    if (256 * 2 ^ 200 : Int) < v ∨ v < -(256 * 2 ^ 200 : Int) then free
    else
      let v := if quarter then v + (2 ^ 198 : Int) else v
      let s := sinFix ((v % (2 ^ 200 : Int)).toNat / 2 ^ 104)
      let tol : Int := if f.mb = 10 then 2 ^ 86 else 2 ^ 76
      f.pickIn (s - tol) (s + tol) (-96) pick (f.nearest s (-96) false)

end Sys2Proof.Machine
end

