-- ==== Sys2Proof/Machine/Block.lean ====
section
/-! DEFINITION. Decoding of compressed texture blocks (R127, R139): ETC2 and EAC, and ASTC under the LDR profile, as the Khronos Data Format
Specification defines them (PRESUMED, log entry 27: the spec names that document and does not hold it). -/

namespace Sys2Proof.Machine

/-- Four channels as FP32 words. -/
abbrev Px4 := List Nat

def one32 : Nat := 0x3F800000

/-- An n-bit UNORM code as FP32. -/
def unorm32 (n v : Nat) : Nat := fp32.ofRat false (v % 2 ^ n) (2 ^ n - 1)

/-- A number clamped to lo … hi. -/
def clampInt (lo hi v : Int) : Int := max lo (min hi v)

def clamp8 (v : Int) : Nat := (clampInt 0 255 v).toNat

/-! ### ETC2 and EAC -/

namespace Etc

/-- `n` copied bits of an `n`-bit code make eight. -/
def extend (n v : Nat) : Nat := v * 2 ^ (8 - n) + v / 2 ^ (2 * n - 8)

/-- Intensity modifiers of codeword `t` for pixel index `i`. -/
def modifier (t i : Nat) : Int :=
  let p : Int × Int := [(2, 8), (5, 17), (9, 29), (13, 42), (18, 60), (24, 80), (33, 106), (47, 183)].getD t (0, 0)
  if i = 0 then p.1 else if i = 1 then p.2 else if i = 2 then -p.1 else -p.2

def distance (i : Nat) : Int := [3, 6, 11, 16, 23, 32, 41, 64].getD i 0

/-- A colour with `d` added to every channel. -/
def shade (c : List Nat) (d : Int) : List Nat := c.map fun (v : Nat) => clamp8 ((v : Int) + d)

/-- The planar mode at pixel (x, y). -/
def planar (v x y : Nat) : List Nat :=
  let o := [extend 6 (bits v 57 6), extend 7 (bits v 56 1 * 64 + bits v 49 6), extend 6 (bits v 48 1 * 32 + bits v 43 2 * 8 + bits v 39 3)]
  let h := [extend 6 (bits v 34 5 * 2 + bits v 32 1), extend 7 (bits v 25 7), extend 6 (bits v 19 6)]
  let w := [extend 6 (bits v 13 6), extend 7 (bits v 6 7), extend 6 (bits v 0 6)]
  (List.range 3).map fun c =>
    let a : Int := o.getD c 0
    clamp8 ((x * ((h.getD c 0 : Int) - a) + y * ((w.getD c 0 : Int) - a) + 4 * a + 2) / 4)

/-- Pixel (x, y) of an ETC2 colour block, eight bits per channel; `punch` where bit 33 tells an opaque block from one with transparent pixels. -/
def color (punch : Bool) (v x y : Nat) : List Nat :=
  let i := 4 * x + y
  let idx := 2 * bits v (16 + i) 1 + bits v i 1
  let clear := punch && !v.testBit 33
  let four := fun k => bits v k 4 * 17
  let base := fun k => bits v k 5
  let step := fun k => sext 3 (bits v k 3)
  let sum := fun k => (base k : Int) + step (k - 3)
  let wraps := fun k => decide (sum k < 0) || decide (31 < sum k)
  let out := fun (c : List Nat) => if clear ∧ idx = 2 then [0, 0, 0, 0] else c ++ [255]
  let flip := v.testBit 32
  let second := if flip then decide (2 ≤ y) else decide (2 ≤ x)
  let table := bits v (if second then 34 else 37) 3
  let m := if clear ∧ idx = 0 then 0 else modifier table idx
  if !punch && !v.testBit 33 then
    out (shade (if second then [four 56, four 48, four 40] else [four 60, four 52, four 44]) m)
  else if wraps 59 then
    let a := [(bits v 59 2 * 4 + bits v 56 2) * 17, four 52, four 48]
    let b := [four 44, four 40, four 36]
    let d := distance (bits v 34 2 * 2 + bits v 32 1)
    out (if idx = 0 then a else if idx = 1 then shade b d else if idx = 2 then b else shade b (-d))
  else if wraps 51 then
    let a := [bits v 59 4, bits v 56 3 * 2 + bits v 52 1, bits v 51 1 * 8 + bits v 47 3]
    let b := [bits v 43 4, bits v 39 4, bits v 35 4]
    let num := fun (c : List Nat) => c.foldl (fun n k => 16 * n + k) 0
    let d := distance (bits v 34 1 * 4 + bits v 32 1 * 2 + b2n (decide (num b ≤ num a)))
    out (shade ((if idx < 2 then a else b).map (· * 17)) (if idx % 2 = 0 then d else -d))
  else if wraps 43 then planar v x y ++ [255]
  else
    let first := [base 59, base 51, base 43]
    let other := [(sum 59).toNat, (sum 51).toNat, (sum 43).toNat]
    out (shade ((if second then other else first).map (extend 5)) m)

/-- The modifier of pixel (x, y) in an EAC block. -/
def eacStep (v x y : Nat) : Int :=
  let rows : List (List Int) :=
    [[-3, -6, -9, -15, 2, 5, 8, 14], [-3, -7, -10, -13, 2, 6, 9, 12], [-2, -5, -8, -13, 1, 4, 7, 12], [-2, -4, -6, -13, 1, 3, 5, 12],
     [-3, -6, -8, -12, 2, 5, 7, 11], [-3, -7, -9, -11, 2, 6, 8, 10], [-4, -7, -8, -11, 3, 6, 7, 10], [-3, -5, -8, -11, 2, 4, 7, 10],
     [-2, -6, -8, -10, 1, 5, 7, 9], [-2, -5, -8, -10, 1, 4, 7, 9], [-2, -4, -8, -10, 1, 3, 7, 9], [-2, -5, -7, -10, 1, 4, 6, 9],
     [-3, -4, -7, -10, 2, 3, 6, 9], [-1, -2, -3, -10, 0, 1, 2, 9], [-4, -6, -8, -9, 3, 5, 7, 8], [-3, -5, -7, -9, 2, 4, 6, 8]]
  (rows.getD (bits v 48 4) []).getD (bits v (45 - 3 * (4 * x + y)) 3) 0

/-- An EAC alpha value of eight bits. -/
def eac8 (v x y : Nat) : Nat := clamp8 ((bits v 56 8 : Int) + eacStep v x y * bits v 52 4)

/-- An EAC value of eleven bits as FP32. -/
def eac11 (signed : Bool) (v x y : Nat) : Nat :=
  let m := eacStep v x y * (if bits v 52 4 = 0 then 1 else 8 * bits v 52 4 : Nat)
  if signed then
    let r := clampInt (-1023) 1023 (max (-127) (sext 8 (bits v 56 8)) * 8 + m)
    fp32.ofRat (decide (r < 0)) r.natAbs 1023
  else fp32.ofRat false (clampInt 0 2047 ((bits v 56 8 * 8 + 4 : Nat) + m)).toNat 2047

/-- The number that eight stored bytes of a block spell, the first the most significant. -/
def word (raw : Nat) : Nat := (List.range 8).foldl (fun n i => 256 * n + bits raw (8 * i) 8) 0

end Etc

/-! ### ASTC -/

namespace Astc

/-- An integer range: how many trits (or quints) and bits make a value. -/
structure Rng where
  trits : Nat := 0
  quints : Nat := 0
  nbits : Nat
  deriving DecidableEq, Repr

/-- The ranges in rising order: 2, 3, 4, 5, 6, 8, 10, 12, … 256 values. -/
def rng (i : Nat) : Rng :=
  if i % 3 = 1 then { trits := 1, nbits := i / 3 }
  else if i % 3 = 2 then { nbits := i / 3 + 2 }
  else if i = 0 then { nbits := 1 }
  else { quints := 1, nbits := i / 3 - 1 }

/-- Bits of a sequence of `n` values. -/
def seqBits (r : Rng) (n : Nat) : Nat := n * r.nbits + (if r.trits = 1 then (8 * n + 4) / 5 else if r.quints = 1 then (7 * n + 2) / 3 else 0)

/-- The five trits that eight bits hold. -/
def trits (t : Nat) : List Nat :=
  let hi := bits t 2 3 == 7
  let c := if hi then bits t 5 3 * 4 + bits t 0 2 else bits t 0 5
  let t43 : Nat × Nat := if hi then (2, 2) else if bits t 5 2 = 3 then (2, bits t 7 1) else (bits t 7 1, bits t 5 2)
  let one := fun k => 2 * bits c (k + 1) 1 + bits c k 1 * (1 - bits c (k + 1) 1)
  let low := if bits c 0 2 = 3 then [one 2, bits c 4 1, 2] else if bits c 2 2 = 3 then [bits c 0 2, 2, 2] else [one 0, bits c 2 2, bits c 4 1]
  low ++ [t43.2, t43.1]

/-- The three quints that seven bits hold. -/
def quints (q : Nat) : List Nat :=
  let hi := bits q 1 2 == 3
  if hi ∧ bits q 5 2 = 0 then
    let z := 1 - bits q 0 1
    [4, 4, 4 * bits q 0 1 + 2 * (bits q 4 1 * z) + bits q 3 1 * z]
  else
    let c := if hi then bits q 3 2 * 8 + (3 - bits q 5 2) * 2 + bits q 0 1 else bits q 0 5
    let q2 := if hi then 4 else bits q 5 2
    if bits c 0 3 = 5 then [bits c 3 2, 4, q2] else [bits c 0 3, bits c 3 2, q2]

/-- Take groups of bits from `v`: for each of `ns` the value bits, then as many bits of the shared code as `gs` says; the values and the code. -/
def unpack (v nbits : Nat) (gs : List Nat) : List Nat × Nat :=
  let r := gs.foldl (fun (a : List Nat × Nat × Nat × Nat) g =>
    (a.1 ++ [bits v a.2.1 nbits], a.2.1 + nbits + g, a.2.2.1 + bits v (a.2.1 + nbits) g * 2 ^ a.2.2.2, a.2.2.2 + g)) ([], 0, 0, 0)
  (r.1, r.2.2.1)

/-- Value `i` of a sequence that begins at bit 0 of `v` (which holds no bits beyond the sequence): its bits and its trit or quint. -/
def value (r : Rng) (v i : Nat) : Nat × Nat :=
  if r.trits = 1 then
    let u := unpack (v / 2 ^ (i / 5 * (5 * r.nbits + 8))) r.nbits [2, 2, 1, 2, 1]
    (u.1.getD (i % 5) 0, (trits u.2).getD (i % 5) 0)
  else if r.quints = 1 then
    let u := unpack (v / 2 ^ (i / 3 * (3 * r.nbits + 7))) r.nbits [3, 2, 2]
    (u.1.getD (i % 3) 0, (quints u.2).getD (i % 3) 0)
  else (bits v (i * r.nbits) r.nbits, 0)

/-- The number whose binary digits the names spell: 0 for none, else the number of a bit of `m`. -/
def weave (m : Nat) (l : List (Option Nat)) : Nat := l.foldl (fun n k => 2 * n + (match k with | some b => bits m b 1 | none => 0)) 0

/-- A colour value of eight bits. -/
def colorValue (r : Rng) (x : Nat × Nat) : Nat :=
  let m := x.1
  let n := r.nbits
  if r.trits = 0 ∧ r.quints = 0 then
    (List.range 8).foldl (fun a k => a * 2 + bits m (n - 1 - k % n) 1) 0
  else
    let b := fun (k : Nat) => some k
    let z : Option Nat := none
    let w : List (Option Nat) × Nat :=
      if r.trits = 1 then
        [([], 204), ([b 1, z, z, z, b 1, z, b 1, b 1, z], 93), ([b 2, b 1, z, z, z, b 2, b 1, b 2, b 1], 44),
         ([b 3, b 2, b 1, z, z, z, b 3, b 2, b 1], 22), ([b 4, b 3, b 2, b 1, z, z, z, b 4, b 3], 11),
         ([b 5, b 4, b 3, b 2, b 1, z, z, z, b 5], 5)].getD (n - 1) ([], 0)
      else
        [([], 113), ([b 1, z, z, z, z, b 1, b 1, z, z], 54), ([b 2, b 1, z, z, z, z, b 2, b 1, b 2], 26),
         ([b 3, b 2, b 1, z, z, z, z, b 3, b 2], 13), ([b 4, b 3, b 2, b 1, z, z, z, z, b 4], 6)].getD (n - 1) ([], 0)
    let a := if m.testBit 0 then 511 else 0
    let t := (x.2 * w.2 + weave m w.1) ^^^ a
    (a &&& 0x80) ||| t / 4

/-- A weight of 0 to 64. -/
def weightValue (r : Rng) (x : Nat × Nat) : Nat :=
  let m := x.1
  let n := r.nbits
  let v :=
    if r.trits = 0 ∧ r.quints = 0 then (List.range 6).foldl (fun a k => a * 2 + bits m (n - 1 - k % n) 1) 0
    else if n = 0 then (if r.trits = 1 then [0, 32, 63] else [0, 16, 32, 47, 63]).getD x.2 0
    else
      let b := fun (k : Nat) => some k
      let z : Option Nat := none
      let w : List (Option Nat) × Nat :=
        if r.trits = 1 then [([], 50), ([b 1, z, z, z, b 1, z, b 1], 23), ([b 2, b 1, z, z, z, b 2, b 1], 11)].getD (n - 1) ([], 0)
        else [([], 28), ([b 1, z, z, z, z, b 1, z], 13)].getD (n - 1) ([], 0)
      let a := if m.testBit 0 then 127 else 0
      let t := (x.2 * w.2 + weave m w.1) ^^^ a
      (a &&& 0x20) ||| t / 4
  if 32 < v then v + 1 else v

/-- The weight grid a block mode asks for: width, height, two planes, range. -/
structure Grid where
  w : Nat
  h : Nat
  dual : Bool
  range : Rng
  deriving DecidableEq, Repr

def Grid.count (g : Grid) : Nat := g.w * g.h * (1 + b2n g.dual)
def Grid.bits (g : Grid) : Nat := seqBits g.range g.count

/-- The grid of block mode `m` (11 bits), none where it is reserved or out of bounds for a footprint of bw × bh. -/
def grid (m bw bh : Nat) : Option Grid :=
  let a := bits m 5 2
  let b := bits m 7 2
  let mk := fun (w h d hp base : Nat) => some (w, h, d, hp, base)
  let d := bits m 10 1
  let hp := bits m 9 1
  let low := bits m 4 1 + 2 * bits m 0 2
  let high := bits m 4 1 + 2 * bits m 2 2
  let r : Option (Nat × Nat × Nat × Nat × Nat) :=
    if bits m 0 2 ≠ 0 then
      if bits m 2 2 = 0 then mk (b + 4) (a + 2) d hp low
      else if bits m 2 2 = 1 then mk (b + 8) (a + 2) d hp low
      else if bits m 2 2 = 2 then mk (a + 2) (b + 8) d hp low
      else if m.testBit 8 then mk (b % 2 + 2) (a + 2) d hp low
      else mk (a + 2) (b % 2 + 6) d hp low
    else if bits m 2 2 = 0 then none
    else if b = 0 then mk 12 (a + 2) d hp high
    else if b = 1 then mk (a + 2) 12 d hp high
    else if b = 2 then mk (a + 6) (bits m 9 2 + 6) 0 0 high
    else if a = 0 then mk 6 10 d hp high
    else if a = 1 then mk 10 6 d hp high
    else none
  r.bind fun x =>
    if x.2.2.2.2 < 2 then none
    else
      let g : Grid := { w := x.1, h := x.2.1, dual := x.2.2.1 == 1, range := rng (x.2.2.2.2 - 2 + 6 * x.2.2.2.1) }
      if g.count ≤ 64 ∧ 24 ≤ g.bits ∧ g.bits ≤ 96 ∧ g.w ≤ bw ∧ g.h ≤ bh then some g else none

/-- Weight `p` (plane) at texel (x, y) of a footprint of bw × bh: the grid's weights interpolated. `v` holds the weights' sequence. -/
def weightAt (g : Grid) (v bw bh p x y : Nat) : Nat :=
  let ds := (1024 + bw / 2) / (bw - 1)
  let dt := (1024 + bh / 2) / (bh - 1)
  let gs := (ds * x * (g.w - 1) + 32) / 64
  let gt := (dt * y * (g.h - 1) + 32) / 64
  let fs := gs % 16
  let ft := gt % 16
  let at_ := fun (i j : Nat) =>
    let k := (gt / 16 + j) * g.w + gs / 16 + i
    if k < g.w * g.h then weightValue g.range (value g.range v (k * (1 + b2n g.dual) + p)) else 0
  let w11 := (fs * ft + 8) / 16
  (at_ 0 0 * (16 + w11 - fs - ft) + at_ 1 0 * (fs - w11) + at_ 0 1 * (ft - w11) + at_ 1 1 * w11 + 8) / 16

/-- The hash behind the partition patterns, on 32 bits. -/
def hash (p : Nat) : Nat :=
  let cut := fun n => n % 2 ^ 32
  let p := p ^^^ p / 2 ^ 15
  let p := cut (p * 0xEEDE0891)
  let p := p ^^^ p / 2 ^ 5
  let p := cut (p + p * 2 ^ 16)
  let p := p ^^^ p / 2 ^ 7
  let p := p ^^^ p / 2 ^ 3
  let p := cut (p ^^^ p * 2 ^ 6)
  p ^^^ p / 2 ^ 17

/-- The partition of texel (x, y) among `n` under pattern `seed`. -/
def partition (seed n bw bh x y : Nat) : Nat :=
  let k := if bw * bh < 31 then 2 else 1
  let s := seed + (n - 1) * 1024
  let r := hash s
  let sq := fun (sh : Nat) (at_ : Nat) => (bits r at_ 4) * (bits r at_ 4) / 2 ^ sh
  let a := if s.testBit 1 then 4 else 5
  let b := if n = 3 then 6 else 5
  let sh : Nat × Nat := if s.testBit 0 then (a, b) else (b, a)
  let v := fun (at_ off : Nat) => (sq sh.1 at_ * (k * x) + sq sh.2 (at_ + 4) * (k * y) + r / 2 ^ off) % 64
  let l := [v 0 14, v 8 10, if n < 3 then 0 else v 16 6, if n < 4 then 0 else v 24 2]
  let g := fun i => l.getD i 0
  if g 1 ≤ g 0 ∧ g 2 ≤ g 0 ∧ g 3 ≤ g 0 then 0 else if g 2 ≤ g 1 ∧ g 3 ≤ g 1 then 1 else if g 3 ≤ g 2 then 2 else 3

/-- The transfer of a bit from an offset to its base: offset, base. -/
def transfer (a b : Nat) : Int × Int := (sext 6 (bits a 1 6), (b / 2 + (a &&& 0x80) : Nat))

/-- The endpoints of colour mode `m` from its values; none for the HDR modes. -/
def ends (m : Nat) (v : List Nat) : Option (List Nat × List Nat) :=
  let g := fun i => v.getD i 0
  let t := fun i => transfer (g (2 * i + 1)) (g (2 * i))
  let contract := fun (c : List Int) => let k := fun i => c.getD i 0; [(k 0 + k 2) / 2, (k 1 + k 2) / 2, k 2, k 3]
  let out := fun (c : List Int) => c.map clamp8
  let grey := fun (l a : Nat) => [l, l, l, a]
  let alpha := decide (12 ≤ m)
  if m = 0 then some (grey (g 0) 255, grey (g 1) 255)
  else if m = 1 then
    let l := g 0 / 4 + (g 1 &&& 0xC0)
    some (grey l 255, grey (min 255 (l + g 1 % 64)) 255)
  else if m = 4 then some (grey (g 0) (g 2), grey (g 1) (g 3))
  else if m = 5 then
    let l := t 0
    let a := t 1
    let lo := out [l.2, a.2]
    let hi := out [l.1 + l.2, a.1 + a.2]
    some (grey (lo.getD 0 0) (lo.getD 1 0), grey (hi.getD 0 0) (hi.getD 1 0))
  else if m = 6 ∨ m = 10 then
    let a0 := if m = 10 then g 4 else 255
    let a1 := if m = 10 then g 5 else 255
    some ([g 0 * g 3 / 256, g 1 * g 3 / 256, g 2 * g 3 / 256, a0], [g 0, g 1, g 2, a1])
  else if m = 8 ∨ m = 12 then
    let p := fun (k : Nat) => [(g k : Int), g (k + 2), g (k + 4), if alpha then g (k + 6) else 255]
    if g 0 + g 2 + g 4 ≤ g 1 + g 3 + g 5 then some (out (p 0), out (p 1)) else some (out (contract (p 1)), out (contract (p 0)))
  else if m = 9 ∨ m = 13 then
    let lo := [(t 0).2, (t 1).2, (t 2).2, if alpha then (t 3).2 else 255]
    let hi := [(t 0).1 + (t 0).2, (t 1).1 + (t 1).2, (t 2).1 + (t 2).2, if alpha then (t 3).1 + (t 3).2 else 255]
    if 0 ≤ (t 0).1 + (t 1).1 + (t 2).1 then some (out lo, out hi) else some (out (contract hi), out (contract lo))
  else none

/-- A block whose fields are legal under the LDR profile: a constant colour of four 16-bit channels, or partitions with their colour modes,
values and weights. -/
inductive Block where
  | constant (c : List Nat)
  | parts (g : Grid) (n seed : Nat) (modes : List Nat) (values : List Nat) (ccs : Nat) (weights : Nat)
  deriving DecidableEq, Repr

/-- The bits of `v` below `n` in reverse order. -/
def mirror (n v : Nat) : Nat := (List.range n).foldl (fun a i => 2 * a + bits v i 1) 0

/-- The colour modes of the partitions: their classes and, above the weights, further bits; and how many bits those are. -/
def modesOf (v n top : Nat) : List Nat × Nat :=
  if n = 1 then ([bits v 13 4], 0)
  else
    let extra := 3 * n - 4
    let t := bits v 23 6 + bits v (top - extra) extra * 64
    if t % 4 = 0 then (List.replicate n (bits t 2 4), 0)
    else ((List.range n).map fun i => (bits t (2 + i) 1 + t % 4 - 1) * 4 + bits t (2 + n + 2 * i) 2, extra)

/-- The fields of block `v` of a bw × bh footprint; none for an error block, HDR blocks among them (R139). -/
def parse (v bw bh : Nat) : Option Block :=
  if bits v 0 9 = 0x1FC then
    let e := (List.range 4).map fun i => bits v (12 + 13 * i) 13
    let g := fun i => e.getD i 0
    let ones := e.all (· == 0x1FFF)
    if v.testBit 9 ∨ bits v 10 2 ≠ 3 ∨ ((g 1 ≤ g 0 ∨ g 3 ≤ g 2) ∧ !ones) then none
    else some (.constant ((List.range 4).map fun i => bits v (64 + 16 * i) 16))
  else
    (grid (bits v 0 11) bw bh).bind fun g =>
      let n := bits v 11 2 + 1
      let top := 128 - g.bits
      let m := modesOf v n top
      let count := (m.1.map fun k => 2 * (k / 4) + 2).foldl (· + ·) 0
      let start := if n = 1 then 17 else 29
      let room := top - m.2 - 2 * b2n g.dual - start
      let range := ((List.range 17).map (· + 4)).reverse.find? fun i => decide (seqBits (rng i) count ≤ room)
      match range with
      | none => none
      | some i =>
        let hdr := m.1.any fun k => [2, 3, 7, 11, 14, 15].contains k
        if (g.dual ∧ n = 4) ∨ 18 < count ∨ hdr ∨ top < start + m.2 + 2 * b2n g.dual then none
        else
          let seq := bits v start (seqBits (rng i) count)
          let values := (List.range count).map fun k => colorValue (rng i) (value (rng i) seq k)
          let ccs := if g.dual then bits v (top - m.2 - 2) 2 else 4
          some (.parts g n (bits v 13 10) m.1 values ccs (bits (mirror 128 v) 0 g.bits))

/-- The 16-bit channels of texel (x, y); an sRGB block carries its codes in the upper eight bits. -/
def texel (srgb : Bool) (b : Block) (bw bh x y : Nat) : List Nat :=
  match b with
  | .constant c => c
  | .parts g n seed modes values ccs w =>
    let p := if n = 1 then 0 else partition seed n bw bh x y
    let skip := ((modes.take p).map fun k => 2 * (k / 4) + 2).foldl (· + ·) 0
    let e := (ends (modes.getD p 0) (values.drop skip)).getD ([], [])
    (List.range 4).map fun c =>
      let i := weightAt g w bw bh (b2n (g.dual && c == ccs)) x y
      let wide := fun v => if srgb then v * 256 + 128 else v * 257
      (wide (e.1.getD c 0) * (64 - i) + wide (e.2.getD c 0) * i + 32) / 64

/-- A 16-bit channel as FP16, rounded toward zero, in FP32. -/
def half (v : Nat) : Nat :=
  if v = 65535 then one32
  else
    let k := Nat.log2 v - 10
    toFp32 (fp16.ofVal (.fin false (v / 2 ^ k * 2 ^ k) (-16)))

/-- The LDR error colour, opaque magenta. -/
def errorPx : Px4 := [one32, 0, one32, one32]

end Astc

/-! ### Block formats (R127) -/

/-- A compressed format, its block width and height and bytes. -/
def blockFormat (f : Nat) : Option (Nat × Nat × Nat) :=
  let dims := [(4, 4), (5, 4), (5, 5), (6, 5), (6, 6), (8, 5), (8, 6), (8, 8), (10, 5), (10, 6), (10, 8), (10, 10), (12, 10), (12, 12)]
  if f = 0x10 ∨ f = 0x11 ∨ f = 0x13 ∨ f = 0x14 ∨ f = 0x17 then some (4, 4, 8)
  else if f = 0x12 ∨ f = 0x15 ∨ f = 0x16 ∨ f = 0x18 then some (4, 4, 16)
  else if 0x20 ≤ f ∧ f ≤ 0x2D then (dims[f - 0x20]?).map fun d => (d.1, d.2, 16)
  else if 0x30 ≤ f ∧ f ≤ 0x3D then (dims[f - 0x30]?).map fun d => (d.1, d.2, 16)
  else none

def isAstc (f : Nat) : Bool := decide (0x20 ≤ f)

/-- A block format whose colours are sRGB. -/
def srgbBlock (f : Nat) : Bool := f == 0x17 || f == 0x18 || decide (0x30 ≤ f)

/-- Four 8-bit codes as FP32, sRGB colours converted to linear (R138). -/
def codesPx (srgb : Bool) (c : List Nat) : Px4 :=
  c.zipIdx.map fun x => let v := unorm32 8 x.1; if srgb && decide (x.2 < 3) then srgbDecode v else v

/-- Texel (x, y) of a block of format `f` with the bytes `raw`, and whether it is an ASTC error block (R139). -/
def blockTexel (f raw x y : Nat) : Px4 × Bool :=
  let lo := Etc.word raw
  let hi := Etc.word (raw / 2 ^ 64)
  if isAstc f then
    let b := (blockFormat f).getD (4, 4, 16)
    match Astc.parse raw b.1 b.2.1 with
    | none => (Astc.errorPx, true)
    | some k =>
      let c := Astc.texel (srgbBlock f) k b.1 b.2.1 x y
      (if srgbBlock f then codesPx true (c.map (· / 256)) else c.map Astc.half, false)
  else if f = 0x10 ∨ f = 0x17 then (codesPx (srgbBlock f) (Etc.color false lo x y), false)
  else if f = 0x11 then (codesPx false (Etc.color true lo x y), false)
  else if f = 0x12 ∨ f = 0x18 then (codesPx (srgbBlock f) ((Etc.color false hi x y).take 3 ++ [Etc.eac8 lo x y]), false)
  else if f = 0x13 ∨ f = 0x14 then ([Etc.eac11 (f == 0x14) lo x y, 0, 0, one32], false)
  else ([Etc.eac11 (f == 0x16) lo x y, Etc.eac11 (f == 0x16) hi x y, 0, one32], false)

end Sys2Proof.Machine
end

