-- ==== Sys2Proof/Machine/Texture.lean ====
section
/-! DEFINITION. Texture and target formats, texture descriptors, samplers and sampling (R127, R129, R137–R139, R141). -/

namespace Sys2Proof.Machine

/-! ### Formats (R127) -/

/-- Bytes per texel of an uncompressed format; these are the formats marked "target". -/
def texelBytes (f : Nat) : Nat := [4, 4, 4, 4, 8, 1, 2, 2, 4, 4].getD f 0

def isTarget (f : Nat) : Bool := decide (f < 10)

/-- A code of the table. -/
def formatDefined (f : Nat) : Bool := isTarget f || (blockFormat f).isSome

/-- The channels of a stored texel in FP32; sRGB is converted to linear. -/
def decodeTexel (f v : Nat) : Px4 :=
  let u8 := fun i => unorm32 8 (bits v (8 * i) 8)
  let h := fun i => toFp32 (bits v (16 * i) 16)
  if f = 0 then [u8 0, u8 1, u8 2, u8 3]
  else if f = 1 then [srgbDecode (u8 0), srgbDecode (u8 1), srgbDecode (u8 2), u8 3]
  else if f = 2 then [u8 2, u8 1, u8 0, u8 3]
  else if f = 3 then [unorm32 10 (bits v 0 10), unorm32 10 (bits v 10 10), unorm32 10 (bits v 20 10), unorm32 2 (bits v 30 2)]
  else if f = 4 then [h 0, h 1, h 2, h 3]
  else if f = 5 then [u8 0, 0, 0, one32]
  else if f = 6 then [u8 0, u8 1, 0, one32]
  else if f = 7 then [h 0, 0, 0, one32]
  else if f = 8 then [h 0, h 1, 0, one32]
  else [v % 2 ^ 32, 0, 0, one32]

/-- An FP32 value as an n-bit UNORM code: clamped, to nearest even. -/
def toUnorm (n x : Nat) : Nat :=
  match fp32.val (fp32.sat x) with
  | .fin _ m e => (FV.nearInt (.fin false (m * (2 ^ n - 1)) e)).toNat
  | _ => 0

/-- Channels in FP32 rounded once to a stored texel (R133). -/
def encodeTexel (f : Nat) (p : Px4) : Nat :=
  let g := fun i => p.getD i 0
  let u8 := fun i k => toUnorm 8 (g i) * 2 ^ (8 * k)
  let s8 := fun i k => toUnorm 8 (srgbEncode (fp32.sat (g i))) * 2 ^ (8 * k)
  let h := fun i => toFp16 (g i) * 2 ^ (16 * i)
  if f = 0 then u8 0 0 + u8 1 1 + u8 2 2 + u8 3 3
  else if f = 1 then s8 0 0 + s8 1 1 + s8 2 2 + u8 3 3
  else if f = 2 then u8 2 0 + u8 1 1 + u8 0 2 + u8 3 3
  else if f = 3 then toUnorm 10 (g 0) + toUnorm 10 (g 1) * 2 ^ 10 + toUnorm 10 (g 2) * 2 ^ 20 + toUnorm 2 (g 3) * 2 ^ 30
  else if f = 4 then h 0 + h 1 + h 2 + h 3
  else if f = 5 then u8 0 0
  else if f = 6 then u8 0 0 + u8 1 1
  else if f = 7 then h 0
  else if f = 8 then h 0 + h 1
  else g 0 % 2 ^ 32

/-- Bits of a stored texel that belong to the channels of a write mask (R, G, B, A). -/
def channelMask (f wm : Nat) : Nat :=
  let ch : List (Nat × Nat) :=
    if f = 2 then [(16, 8), (8, 8), (0, 8), (24, 8)]
    else if f = 3 then [(0, 10), (10, 10), (20, 10), (30, 2)]
    else if f = 4 then [(0, 16), (16, 16), (32, 16), (48, 16)]
    else if f = 5 then [(0, 8)]
    else if f = 6 then [(0, 8), (8, 8)]
    else if f = 7 then [(0, 16)]
    else if f = 8 then [(0, 16), (16, 16)]
    else if f = 9 then [(0, 32)]
    else [(0, 8), (8, 8), (16, 8), (24, 8)]
  (ch.zipIdx.filter fun x => wm.testBit x.2).foldl (fun m x => m + (2 ^ x.1.2 - 1) * 2 ^ x.1.1) 0

/-! ### Descriptors (R137) -/

namespace Tex

def addr (d : List Byte) : Nat := fieldAt d 0 8
def width (d : List Byte) : Nat := bits (fieldAt d 8 4) 0 13 + 1
def height (d : List Byte) : Nat := bits (fieldAt d 8 4) 16 13 + 1
def fmt (d : List Byte) : Nat := bits (fieldAt d 0xC 4) 0 6
def levels (d : List Byte) : Nat := bits (fieldAt d 0xC 4) 6 4 + 1
def layout (d : List Byte) : Nat := bits (fieldAt d 0xC 4) 10 2
def pitch (d : List Byte) : Nat := bits (fieldAt d 0xC 4) 16 16
def swizzle (d : List Byte) (i : Nat) : Nat := bits (fieldAt d 0x10 4) (3 * i) 3

/-- Bytes of a row of `w` texels. -/
def rowBytes (f w : Nat) : Nat :=
  match blockFormat f with
  | some b => (w + b.1 - 1) / b.1 * b.2.2
  | none => w * texelBytes f

/-- Rows of texels or blocks in `h` lines. -/
def rows (f h : Nat) : Nat :=
  match blockFormat f with
  | some b => (h + b.2.1 - 1) / b.2.1
  | none => h

/-- The derived pitch of width `w` in the layout's own units (R129, R137). -/
def derived (f lay w : Nat) : Nat := if lay = 0 then (rowBytes f w + 255) / 256 else (w + 31) / 32

/-- Size of a level. -/
def levelSize (f lay pitch h : Nat) : Nat :=
  if lay = 0 then pitch * 256 * rows f h else pitch * ((h + 31) / 32) * (if lay = 1 then 2048 else 3072)

/-- Width, height, pitch of level `m`. -/
def level (d : List Byte) (m : Nat) : Nat × Nat × Nat :=
  let w := max 1 (width d / 2 ^ m)
  (w, max 1 (height d / 2 ^ m), if m = 0 then pitch d else derived (fmt d) (layout d) w)

/-- Base address of level `m`; of the level after the last, the end. -/
def base (d : List Byte) (m : Nat) : Nat :=
  (List.range m).foldl (fun a i => let l := level d i; (a + levelSize (fmt d) (layout d) l.2.2 l.2.1 + 255) / 256 * 256) (addr d)

/-- Bytes from the base to the end of the last level. -/
def extent (d : List Byte) : Nat :=
  let l := level d (levels d - 1)
  base d (levels d - 1) + levelSize (fmt d) (layout d) l.2.2 l.2.1 - addr d

/-- The descriptor is valid (R137). -/
def valid (d : List Byte) : Bool :=
  let f := fmt d
  addr d % 256 == 0 && formatDefined f && bits (fieldAt d 8 4) 13 3 == 0 && bits (fieldAt d 8 4) 29 3 == 0 && decide (width d ≤ 8192)
    && decide (height d ≤ 8192) && bits (fieldAt d 0xC 4) 12 4 == 0 && decide (layout d < 3) && fieldAt d 0x10 4 / 2 ^ 12 == 0
    && ((List.range 4).all fun i => decide (swizzle d i < 6)) && zeroAt d 0x14 12
    && decide (levels d ≤ Nat.log2 (max (width d) (height d)) + 1)
    && (layout d != 1 || decide (f < 3)) && (layout d != 2 || f == 4) && decide (derived f (layout d) (width d) ≤ pitch d)

end Tex

/-! ### Texels -/

/-- A texel and the error blocks it met: reserved NFR blocks and ASTC error blocks. -/
structure Texel where
  px : Px4
  nfrBad : Nat := 0
  astcErr : Nat := 0
  deriving DecidableEq, Repr

/-- Where texel (x, y) of level `m` lies, which must be inside it: address and bytes of the texel or of its block (R129, R139, R141). -/
def texelSpan (d : List Byte) (m x y : Nat) : Nat × Nat :=
  let f := Tex.fmt d
  let p := (Tex.level d m).2.2
  let b := Tex.base d m
  match blockFormat f with
  | some k => (b + y / k.2.1 * p * 256 + x / k.1 * k.2.2, k.2.2)
  | none =>
    if Tex.layout d = 0 then (b + y * p * 256 + x * texelBytes f, texelBytes f)
    else
      let n := if Tex.layout d = 1 then 32 else 48
      (b + nfrBlockAt p n x y, n)

/-- Texel (x, y) of level `m`. A RED32UI texel is the number its word spells (log entry 105). -/
def texelAt (mem : Memory) (d : List Byte) (m x y : Nat) : Texel :=
  let f := Tex.fmt d
  let at_ := texelSpan d m x y
  let raw := mem.readNat at_.1 at_.2
  match blockFormat f with
  | some k =>
    let b := blockTexel f raw (x % k.1) (y % k.2.1)
    { px := b.1, astcErr := b2n b.2 }
  | none =>
    if Tex.layout d = 0 then { px := if f = 9 then [fp32.ofInt raw, 0, 0, one32] else decodeTexel f raw }
    else
      match (nfrKind (Tex.layout d)).pixel raw (4 * (y % 4) + x % 4) with
      | some v => { px := decodeTexel f (nfrColor f v) }
      | none => { px := [0, 0, 0, 0], nfrBad := 1 }

/-- A texel after SWIZZLE. -/
def swizzled (d : List Byte) (p : Px4) : Px4 :=
  (List.range 4).map fun i => let s := Tex.swizzle d i; if s < 4 then p.getD s 0 else if s = 4 then 0 else one32

/-! ### Samplers (R137, R138) -/

/-- The sampler word is legal. -/
def samplerOk (w : Nat) : Bool := bits w 2 2 != 3 && bits w 8 2 != 3 && w / 2 ^ 26 == 0

/-- The sampler of an empty slot: nearest, no mips, clamp to edge. -/
def samplerReset : Nat := 0xA0

/-- Where a wrap mode takes texel index `i` of `n`; none is the border. -/
def wrapIndex (mode n : Nat) (i : Int) : Option Nat :=
  if mode = 0 then some (i % (n : Int)).toNat
  else if mode = 1 then
    let k := (i % (2 * n : Nat)).toNat
    some (if k < n then k else 2 * n - 1 - k)
  else if mode = 2 then some (max 0 (min ((n : Int) - 1) i)).toNat
  else if i < 0 ∨ (n : Int) ≤ i then none else some i.toNat

/-- The border colour. -/
def borderPx (w : Nat) : Px4 := let b := bits w 8 2; if b = 0 then [0, 0, 0, 0] else if b = 1 then [0, 0, 0, one32] else [one32, one32, one32, one32]

/-- A coordinate times `n`, as an exact fraction (numerator, denominator); what a coordinate that is no number selects is open. -/
def texelPos (f : Fmt) (w n : Nat) : Int × Nat :=
  match f.val w with
  | .fin neg m e =>
    let q := ratOf (m * n) e
    (if neg then -(q.1 : Int) else q.1, q.2)
  | _ => (((Config.approx 201 w).toNat % n : Nat), 1)

/-- A fraction in 1/256, rounded to a neighbour. -/
def in256 (p : Int × Nat) : Int :=
  let n := p.1 * 256
  let q := n / (p.2 : Int)
  if n % (p.2 : Int) = 0 then q else if Config.texelUp n p.2 then q + 1 else q

/-- The texels of one level a sample weighs: index in the level or border, weight in 1/65536. -/
def bilinear (linear : Bool) (w : Nat) (lw lh : Nat) (u v : Int × Nat) : List (Option (Nat × Nat) × Nat) :=
  let at_ := fun (i j : Int) => match wrapIndex (bits w 4 2) lw i, wrapIndex (bits w 6 2) lh j with
    | some x, some y => some (x, y)
    | _, _ => none
  if linear then
    let x := in256 u - 128
    let y := in256 v - 128
    let fx := (x % 256).toNat
    let fy := (y % 256).toNat
    [(at_ (x / 256) (y / 256), (256 - fx) * (256 - fy)), (at_ (x / 256 + 1) (y / 256), fx * (256 - fy)),
     (at_ (x / 256) (y / 256 + 1), (256 - fx) * fy), (at_ (x / 256 + 1) (y / 256 + 1), fx * fy)]
  else [(at_ (u.1 / (u.2 : Int)) (v.1 / (v.2 : Int)), 65536)]

/-- 256 × log2 of num / den, rounded down. -/
def log2x256 (num den : Nat) : Int :=
  let a := num ^ 256
  let b := den ^ 256
  let k : Int := (Nat.log2 a : Int) - Nat.log2 b
  -- 2^k ≤ a / b, or the power below
  if (if 0 ≤ k then b * 2 ^ k.toNat ≤ a else b ≤ a * 2 ^ (-k).toNat) then k else k - 1

/-- A number as 1/256 units, rounded down; beyond any level where it is not finite. -/
def lodOf (f : Fmt) (w : Nat) : Int :=
  match f.val w with
  | .nan => 0
  | .inf n => if n then -(2 ^ 20 : Int) else 2 ^ 20
  | .fin neg m e => FV.floorInt (.fin neg (m * 256) e)

/-- The squared length of a derivative in texels, as a fraction; none where it is not finite. -/
def derivSq (f : Fmt) (du dv w h : Nat) : Option (Nat × Nat) :=
  match f.val du, f.val dv with
  | .fin _ m1 e1, .fin _ m2 e2 =>
    let a := ratOf (m1 * w) e1
    let b := ratOf (m2 * h) e2
    some (a.1 * a.1 * (b.2 * b.2) + b.1 * b.1 * (a.2 * a.2), a.2 * a.2 * (b.2 * b.2))
  | _, _ => none

/-- Implicit level of detail in 1/256 from the quad's differences of u and v along x and y (R138). -/
def implicitLod (f : Fmt) (d : List Byte) (dx dy : Nat × Nat) : Int :=
  match derivSq f dx.1 dx.2 (Tex.width d) (Tex.height d), derivSq f dy.1 dy.2 (Tex.width d) (Tex.height d) with
  | some a, some b =>
    let m := if a.1 * b.2 < b.1 * a.2 then b else a
    if m.1 = 0 then -(2 ^ 20 : Int) else log2x256 m.1 m.2 / 2
  | _, _ => 2 ^ 20

/-- A texel that a sample weighs: its level, its place or the border, and its weight in 2^-24. -/
abbrev Tap := Nat × Option (Nat × Nat) × Nat

/-- The weighted sum of texels (weights in 2^-24), rounded once to FP16 after SWIZZLE. -/
def filterTexels (mem : Memory) (d : List Byte) (w : Nat) (taps : List Tap) : Texel :=
  let ts := (taps.filter fun t => t.2.2 != 0).map fun t =>
    (match t.2.1 with | some p => texelAt mem d t.1 p.1 p.2 | none => { px := borderPx w }, t.2.2)
  let sum := fun i => (ts.foldl (fun (a : FV) t => a.add ((fp32.val (t.1.px.getD i 0)).mul (.fin false t.2 (-24)))) (.fin false 0 0))
  let px := (List.range 4).map sum
  let sw := (List.range 4).map fun i => let s := Tex.swizzle d i; if s < 4 then fp16.ofVal (px.getD s (.fin false 0 0)) else if s = 4 then 0 else fp16.one
  { px := sw, nfrBad := (ts.map fun t => t.1.nfrBad).foldl (· + ·) 0, astcErr := (ts.map fun t => t.1.astcErr).foldl (· + ·) 0 }

/-- What a filtered sample reads (R138), and whether two levels take part. `lod` in 1/256 before bias and clamp. -/
def sampleTaps (d : List Byte) (w : Nat) (f : Fmt) (u v : Nat) (lod : Int) (biased : Bool) : List Tap × Bool :=
  let bias : Int := sext 8 (bits w 10 8) * 16
  let top := min (bits w 22 4) (Tex.levels d - 1)
  let l := max ((bits w 18 4 * 256 : Nat) : Int) (min ((top * 256 : Nat) : Int) (lod + (if biased then bias else 0)))
  let linear := if l ≤ 0 then w.testBit 0 else w.testBit 1
  let one : Nat → Nat → List Tap := fun m scale =>
    let g := Tex.level d m
    (bilinear linear w g.1 g.2.1 (texelPos f u g.1) (texelPos f v g.2.1)).map fun t => (m, t.1, t.2 * scale)
  let mip := bits w 2 2
  if mip = 0 then (one 0 256, false)
  else if mip = 1 then (one (min (Tex.levels d - 1) ((l + 128) / 256).toNat) 256, false)
  else
    let m := min (Tex.levels d - 1) (l / 256).toNat
    let fr := (l % 256).toNat
    if fr = 0 ∨ m + 1 = Tex.levels d then (one m 256, false) else (one m (256 - fr) ++ one (m + 1) fr, true)

/-- The memory that taps touch. -/
def tapSpans (d : List Byte) (ts : List Tap) : List (Nat × Nat) :=
  ts.filterMap fun t => t.2.1.map fun p => texelSpan d t.1 p.1 p.2

/-- The place a texel fetch reads (TEXF, R158), none out of range. -/
def fetchTap (d : List Byte) (x y m : Int) : Option Tap :=
  let inside := decide (0 ≤ m) && decide (m < Tex.levels d) && decide (0 ≤ x) && decide (0 ≤ y)
    && decide (x < (Tex.level d m.toNat).1) && decide (y < (Tex.level d m.toNat).2.1)
  if inside then some (m.toNat, some (x.toNat, y.toNat), 2 ^ 24) else none

/-- The texel of a fetch, four FP16 words after SWIZZLE. -/
def fetchTexel (mem : Memory) (d : List Byte) (t : Option Tap) : Texel :=
  let x : Texel := match t with
    | some (m, some p, _) => texelAt mem d m p.1 p.2
    | _ => { px := [0, 0, 0, 0] }
  if t.isNone then x else { x with px := (swizzled d x.px).map toFp16 }

end Sys2Proof.Machine
end

