-- ==== Sys2Proof/Machine/Shader.lean ====
section
/-! DEFINITION. Shader programs (chapter 10): the image and its checks, instruction fields, operands and results lane by lane. -/

namespace Sys2Proof.Machine

/-! ### Program images (R146) -/

namespace Prog

def stage (b : List Byte) : Nat := fieldAt b 2 1
def length (b : List Byte) : Nat := fieldAt b 3 1 + 1
def nreg (b : List Byte) : Nat := fieldAt b 4 1
def flags (b : List Byte) : Nat := fieldAt b 5 1
def inMask (b : List Byte) : Nat := fieldAt b 6 2
def outMask (b : List Byte) : Nat := fieldAt b 8 2
def size (b : List Byte) : Nat := 16 + 8 * length b
def code (b : List Byte) : List Nat := (List.range (length b)).map fun i => fieldAt b (16 + 8 * i) 8
def crcOk (b : List Byte) : Bool := crc32 (b.take 12 ++ (b.drop 16).take (8 * length b)) == fieldAt b 12 4

end Prog

/-! ### Instruction fields (R150) -/

namespace Ins

def op (w : Nat) : Nat := bits w 0 8
def pen (w : Nat) : Bool := w.testBit 8
def preg (w : Nat) : Nat := bits w 9 2
def pneg (w : Nat) : Bool := w.testBit 11
def dst (w : Nat) : Nat := bits w 12 6
def src (w i : Nat) : Nat := bits w (18 + 7 * i) 7
def md (w : Nat) : Nat := bits w 39 6
def negs (w i : Nat) : Bool := w.testBit (39 + 2 * i)
def abss (w i : Nat) : Bool := w.testBit (40 + 2 * i)
def sat (w : Nat) : Bool := w.testBit 45
def imm (w : Nat) : Nat := bits w 48 16
def pdst (w : Nat) : Nat := bits w 12 2
def cond (w : Nat) : Nat := bits w 15 3
def wide (w : Nat) : Bool := (imm w).testBit 5

end Ins

/-- What an opcode works on: source width, destination width (false 16, true 32 bits), whether its sources and its result are
floating point, and its number of sources (R153). -/
structure OpKind where
  s32 : Bool
  d32 : Bool
  sf : Bool
  df : Bool
  n : Nat
  deriving DecidableEq, Repr

/-- Opcodes of format A; none for the others. -/
def opKind (o : Nat) : Option OpKind :=
  let k := fun s32 d32 sf df n => some { s32 := s32, d32 := d32, sf := sf, df := df, n := n : OpKind }
  let lo := o % 16
  if o = 0 then k false false false false 0
  else if o = 1 then k false false false false 1
  else if o = 2 then k true true false false 1
  else if o = 3 then k false false false false 2
  else if o = 4 then k true true false false 2
  else if (o / 16 = 1 ∨ o / 16 = 2) ∧ lo ≤ 13 then
    k (o / 16 == 2) (o / 16 == 2) true true (if lo = 2 then 3 else if lo = 0 ∨ lo = 1 ∨ lo = 3 ∨ lo = 4 then 2 else 1)
  else if (o / 16 = 3 ∨ o / 16 = 4) ∧ lo ≤ 14 then k (o / 16 == 4) (o / 16 == 4) false false (if lo = 3 then 3 else if lo = 11 then 1 else 2)
  else if o = 0x50 then k false true true true 1
  else if o = 0x51 then k true false true true 1
  else if o = 0x52 ∨ o = 0x53 then k false false false true 1
  else if o = 0x54 ∨ o = 0x55 then k false false true false 1
  else if o = 0x56 then k true true false true 1
  else if o = 0x57 then k true true true false 1
  else if o = 0x58 then k false true false false 1
  else if o = 0x59 then k true false false false 1
  else if o = 0x60 ∨ o = 0x61 then k false false true true 1
  else none

/-- Opcodes of format C: source width, and whether they compare floating point. -/
def cmpKind (o : Nat) : Option (Bool × Bool) :=
  if o = 0x5A then some (false, true) else if o = 0x5B then some (true, true)
  else if o = 0x5C ∨ o = 0x5D then some (false, false) else if o = 0x5E ∨ o = 0x5F then some (true, false) else none

/-- Every opcode of R153. -/
def opDefined (o : Nat) : Bool :=
  (opKind o).isSome || (cmpKind o).isSome || [0x62, 0x68, 0x70, 0x71, 0x72, 0x73, 0x74, 0x78, 0x79, 0x7F].contains o

/-! ### Validation (R160) -/

/-- A register run of `n` from `r` lies below NREG; w registers count in pairs and lie below 32. -/
def regsOk (w32 : Bool) (r n nreg : Nat) : Bool :=
  if w32 then decide (r + n ≤ 32) && decide (2 * (r + n) ≤ nreg) else decide (r + n ≤ nreg)

/-- A source operand is legal (R151). -/
def srcOk (frag w32 : Bool) (nreg s : Nat) : Bool :=
  if s < 64 then regsOk w32 s 1 nreg
  else
    let i := s - 64
    i < 3 || i == 0x3F || (frag && decide (3 ≤ i) && decide (i ≤ 8)) || (!frag && decide (9 ≤ i) && decide (i ≤ 12))

/-- The instruction at index `i` meets check 5 of R160 in the program `b`. -/
def insOk (b : List Byte) (i w : Nat) : Bool :=
  let frag := Prog.stage b == 1
  let nr := Prog.nreg b
  let o := Ins.op w
  let im := Ins.imm w
  let floatMods := fun sf n => (List.range 3).all fun k => (sf && decide (k < n)) || (!Ins.negs w k && !Ins.abss w k)
  let zeros := bits w 46 2 == 0
  let noSat := !Ins.sat w
  let flag := fun k => (Prog.flags b).testBit k
  zeros && match opKind o with
  | some k =>
    let srcs := (List.range 3).all fun j => !decide (j < k.n) || srcOk frag k.s32 nr (Ins.src w j)
    srcs && (o == 0 || regsOk k.d32 (Ins.dst w) 1 nr) && floatMods k.sf k.n && (k.df || noSat)
      && ((o != 3 && o != 4) || Ins.src w 2 / 4 == 0) && ((o != 0x60 && o != 0x61) || frag)
  | none => match cmpKind o with
    | some k =>
      srcOk frag k.1 nr (Ins.src w 0) && srcOk frag k.1 nr (Ins.src w 1) && Ins.src w 2 == 0 && floatMods k.2 2 && noSat
        && Ins.cond w != 7 && (k.2 || Ins.cond w != 6)
    | none =>
      (noSat || o == 0x72 || o == 0x73 || o == 0x74) && (
      if o = 0x62 then bits w 14 4 == 0 && Ins.src w 0 / 4 == 0 && Ins.src w 1 / 4 == 0 && Ins.src w 2 == 0 && Ins.md w == 0 && im / 16 == 0
      else if o = 0x68 then
        Ins.dst w == 0 && bits w 18 27 == 0 && im / 256 == 0 && decide (i < im) && decide (im < Prog.length b)
      else if o = 0x70 then
        (Ins.md w) / 32 == 0 && srcOk frag false nr (Ins.src w 0) && Ins.src w 1 == 0 && Ins.src w 2 == 0
          && regsOk false (Ins.dst w) (bits (Ins.md w) 2 3 + 1) nr
      else if o = 0x71 then
        !frag && bits w 18 27 == 0 && im / 32 == 0 && regsOk (im.testBit 4) (Ins.dst w) 4 nr && (Prog.inMask b).testBit (im % 16)
      else if o = 0x72 then
        let n := im % 16
        frag && bits w 18 27 == 0 && im / 64 == 0 && regsOk (Ins.wide w) (Ins.dst w) 4 nr && decide (n < 15) && (Prog.inMask b).testBit n
          && (!Ins.wide w || (decide (n < 14) && (Prog.inMask b).testBit (n + 1)))
      else if o = 0x73 then
        let md := bits im 9 2
        let w32 := im.testBit 8
        Ins.md w == 0 && im / 2 ^ 11 == 0 && md != 3 && (frag || md == 2) && srcOk frag w32 nr (Ins.src w 0) && srcOk frag w32 nr (Ins.src w 1)
          && (if md = 0 then Ins.src w 2 == 0 else srcOk frag false nr (Ins.src w 2)) && regsOk false (Ins.dst w) 4 nr
      else if o = 0x74 then
        Ins.md w == 0 && im / 16 == 0 && ((List.range 3).all fun j => srcOk frag false nr (Ins.src w j)) && regsOk false (Ins.dst w) 4 nr
      else if o = 0x78 then
        let t := im % 32
        let r := Ins.src w 0
        Ins.md w == 0 && im / 64 == 0 && Ins.dst w == 0 && decide (r < 64) && Ins.src w 1 == 0 && Ins.src w 2 == 0 &&
          (if frag then
            if t < 4 then (if Ins.wide w then regsOk true r 1 nr else regsOk false r 4 nr) && (Prog.outMask b).testBit t
            else t == 4 && Ins.wide w && flag 0 && regsOk true r 1 nr
          else if t = 0 then Ins.wide w && regsOk true r 4 nr
          else if t = 1 then !Ins.wide w && flag 2 && regsOk false r 1 nr
          else decide (0x10 ≤ t) && decide (t < 0x1F) && regsOk (Ins.wide w) r 4 nr && (Prog.outMask b).testBit (t - 0x10)
            && (!Ins.wide w || (decide (t < 0x1E) && (Prog.outMask b).testBit (t - 0x0F))))
      else if o = 0x79 then frag && flag 1 && bits w 12 33 == 0 && im == 0
      else o == 0x7F && w == 0x7F)

/-- The checks of R160 on an image read at a VPROG (`frag` false) or FPROG packet. -/
def progOk (frag : Bool) (b : List Byte) : Bool :=
  let h := fieldAt b 0 2 == 0x5A57 && Prog.stage b == b2n frag
  let r := Prog.nreg b % 2 == 0 && decide (2 ≤ Prog.nreg b) && decide (Prog.nreg b ≤ 64) && Prog.flags b / 8 == 0 && fieldAt b 10 2 == 0
    && (if frag then (Prog.flags b) / 4 == 0 && Prog.inMask b / 2 ^ 15 == 0 && Prog.outMask b / 16 == 0
        else Prog.flags b % 4 == 0 && Prog.outMask b / 2 ^ 15 == 0)
  let code := Prog.code b
  let ends := code.zipIdx.all fun x => (Ins.op x.1 == 0x7F) == (x.2 + 1 == code.length)
  h && r && Prog.crcOk b && ends && code.zipIdx.all fun x => insOk b x.2 x.1

/-! ### Registers and operands (R148, R151) -/

namespace GWave

def h (q : GWave) (lane r : Nat) : Nat := q.regs.getD (64 * lane + r) 0
def w (q : GWave) (lane r : Nat) : Nat := q.h lane (2 * r) + 65536 * q.h lane (2 * r + 1)
def setH (q : GWave) (lane r v : Nat) : GWave := { q with regs := q.regs.put 0 (64 * lane + r) (v % 65536) }
def setW (q : GWave) (lane r v : Nat) : GWave := (q.setH lane (2 * r) v).setH lane (2 * r + 1) (v / 65536)
def p (q : GWave) (lane k : Nat) : Bool := q.preds.getD (4 * lane + k) 0 == 1
def setP (q : GWave) (lane k : Nat) (b : Bool) : GWave := { q with preds := q.preds.put 0 (4 * lane + k) (b2n b) }
def read (q : GWave) (w32 : Bool) (lane r : Nat) : Nat := if w32 then q.w lane r else q.h lane r
def write (q : GWave) (w32 : Bool) (lane r v : Nat) : GWave := if w32 then q.setW lane r v else q.setH lane r v
def lane? (q : GWave) (l : Nat) : GLane := q.lanes.getD l { a := 0, b := 0, i := 0 }

end GWave

/-- A special value (R151). -/
def GWave.special (q : GWave) (front : Bool) (w32 fl : Bool) (imm lane i : Nat) : Nat :=
  let x := q.lane? lane
  let f := if w32 then fp32 else fp16
  if i = 0 then 0
  else if i = 1 then (if fl then f.one else 1)
  else if i = 2 then lane
  else if i = 3 then x.a
  else if i = 4 then x.b
  else if i = 5 then (if fl then f.ofRat false x.cov 65535 else x.cov)
  else if i = 6 then b2n front
  else if i = 7 then x.mask % 16
  else if i = 8 then b2n (q.helper.testBit lane)
  else if i = 9 then x.b % 65536
  else if i = 10 then x.b / 65536 % 65536
  else if i = 11 then x.i % 65536
  else if i = 12 then x.i / 65536 % 65536
  else if w32 then imm * 65536 else imm

/-- Source operand `j` of instruction word `w` in a lane, after its absolute value and negation. `front` tells a fragment's facing. -/
def GWave.source (q : GWave) (front : Nat → Bool) (w32 fl : Bool) (ins lane j : Nat) : Nat :=
  let s := Ins.src ins j
  let top := if w32 then 2 ^ 31 else 2 ^ 15
  let v := (if s < 64 then q.read w32 lane s else q.special (front lane) w32 fl (Ins.imm ins) lane (s - 64)) % (2 * top)
  let v := if fl && Ins.abss ins j then v % top else v
  if fl && Ins.negs ins j then (if v < top then v + top else v - top) else v

/-- The lane executes the instruction (R150). -/
def GWave.runs (q : GWave) (ins lane : Nat) : Bool :=
  q.active.testBit lane && (!Ins.pen ins || (q.p lane (Ins.preg ins) != Ins.pneg ins))

/-! ### Results (R153, R154) -/

/-- Results of the floating-point opcodes; `lo` is the opcode's low digit. -/
def floatOp (f : Fmt) (lo a b c : Nat) : Nat :=
  let pick := (Config.approx (lo + f.mb * 16) a).toNat
  if lo = 0 then f.add a b
  else if lo = 1 then f.mul a b
  else if lo = 2 then f.fma a b c
  else if lo = 3 then f.ofVal ((f.val a).min (f.val b))
  else if lo = 4 then f.ofVal ((f.val a).max (f.val b))
  else if lo = 5 then f.ofVal (f.val a).floor
  else if lo = 6 then f.ofVal ((f.val a).add (f.val a).floor.neg)
  else if lo = 7 then f.rcp a pick
  else if lo = 8 then f.rsq a pick
  else if lo = 9 then f.sqrt a pick
  else if lo = 10 then f.exp2 a pick
  else if lo = 11 then f.log2 a pick
  else if lo = 12 then f.sinTurns false a pick
  else f.sinTurns true a pick

/-- Results of the integer opcodes on `n`-bit operands. -/
def intOp (n lo a b c : Nat) : Nat :=
  let m := 2 ^ n
  let r :=
    if lo = 0 then a + b
    else if lo = 1 then a + m - b
    else if lo = 2 then a * b
    else if lo = 3 then a * b + c
    else if lo = 4 then (if sext n a ≤ sext n b then a else b)
    else if lo = 5 then (if sext n a ≤ sext n b then b else a)
    else if lo = 6 then min a b
    else if lo = 7 then max a b
    else if lo = 8 then a &&& b
    else if lo = 9 then a ||| b
    else if lo = 10 then a ^^^ b
    else if lo = 11 then m - 1 - a
    else if lo = 12 then a <<< (b % n)
    else if lo = 13 then a >>> (b % n)
    else toBits n (sext n a / ((2 ^ (b % n) : Nat) : Int))
  r % m

/-- Result of a format A instruction that looks at one lane only, before SAT. -/
def aluOp (o : Nat) (sel : Bool) (a b c : Nat) : Nat :=
  let hi := o / 16
  if o = 1 ∨ o = 2 then a
  else if o = 3 ∨ o = 4 then (if sel then a else b)
  else if hi = 1 then floatOp fp16 (o % 16) a b c
  else if hi = 2 then floatOp fp32 (o % 16) a b c
  else if hi = 3 then intOp 16 (o % 16) a b c
  else if hi = 4 then intOp 32 (o % 16) a b c
  else if o = 0x50 then toFp32 a
  else if o = 0x51 then toFp16 a
  else if o = 0x52 then fp16.ofInt (sext 16 a)
  else if o = 0x53 then fp16.ofInt ((a % 65536 : Nat) : Int)
  else if o = 0x54 then toBits 16 ((fp16.val a).toIntSat (-32768) 32767)
  else if o = 0x55 then toBits 16 ((fp16.val a).toIntSat 0 65535)
  else if o = 0x56 then fp32.ofInt (sext 32 a)
  else if o = 0x57 then toBits 32 ((fp32.val a).toIntSat (-2147483648) 2147483647)
  else if o = 0x58 then toBits 32 (sext 16 a)
  else a % 65536

/-- The truth of a comparison (R152). -/
def condHolds (fl : Bool) (o cond n a b : Nat) : Bool :=
  if fl then
    let f := if n = 32 then fp32 else fp16
    let x := f.val a
    let y := f.val b
    let un := x.isNan || y.isNan
    if cond = 6 then un
    else if cond = 1 then un || !x.eq y
    else if un then false
    else if cond = 0 then x.eq y else if cond = 2 then x.lt y else if cond = 3 then !y.lt x else if cond = 4 then y.lt x else !x.lt y
  else
    let signed := o == 0x5C || o == 0x5E
    let x : Int := if signed then sext n a else (a : Int)
    let y : Int := if signed then sext n b else (b : Int)
    if cond = 0 then x == y else if cond = 1 then x != y else if cond = 2 then decide (x < y) else if cond = 3 then decide (x ≤ y)
    else if cond = 4 then decide (y < x) else decide (y ≤ x)

/-! ### Whole instructions, lane by lane -/

/-- Apply to every lane of the wave that runs instruction `ins`. -/
def GWave.eachLane (q : GWave) (ins : Nat) (f : GWave → Nat → GWave) : GWave :=
  forN 64 q fun l r => if q.runs ins l then f r l else r

/-- A format A instruction (R152, R153) but DDX and DDY. -/
def GWave.alu (q : GWave) (front : Nat → Bool) (ins : Nat) : GWave :=
  match opKind (Ins.op ins) with
  | none => q
  | some k =>
    if Ins.op ins = 0 then q
    else q.eachLane ins fun r l =>
      let s := fun j => q.source front k.s32 k.sf ins l j
      let v := aluOp (Ins.op ins) (q.p l (Ins.src ins 2 % 4)) (s 0) (s 1) (s 2)
      let v := if Ins.sat ins then (if k.d32 then fp32 else fp16).sat v else v
      r.write k.d32 l (Ins.dst ins) v

/-- FCMP and ICMP (R152). -/
def GWave.cmp (q : GWave) (front : Nat → Bool) (ins : Nat) : GWave :=
  match cmpKind (Ins.op ins) with
  | none => q
  | some k => q.eachLane ins fun r l =>
    let v := condHolds k.2 (Ins.op ins) (Ins.cond ins) (if k.1 then 32 else 16) (q.source front k.1 k.2 ins l 0) (q.source front k.1 k.2 ins l 1)
    r.setP l (Ins.pdst ins) (v && (!ins.testBit 14 || q.p l (Ins.pdst ins)))

/-- PLOP (R152). -/
def GWave.plop (q : GWave) (ins : Nat) : GWave :=
  q.eachLane ins fun r l =>
    r.setP l (Ins.pdst ins) ((Ins.imm ins).testBit (2 * b2n (q.p l (Ins.src ins 0 % 4)) + b2n (q.p l (Ins.src ins 1 % 4))))

/-- The difference of source 0 along x or y of the quad of lane `l` (R155). -/
def GWave.quadDiff (q : GWave) (front : Nat → Bool) (f : Fmt) (w32 alongY : Bool) (ins l j : Nat) : Nat :=
  let base := l / 4 * 4
  let a := if alongY then base + l % 2 else base + l % 4 / 2 * 2
  let b := if alongY then a + 2 else a + 1
  f.sub (q.source front w32 true ins b j) (q.source front w32 true ins a j)

/-- DDX and DDY (R155). -/
def GWave.ddxy (q : GWave) (front : Nat → Bool) (alongY : Bool) (ins : Nat) : GWave :=
  q.eachLane ins fun r l =>
    let v := q.quadDiff front fp16 false alongY ins l 0
    r.setH l (Ins.dst ins) (if Ins.sat ins then fp16.sat v else v)

/-- BR (R156): the next instruction. -/
def GWave.br (q : GWave) (ins : Nat) : GWave :=
  let taken := !Ins.pen ins || (List.range 64).all fun l => !q.active.testBit l || q.p l (Ins.preg ins) == Ins.pneg ins
  { q with pc := if taken then Ins.imm ins % 256 else q.pc + 1 }

/-- KILL (R157). -/
def GWave.kill (q : GWave) (ins : Nat) : GWave :=
  q.eachLane ins fun r l => if q.helper.testBit l then r else { r with killed := putBit r.killed l true }

/-- Where the words of output target `t` lie among a lane's outputs: vertex varyings from 128 in fours, the others in eights. -/
def outBase (frag : Bool) (t : Nat) : Nat := if !frag && decide (16 ≤ t) then 128 + 4 * (t - 16) else 8 * t

/-- OUT (R158, R159). Word 7 of a fragment's output tells that it was written WIDE. -/
def GWave.out (q : GWave) (ins : Nat) : GWave :=
  let t := Ins.imm ins % 32
  let n := if q.frag then (if t = 4 ∨ Ins.wide ins then 2 else 4) else if t = 1 then 1 else if Ins.wide ins then 8 else 4
  let base := if Ins.wide ins then 2 * Ins.src ins 0 else Ins.src ins 0
  q.eachLane ins fun r l =>
    if q.helper.testBit l || q.killed.testBit l then r
    else
      let at_ := 512 * l + outBase q.frag t
      let r := forN n r fun i r => { r with outs := r.outs.insert (at_ + i) (q.h l (base + i)) }
      if q.frag then { r with outs := r.outs.insert (at_ + 7) (b2n (Ins.wide ins)) } else r

/-- LDC (R158): `size` and `mem` are those of the constant slot, none if it is empty. -/
def GWave.ldc (q : GWave) (front : Nat → Bool) (mem : Memory) (slot : Option (Nat × Nat)) (ins : Nat) : GWave :=
  let n := bits (Ins.md ins) 2 3 + 1
  q.eachLane ins fun r l =>
    let a := (Ins.imm ins + q.source front false false ins l 0) / 2 * 2
    forN n r fun i r =>
      let v := match slot with
        | none => 0
        | some s =>
          let byte := fun k => if a + 2 * i + k < s.2 then (mem.read (s.1 + a + 2 * i + k)).toNat else 0
          byte 0 + 256 * byte 1
      r.setH l (Ins.dst ins + i) v

/-- Four components into registers. -/
def GWave.put4 (q : GWave) (w32 : Bool) (l d : Nat) (v : List Nat) : GWave := forN 4 q fun i r => r.write w32 l (d + i) (v.getD i 0)

/-- Four floating-point components of instruction `ins` into registers, clamped where it has SAT (R153, R154). -/
def GWave.putF (q : GWave) (w32 : Bool) (l ins : Nat) (v : List Nat) : GWave :=
  q.put4 w32 l (Ins.dst ins) (if Ins.sat ins then v.map (if w32 then fp32 else fp16).sat else v)

/-- Issue clocks of an instruction in a fragment or vertex program (R161). -/
def issueClocks (frag : Bool) (ins : Nat) : Nat :=
  let o := Ins.op ins
  let hi := o / 16
  let lo := o % 16
  let w32 := match opKind o, cmpKind o with
    | some k, _ => k.s32 || k.d32
    | _, some k => k.1
    | _, _ => false
  if o < 5 then 1
  else if hi = 1 then (if 7 ≤ lo then 4 else 1)
  else if hi = 2 then (if 7 ≤ lo then 8 else 2)
  else if o = 0x32 ∨ o = 0x33 then 2
  else if o = 0x42 ∨ o = 0x43 then 8
  else if hi = 5 ∧ o < 0x5A then 2
  else if o = 0x70 then (bits (Ins.md ins) 2 3 + 4) / 4
  else if o = 0x71 then (if (Ins.imm ins).testBit 4 then 2 else 1)
  else if o = 0x72 then (if Ins.wide ins then 2 else 1)
  else if o = 0x78 then (if Ins.wide ins && !frag then 2 else 1)
  else if w32 then 2 else 1

end Sys2Proof.Machine
end

