-- ==== Sys2Proof/Machine/Geom.lean ====
section
/-! DEFINITION. Geometry (R111–R116): vertex attributes, primitive assembly, setup, coverage and interpolation. Clip-space numbers are
exact integers in units of 2^-149; snapped positions are in 1/256 pixel. -/

namespace Sys2Proof.Machine

/-! ### Vertex attributes (R111) -/

namespace VAttr

def slot (w : Nat) : Nat := bits w 4 4
def fmt (w : Nat) : Nat := bits w 8 4
def comps (w : Nat) : Nat := bits w 12 2 + 1
def wide (w : Nat) : Bool := w.testBit 14
def offset (w : Nat) : Nat := bits w 16 11
/-- Bytes per component; the packed format counts as one component. -/
def compBytes (w : Nat) : Nat := [4, 2, 1, 1, 1, 2, 2, 2, 2, 4, 4].getD (fmt w) 0
def bytes (w : Nat) : Nat := if fmt w = 10 then 4 else compBytes w * comps w
def isInt (w : Nat) : Bool := [4, 7, 8, 9].contains (fmt w)
/-- The word is one a VATTR packet may carry. -/
def legal (w : Nat) : Bool := decide (fmt w ≤ 10) && (fmt w != 10 || comps w == 4)

end VAttr

/-- A signed normalised code as a value: c / (2^(n-1) − 1), at least −1 (log entry 30). -/
def snorm (f : Fmt) (n v : Nat) : Nat :=
  let x := max (-(2 ^ (n - 1) - 1 : Int)) (sext n v)
  f.ofRat (decide (x < 0)) x.natAbs (2 ^ (n - 1) - 1)

/-- A component of an attribute in a register of the format `wide` asks for. A UINT32 beyond 16 bits has no stated INT16 (log entry 31). -/
def convertAttr (fmt : Nat) (wide : Bool) (v : Nat) : Nat :=
  let f := if wide then fp32 else fp16
  if fmt = 0 then f.conv fp32 v
  else if fmt = 1 then f.conv fp16 v
  else if fmt = 2 then f.ofRat false v 255
  else if fmt = 3 then snorm f 8 v
  else if fmt = 5 then f.ofRat false v 65535
  else if fmt = 6 then snorm f 16 v
  else if fmt = 8 then toBits (if wide then 32 else 16) (sext 16 v)
  else if fmt = 9 ∧ !wide ∧ 65536 ≤ v then (Config.approx 211 v).toNat % 65536
  else v

/-- The address of the element of attribute word `w` for a vertex, none beyond the slot (R111). -/
def attrAt (st : GState) (w vid iid : Nat) : Option Nat :=
  match st.vbufs.find? (VAttr.slot w) with
  | none => none
  | some (addr, size, cfg) =>
    let o := VAttr.offset w + bits cfg 0 16 * (if cfg.testBit 16 then iid else vid)
    if o + VAttr.bytes w ≤ size then some (addr + o) else none

/-- Four components of attribute `a` (R111, R158). An ATTR whose WIDE differs from the VATTR packet's has no stated result (log entry 31). -/
def attrLoad (mem : Memory) (st : GState) (a : Nat) (wide : Bool) (vid iid : Nat) : List Nat :=
  let w := st.vattr.getD a 0
  let one := if VAttr.isInt w then 1 else (if wide then fp32 else fp16).one
  let on := (st.vattr.find? a).isSome
  let vals : List Nat := match (if on then attrAt st w vid iid else none) with
    | none => [0, 0, 0, one]
    | some p =>
      if VAttr.fmt w = 10 then
        let v := mem.readNat p 4
        let f := if wide then fp32 else fp16
        [f.ofRat false (bits v 0 10) 1023, f.ofRat false (bits v 10 10) 1023, f.ofRat false (bits v 20 10) 1023, f.ofRat false (bits v 30 2) 3]
      else (List.range 4).map fun i =>
        if i < VAttr.comps w then convertAttr (VAttr.fmt w) wide (mem.readNat (p + i * VAttr.compBytes w) (VAttr.compBytes w))
        else if i = 3 then one else 0
  if on && VAttr.wide w != wide then vals.map fun v => (Config.approx 210 v).toNat % (if wide then 2 ^ 32 else 65536) else vals

/-! ### The PRIM word (R110) -/

namespace Prim

def topo (w : Nat) : Nat := bits w 0 3
def cull (w : Nat) : Nat := bits w 3 2
def cw (w : Nat) : Bool := w.testBit 5
def restart (w : Nat) : Bool := w.testBit 6
def last (w : Nat) : Bool := w.testBit 7
def lineAa (w : Nat) : Bool := w.testBit 8
def stencil (w : Nat) : Bool := w.testBit 9
def point (w : Nat) : Nat := bits w 16 8
def width (w : Nat) : Nat := bits w 24 8

/-- Vertices per primitive (R113). -/
def verts (w : Nat) : Nat := [1, 2, 2, 3, 3, 3, 2, 4].getD (topo w) 0

def strips (w : Nat) : Bool := [2, 4, 5].contains (topo w)

end Prim

/-! ### Assembly (R110, R113) -/

/-- Groups of `n`; what is left over is ignored. -/
def groups (n fuel : Nat) (l : List Nat) : List (List Nat) :=
  match fuel with
  | 0 => []
  | k + 1 => if n = 0 ∨ l.length < n then [] else l.take n :: groups n k (l.drop n)

/-- The runs of a list between the places where it holds none. -/
def runsOf (l : List (Option Nat)) : List (List Nat) :=
  (l.foldr (fun (x : Option Nat) (a : List (List Nat)) => match x, a with
    | none, a => [] :: a
    | some v, [] => [[v]]
    | some v, h :: t => (v :: h) :: t) [[]])

/-- The primitives of one run: the place of the provoking vertex among its vertices, then the vertices. -/
def runPrims (w : Nat) (l : List Nat) : List (List Nat) :=
  let t := Prim.topo w
  let n := l.length
  let v := fun i => l.getD i 0
  let lastAt := fun k => if Prim.last w then k else 0
  if t = 2 then (List.range (n - 1)).map fun i => [lastAt 1, v i, v (i + 1)]
  else if t = 4 then (List.range (n - 2)).map fun i => if i % 2 = 0 then [lastAt 2, v i, v (i + 1), v (i + 2)] else [lastAt 1, v i, v (i + 2), v (i + 1)]
  else if t = 5 then (List.range (n - 2)).map fun i => [lastAt 2, v 0, v (i + 1), v (i + 2)]
  else (groups (Prim.verts w) n l).map fun g => lastAt (if t = 7 then 2 else g.length - 1) :: g

/-- The primitives of a draw, in order, by places among its shaded vertices. -/
def assemble (w : Nat) (d : GDraw) : List (List Nat) :=
  let inst := fun i => (d.items.drop (i * d.perInst)).take d.perInst
  ((List.range (d.items.length / max 1 d.perInst)).flatMap fun i => (runsOf (inst i)).flatMap fun r => runPrims w r)

/-! ### Setup (R114, R115) -/

/-- A clip-space position. -/
structure Clip where
  x : Int
  y : Int
  z : Int
  w : Int
  deriving DecidableEq, Repr

/-- An FP32 word as an integer in units of 2^-149. What a value that is no number does is not stated: some finite value stands for it (log
entry 32). -/
def fixed32 (w : Nat) : Int :=
  let f := fun v => match fp32.val v with
    | .fin n m e => scaled n m e (-149)
    | _ => 0
  if (fp32.val w).finite then f w else f ((Config.approx 213 w).toNat % 2 ^ 30)

def clipOf (p : List Nat) : Clip := { x := fixed32 (p.getD 0 0), y := fixed32 (p.getD 1 0), z := fixed32 (p.getD 2 0), w := fixed32 (p.getD 3 0) }

/-- The unit of these integers. -/
def fixedOne : Int := 2 ^ 149

/-- The viewport: X, Y, W, H, ZMIN, ZMAX; at reset the AREA with Z 0–1 (R110). -/
def viewportOf (st : GState) (area : Nat) : List Int :=
  if st.viewport.isEmpty then
    let px : List Nat := [bits area 0 8 * 32, bits area 8 8 * 32, (bits area 16 8 + 1) * 32, (bits area 24 8 + 1) * 32, 0, 1]
    px.map fun (v : Nat) => Int.ofNat v * fixedOne
  else st.viewport.map fixed32

/-- Screen x, y of a position times 2 × w × 2^149, in pixels. -/
def screenNum (vp : List Int) (p : Clip) : Int × Int :=
  let g := fun i => vp.getD i 0
  let yy := if Config.yUp then p.w - p.y else p.w + p.y
  (2 * g 0 * p.w + (p.x + p.w) * g 2, 2 * g 1 * p.w + yy * g 3)

/-- A coordinate num / den pixels, snapped to 1/256 pixel. -/
def snap (num den : Int) : Int :=
  let n := 256 * num
  if den ≤ 0 then ((Config.approx 214 (num.natAbs % 2 ^ 32)).toNat : Int)
  else if n % den = 0 then n / den
  else if Config.snapUp num den then n / den + 1 else n / den

def snapped (vp : List Int) (p : Clip) : Int × Int :=
  let s := screenNum vp p
  let den := 2 * p.w * fixedOne
  (snap s.1 den, snap s.2 den)

/-- The point where an edge meets the plane its ends' distances `a` and `b` (of unlike sign) name, up to a positive factor. -/
def between (p q : Clip) (a b : Int) : Clip :=
  let m := fun (u v : Int) => if 0 ≤ a then u * -b + v * a else u * b - v * a
  { x := m p.x q.x, y := m p.y q.y, z := m p.z q.z, w := m p.w q.w }

/-- Clip a polygon against the half-space in which `dist` is not negative. -/
def clipPoly (dist : Clip → Int) (l : List Clip) : List Clip :=
  match l with
  | [] => []
  | h :: _ =>
    (l.zip (l.drop 1 ++ [h])).flatMap fun e =>
      let a := dist e.1
      let b := dist e.2
      (if 0 ≤ a then [e.1] else []) ++ (if (0 < a ∧ b < 0) ∨ (a < 0 ∧ 0 < b) then [between e.1 e.2 a b] else [])

def nearDist (p : Clip) : Int := p.z
def farDist (p : Clip) : Int := p.w - p.z
def Clip.inDepth (p : Clip) : Bool := decide (0 ≤ nearDist p) && decide (0 ≤ farDist p)

/-- Depth clipping of a segment: its two ends, or nothing. -/
def clipLine (p q : Clip) : List Clip :=
  let cut := fun (dist : Clip → Int) (l : List Clip) => match l with
    | [p, q] =>
      let a := dist p
      let b := dist q
      if 0 ≤ a ∧ 0 ≤ b then [p, q] else if 0 ≤ a then (if a = 0 then [] else [p, between p q a b]) else if 0 ≤ b then (if b = 0 then [] else [between p q a b, q]) else []
    | _ => []
  cut farDist (cut nearDist [p, q])

/-- The guard band, ±16,384 px in 1/256 pixel. -/
def guardBand : Int := 16384 * 256

/-- Cut a polygon to the half-plane in which `dist` is not negative; `pick` makes a coordinate of the quotient that a crossing gives. -/
def cutPoly (pick : Int → Int → Int) (dist : Int × Int → Int) (l : List (Int × Int)) : List (Int × Int) :=
  match l with
  | [] => []
  | h :: _ =>
    (l.zip (l.drop 1 ++ [h])).flatMap fun e =>
      let a := dist e.1
      let b := dist e.2
      let p : Int := a.natAbs
      let q : Int := b.natAbs
      (if 0 ≤ a then [e.1] else [])
        ++ (if (0 < a ∧ b < 0) ∨ (a < 0 ∧ 0 < b) then [(pick (e.1.1 * q + e.2.1 * p) (p + q), pick (e.1.2 * q + e.2.2 * p) (p + q))] else [])

/-- Cut a polygon to a box. -/
def cutBox (pick : Int → Int → Int) (lo hi : Int × Int) (l : List (Int × Int)) : List (Int × Int) :=
  let cut := fun (f : Int × Int → Int) (l : List (Int × Int)) => cutPoly pick f l
  cut (fun p => hi.2 - p.2) (cut (fun p => p.2 - lo.2) (cut (fun p => hi.1 - p.1) (cut (fun p => p.1 - lo.1) l)))

/-- One of the two neighbours of a quotient, the quotient itself where it is whole (log entry 103). -/
def nearBy (num den : Int) : Int := if num % den = 0 then num / den else if Config.snapUp num den then num / den + 1 else num / den

/-- Step 4 of R114 for a triangle or a line: clipped to the guard band where it reaches beyond it. -/
def guardClip (l : List (Int × Int)) : List (Int × Int) :=
  let r := cutBox nearBy (-guardBand, -guardBand) (guardBand, guardBand) l
  if l.length = 2 then r.take 2 else r

/-- Step 4 of R114 for a corner of a rectangle: clamped to the guard band. -/
def guardClamp (p : Int × Int) : Int × Int := (max (-guardBand) (min guardBand p.1), max (-guardBand) (min guardBand p.2))

/-- Twice the signed area of a polygon, positive where it runs clockwise on a screen whose y points down. -/
def area2 (l : List (Int × Int)) : Int :=
  match l with
  | [] => 0
  | h :: _ => (l.zip (l.drop 1 ++ [h])).foldl (fun a e => a + (e.1.1 * e.2.2 - e.2.1 * e.1.2)) 0

/-- The least r with n ≤ r². -/
def ceilSqrt (n : Nat) : Nat := let r := isqrt 80 n; if r * r = n then r else r + 1

/-- Half the extent of a line's rectangle across x and y: width (in 1/256 pixel) × |dy| / 2 |d|, rounded up. -/
def lineReach (width : Nat) (a b : Int × Int) : Int × Int :=
  let dx := (b.1 - a.1).natAbs
  let dy := (b.2 - a.2).natAbs
  let d2 := dx * dx + dy * dy
  let r := fun k => ((ceilSqrt ((width * k * (width * k) + 4 * d2 - 1) / max 1 (4 * d2)) : Nat) : Int)
  (r dy, r dx)

/-- The box of a primitive in 1/256 pixel: low corner, high corner. -/
def GPrim.box (p : GPrim) : (Int × Int) × (Int × Int) :=
  let lo := fun (f : Int × Int → Int) => (p.poly.map f).foldl min ((p.poly.map f).headD 0)
  let hi := fun (f : Int × Int → Int) => (p.poly.map f).foldl max ((p.poly.map f).headD 0)
  let reach : Int × Int :=
    if p.kind = 0 then ((p.size / 2 : Nat), (p.size / 2 : Nat))
    else if p.kind = 1 ∨ p.kind = 2 then lineReach p.size (p.poly.getD 0 (0, 0)) (p.poly.getD 1 (0, 0))
    else (0, 0)
  ((lo (·.1) - reach.1, lo (·.2) - reach.2), (hi (·.1) + reach.1, hi (·.2) + reach.2))

/-- The scissor clipped to the AREA, in pixels: x0, y0, x1, y1, the last two exclusive (R110). -/
def scissorOf (st : GState) (area : Nat) : Nat × Nat × Nat × Nat :=
  let x0 := bits area 0 8 * 32
  let y0 := bits area 8 8 * 32
  let x1 := x0 + (bits area 16 8 + 1) * 32
  let y1 := y0 + (bits area 24 8 + 1) * 32
  match st.scissor with
  | none => (x0, y0, x1, y1)
  | some (a, b) => (max x0 (bits a 0 16), max y0 (bits a 16 16), min x1 (bits b 0 16), min y1 (bits b 16 16))

/-- The tiles a box meets within the scissor: x0, y0, x1, y1 inclusive; none where it meets none. -/
def tileRect (sc : Nat × Nat × Nat × Nat) (b : (Int × Int) × (Int × Int)) : Option (Nat × Nat × Nat × Nat) :=
  let x0 := max (sc.1 : Int) (b.1.1 / 256)
  let y0 := max (sc.2.1 : Int) (b.1.2 / 256)
  let x1 := min (sc.2.2.1 : Int) (-(-b.2.1 / 256))
  let y1 := min (sc.2.2.2 : Int) (-(-b.2.2 / 256))
  if x0 < x1 ∧ y0 < y1 then some (x0.toNat / 32, y0.toNat / 32, (x1.toNat - 1) / 32, (y1.toNat - 1) / 32) else none

/-- The point size a vertex gives (R147). -/
def pointSize (st : GState) (v : GVert) : Nat :=
  match v.psize with
  | none => Prim.point st.prim
  | some h =>
    match fp16.val h with
    | .nan => (Config.approx 216 h).toNat % 255 + 1
    | .inf n => if n then 1 else 255
    | x => (max 1 (min 255 x.nearInt)).toNat

/-- What setup makes of a primitive: let through, culled, a curve discarded, or nothing left after depth clipping. -/
inductive SetupEnd where
  | keep (p : GPrim)
  | culled
  | curve
  | gone
  deriving DecidableEq, Repr

/-- Whether a rectangle whose corners lie on different sides of a depth plane is drawn, and which way one faces, is not stated (log entry
33). -/
def rectOpen (k : Nat) (p q : Int × Int) : Bool :=
  (Config.approx (217 + k) (2 * b2n (decide (p.1 ≤ q.1)) + b2n (decide (p.2 ≤ q.2)))).getLsbD 0

/-- Setup of one primitive in the order of R114; `sti` numbers its draw state. -/
def setupPrim (st : GState) (sti area : Nat) (prov : Nat) (vs : List GVert) : SetupEnd :=
  if vs.any (·.pos.isNone) then .culled
  else
    let w := st.prim
    let vp := viewportOf st area
    let cs := vs.map fun v => clipOf (v.pos.getD [])
    let t := Prim.topo w
    let mk := fun (poly : List (Int × Int)) (front : Bool) (size : Nat) =>
      ({ idx := 0, st := sti, kind := t, poly := poly, verts := vs, front := front, prov := prov, size := size, rect := (0, 0, 0, 0), wide := false : GPrim })
    let facing := fun (a : Int) => decide (0 < a) == Prim.cw w
    match cs with
    | [p] => if p.inDepth then .keep (mk [snapped vp p] true (256 * pointSize st (vs.headD {}))) else .gone
    | [p, q] =>
      if t = 6 then
        let a := guardClamp (snapped vp p)
        let b := guardClamp (snapped vp q)
        let keep := if p.inDepth && q.inDepth then true else if !p.inDepth && !q.inDepth then false else rectOpen 0 a b
        if keep then .keep (mk [a, b] (rectOpen 1 a b) 0) else .gone
      else match clipLine p q with
        | [a, b] => (match guardClip [snapped vp a, snapped vp b] with
          | [a, b] => .keep (mk [a, b] true (64 * Prim.width w))
          | _ => .gone)
        | _ => .gone
    | [_, _, _] =>
      let poly := guardClip ((clipPoly farDist (clipPoly nearDist cs)).map (snapped vp))
      let a := area2 poly
      if poly.isEmpty then .gone
      else if a = 0 then .culled
      else if (Prim.cull w = 1 ∧ !facing a) ∨ (Prim.cull w = 2 ∧ facing a) then .culled
      else .keep (mk poly (facing a) 0)
    | _ =>
      let poly := cs.map (snapped vp)
      let out := cs.any (fun p => !p.inDepth) || poly.any fun p => guardClamp p != p
      let tri := area2 (poly.take 3)
      let a := if tri = 0 then area2 [poly.getD 1 (0, 0), poly.getD 3 (0, 0), poly.getD 2 (0, 0)] else tri
      if out then .curve else .keep (mk poly (facing a) 0)

/-! ### Coverage (R114, R115) -/

/-- Point `p` lies on the inner side of edge a–b of a polygon whose orientation is `sgn`; on the edge itself if it is a top or left edge. -/
def edgeIn (sgn : Int) (a b p : Int × Int) : Bool :=
  let dx := sgn * (b.1 - a.1)
  let dy := sgn * (b.2 - a.2)
  let e := dx * (p.2 - a.2) - dy * (p.1 - a.1)
  decide (0 < e) || (e == 0 && (decide (dy < 0) || (dy == 0 && decide (0 < dx))))

def sgnOf (a : Int) : Int := if 0 < a then 1 else if a < 0 then -1 else 0

/-- A convex polygon covers a point under the top-left rule. -/
def polyIn (l : List (Int × Int)) (p : Int × Int) : Bool :=
  let s := sgnOf (area2 l)
  s != 0 && (l.zip (l.drop 1 ++ l.take 1)).all fun e => edgeIn s e.1 e.2 p

/-- The region between the chord v1–v2 and the curve with control point v3 covers a point. -/
def segIn (v1 v2 v3 p : Int × Int) : Bool :=
  let s := sgnOf (area2 [v1, v3, v2])
  let a := s * area2 [p, v3, v2]
  let b := s * area2 [v1, p, v2]
  let c := s * area2 [v1, v3, p]
  s != 0 && edgeIn s v2 v1 p && decide (b * b < 4 * a * c)

/-- The region of a curve triangle covers a point: nonzero winding of its boundary. -/
def curveIn (l : List (Int × Int)) (p : Int × Int) : Bool :=
  let g := fun i => l.getD i (0, 0)
  let tri := if polyIn (l.take 3) p then sgnOf (area2 (l.take 3)) else 0
  let seg := if segIn (g 1) (g 2) (g 3) p then sgnOf (area2 [g 1, g 3, g 2]) else 0
  tri + seg != 0

/-- A line of width `w` (1/256 pixel) covers a point. -/
def lineIn (w : Nat) (a b p : Int × Int) : Bool :=
  let dx := b.1 - a.1
  let dy := b.2 - a.2
  let d2 := dx * dx + dy * dy
  let t := dx * (p.1 - a.1) + dy * (p.2 - a.2)
  let x := dx * (p.2 - a.2) - dy * (p.1 - a.1)
  let top := fun (nx ny : Int) => decide (0 < nx) || (nx == 0 && decide (0 < ny))
  let q := (w * w : Nat) * d2
  decide (0 < d2) && (decide (0 < t) || (t == 0 && top dx dy)) && (decide (t < d2) || (t == d2 && top (-dx) (-dy)))
    && (decide (4 * (x * x) < q) || (4 * (x * x) == q && (if x < 0 then top (-dy) dx else top dy (-dx))))

/-- The primitive covers a sample point. -/
def GPrim.covers (p : GPrim) (q : Int × Int) : Bool :=
  let g := fun i => p.poly.getD i (0, 0)
  if p.kind = 0 then
    let h : Int := (p.size / 2 : Nat)
    decide ((g 0).1 - h ≤ q.1) && decide (q.1 < (g 0).1 + h) && decide ((g 0).2 - h ≤ q.2) && decide (q.2 < (g 0).2 + h)
  else if p.kind = 1 ∨ p.kind = 2 then lineIn p.size (g 0) (g 1) q
  else if p.kind = 6 then
    decide (min (g 0).1 (g 1).1 ≤ q.1) && decide (q.1 < max (g 0).1 (g 1).1) && decide (min (g 0).2 (g 1).2 ≤ q.2)
      && decide (q.2 < max (g 0).2 (g 1).2)
  else if p.kind = 7 then curveIn p.poly q
  else polyIn p.poly q

/-- The primitive carries analytic coverage: a curve under DIRECT fill, a line with AA. -/
def GPrim.analytic (p : GPrim) (w : Nat) : Bool :=
  (p.kind == 7 && !Prim.stencil w) || ((p.kind == 1 || p.kind == 2) && Prim.lineAa w)

/-- A sample's place in 1/256 pixel: the centre, or the 4× positions (R129). -/
def samplePoint (ms : Bool) (x y s : Nat) : Int × Int :=
  let o : Nat × Nat := if ms then [(6, 2), (14, 6), (2, 10), (10, 14)].getD s (8, 8) else (8, 8)
  ((256 * x + 16 * o.1 : Nat), (256 * y + 16 * o.2 : Nat))

/-- The midpoint of two points of the fine grid. -/
def midpoint (a b : Int × Int) : Int × Int := ((a.1 + b.1) / 2, (a.2 + b.2) / 2)

/-- Points after `a` of the quadratic curve from `a` to `b` with control point `m`, on the fine grid of 2^-24 pixel: the curve is halved until
it is straight to 2^-20 pixel or its control points lie to one side of the box. -/
def curvePoints (n : Nat) (lo hi a m b : Int × Int) : List (Int × Int) :=
  match n with
  | 0 => [b]
  | k + 1 =>
    let off := fun (f : Int × Int → Bool) => f a && f m && f b
    let miss := off (fun p => decide (p.1 ≤ lo.1)) || off (fun p => decide (hi.1 ≤ p.1)) || off (fun p => decide (p.2 ≤ lo.2)) || off fun p => decide (hi.2 ≤ p.2)
    if miss ∨ ((a.1 - 2 * m.1 + b.1).natAbs ≤ 64 ∧ (a.2 - 2 * m.2 + b.2).natAbs ≤ 64) then [b]
    else
      let l := midpoint a m
      let r := midpoint m b
      let c := midpoint l r
      curvePoints k lo hi a l c ++ curvePoints k lo hi c r b

/-- The corners of a line of width `w` (1/256 pixel) as a rectangle on the fine grid. -/
def lineCorners (w : Nat) (a b : Int × Int) : List (Int × Int) :=
  let dx := b.1 - a.1
  let dy := b.2 - a.2
  let d2 := (dx * dx + dy * dy).natAbs
  let half := fun (v : Int) => (if v < 0 then -1 else 1) * ((isqrt 80 ((v.natAbs * w * 2 ^ 15) ^ 2 / max 1 d2) : Nat) : Int)
  let nx := half (-dy)
  let ny := half dx
  let q := fun (p : Int × Int) (s : Int) => (p.1 * 65536 + s * nx, p.2 * 65536 + s * ny)
  [q a 1, q b 1, q b (-1), q a (-1)]

/-- The area of pixel (x, y) inside a curve triangle or a line, in units of 2^-49 pixel: within 2^-16 of the exact area. -/
def GPrim.areaIn (p : GPrim) (x y : Nat) : Nat :=
  let lo : Int × Int := ((2 ^ 24 * x : Nat), (2 ^ 24 * y : Nat))
  let hi : Int × Int := (lo.1 + 2 ^ 24, lo.2 + 2 ^ 24)
  let fine := fun (v : Int × Int) => (v.1 * 65536, v.2 * 65536)
  let area := fun (l : List (Int × Int)) => (area2 (cutBox (· / ·) lo hi l)).natAbs
  let g := fun i => fine (p.poly.getD i (0, 0))
  if p.kind = 7 then
    let tri := [g 0, g 1, g 2]
    let seg := g 1 :: curvePoints 20 lo hi (g 1) (g 3) (g 2)
    let s := sgnOf (area2 tri)
    let side := fun (a b q : Int × Int) => s * ((b.1 - a.1) * (q.2 - a.2) - (b.2 - a.2) * (q.1 - a.1))
    if s = 0 then area seg
    else if s * area2 [g 1, g 3, g 2] < 0 then
      let both := [(g 0, g 1), (g 1, g 2), (g 2, g 0)].foldl (fun l e => cutPoly (· / ·) (side e.1 e.2) l) seg
      area tri + area seg - 2 * area both
    else area tri + area seg
  else area (lineCorners p.size (p.poly.getD 0 (0, 0)) (p.poly.getD 1 (0, 0)))

/-- Analytic coverage of a pixel: within 2^-10 of the exact area, 0xFFFF where that is full, nothing where the primitive's box does not meet the
pixel. Which value within the bound the setup unit gives is open (log entry 34). -/
def GPrim.coverage (p : GPrim) (x y : Nat) : Nat :=
  let b := p.box
  let px : Int := (256 * x : Nat)
  let py : Int := (256 * y : Nat)
  if b.2.1 ≤ px ∨ px + 256 ≤ b.1.1 ∨ b.2.2 ≤ py ∨ py + 256 ≤ b.1.2 then 0
  else
    let a := p.areaIn x y
    if 2 ^ 49 ≤ a then 0xFFFF
    else
      let tol := 2 ^ 39 + 2 ^ 33
      let lo := (65535 * (a - tol) + 2 ^ 49 - 1) / 2 ^ 49
      let hi := min 65535 (65535 * (a + tol) / 2 ^ 49)
      let v := (Config.coverage ([(p.kind : Int), (p.size : Int), px, py] ++ p.poly.flatMap fun v => [v.1, v.2])).toNat
      lo + v % (hi - lo + 1)

/-- The samples of pixel (x, y) that the primitive covers and its coverage: `w` is the PRIM word. -/
def GPrim.mask (p : GPrim) (w : Nat) (ms : Bool) (x y : Nat) : Nat × Nat :=
  let samples := (List.range (if ms then 4 else 1)).foldl (fun m s => if p.covers (samplePoint ms x y s) then m + 2 ^ s else m) 0
  if p.analytic w then
    let cov := p.coverage x y
    if cov = 0 then (0, 0) else if ms then (samples, cov) else (1, cov)
  else (samples, 0xFFFF)

/-! ### Interpolation (R132, R158) -/

/-- Perspective-correct weights of the vertices at a point in 1/256 pixel, up to a common factor; none for rectangles, whose inner values
the corners do not fix (log entry 33). -/
def GPrim.weights (p : GPrim) (vp : List Int) (q : Int × Int) : List Int :=
  let cs := (p.verts.take 3).map fun v => clipOf (v.pos.getD [])
  let h := cs.map fun c => let s := screenNum vp c; (s.1, s.2, 2 * c.w * fixedOne)
  let det := fun (a b c : Int × Int × Int) =>
    a.1 * (b.2.1 * c.2.2 - b.2.2 * c.2.1) - a.2.1 * (b.1 * c.2.2 - b.2.2 * c.1) + a.2.2 * (b.1 * c.2.1 - b.2.1 * c.1)
  let pt : Int × Int × Int := (q.1, q.2, 256)
  match h with
  | [_] => [1]
  | [a, b] =>
    if p.kind = 6 then []
    else
      let dx := (p.poly.getD 1 (0, 0)).1 - (p.poly.getD 0 (0, 0)).1
      let dy := (p.poly.getD 1 (0, 0)).2 - (p.poly.getD 0 (0, 0)).2
      let f := fun (v : Int × Int × Int) => dx * v.1 + dy * v.2.1
      [f pt * b.2.2 - 256 * f b, 256 * f a - f pt * a.2.2]
  | [a, b, c] => [det pt b c, det a pt c, det a b pt]
  | _ => []

/-- Σ a λ / Σ b λ as an FP32 word; 0 where there is no such quotient. -/
def quotient (a b l : List Int) : Nat :=
  let n : Int := (a.zip l).foldl (fun s x => s + x.1 * x.2) 0
  let d : Int := (b.zip l).foldl (fun s x => s + x.1 * x.2) 0
  if d = 0 then 0 else fp32.ofRat (decide (n * d < 0)) n.natAbs d.natAbs

/-- A value inside a primitive (R158): a point's own; otherwise the setup unit's, within 2^-22 of `scale` about the exact value, or in a rectangle
anywhere between those of its corners (log entries 33 and 106). `exact` is the exact value rounded to FP32, `scale` the greatest magnitude that
enters it. -/
def GPrim.interp (p : GPrim) (vp : List Int) (q : Int × Int) (exact : Nat) (ends : List Nat) (scale : Nat) : Nat :=
  let own := ends.headD 0
  let pick := (Config.interp exact (ends.map Int.ofNat ++ [q.1, q.2] ++ vp ++ (p.verts.flatMap fun v => (v.pos.getD []).map Int.ofNat))).toNat
  let xs := ends.map fixed32
  let tol : Int := (scale / 2 ^ 22 : Nat)
  if p.kind = 0 then own
  else if ends.any (fun v => !(fp32.val v).finite) then fp32.ofVal (fp32.val pick)
  else if p.kind = 6 then fp32.pickIn (xs.foldl min (xs.headD 0)) (xs.foldl max (xs.headD 0)) (-149) pick own
  else if scale = 0 then exact
  else fp32.pickIn (fixed32 exact - tol) (fixed32 exact + tol) (-149) pick exact

/-- A varying component at a point (R158), FP32: `val` reads the component of a vertex as FP32. -/
def GPrim.varying (p : GPrim) (vp : List Int) (q : Int × Int) (val : GVert → Nat) : Nat :=
  let vs := (p.verts.take 3).map val
  let l := p.weights vp q
  let a := vs.map fixed32
  let exact := quotient a (l.map fun _ => fixedOne) l
  p.interp vp q exact vs (a.foldl (fun m v => max m v.natAbs) (fixed32 exact).natAbs)

/-- Depth at a point before the clamp: ZMIN + (z / w)(ZMAX − ZMIN), linear in screen space. -/
def GPrim.depthAt (p : GPrim) (vp : List Int) (q : Int × Int) : Nat :=
  let cs := (p.verts.take 3).map fun v => clipOf (v.pos.getD [])
  let l := p.weights vp q
  let zn := vp.getD 4 0
  let zd := vp.getD 5 0 - zn
  -- (zn w + z zd / U) / w in units of U
  let num := fun (c : Clip) => zn * c.w + c.z * zd
  let own := fun (c : Clip) => quotient [num c] [c.w * fixedOne] [1]
  let exact := quotient (cs.map num) (cs.map fun c => c.w * fixedOne) l
  p.interp vp q exact (if p.kind = 0 ∨ p.kind = 6 then cs.map own else []) (max (fixed32 exact).natAbs (max zn.natAbs (zn + zd).natAbs))

end Sys2Proof.Machine
end

