-- ==== Sys2Proof/Machine/Tile.lean ====
section
/-! DEFINITION. Render targets and tile memory (R126–R134, R136, R144): descriptors, loads, depth and stencil tests, blending, resolves and
stores. -/

namespace Sys2Proof.Machine

/-! ### Render-target sets (R126) -/

/-- An attachment of a target set: its number (4 is depth/stencil), address, attachment word, resolve address. -/
structure Att where
  k : Nat
  addr : Nat
  word : Nat
  raddr : Nat
  deriving DecidableEq, Repr

namespace Att

def ds (a : Att) : Bool := a.k == 4
def fmt (a : Att) : Nat := bits a.word 0 6
def layout (a : Att) : Nat := bits a.word 6 2
def load (a : Att) : Nat := bits a.word 8 2
def store (a : Att) : Bool := a.word.testBit 10
def rlayout (a : Att) : Nat := bits a.word 11 2
def pitch (a : Att) : Nat := bits a.word 16 16
/-- Bytes per sample. -/
def bytes (a : Att) : Nat := if a.ds then [4, 8, 2].getD a.fmt 0 else texelBytes a.fmt

end Att

namespace TSet

def ncol (b : List Byte) : Nat := bits (fieldAt b 0 4) 0 3
def hasDs (b : List Byte) : Bool := (fieldAt b 0 4).testBit 3
def width (b : List Byte) : Nat := bits (fieldAt b 4 4) 0 13 + 1
def height (b : List Byte) : Nat := bits (fieldAt b 4 4) 16 13 + 1

/-- The attachments the set enables: colour in order, then depth/stencil. -/
def atts (b : List Byte) : List Att :=
  ((List.range (ncol b)).map fun k =>
    { k := k, addr := fieldAt b (8 + 8 * k) 4 * 256, word := fieldAt b (12 + 8 * k) 4, raddr := fieldAt b (0x30 + 4 * k) 4 * 256 })
  ++ (if hasDs b then [{ k := 4, addr := fieldAt b 0x28 4 * 256, word := fieldAt b 0x2C 4, raddr := 0 }] else [])

/-- TILE_STATE (R128). -/
def tileState (b : List Byte) (s : Nat) : Nat := 1024 * s * ((atts b).map Att.bytes).foldl (· + ·) 0

/-- An NFR layout suits a format. -/
def nfrOk (lay f : Nat) : Bool := (lay != 1 || decide (f < 3)) && (lay != 2 || f == 4)

/-- The set is valid for `s` samples (R128). -/
def valid (b : List Byte) (s : Nat) : Bool :=
  let w := width b
  let sz := fieldAt b 4 4
  decide (ncol b ≤ 4) && fieldAt b 0 4 / 16 == 0 && bits sz 13 3 == 0 && bits sz 29 3 == 0 && decide (w ≤ 8192) && decide (height b ≤ 8192)
    && ((atts b).all fun a =>
      a.addr != 0 && a.layout != 3 && a.rlayout != 3 && a.load != 3 && bits a.word 13 3 == 0
        && (if a.ds then decide (a.fmt < 3) && a.layout == 0
            else isTarget a.fmt && nfrOk a.layout a.fmt && (a.raddr == 0 || (s == 4 && a.fmt != 9 && nfrOk a.rlayout a.fmt)))
        && !(s == 4 && a.store && a.layout != 0)
        && (if a.layout = 0 then decide (w * s * a.bytes ≤ a.pitch * 256) else decide ((w + 31) / 32 ≤ a.pitch)))
    && decide (tileState b s ≤ 98304)

/-- Every attachment is stored, uncompressed and without resolve (R105). -/
def direct (b : List Byte) : Bool := (atts b).all fun a => a.store && a.layout == 0 && a.raddr == 0

/-- The memory ranges of the surfaces. -/
def extents (b : List Byte) : List (Nat × Nat) :=
  let size := fun lay pitch => Tex.levelSize 0 lay pitch (height b)
  (atts b).flatMap fun a =>
    (a.addr, size a.layout a.pitch) :: (if a.raddr = 0 then [] else [(a.raddr, size a.rlayout (Tex.derived a.fmt a.rlayout (width b)))])

end TSet

/-! ### Jobs' own parameters (R104) -/

namespace GJob

def area (j : GJob) : Nat := fieldAt j.entry 0x1C 4
def x0 (j : GJob) : Nat := bits j.area 0 8
def y0 (j : GJob) : Nat := bits j.area 8 8
def tw (j : GJob) : Nat := bits j.area 16 8 + 1
def th (j : GJob) : Nat := bits j.area 24 8 + 1
def msaa (j : GJob) : Bool := (fieldAt j.entry 0x2D 1).testBit 0
def samples (j : GJob) : Nat := if j.msaa then 4 else 1
def spillAddr (j : GJob) : Nat := fieldAt j.entry 0x20 8
def deadline (j : GJob) : Nat := fieldAt j.entry 0x28 4
def deadlineOut (j : GJob) : Nat := bits (fieldAt j.entry 0x2C 1) 0 3
def hasDeadline (j : GJob) : Bool := (fieldAt j.entry 0x2C 1).testBit 3
def tileCount (j : GJob) : Nat := j.tw * j.th
/-- Target tile x, y of tile number `i` of the AREA. -/
def tileAt (j : GJob) (i : Nat) : Nat × Nat := (j.x0 + i % j.tw, j.y0 + i / j.tw)
/-- Where a partial render keeps tile `i` (R129). -/
def spillOf (j : GJob) (i : Nat) : Nat := j.spillAddr + i * TSet.tileState j.target j.samples
def pool (j : GJob) : Nat := min 16 j.own
def state (j : GJob) (i : Nat) : GState := j.states.getD i {}

end GJob

/-! ### Surfaces (R129) -/

/-- Where sample `s` of pixel (x, y) of an uncompressed attachment lies. -/
def Att.at (a : Att) (s x y smp : Nat) : Nat := a.addr + y * a.pitch * 256 + (x * s + smp) * a.bytes

/-- The offset of attachment number `k` within a spilled tile. -/
def spillOffset (b : List Byte) (s k : Nat) : Nat :=
  (((TSet.atts b).takeWhile (·.k ≠ k)).map fun a => 1024 * s * a.bytes).foldl (· + ·) 0

/-! ### Tile memory -/

/-- Pixel number within its tile. -/
def pixelOf (x y : Nat) : Nat := y % 32 * 32 + x % 32

def tmKey (x y k s : Nat) : Nat := (pixelOf x y * 8 + k) * 4 + s

/-- Round an FP32 depth to `n` bits of UNORM. -/
def depthCode (a : Att) (z : Nat) : Nat := if a.fmt = 0 then toUnorm 24 z else if a.fmt = 2 then toUnorm 16 z else z % 2 ^ 32

/-- Depth and stencil parts of a stored sample (D24S8 has its stencil in the top byte, log entry 35). -/
def dsDepth (a : Att) (v : Nat) : Nat := if a.fmt = 0 then v % 2 ^ 24 else if a.fmt = 2 then v % 2 ^ 16 else v % 2 ^ 32
def dsStencil (a : Att) (v : Nat) : Nat := if a.fmt = 0 then bits v 24 8 else if a.fmt = 1 then bits v 32 8 else 0
def dsPack (a : Att) (z s : Nat) : Nat := if a.fmt = 0 then z + s * 2 ^ 24 else if a.fmt = 1 then z + s * 2 ^ 32 else z

/-- What CLEAR fills attachment `a` with (R130, R131). -/
def clearValue (j : GJob) (a : Att) : Nat :=
  if a.ds then dsPack a (depthCode a j.clearZ) j.clearS
  else
    let w := j.clearC.getD a.k (0, 0)
    if a.fmt = 9 then w.1
    else encodeTexel a.fmt ([bits w.1 0 16, bits w.1 16 16, bits w.2 0 16, bits w.2 16 16].map toFp32)

/-- Contents that no run defines and every run of the same job finds alike (R131): DONTCARE, and what a LOAD finds beyond the width and height of
a LINEAR surface, by the payload of the JOB, its target set and the place. -/
def openValue (j : GJob) (i : Nat) (a : Att) (x y s : Nat) : Nat :=
  let key := ((j.entry.drop 16) ++ j.target).map BitVec.toNat
  (Config.dontCare (key ++ [i, a.k, x, y, s])).toNat % 2 ^ (8 * a.bytes)

/-- The starting value of a sample of tile `i` (R120, R131): spilled, loaded, clear, or open under DONTCARE. NFR surfaces hold whole tiles
(R141). -/
def startValue (mem : Memory) (j : GJob) (i : Nat) (a : Att) (x y s : Nat) : Nat :=
  let n := j.samples
  let inside := decide (x < TSet.width j.target) && decide (y < TSet.height j.target)
  let surface := fun (_ : Unit) =>
    if a.layout ≠ 0 then nfrColor a.fmt ((nfrKind a.layout).read mem a.addr a.pitch x y)
    else if inside then mem.readNat (a.at n x y s) a.bytes
    else openValue j i a x y s
  if j.spilled.contains i then
    if TSet.direct j.target then surface ()
    else mem.readNat (j.spillOf i + spillOffset j.target n a.k + (pixelOf x y * n + s) * a.bytes) a.bytes
  else if a.load = 0 then clearValue j a
  else if a.load = 1 then surface ()
  else openValue j i a x y s

/-- Reserved NFR blocks that the load of tile `i` meets (R144). -/
def loadBad (mem : Memory) (j : GJob) (i : Nat) : Nat :=
  let t := j.tileAt i
  let bad := fun (a : Att) => ((List.range 64).filter fun k =>
    ((nfrKind a.layout).pixel ((nfrKind a.layout).block mem a.addr a.pitch (32 * t.1 + k % 8 * 4) (32 * t.2 + k / 8 * 4)) 0).isNone).length
  if j.spilled.contains i then 0
  else (((TSet.atts j.target).filter fun a => a.load == 1 && a.layout != 0).map bad).foldl (· + ·) 0

/-- The memory that the load of tile `i` reads. -/
def loadSpans (j : GJob) (i : Nat) : List (Nat × Nat) :=
  let t := j.tileAt i
  let n := j.samples
  if j.spilled.contains i && !TSet.direct j.target then [(j.spillOf i, TSet.tileState j.target n)]
  else ((TSet.atts j.target).filter fun a => j.spilled.contains i || a.load == 1).flatMap fun a =>
    if a.layout = 0 then (List.range 32).map fun r => (a.at n (32 * t.1) (32 * t.2 + r) 0, 32 * n * a.bytes)
    else let sz := if a.layout = 1 then 2048 else 3072; [(a.addr + (t.2 * a.pitch + t.1) * sz, sz)]

/-- Apply to every pixel of tile `i`, in rows. -/
def eachPixel {α : Type} (j : GJob) (i : Nat) (r : α) (f : Nat → Nat → α → α) : α :=
  let t := j.tileAt i
  forN 1024 r fun p r => f (32 * t.1 + p % 32) (32 * t.2 + p / 32) r

/-- Tile memory as the load leaves it (R131 step 1). -/
def loadTile (mem : Memory) (j : GJob) (i : Nat) : SMap Nat :=
  eachPixel j i [] fun x y r =>
    (TSet.atts j.target).foldl (fun r a => forN j.samples r fun s r => SMap.insert r (tmKey x y a.k s) (startValue mem j i a x y s)) r

/-! ### Depth and stencil (R132) -/

/-- A compare FUNC (R130). -/
def compareFn (f : Nat) (lt eq : Bool) : Bool :=
  if f = 0 then false else if f = 1 then lt else if f = 2 then eq else if f = 3 then lt || eq
  else if f = 4 then !lt && !eq else if f = 5 then !eq else if f = 6 then !lt else true

/-- A stencil op (R130). -/
def stencilOp (op v ref : Nat) : Nat :=
  if op = 0 then v else if op = 1 then 0 else if op = 2 then ref else if op = 3 then min 255 (v + 1) else if op = 4 then v - 1
  else if op = 5 then 255 - v else if op = 6 then (v + 1) % 256 else (v + 255) % 256

/-- Clamp an FP32 depth to ZMIN … ZMAX. -/
def clampDepth (vp : List Nat) (z : Nat) : Nat :=
  fp32.ofVal (((fp32.val z).max (fp32.val (vp.getD 4 0))).min (fp32.val (vp.getD 5 one32)))

/-- Words of the viewport with its reset Z range. -/
def viewportWords (st : GState) : List Nat := if st.viewport.isEmpty then [0, 0, 0, 0, 0, one32] else st.viewport

/-- The tests of one sample: whether it passes, and the depth/stencil sample afterwards. -/
def dsTest (st : GState) (a : Att) (back : Bool) (z old : Nat) : Bool × Nat :=
  let zc := depthCode a (clampDepth (viewportWords st) z)
  let dz := dsDepth a old
  let sv := dsStencil a old
  let zlt := if a.fmt = 1 then (fp32.val zc).lt (fp32.val dz) else decide (zc < dz)
  let zeq := if a.fmt = 1 then (fp32.val zc).eq (fp32.val dz) else zc == dz
  let zpass := !st.depth.testBit 0 || compareFn (bits st.depth 1 3) zlt zeq
  let on := (st.stencil.getD 0 0).testBit 0 && a.fmt != 2
  let w := st.stencil.getD (if back then 2 else 0) 0
  let m := st.stencil.getD (if back then 3 else 1) 0
  let ref := bits m 0 8
  let r := ref &&& bits m 8 8
  let v := sv &&& bits m 8 8
  let spass := !on || compareFn (bits w 1 3) (decide (r < v)) (r == v)
  let op := if !spass then bits w 4 3 else if !zpass then bits w 7 3 else bits w 10 3
  let sn := stencilOp op sv ref
  let wm := bits m 16 8
  let s' := if on then clearBits sv wm + (sn &&& wm) else sv
  let pass := spass && zpass
  (pass, dsPack a (if pass && st.depth.testBit 4 then zc else dz) s')

/-- The back-face stencil words apply (R132). -/
def GPrim.back (p : GPrim) : Bool := !p.front && decide (3 ≤ p.kind)

/-! ### Blending (R133) -/

/-- A blend factor for channel `c` of source `s`, destination `d` and constant `k` (FP32 words). -/
def blendFactor (code c : Nat) (s d k : Px4) : Nat :=
  let g := fun (p : Px4) i => p.getD i 0
  let inv := fun v => fp32.sub one32 v
  if code = 0 then 0
  else if code = 1 then one32
  else if code = 2 then g s c
  else if code = 3 then inv (g s c)
  else if code = 4 then g d c
  else if code = 5 then inv (g d c)
  else if code = 6 then g s 3
  else if code = 7 then inv (g s 3)
  else if code = 8 then g d 3
  else if code = 9 then inv (g d 3)
  else if code = 10 then g k c
  else if code = 11 then inv (g k c)
  else if code = 12 then g k 3
  else if code = 13 then inv (g k 3)
  else if c = 3 then one32
  else fp32.ofVal ((fp32.val (g s 3)).min (fp32.val (inv (g d 3))))

/-- A blend op on weighted source and destination. -/
def blendOp (op a b : Nat) : Nat :=
  if op = 0 then fp32.add a b else if op = 1 then fp32.sub a b else if op = 2 then fp32.sub b a
  else if op = 3 then fp32.ofVal ((fp32.val a).min (fp32.val b)) else fp32.ofVal ((fp32.val a).max (fp32.val b))

/-- The blended channels: `w` is the BLEND word of the attachment. -/
def blendPx (w : Nat) (k s d : Px4) : Px4 :=
  (List.range 4).map fun c =>
    let i := if c = 3 then 14 else 3
    let fs := blendFactor (bits w i 4) c s d k
    let fd := blendFactor (bits w (i + 4) 4) c s d k
    blendOp (bits w (i + 8) 3) (fp32.mul (s.getD c 0) fs) (fp32.mul (d.getD c 0) fd)

/-- The BLEND word of attachment `k`; at reset off, ONE, ZERO, ADD, mask 0xF. -/
def blendWord (st : GState) (k : Nat) : Nat := st.blend.getD k (k + 1 * 2 ^ 3 + 1 * 2 ^ 14 + 0xF * 2 ^ 25)

/-- The colour a fragment gives attachment `a`, FP32 channels or a raw word; an OUT of the wrong width has no stated value (log entry 31). -/
def sourceColor (outs : SMap Nat) (a : Att) : Px4 :=
  let h := fun i => outs.getD (8 * a.k + i) 0
  let wrote := (outs.find? (8 * a.k + 7)).isSome
  let wide := h 7 == 1
  if a.fmt = 9 then [if !wrote || wide then h 0 + 65536 * h 1 else (Config.approx 218 (h 0 + 65536 * h 1)).toNat, 0, 0, 0]
  else if wide then (List.range 4).map fun i => (Config.approx (220 + i) (h 0 + 65536 * h 1)).toNat
  else (List.range 4).map fun i => toFp32 (h i)

/-- A sample of attachment `a` after a fragment is blended into it. -/
def blendSample (st : GState) (a : Att) (outs : SMap Nat) (old : Nat) : Nat :=
  let w := blendWord st a.k
  let src := sourceColor outs a
  let k := st.blendConst.map toFp32
  let px := if w.testBit 2 && a.fmt != 9 then blendPx w k src (decodeTexel a.fmt old) else src
  let new := encodeTexel a.fmt px
  let m := channelMask a.fmt (bits w 25 4)
  clearBits old m + (new &&& m)

/-! ### One fragment's samples -/

/-- Depth of a fragment at a sample: what the program wrote, else the interpolated depth. -/
def fragDepth (j : GJob) (p : GPrim) (outs : SMap Nat) (x y s : Nat) : Nat :=
  match outs.find? 32, outs.find? 33 with
  | some lo, some hi => lo + 65536 * hi
  | _, _ => p.depthAt (viewportOf (j.state p.st) j.area) (samplePoint j.msaa x y s)

/-- Run the depth and stencil tests of the samples in `mask`: the samples that pass, and tile memory. -/
def testSamples (j : GJob) (p : GPrim) (outs : SMap Nat) (x y mask : Nat) (mem : SMap Nat) : Nat × SMap Nat :=
  match (TSet.atts j.target).find? Att.ds with
  | none => (mask, mem)
  | some a =>
    forN 4 (mask, mem) fun s r =>
      if mask.testBit s then
        let k := tmKey x y 4 s
        let t := dsTest (j.state p.st) a p.back (fragDepth j p outs x y s) (r.2.getD k 0)
        (if t.1 then r.1 else putBit r.1 s false, SMap.insert r.2 k t.2)
      else r

/-- Blend a fragment into the samples of `mask`. -/
def blendSamples (j : GJob) (p : GPrim) (outs : SMap Nat) (x y mask : Nat) (mem : SMap Nat) : SMap Nat :=
  (TSet.atts j.target).foldl (fun m a => if a.ds then m else
    forN 4 m fun s m => if mask.testBit s then
      let k := tmKey x y a.k s
      SMap.insert m k (blendSample (j.state p.st) a outs (SMap.getD m k 0)) else m) mem

/-! ### Stores (R120, R131 step 6, R134) -/

/-- The average of four samples, rounded once to the format. -/
def resolveTexel (f : Nat) (v : Nat → Nat) : Nat :=
  let p := fun s c => (decodeTexel f (v s)).getD c 0
  encodeTexel f ((List.range 4).map fun c => fp32.mul (fp32.add (fp32.add (p 0 c) (p 1 c)) (fp32.add (p 2 c) (p 3 c))) 0x3E800000)

/-- The writes that put a tile's pixels into a surface: `px` gives the stored texel. NFR surfaces are encoded block by block. -/
def surfaceWrites (j : GJob) (i : Nat) (f lay addr pitch b s : Nat) (px : Nat → Nat → Nat → Nat) : List (Nat × List Byte) :=
  let t := j.tileAt i
  if lay = 0 then
    (List.range 1024).flatMap fun p =>
      let x := 32 * t.1 + p % 32
      let y := 32 * t.2 + p / 32
      if x < TSet.width j.target ∧ y < TSet.height j.target then
        (List.range s).map fun k => (addr + y * pitch * 256 + (x * s + k) * b, leBytes b (px x y k))
      else []
  else
    let q := nfrKind lay
    let n := q.total / 8
    (List.range 64).map fun k =>
      let x := 32 * t.1 + k % 8 * 4
      let y := 32 * t.2 + k / 8 * 4
      (addr + nfrBlockAt pitch n x y, leBytes n (q.encode ((List.range 16).map fun e => nfrColor f (px (x + e % 4) (y + e / 4) 0))))

/-- Every write of the store of tile `i`; `partialPass` in a partial render. -/
def storeWrites (j : GJob) (i : Nat) (mem : SMap Nat) (partialPass : Bool) : List (Nat × List Byte) :=
  let n := j.samples
  let val := fun (a : Att) x y s => mem.getD (tmKey x y a.k s) 0
  let t := j.tileAt i
  if partialPass && !TSet.direct j.target then
    (TSet.atts j.target).flatMap fun a => (List.range 1024).flatMap fun p => (List.range n).map fun s =>
      (j.spillOf i + spillOffset j.target n a.k + (p * n + s) * a.bytes, leBytes a.bytes (val a (32 * t.1 + p % 32) (32 * t.2 + p / 32) s))
  else (TSet.atts j.target).flatMap fun a =>
    (if a.store then surfaceWrites j i a.fmt a.layout a.addr a.pitch a.bytes n (val a) else [])
    ++ (if a.raddr = 0 then []
        else surfaceWrites j i a.fmt a.rlayout a.raddr (Tex.derived a.fmt a.rlayout (TSet.width j.target)) a.bytes 1
          fun x y _ => resolveTexel a.fmt fun s => val a x y s)

/-- The tile numbers of an AREA of w × h tiles in Z order (R123): the bits of x and y interleaved. -/
def zOrder (w h : Nat) : List Nat :=
  ((List.range (4 ^ (Nat.log2 (max w h) + 1))).filterMap fun z =>
    let x := (List.range 9).foldl (fun a i => a + bits z (2 * i) 1 * 2 ^ i) 0
    let y := (List.range 9).foldl (fun a i => a + bits z (2 * i + 1) 1 * 2 ^ i) 0
    if x < w ∧ y < h then some (y * w + x) else none)

end Sys2Proof.Machine
end

