-- ==== Sys2Proof/Machine/Gfx.lean ====
section
/-! DEFINITION. The GFX engine (R103–R124, R131–R136): jobs, bin pools, binning, partial renders, escalation, tile dispatch and the order
scoreboard. -/

namespace Sys2Proof.Machine

/-! ### Jobs and cores -/

/-- The owner number of pair `r` for the GFX engine, which counts the manager (16) and the control world (17) apart (R107). -/
def Chip.gfxOwner (c : Chip) (r : Nat) : Nat := if c.ringOwner r = 1 then c.ringVi r else 14 + c.ringOwner r

def Chip.job (c : Chip) (k : Nat) : Option GJob := c.gfx.jobs.find? k
def Chip.setJob (c : Chip) (k : Nat) (j : GJob) : Chip := { c with gfx := { c.gfx with jobs := SMap.insert c.gfx.jobs k j } }
def Chip.gcore (c : Chip) (k : Nat) : Option GCore := c.gfx.cores.find? k
def Chip.setCore (c : Chip) (k : Nat) (g : GCore) : Chip := { c with gfx := { c.gfx with cores := SMap.insert c.gfx.cores k g } }
def Chip.poolOf (c : Chip) (p : Nat) : List Nat := c.gfx.pools.getD p []
def Chip.setPool (c : Chip) (p : Nat) (l : List Nat) : Chip := { c with gfx := { c.gfx with pools := SMap.put c.gfx.pools [] p l } }

/-- Chunks that the jobs of pool `p` hold. -/
def Chip.poolHeld (c : Chip) (p : Nat) : Nat := ((c.gfx.jobs.filter fun x => x.2.pool == p).map fun x => x.2.held.length).foldl (· + ·) 0

/-- POOL_STAT of pool `p`. -/
def Chip.poolShow (c : Chip) (p : Nat) : Chip :=
  (c.set (R.POOL.POOL_STAT.FREE p) (c.poolOf p).length).set (R.POOL.POOL_STAT.HELD p) (c.poolHeld p)

/-- POOL_STAT of pool `p`, whose free chunks were `was`: POOL_LOW is raised where FREE has fallen below LOW (R118). -/
def Chip.poolFell (c : Chip) (p was : Nat) : Chip :=
  let low := c.get (R.POOL.POOL_CFG.LOW p)
  (c.poolShow p).when (decide (low ≤ was) && decide ((c.poolOf p).length < low)) fun c => c.raise 0x0A2 p

/-- Pool `p` loses its free chunks: FLUSH, an unbound instance, PD_GFXC off (R118). -/
def Chip.poolEmpty (c : Chip) (p : Nat) : Chip := (c.setPool p []).poolFell p (c.poolOf p).length

/-- CTX_STAT and GRIST_STAT. -/
def Chip.gfxShow (c : Chip) : Chip :=
  let n := fun (f : GJob → Bool) => (c.gfx.jobs.filter fun x => f x.2).length
  let c1 := ((c.set R.GFX.CTX_STAT.USED c.gfx.jobs.length).set R.GFX.CTX_STAT.PARKED (n fun j => j.parked.isSome)).set
    R.GFX.CTX_STAT.ESCALATED (n fun j => j.escalated.isSome)
  (c1.set R.GRIST.GRIST_STAT.BINNING (n fun j => j.phase == 0)).set R.GRIST.GRIST_STAT.PARKED (n fun j => j.parked.isSome)

/-- Core `k` works on a job: as the owner of a tile or batch, or as a helper. -/
def Chip.coresOf (c : Chip) (ctx : Nat) : List Nat := ((c.gfx.cores.filter fun x => x.2.ctx == ctx).map fun x => x.1)

/-- SC_STAT of core `k`. -/
def Chip.coreShow (c : Chip) (k : Nat) : Chip :=
  let put := fun (o h s e p : Nat) =>
    ((((c.set (R.GFX_SC.SC_STAT.OWNER k) o).set (R.GFX_SC.SC_STAT.HELPING k) h).set (R.GFX_SC.SC_STAT.SPLIT k) s).set
      (R.GFX_SC.SC_STAT.EARLY k) e).set (R.GFX_SC.SC_STAT.PARTNER k) p
  match c.gcore k with
  | none => put 0x1F 0 0 0 0xF
  | some g =>
    let o := match c.job g.ctx with | some j => j.pool | none => 0x1F
    match g.helps with
    | some h => put o 1 1 0 h
    | none => put o 0 (b2n g.helper.isSome) (b2n (g.early && g.helper.isNone)) (g.helper.getD 0xF)

/-- Clocks of the GPU clock (loop 1, MHz) since `t`. -/
def Chip.gpuClocks (c : Chip) (t : Nat) : Nat := (c.ps - t) * c.loop 1 / 1000000

/-- The account of an owner on core `k`. -/
def Chip.served (c : Chip) (k own : Nat) : Nat := c.gfx.served.getD (32 * k + own) 0

/-- The clocks that core `k` has spent on what it now ends go to the owner's account (R123): those that passed, and at least the issue clocks of
the instructions that its waves executed (log entry 104). -/
def Chip.coreCharge (c : Chip) (k : Nat) : Chip :=
  match c.gcore k with
  | none => c
  | some g => match c.job g.ctx with
    | none => c
    | some j =>
      let n := max g.spent (g.ran + c.gpuClocks g.since)
      { c with gfx := { c.gfx with served := SMap.put c.gfx.served 0 (32 * k + j.own) (c.served k j.own + n) } }

/-- Core `k` has reached a boundary: its work is charged and forgotten, and no shader share waits for it any more (R79, R123). -/
def Chip.coreFree (c : Chip) (k : Nat) : Chip :=
  let c := c.coreCharge k
  let at_ := c.imx.shareAt.map fun x => if x.1 % 16 = 0 then (x.1, clearBits x.2 (1 <<< k)) else x
  ({ c with gfx := { c.gfx with cores := SMap.erase c.gfx.cores k }, imx := { c.imx with shareAt := at_ } }).coreShow k

/-! ### Reads through the GPU L2 and the texture units' read caches (R140, R256) -/

/-- Where the lines of owner `own` in cache `unit` begin: 0 the L2, `k` + 1 the read cache of texture unit `k`. -/
def cacheOf (unit own : Nat) : Nat := 32 * unit + own

/-- The key of the line of owner `own` at `a`. -/
def gLine (unit own a : Nat) : Nat := cacheOf unit own * 2 ^ 40 + a / 64 * 64

/-- The lines that `n` bytes from `a` touch. -/
def gLinesOf (a n : Nat) : List Nat := if n = 0 then [] else (List.range ((a + n - 1) / 64 - a / 64 + 1)).map fun i => (a / 64 + i) * 64

/-- Lines a cache has room for: 4 MiB, 16 KiB. -/
def lineRoom (unit : Nat) : Nat := if unit = 0 then 65536 else 256

/-- Memory as owner `own` finds it through cache `unit`: a line held answers for the memory behind it, unless it fails ECC. -/
def Chip.through (c : Chip) (unit own : Nat) (m : Memory) : Memory :=
  c.gfx.lines.foldl (fun m x =>
    if x.1 / 2 ^ 40 = cacheOf unit own && (unit != 0 || (c.eccFlaws Ecc.L2 (x.1 % 2 ^ 40) 64).isEmpty) then Memory.writeBytes m (x.1 % 2 ^ 40) x.2 else m) m

/-- What the GPU reads for owner `own`. -/
def Chip.gpuSees (c : Chip) (own : Nat) (m : Memory) : Memory := c.through 0 own m

/-- What texture unit `k` reads for owner `own`. -/
def Chip.texSees (c : Chip) (k own : Nat) (m : Memory) : Memory := c.through (k + 1) own (c.gpuSees own m)

/-- Drop the lines that `p` names. -/
def Chip.linesDrop (c : Chip) (p : Nat → Bool) : Chip := { c with gfx := { c.gfx with lines := c.gfx.lines.filter fun x => !p x.1 } }

/-- VALID_KIB counts the L2's lines. -/
def Chip.l2Show (c : Chip) : Chip := c.set R.GFX_L2.L2_STAT.VALID_KIB ((c.gfx.lines.filter fun x => decide (x.1 / 2 ^ 40 < 32)).length / 16)

/-- Cache `unit` takes in the line of owner `own` at `a`, as `mem` holds it. Which line makes room, if one does, is a free value; one must where the
cache is full (log entry 36). -/
def Chip.lineFill (c : Chip) (mem : Memory) (unit own a : Nat) : Chip :=
  let c := if unit = 0 then c.eccWrite Ecc.L2 a 64 else c
  let held := (c.gfx.lines.filter fun x => x.1 / 2 ^ 45 == unit).map fun x => x.1
  let v := c.fresh 17
  let gone := if held.length < lineRoom unit then held[v.1]? else held[v.1 % held.length]?
  let c := v.2.linesDrop fun k => gone == some k
  { c with gfx := { c.gfx with lines := SMap.insert c.gfx.lines (gLine unit own a) (mem.readBytes (a / 64 * 64) 64) } }

/-- The GPU reads the lines that `n` bytes from `a` touch for owner `own`, whose memory is `mem`: a line that fails ECC is dropped and fetched
again; false where DRAM holds an uncorrectable error in a line that is fetched. -/
def Chip.gpuRead (c : Chip) (mem : Memory) (own a n : Nat) : Bool × Chip :=
  let bad := c.eccFlaws Ecc.L2 a n
  let c := if bad.isEmpty then c
    else
      let c := c.linesDrop fun k => decide (k / 2 ^ 40 < 32) && bad.any fun f => f.1 == k % 2 ^ 40
      ({ c with flaws := bad.foldl (fun (m : SMap Nat) (f : Nat × Nat) => SMap.erase m (Ecc.key Ecc.L2 f.1)) c.flaws }.addSat R.GFX_L2.ECC_CNT.COUNT bad.length).raise 0x0D0 0
  let ls := gLinesOf a n
  let miss := ls.filter fun l => (c.gfx.lines.find? (gLine 0 own l)).isNone
  let c := (c.addSat R.GFX_L2.HIT_CNT.COUNT (ls.length - miss.length)).addSat R.GFX_L2.MISS_CNT.COUNT miss.length
  let r := miss.foldl (fun (r : Bool × Chip) l =>
    let g := r.2.dramCheck 0 l 64
    (r.1 && g.1, if g.1 then g.2.lineFill mem 0 own l else g.2)) (true, c)
  (r.1, r.2.l2Show)

/-- The same for several ranges. -/
def Chip.gpuReads (c : Chip) (mem : Memory) (own : Nat) (l : List (Nat × Nat)) : Bool × Chip :=
  l.foldl (fun r s => let x := r.2.gpuRead mem own s.1 s.2; (r.1 && x.1, x.2)) (true, c)

/-- Texture unit `k` reads ranges: what its read cache misses, the L2 answers. -/
def Chip.texReads (c : Chip) (mem : Memory) (k own : Nat) (l : List (Nat × Nat)) : Bool × Chip :=
  (l.flatMap fun s => gLinesOf s.1 s.2).foldl (fun (r : Bool × Chip) a =>
    if (r.2.gfx.lines.find? (gLine (k + 1) own a)).isSome then r
    else
      let x := (r.2.bump (R.GFX_TX.L1_MISS.COUNT k)).gpuRead mem own a 64
      (r.1 && x.1, if x.1 then x.2.lineFill mem (k + 1) own a else x.2)) (true, c)

/-- Every line of owner `own` is invalidated. -/
def Chip.linesInvalid (c : Chip) (own : Nat) : Chip :=
  ((c.linesDrop fun k => k / 2 ^ 40 % 32 == own).bump R.GFX_L2.INVAL_CNT.COUNT).l2Show

/-- A store of the GPU goes through the L2 to DRAM: a line there takes the bytes too (log entry 36). -/
def Chip.linesPut (c : Chip) (a : Nat) (bs : List Byte) : Chip :=
  let put := fun (x : Nat × List Byte) =>
    let l := x.1 % 2 ^ 40
    if x.1 / 2 ^ 40 < 32 ∧ l < a + bs.length ∧ a < l + 64 then
      (x.1, x.2.zipIdx.map fun b => if a ≤ l + b.2 then bs.getD (l + b.2 - a) b.1 else b.1)
    else x
  { c with gfx := { c.gfx with lines := c.gfx.lines.map put } }

/-- Perform writes of tiles. -/
def Chip.putAll (c : Chip) (m : Mems) (l : List (Nat × List Byte)) : Chip × Mems :=
  l.foldl (fun r w => (r.1.linesPut w.1 w.2).dramPut r.2 w.1 w.2) (c, m)

/-- The reads of DRAM that do not go through the L2: the loads of tiles. -/
def Chip.loadReads (c : Chip) (l : List (Nat × Nat)) : Bool × Chip :=
  l.foldl (fun r s => let x := r.2.dramCheck 0 s.1 s.2; (r.1 && x.1, x.2)) (true, c)

/-! ### Chunks (R117–R120) -/

/-- A 64 KiB chunk goes to a job: its old contents are gone, what Grist writes there is internal (log entry 37). -/
def Chip.chunkFill (c : Chip) (m : Mems) (a : Nat) : Chip × Mems :=
  let bs := (List.range 65536).map fun i => BitVec.ofNat 8 (Config.freeValue (c.free + i)).toNat
  { c with free := c.free + 65536 }.dramPut m a bs

/-- Job `k` takes a chunk: a spare one, else the oldest of its pool; none where the pool is empty. -/
def Chip.takeChunk (c : Chip) (m : Mems) (k : Nat) : Option (Chip × Mems) :=
  match c.job k with
  | none => none
  | some j =>
    match j.spare with
    | _ :: rest => some (c.setJob k { j with spare := rest, room := 65536 }, m)
    | [] =>
      match c.poolOf j.pool with
      | [] => none
      | a :: rest =>
        let c := ((c.setPool j.pool rest).setJob k { j with held := j.held ++ [a], room := 65536 }).poolFell j.pool (rest.length + 1)
        let low := rest.length + 1 == c.get (R.POOL.POOL_CFG.LOW j.pool)
        let c := if low then c.ringEvent j.ring 0x34 [] false else c
        some (c.chunkFill m a)

/-- Give job `k` `n` bytes of chunk space. -/
def Chip.chunkSpace (c : Chip) (m : Mems) (k n : Nat) : Option (Chip × Mems) :=
  match c.job k with
  | none => none
  | some j =>
    let r := if n ≤ j.room then some (c, m) else c.takeChunk m k
    r.map fun cm => match cm.1.job k with
      | none => cm
      | some j => (cm.1.setJob k { j with room := j.room - n }, cm.2)

/-- One more reference in the list of `tile` (65536: the wide list), in a new segment where the last is full. -/
def Chip.addRef (c : Chip) (m : Mems) (k tile : Nat) : Option (Chip × Mems) :=
  match c.job k with
  | none => none
  | some j =>
    let n := j.segs.getD tile 63
    let r := if n < 63 then some (c, m) else c.chunkSpace m k 256
    r.map fun cm => match cm.1.job k with
      | none => cm
      | some j => (cm.1.setJob k { j with segs := SMap.insert j.segs tile (if n < 63 then n + 1 else 1) }, cm.2)

/-- The tile numbers of a rectangle of target tiles, within the AREA. -/
def GJob.tilesIn (j : GJob) (r : Nat × Nat × Nat × Nat) : List Nat :=
  (List.range j.tileCount).filter fun i => let t := j.tileAt i; decide (r.1 ≤ t.1) && decide (t.1 ≤ r.2.2.1) && decide (r.2.1 ≤ t.2) && decide (t.2 ≤ r.2.2.2)

/-- Varying vectors a program writes. -/
def GProg.varyings (p : GProg) : Nat := popCount 15 (Prog.outMask p.image)

/-- Bytes of a primitive record (R117). -/
def recordBytes (st : GState) : Nat := 16 + Prim.verts st.prim * (16 + 8 * (match st.vprog with | some p => p.varyings | none => 0))

/-- Write the record and references of a primitive; none where a chunk is lacking. -/
def Chip.binRecord (c : Chip) (m : Mems) (k : Nat) (p : GPrim) : Option (Chip × Mems) :=
  match c.job k with
  | none => none
  | some j =>
    let lists := if p.wide then [65536] else j.tilesIn p.rect
    lists.foldl (fun r t => r.bind fun cm => cm.1.addRef cm.2 k t) (c.chunkSpace m k (recordBytes (j.state p.st)))

/-! ### Parking and partial render (R116, R119, R120) -/

/-- The last index before numbering restarts. -/
def lastIndex : Nat := 2 ^ 24 - 1

/-- Tile `i` of a job meets a primitive that it bins. -/
def GJob.meets (j : GJob) (i : Nat) : List GPrim :=
  let t := j.tileAt i
  j.prims.filter fun p => decide (p.rect.1 ≤ t.1) && decide (t.1 ≤ p.rect.2.2.1) && decide (p.rect.2.1 ≤ t.2) && decide (t.2 ≤ p.rect.2.2.2)

/-- Job `k` begins a partial render. -/
def Chip.partialStart (c : Chip) (k : Nat) : Chip :=
  match c.job k with
  | none => c
  | some j =>
    (c.setJob k { j with phase := 2, parked := none, tiles := (zOrder j.tw j.th).filter fun i => !(j.meets i).isEmpty }).gfxShow

/-- Job `k` parks for want of a chunk (R119). -/
def Chip.park (c : Chip) (k : Nat) : Chip :=
  match c.job k with
  | none => c
  | some j =>
    let c := (c.setJob k { j with parked := some c.led.lineNo, growWait := c.get R.GRIST.BIN_CFG.BIN_GROW_WAIT }).raise 0x0A1 0
    ((c.bump R.GRIST.BIN_GROW_CNT.COUNT).ringEvent j.ring E.BIN_GROW (leBytes 4 j.seq ++ leBytes 4 j.held.length) true).gfxShow

/-- One primitive of a draw goes through setup and into the bins (R114–R117). False where binning must stop at it. -/
def Chip.binOne (c : Chip) (m : Mems) (k : Nat) (d : GDraw) (prim : List Nat) : Bool × Chip × Mems :=
  match c.job k with
  | none => (false, c, m)
  | some j =>
    let st := j.state d.st
    let seen := fun (c : Chip) => c.bump R.GRIST.PRIM_IN.COUNT
    match setupPrim st d.st j.area (prim.headD 0) ((prim.drop 1).map fun i => d.done.getD i {}) with
    | .culled => (true, (seen c).bump R.GRIST.PRIM_CULLED.COUNT, m)
    | .curve => (true, (seen c).bump R.GRIST.CURVE_DISCARD.COUNT, m)
    | .gone => (true, seen c, m)
    | .keep p =>
      match tileRect (scissorOf st j.area) p.box with
      | none => (true, seen c, m)
      | some r =>
        if j.nextIdx = lastIndex then (false, c.partialStart k, m)
        else
          let p := { p with idx := j.nextIdx, rect := r }
          let p := { p with wide := decide (j.wideAt < (j.tilesIn r).length) }
          match c.binRecord m k p with
          | some cm => match cm.1.job k with
            | none => (false, cm)
            | some j' => (true, (seen cm.1).setJob k
                { j' with prims := j'.prims ++ [p], nextIdx := j'.nextIdx + 1, binned := min (2 ^ 32 - 1) (j'.binned + 1) }, cm.2)
          | none =>
            -- chunks that it could still take stay with the job for its next attempt
            let l := c.poolOf j.pool
            let cm := l.foldl (fun (a : Chip × Mems) _ => (a.1.takeChunk a.2 k).getD a) (c.setJob k { j with spare := [] }, m)
            match cm.1.job k with
            | none => (false, cm)
            | some g =>
              let kept := { j with held := g.held, spare := j.spare ++ g.held.drop j.held.length }
              (false, (cm.1.setJob k kept).park k, cm.2)

/-- Bin primitives until the draw ends or binning stops. -/
def Chip.binList (c : Chip) (m : Mems) (k : Nat) (d : GDraw) (l : List (List Nat)) : Chip × Mems :=
  match l with
  | [] => (match c.job k with
    | some j => c.setJob k { j with draw := none }
    | none => c, m)
  | p :: rest =>
    let r := c.binOne m k d p
    if r.1 then Chip.binList r.2.1 r.2.2 k d rest
    else match r.2.1.job k with
      | some j => (r.2.1.setJob k { j with draw := some { d with left := some (p :: rest) } }, r.2.2)
      | none => r.2

/-- Job `k` goes on binning its draw, if that is transformed and nothing holds it up. -/
def Chip.binGo (c : Chip) (m : Mems) (k : Nat) : Chip × Mems :=
  match c.job k with
  | none => (c, m)
  | some j =>
    match j.draw with
    | none => (c, m)
    | some d =>
      match d.left with
      | none => (c, m)
      | some l => if j.phase = 0 ∧ j.parked = none ∧ j.failed = none then c.binList m k d l else (c, m)

/-- Job `a` is binned before job `b`: the one escalated first, then the others, oldest first (R122). -/
def GJob.ahead (a b : GJob) : Bool :=
  match a.escalated, b.escalated with
  | some x, some y => decide (x < y) || (x == y && decide (a.no ≤ b.no))
  | some _, none => true
  | none, some _ => false
  | none, none => decide (a.no ≤ b.no)

/-- Parked jobs of pool `p` resume while it holds a chunk (R119), in the order of R122. -/
def Chip.unpark (c : Chip) (m : Mems) (p : Nat) : Chip × Mems :=
  let ks := (c.gfx.jobs.filter fun x => x.2.pool == p && x.2.parked.isSome).mergeSort fun a b => a.2.ahead b.2
  ks.foldl (fun (r : Chip × Mems) x =>
    match r.1.job x.1 with
    | none => r
    | some j =>
      if j.parked.isNone || (r.1.poolOf p).isEmpty then r
      else ((r.1.setJob x.1 { j with parked := none }).gfxShow).binGo r.2 x.1) (c, m)

/-! ### Completion (R108, R110) -/

/-- The job is late: the flip line that ends frame DEADLINE_FRAME − 1 of its output has begun (R121). -/
def Chip.jobLate (c : Chip) (j : GJob) : Bool :=
  let n := j.deadlineOut
  let d := sub32 (c.get (R.LDG_OUTS.FRAME.FRAME n)) (sub32 j.deadline 1)
  let line := c.get (R.LDG_OUTS.LINE.LINE n)
  let flip := c.get (R.SCN_OUT.FLIP.FLIP_LINE (c.leadOf n))
  j.hasDeadline && (if d = 0 then decide (flip < line) || (flip == line && decide ((c.scnOut n).lineAt < c.ps)) else decide (d < 2 ^ 31))

/-- A job leaves its context: its chunks return to the pool, its waves and cores stop. -/
def Chip.jobDrop (c : Chip) (m : Mems) (k : Nat) (j : GJob) : Chip × Mems :=
  let c := (c.coresOf k).foldl Chip.coreFree c
  let c := { c with gfx := { c.gfx with jobs := SMap.erase c.gfx.jobs k, waves := c.gfx.waves.filter fun w => w.2.ctx != k } }
  ((c.setPool j.pool (c.poolOf j.pool ++ j.held)).poolShow j.pool).gfxShow.unpark m j.pool

/-- Job `k` completes with a status; an error in a packet gives that packet's offset. -/
def Chip.jobEnd (c : Chip) (m : Mems) (k status : Nat) (errOff : Option Nat) : Chip × Mems :=
  match c.job k with
  | none => (c, m)
  | some j =>
    let late := c.jobLate j
    let flags := b2n j.escalated.isSome + 2 * b2n late + 4 * b2n errOff.isSome
    let result := leBytes 4 j.binned ++ leBytes 4 (errOff.getD j.stored) ++ leBytes 2 (min 65535 j.partials) ++ leBytes 1 flags ++ leBytes 1 0
    let st := if status = 0 ∧ 0 < j.partials then E.PARTIAL_RENDER else status
    let c := (c.finish j.ring j.seq st result).bump R.GFX.JOB_CNT.COUNT
    let c := if late then c.bump R.GFX.LATE_CNT.COUNT else c
    let c := if status ≠ 0 then (c.bump R.GFX.ERR_CNT.COUNT).raise 0x0A0 2 else c
    c.jobDrop m k j

/-- An aborted job leaves once no core works on it any more (R83, R124). -/
def Chip.jobGone (c : Chip) (m : Mems) (k : Nat) : Chip × Mems :=
  match c.job k with
  | some j => if j.failed.isSome ∧ (c.coresOf k).isEmpty then c.jobDrop m k j else (c, m)
  | none => (c, m)

/-- The jobs of owner `own` are aborted at each core's next tile boundary (R124). -/
def Chip.gfxAbort (c : Chip) (m : Mems) (own : Nat) : Chip × Mems :=
  ((c.gfx.jobs.filter fun x => x.2.own == own).map fun x => x.1).foldl (fun (r : Chip × Mems) k =>
    match r.1.job k with
    | none => r
    | some j => (r.1.setJob k { j with failed := some (256, none), tiles := [], draw := none, parked := none }).gfxShow.jobGone r.2 k) (c, m)

/-- The GFX engine holds a job of owner `own`. -/
def Chip.gfxHolds (c : Chip) (own : Nat) : Bool := c.gfx.jobs.any fun x => x.2.own == own

/-- JOB_COMPLETE (R108): every tile of context `j` has been stored. -/
def execJobComplete (j : Nat) (s : State) : Host.Outcome State Fault Refusal :=
  s.onMem (j < 16) fun c m => match c.job j with
    | none => (c, m)
    | some x => if x.phase = 1 ∧ x.tiles.isEmpty ∧ (c.coresOf j).isEmpty then c.jobEnd m j 0 none else (c, m)

/-- BIN_GROW_WAIT_EXPIRY (R119): job `j` has been parked for BIN_GROW_WAIT lines. -/
def execBinGrowWaitExpiry (j : Nat) (s : State) : Host.Outcome State Fault Refusal :=
  s.on (j < 16) fun c => match c.job j with
    | none => c
    | some x => match x.parked with
      | none => c
      | some t => if t + x.growWait ≤ c.led.lineNo then c.partialStart j else c

/-- PARTIAL_RENDER_DONE (R120): the stores of job `j`'s partial render are acknowledged. -/
def execPartialRenderDone (j : Nat) (s : State) : Host.Outcome State Fault Refusal :=
  s.onMem (j < 16) fun c m => match c.job j with
    | none => (c, m)
    | some x =>
      if x.phase = 2 ∧ x.tiles.isEmpty ∧ (c.coresOf j).isEmpty ∧ x.failed = none then
        let x := { x with phase := 0, spare := x.held, prims := [], segs := [], room := 0, partials := x.partials + 1,
                          nextIdx := if x.nextIdx = lastIndex then 0 else x.nextIdx }
        (((c.setJob j x).bump R.GFX.PR_CNT.COUNT).raise 0x0A0 1).gfxShow.binGo m j
      else (c, m)

/-! ### Escalation (R121) -/

/-- A job whose deadline a firing in frame `n` covers. -/
def GJob.covered (j : GJob) (n1 : Nat) : Bool := j.hasDeadline && decide (sub32 n1 j.deadline < 2 ^ 31)

/-- GFX_ESCALATE: the escalation slot of output `n` fires. -/
def Chip.escalate (c : Chip) (n : Nat) : Chip :=
  let n1 := (c.get (R.LDG_OUTS.FRAME.FRAME n) + 1) % 2 ^ 32
  let hit := fun (j : GJob) => j.escalated.isNone && j.deadlineOut == n && j.covered n1 && j.failed.isNone
  let k := (c.gfx.jobs.filter fun x => hit x.2).length
  let jobs := c.gfx.jobs.map fun x => if hit x.2 then (x.1, { x.2 with escalated := some c.gfx.escs }) else x
  ({ c with gfx := { c.gfx with jobs := jobs, escs := c.gfx.escs + 1, fired := SMap.insert c.gfx.fired n n1 } }.addSat R.GFX.ESC_CNT.COUNT k).gfxShow

/-! ### Ring entries (R103–R107) -/

/-- GFX_NOP (R103): the NOP at the head of pair `r`'s issued entries completes. -/
def execGfxNop (r : Nat) (s : State) : Host.Outcome State Fault Refusal :=
  s.on (r < 64) fun c => match c.freshEntry r 0 0 with
    | none => c
    | some e => c.finish r e.seq 0 []

/-- The checks of BIN_CHUNKS (R106) on entry `b` of owner `own`. -/
def Chip.chunkCheck (c : Chip) (own : Nat) (b : List Byte) : Option Nat :=
  let n := fieldAt b 0x10 1
  let a := fun i => fieldAt b (0x18 + 8 * i) 8
  firstFail [
    (zeroAt b 0x11 7 && zeroAt b (0x18 + 8 * n) (40 - 8 * n), E.RESERVED),
    (decide (1 ≤ n) && decide (n ≤ 5), E.VALUE),
    ((List.range n).all fun i => a i % 65536 == 0, E.ALIGN),
    ((List.range n).all fun i => c.dramOk own (a i) 65536, E.RANGE),
    (decide ((c.poolOf (min 16 own)).length + c.poolHeld (min 16 own) + n ≤ 1024), 0x31) ]

/-- BIN_CHUNKS (R106, R118). -/
def execBinChunks (r : Nat) (s : State) : Host.Outcome State Fault Refusal :=
  s.onMem (r < 64) fun c m => match c.freshEntry r 0 2 with
    | none => (c, m)
    | some e =>
      let own := c.gfxOwner r
      let p := min 16 own
      match c.chunkCheck own e.bytes with
      | some code => (c.finish r e.seq code [], m)
      | none =>
        let l := (List.range (fieldAt e.bytes 0x10 1)).map fun i => fieldAt e.bytes (0x18 + 8 * i) 8
        (((c.setPool p (c.poolOf p ++ l)).poolShow p).finish r e.seq 0 []).unpark m p

/-- POOL_FLUSH (R118): a write of POOL_CFG. -/
def Chip.poolWrite (c : Chip) (src : Src) (p data : Nat) : Chip :=
  c.port src 0x0A2 (0x040 + 8 * p)
    [ (c.mgrOrCtl src, E.OWNER), (bits data 11 20 == 0, E.RESERVED), (decide (bits data 0 11 ≤ 1024), E.VALUE) ] fun c =>
    let c := c.set (R.POOL.POOL_CFG.LOW p) (bits data 0 11)
    if data.testBit 31 then c.poolEmpty p else c

/-- POOL_FLUSH (R118): POOL_CFG of pool `p` is written with FLUSH set. -/
def execPoolFlush (src : Src) (p : Nat) (s : State) : Host.Outcome State Fault Refusal :=
  s.on (p < 17) fun c => c.poolWrite src p (2 ^ 31 + c.get (R.POOL.POOL_CFG.LOW p))

/-- The lowest free context. -/
def Chip.freeCtx (c : Chip) : Option Nat := firstIdx 16 fun k => (c.job k).isNone

/-- A context is free to owner `own` (R107). -/
def Chip.ctxFree (c : Chip) (own : Nat) : Bool :=
  c.freeCtx.isSome && decide ((c.gfx.jobs.filter fun x => x.2.own == own).length < c.get R.GFX.GFX_CFG.CTX_PER_OWNER)

/-- The GFX selector's own condition on the head of pair `r` (R107, R124). Entries issued and not yet taken up count as holding a context. -/
def Chip.gfxCan (c : Chip) (r : Nat) : Bool :=
  let own := c.gfxOwner r
  let waiting := fun (p : Nat → Bool) => ((List.range 64).map fun q =>
    if c.ringClass q = 0 ∧ p q then ((c.ring q).issued.filter fun e => e.fresh && e.opcode == 1).length else 0).foldl (· + ·) 0
  let used := fun (p : GJob → Bool) => (c.gfx.jobs.filter fun x => p x.2).length
  let head := match (c.ring r).fetched with
    | [] => true
    | e :: _ => e.opcode != 1 || (decide (used (fun _ => true) + waiting (fun _ => true) < 16)
        && decide (used (fun j => j.own == own) + waiting (fun q => c.ringOwner q != 0 && c.gfxOwner q == own) < c.get R.GFX.GFX_CFG.CTX_PER_OWNER))
  c.pdFree PD.GFXC && head

/-- The checks of a JOB on entry `b` (R104, R105); `ts` are the bytes of its target set. -/
def Chip.jobCheck (c : Chip) (own : Nat) (b ts : List Byte) : Option Nat :=
  let cmd := fieldAt b 0x10 8
  let len := fieldAt b 0x18 4
  let spill := fieldAt b 0x20 8
  let tgt := fieldAt b 0x30 8
  let kib := fieldAt b 0x38 4
  let s := if (fieldAt b 0x2D 1).testBit 0 then 4 else 1
  let a := fieldAt b 0x1C 4
  let area := decide (bits a 0 8 + bits a 16 8 + 1 ≤ (TSet.width ts + 31) / 32) && decide (bits a 8 8 + bits a 24 8 + 1 ≤ (TSet.height ts + 31) / 32)
  let tiles := (bits a 16 8 + 1) * (bits a 24 8 + 1)
  firstFail [
    (fieldAt b 0x2C 1 / 16 == 0 && fieldAt b 0x2D 1 / 2 == 0 && zeroAt b 0x2E 2 && zeroAt b 0x3C 4, E.RESERVED),
    (cmd % 256 == 0 && spill % 4096 == 0 && tgt % 64 == 0, E.ALIGN),
    (len % 4 == 0 && decide (4 ≤ len) && decide (len ≤ 2 ^ 24), E.VALUE),
    (c.dramOk own cmd len && c.dramOk own tgt 64 && (spill == 0 || c.dramOk own spill (kib * 1024)), E.RANGE),
    (TSet.valid ts s && area, 0x33),
    ((TSet.extents ts).all fun x => c.dramOk own x.1 x.2, E.RANGE),
    (TSet.direct ts || spill != 0, E.VALUE),
    (TSet.direct ts || decide (tiles * TSet.tileState ts s ≤ kib * 1024), E.SHORT) ]

/-- GFX_JOB (R105, R107, R121, R140): the JOB entry of pair `r` starts binning. -/
def execGfxJob (r : Nat) (s : State) : Host.Outcome State Fault Refusal :=
  s.on (r < 64) fun c => match c.freshEntry r 0 1, c.freeCtx with
    | some e, some k =>
      let own := c.gfxOwner r
      if !c.ctxFree own || !c.pdOn PD.GFXC then c
      else
        let ts := Memory.readBytes s.mem.dram (fieldAt e.bytes 0x30 8) 64
        match c.jobCheck own e.bytes ts with
        | some code => ((c.finish r e.seq code (padTo 12 [])).bump R.GFX.JOB_CNT.COUNT |>.bump R.GFX.ERR_CNT.COUNT).raise 0x0A0 2
        | none =>
          let c := c.linesInvalid own
          let g := c.gpuRead s.mem.dram own (fieldAt e.bytes 0x30 8) 64
          let c := g.2.takeUp r e.seq
          if !g.1 then ((c.finish r e.seq 0x3E (padTo 12 [])).bump R.GFX.JOB_CNT.COUNT |>.bump R.GFX.ERR_CNT.COUNT).raise 0x0A0 2
          else
          let dl := fieldAt e.bytes 0x2C 1
          let live := dl.testBit 3 && c.outRunning (dl % 8)
          let entry := if live then e.bytes else putAt e.bytes 0x2C 1 0
          let j : GJob := { ring := r, seq := e.seq, own := own, no := c.gfx.issued, entry := entry, target := ts,
                            code := (fieldAt e.bytes 0x10 8, fieldAt e.bytes 0x18 4, 0), wideAt := c.get R.GRIST.BIN_CFG.WIDE_THRESH }
          let late := live && c.get (R.GFX.ESCALATE.LINES (dl % 8)) != 0 && (match c.gfx.fired.find? (dl % 8) with
            | some n1 => j.covered n1
            | none => false)
          let j := if late then { j with escalated := some c.gfx.escs } else j
          let c := { c with gfx := { c.gfx with issued := c.gfx.issued + 1, escs := c.gfx.escs + b2n late } }
          let c := if late then c.bump R.GFX.ESC_CNT.COUNT else c
          (c.setJob k j).gfxShow
    | _, _ => c

/-! ### Rasterisation and dealing (R131, R132, R135, R136) -/

/-- Blending of a draw state uses SRC_ALPHA_SAT. -/
def usesAlphaSat (st : GState) : Bool :=
  (List.range 4).any fun k =>
    let w := blendWord st k
    w.testBit 2 && (bits w 3 4 == 14 || bits w 7 4 == 14 || bits w 14 4 == 14 || bits w 18 4 == 14)

/-- Early tests are permitted for a draw state on a tile that is not split (R132, R147). -/
def earlyOk (st : GState) : Bool :=
  (match st.fprog with | some p => Prog.flags p.image % 4 == 0 | none => false) && !usesAlphaSat st

/-- A quad on its way to a wave: draw state, four lanes, helper lanes. -/
structure GQuad where
  st : Nat
  lanes : List GLane
  helper : Nat
  deriving DecidableEq, Repr

/-- Fragments of core `k`'s tile that have been issued with their tests still to run. -/
def Chip.lateOut (c : Chip) (k : Nat) (g : GCore) : Bool :=
  (c.gfx.waves.any fun w => w.2.frag && w.2.home == k && w.2.lanes.any fun l => !l.early) || (g.frags.any fun f => !f.early)
    || g.queue.any fun q => q.lanes.any fun l => match l with | some x => !x.early | none => false

/-- One quad of a primitive: its fragments, with early tests where `early`; tile memory and tallies move on. -/
def dealQuad (j : GJob) (p : GPrim) (i : Nat) (early : Bool) (x y : Nat) (g : GCore) : GCore × Option GQuad :=
  let st := j.state p.st
  let sc := scissorOf st j.area
  let px := [(x, y), (x + 1, y), (x, y + 1), (x + 1, y + 1)]
  let cov := px.map fun q =>
    if sc.1 ≤ q.1 ∧ q.1 < sc.2.2.1 ∧ sc.2.1 ≤ q.2 ∧ q.2 < sc.2.2.2 then
      let m := p.mask st.prim j.msaa q.1 q.2
      (m.1 &&& st.sampleMask, m.2)
    else (0, (p.mask st.prim j.msaa q.1 q.2).2)
  if cov.all fun v => v.1 == 0 then (g, none)
  else
    let step := fun (a : GCore × List GLane × Nat) (v : ((Nat × Nat) × (Nat × Nat)) × Nat) =>
      let q := v.1.1
      let m := v.1.2.1
      if m = 0 then (a.1, a.2.1 ++ [{ a := q.1, b := q.2, i := i, cov := v.1.2.2, early := true : GLane }], putBit a.2.2 v.2 true)
      else
        let t := if early then testSamples j p [] q.1 q.2 m a.1.mem else (m, a.1.mem)
        ({ a.1 with mem := t.2 }, a.2.1 ++ [{ a := q.1, b := q.2, i := i, mask := m, cov := v.1.2.2, pass := t.1, early := early : GLane }], a.2.2)
    let r := ((px.zip cov).zipIdx).foldl step (g, [], 0)
    if early && r.2.1.all (fun l => l.pass == 0) then (r.1, none)
    else
      let tag := fun (a : GCore × List GLane) (v : GLane × Nat) =>
        if r.2.2.testBit v.2 then (a.1, a.2 ++ [v.1])
        else
          let n := pixelOf v.1.a v.1.b
          let o := a.1.tally.getD n 0
          ({ a.1 with tally := SMap.put a.1.tally 0 n ((o + 1) % 65536) }, a.2 ++ [{ v.1 with ord := o }])
      let t := r.2.1.zipIdx.foldl tag (r.1, [])
      (t.1, some { st := p.st, lanes := t.2, helper := r.2.2 })

/-- Quads into waves of up to 16 with one draw state each. -/
def packWaves (core : Nat) (l : List GQuad) : List GNext :=
  (l.foldl (fun (a : List (GNext × Nat)) q =>
    let fresh : GNext × Nat := ({ core := core, st := q.st, lanes := q.lanes.map some, helper := q.helper }, 1)
    match a with
    | [] => [fresh]
    | (w, n) :: rest =>
      if w.st = q.st ∧ n < 16 then ({ w with lanes := w.lanes ++ q.lanes.map some, helper := w.helper + q.helper * 2 ^ (4 * n) }, n + 1) :: rest
      else fresh :: a) []).reverse.map fun x => x.1

/-- Quads of core `k`'s tile that are issued and not retired. -/
def Chip.quadsOut (c : Chip) (k : Nat) (g : GCore) : Nat :=
  let quads := fun (l : List Nat) => (l.map (· / 4)).foldl (· + ·) 0
  let waiting := distinct (g.frags.map fun f => (f.i * 16 + f.y % 32 / 2) * 16 + f.x % 32 / 2)
  quads ((c.gfx.waves.filter fun w => w.2.frag && w.2.home == k).map fun w => w.2.lanes.length) + quads (g.queue.map fun q => q.lanes.length) + waiting.length

/-- At most this many quads of a tile are issued and not retired (R136). -/
def quadLimit : Nat := 2048

/-- Rasterisation of a run: the core's tile memory and tallies, the quads issued, how many more may be, whether a primitive has had to be tested
late, and where it stopped for want of room. -/
structure Deal where
  g : GCore
  out : List GQuad := []
  room : Nat
  late : Bool
  stop : Option Nat := none

/-- Quad place `n` of a run: 256 per primitive. -/
def dealPlace (j : GJob) (run : List (GPrim × Nat)) (o : Nat × Nat) (first n : Nat) (a : Deal) : Deal :=
  match run[n / 256]? with
  | none => a
  | some pi =>
    if n < first ∨ a.stop.isSome then a
    else if a.room = 0 then { a with stop := some n }
    else
      let early := a.g.helper.isNone && !a.late && earlyOk (j.state pi.1.st)
      let q := n % 256
      let d := dealQuad j pi.1 pi.2 early (32 * o.1 + 2 * (q % 16)) (32 * o.2 + 2 * (q / 16)) a.g
      { g := { d.1 with early := d.1.early || early }, out := a.out ++ d.2.toList, room := a.room - b2n d.2.isSome,
        late := a.late || (!early && d.2.isSome) }

/-- The present run of 32 list positions of core `k`'s tile is rasterised and dealt, as far as the limit of R136 allows. -/
def Chip.dealRun (c : Chip) (k : Nat) : Chip :=
  match c.gcore k with
  | none => c
  | some g =>
    match c.job g.ctx, g.tile with
    | some j, some t =>
      let run := (g.list.zipIdx.drop (32 * g.pos)).take 32
      let home := match g.helper with
        | some h => if g.joined ≤ g.pos ∧ (g.pos - g.joined) % 2 = 1 then h else k
        | none => k
      let r := forN (256 * run.length) ({ g := g, room := quadLimit - c.quadsOut k g, late := c.lateOut k g } : Deal)
        fun n a => dealPlace j run (j.tileAt t) g.quad n a
      let g' := { r.g with queue := g.queue ++ packWaves home r.out, quad := r.stop.getD 0, pos := if r.stop.isSome then g.pos else g.pos + 1 }
      (c.setCore k g').coreShow k
    | _, _ => c

/-- Waves in flight on core `k`. -/
def Chip.wavesOn (c : Chip) (k : Nat) : List (Nat × GWave) := c.gfx.waves.filter fun w => w.2.core == k

/-- A free wave place on core `k` for a program of `nreg` registers (R149). -/
def Chip.waveSlot (c : Chip) (k nreg : Nat) : Option Nat :=
  let on := c.wavesOn k
  if (on.map fun w => w.2.nreg).foldl (· + ·) 0 + nreg ≤ 512 then
    (firstIdx 16 fun i => (c.gfx.waves.find? (16 * k + i)).isNone).map fun i => 16 * k + i
  else none

/-- Start the waves of core `k`'s tile that have room, dealing further runs as the queue empties (R131, R136, R149). -/
def Chip.launch (c : Chip) (k : Nat) (fuel : Nat) : Chip :=
  match fuel with
  | 0 => c
  | n + 1 =>
    match c.gcore k with
    | none => c
    | some g =>
      match g.queue, c.job g.ctx with
      | [], _ => if 32 * g.pos < g.list.length ∧ c.quadsOut k g < quadLimit then Chip.launch (c.dealRun k) k n else c
      | q :: rest, some j =>
        match (j.state q.st).fprog with
        | none => c
        | some p =>
          match c.waveSlot q.core (Prog.nreg p.image) with
          | none => c
          | some w =>
            let x : GWave := { core := q.core, home := k, ctx := g.ctx, frag := true, st := q.st, code := Prog.code p.image,
                               nreg := Prog.nreg p.image, active := 2 ^ q.lanes.length - 1, helper := q.helper,
                               lanes := q.lanes.map fun l => l.getD { a := 0, b := 0, i := 0 } }
            let c := { c with gfx := { c.gfx with waves := SMap.insert c.gfx.waves w x } }
            Chip.launch (c.setCore k { g with queue := rest }) k n
      | _, none => c

/-- Enough for every wave that a tile can start at once. -/
def launchFuel (g : GCore) : Nat := g.queue.length + g.list.length + 64

/-- Everything dealt of core `k`'s tile has been shaded and retired. -/
def Chip.tileDone (c : Chip) (k : Nat) (g : GCore) : Bool :=
  g.queue.isEmpty && decide (g.list.length ≤ 32 * g.pos) && g.frags.isEmpty && !(c.gfx.waves.any fun w => w.2.frag && w.2.home == k)

/-! ### Retirement (R136) -/

/-- Fragment `f` of core `g`'s tile meets its late tests and the blend unit. -/
def retireFrag (j : GJob) (g : GCore) (f : GFrag) : GCore :=
  match g.list[f.i]? with
  | none => g
  | some p =>
    if f.killed then g
    else
      let t := if f.early then (f.pass, g.mem) else testSamples j p f.outs f.x f.y f.mask g.mem
      { g with mem := blendSamples j p f.outs f.x f.y t.1 t.2 }

/-- FRAGMENT_RETIRE (R136): the first waiting fragment of core `k`'s tile whose ordinal the scoreboard shows. -/
def execFragmentRetire (k : Nat) (s : State) : Host.Outcome State Fault Refusal :=
  s.on (k < 12) fun c => match c.gcore k with
    | none => c
    | some g =>
      match c.job g.ctx, g.frags.find? (fun (f : GFrag) => g.board.getD (pixelOf f.x f.y) 0 == f.ord) with
      | some j, some f =>
        let n := pixelOf f.x f.y
        let waited := g.frags.head? != some f
        let g := retireFrag j g f
        let g := { g with board := SMap.put g.board 0 n ((f.ord + 1) % 65536), frags := g.frags.erase f }
        let w := c.fresh 8
        let c := if waited then w.2.addSat (R.GFX_SC.ORDER_STALL.COUNT k) w.1 else c
        (c.setCore k g).launch k (launchFuel g)
      | _, _ => c

/-! ### Tile boundaries (R123, R124, R135) -/

/-- Owner `own` may use core `k`. -/
def Chip.mayUse (c : Chip) (own k : Nat) : Bool :=
  let s := c.share own
  decide (16 ≤ own) || (if s.gfxMode = 0 then s.gfxMask.testBit k else s.gfxWeight != 0)

/-- The target of an owner (R123). -/
def Chip.coreTarget (c : Chip) (own : Nat) : Nat :=
  let s := c.share own
  if 16 ≤ own then 256 - c.get R.IMX.BW_SUM.SUM else if s.gfxMode = 1 then s.gfxWeight else s.bw

/-- The job has a vertex batch or a tile to give. -/
def GJob.hasWork (j : GJob) : Bool :=
  j.failed.isNone && (!j.tiles.isEmpty || (j.phase == 0 && match j.draw with
    | some d => decide (d.sent < d.shade.length)
    | none => false))

/-- The context whose work core `k` picks (R123), and the rotating pointers afterwards. -/
def Chip.pickJob (c : Chip) (k : Nat) : Option (Nat × Chip) :=
  let cand := c.gfx.jobs.filter fun x => x.2.hasWork && c.mayUse x.2.own k
  let esc := cand.filterMap fun x => x.2.escalated
  match esc with
  | e :: es =>
    let first := es.foldl min e
    match nextAfter 16 (c.arbPtr (0x200 + k) 16) fun n => cand.any fun x => x.1 == n && x.2.escalated == some first with
    | none => none
    | some n => some (n, { c with fab := { c.fab with ptr := c.fab.ptr.insert (0x200 + k) n } })
  | [] =>
    let owners := (List.range 18).filter fun o => cand.any fun x => x.2.own == o
    let pos := owners.filter fun o => decide (0 < c.coreTarget o)
    let owners := if pos.isEmpty then owners else pos
    -- account / max(target, 1), compared by cross products
    let le := fun o p => decide (c.served k o * max 1 (c.coreTarget p) ≤ c.served k p * max 1 (c.coreTarget o))
    match nextAfter 18 (c.arbPtr (0x210 + k) 18) fun o => owners.contains o && owners.all fun p => le o p with
    | none => none
    | some o =>
      let mine := cand.filter fun x => x.2.own == o
      match mine with
      | [] => none
      | x :: xs =>
        let oldest := xs.foldl (fun (a b : Nat × GJob) => if b.2.no < a.2.no then b else a) x
        some (oldest.1, { c with fab := { c.fab with ptr := c.fab.ptr.insert (0x210 + k) o } })

/-- Core `k` starts the next vertex batch of context `n` (R112, R148). -/
def Chip.startBatch (c : Chip) (k n : Nat) (j : GJob) (d : GDraw) : Chip :=
  match (j.state d.st).vprog with
  | none => c
  | some p =>
    let part := (d.shade.drop d.sent).take 64
    let lane := fun (v : (Nat × Nat) × Nat) => ({ a := d.sent + v.2, b := v.1.1, i := v.1.2 : GLane })
    let w : GWave := { core := k, home := k, ctx := n, frag := false, st := d.st, code := Prog.code p.image, nreg := Prog.nreg p.image,
                       active := 2 ^ part.length - 1, lanes := part.zipIdx.map lane }
    let c := { c with gfx := { c.gfx with waves := SMap.insert c.gfx.waves (16 * k) w } }
    ((c.setJob n { j with draw := some { d with sent := d.sent + part.length } }).setCore k { ctx := n, since := c.ps }).coreShow k

/-- Core `k` starts the next tile of context `n` (R131). -/
def Chip.startTile (c : Chip) (m : Mems) (k n : Nat) (j : GJob) (t : Nat) (rest : List Nat) : Chip × Mems :=
  let g := c.loadReads (loadSpans j t)
  let c := (g.2.setJob n { j with tiles := rest }).addSat (R.GFX_TX.NFR_BAD.COUNT k) (loadBad m.dram j t)
  if !g.1 then c.jobEnd m n 0x3E none
  else
    let list := j.meets t
    let th := c.get (R.GFX_SC.SPLIT_CFG.THRESH k)
    let x : GCore := { ctx := n, tile := some t, since := c.ps, list := list, mem := loadTile m.dram j t, heavy := th != 0 && decide (th < list.length) }
    (((c.setCore k x).launch k (launchFuel x)).coreShow k, m)

/-- Core `k`, which found no work of its own, joins a heavy tile in progress (R135). -/
def Chip.joinTile (c : Chip) (k : Nat) : Chip :=
  let open_ := c.gfx.cores.filter fun x => x.2.heavy && x.2.tile.isSome && x.2.helper.isNone && decide (32 * x.2.pos < x.2.list.length)
    && (match c.job x.2.ctx with | some j => c.mayUse j.own k | none => false)
  let rank := fun (x : Nat × GCore) =>
    let e := match c.job x.2.ctx with | some j => j.escalated | none => none
    -- earliest-escalated first, then most primitives not yet dealt, then the lowest core
    ((match e with | some n => n | none => c.gfx.escs), x.2.list.length - 32 * x.2.pos)
  let better := fun (a b : Nat × GCore) => let p : Nat × Nat := rank a; let q : Nat × Nat := rank b; decide (q.1 < p.1) || (q.1 == p.1 && decide (p.2 < q.2))
  match open_ with
  | [] => c
  | x :: xs =>
    let o := xs.foldl (fun a b => if better a b then b else a) x
    let c := (c.setCore o.1 { o.2 with helper := some k, joined := o.2.pos + b2n (o.2.quad != 0) }).setCore k { ctx := o.2.ctx, helps := some o.1, since := c.ps }
    (((c.bump (R.GFX_SC.SPLIT_CNT.COUNT o.1)).bump (R.GFX_SC.HELP_CNT.COUNT k)).coreShow k).coreShow o.1

/-- Core `k` is free and picks its next work. -/
def Chip.pickWork (c : Chip) (m : Mems) (k : Nat) : Chip × Mems :=
  if !c.pdFree (PD.GFX k) then (c, m)
  else match c.pickJob k with
  | none => (c.joinTile k, m)
  | some (n, c) =>
    match c.job n with
    | none => (c, m)
    | some j =>
      match j.tiles, j.draw with
      | t :: rest, _ => c.startTile m k n j t rest
      | [], some d => (c.startBatch k n j d, m)
      | [], none => (c, m)

/-- Core `k` stores its finished tile `t` (R120, R131, R134). -/
def Chip.storeTile (c : Chip) (m : Mems) (k : Nat) (g : GCore) (j : GJob) (t : Nat) : Chip × Mems :=
  let pass := j.phase == 2
  let r := c.putAll m (storeWrites j t g.mem pass)
  let j' := if pass then { j with spilled := t :: j.spilled.filter (· != t) } else { j with stored := j.stored + 1 }
  let c := ((r.1.setJob g.ctx j').bump (R.GFX_SC.TILE_CNT.COUNT k)).coreFree k
  (match g.helper with | some h => c.coreFree h | none => c, r.2)

/-- Core `k` has reached a boundary: what it had is over. None while it is still at work. -/
def Chip.boundary (c : Chip) (m : Mems) (k : Nat) : Option (Chip × Mems) :=
  match c.gcore k with
  | none => some (c, m)
  | some g =>
    match g.helps, g.tile with
    | some h, _ =>
      match c.gcore h with
      | none => some (c.coreFree k, m)
      | some o =>
        if o.list.length ≤ 32 * o.pos ∧ o.queue.isEmpty ∧ !(c.gfx.waves.any fun w => w.2.frag && w.2.home == h) then
          some (((c.setCore h { o with helper := none, heavy := false }).coreFree k).coreShow h, m)
        else none
    | none, some t =>
      if !c.tileDone k g then none
      else match c.job g.ctx with
        | none => some (c.coreFree k, m)
        | some j => let r := c.storeTile m k g j t; some (r.1.jobGone r.2 g.ctx)
    | none, none => if (c.wavesOn k).isEmpty then let r := c.coreFree k; some (r.jobGone m g.ctx) else none

/-- TILE_BOUNDARY (R123): core `k` finishes its tile or batch and picks its next work. -/
def execTileBoundary (k : Nat) (s : State) : Host.Outcome State Fault Refusal :=
  s.onMem (k < 12) fun c m => match c.boundary m k with
    | none => (c, m)
    | some r => r.1.pickWork r.2 k

end Sys2Proof.Machine
end

