-- ==== Sys2Proof/Machine/Fire.lean ====
section
/-! DEFINITION. The firing of schedule slots (R25, R26, R28). -/

namespace Sys2Proof.Machine

/-- Slot `k` is armed and its target line has begun, or the base has jumped past it (log entry 77). -/
def Chip.ssDue (c : Chip) (k : Nat) : Bool :=
  let b := c.baseNow (c.ssBase k)
  c.ssState k == SS.ARMED && b.2.2.2 && !later (c.ssFrame k) (c.ssLine k) b.1 b.2.1

/-- The action of a slot (R28). -/
def Chip.slotDispatch (c : Chip) (isl : Memory) (action arg : Nat) : Chip :=
  if action = 1 then c.flipLatch isl (arg % 8)
  else if action = 2 then c.escalate (arg % 8)
  else if action = 3 then c.dmaFired (arg % 32)
  else if action = 4 then c.tchWindow (arg % 4) (bits arg 8 8)
  else if action = 5 then c.drcBlank
  else if action = 6 then c.drcRetrain
  else if action = 7 then (c.set R.LDG.SLOT_IRQ.BITS (c.get R.LDG.SLOT_IRQ.BITS ||| 1 <<< (arg % 32))).raise 0x010 6
  else c

/-- Slot `k` fires: a periodic slot is armed again PERIOD frames later, another one is spent and its pool slot free. -/
def Chip.slotFire (c : Chip) (isl : Memory) (k : Nat) : Chip :=
  let n := k / 64
  let i := k % 64
  let action := c.ssAction k
  let arg := c.ssArg k
  let c := { c.bump (R.LDG_SLOTS.SS_STAT.FIRES n i) with led := { c.led with fireStamp := c.led.fireStamp.insert k (c.stamp) } }
  let c := if c.flag (R.LDG_SLOTS.SS_TGT.MODE n i) then
      c.set (R.LDG_SLOTS.SS_FRAME.FRAME n i) (c.ssFrame k + c.get (R.LDG_SLOTS.SS_TGT.PERIOD n i))
    else { c.setSs k SS.FIRED with led := { c.led with held := c.led.held.erase k } }
  c.slotDispatch isl action arg

/-- SLOT_FIRE (R25): slots that are due on one line fire in ascending order. -/
def execSlotFire (k : Nat) (s : State) : Host.Outcome State Fault Refusal :=
  s.on (k < 128) fun c => c.when (c.ssDue k && (List.range k).all fun j => !c.ssDue j) fun c => c.slotFire s.mem.isl k

end Sys2Proof.Machine
end

