-- ==== Sys2Proof/Machine/Control.lean ====
section
/-! DEFINITION. The control cluster and the isolated worlds (chapter 17, R275–R286). -/

namespace Sys2Proof.Machine

/-! ### Claims (R35, R282) -/

/-- A rejection with E_CLAIMED is counted and recorded. -/
def Chip.claimNote (c : Chip) (src : Src) (p off : Nat) : Chip :=
  ((c.bump R.SEC.CLAIM_REJECT.COUNT).raise 0x030 2).record 0x0401 0xFF (parBytes 2 p ++ parBytes 2 (off / 4) ++ [srcCode src])

/-- A write as `port` handles it, where a claim may hold it back. -/
def Chip.claimPort (c : Chip) (src : Src) (p off : Nat) (checks : List (Bool × Nat)) (eff : Chip → Chip) : Chip :=
  let d := c.port src p off checks eff
  if !c.unheard src p && (c.turnedAway src p).isNone && firstFail checks == some E.CLAIMED then d.claimNote src p off else d

/-- Page `p` is claimed. -/
def Chip.claimed (c : Chip) (p : Nat) : Bool := c.flag (H.CLAIMED p)

/-- A write of CLAIM (R35). -/
def Chip.claimWrite (c : Chip) (src : Src) (p data : Nat) : Chip :=
  c.port src p 0x020 [(isSecure src, E.OWNER), (decide (data < 2), E.RESERVED)] fun c => c.set (H.CLAIMED p) data

/-- CLAIM_WRITE (R35). -/
def execClaimWrite (src : Src) (page : Nat) (data : Word) (s : State) : Host.Outcome State Fault Refusal :=
  s.on true fun c => c.claimWrite src page data.toNat

/-- A write of CLAIM_BLOCK (R282). -/
def Chip.claimBlock (c : Chip) (src : Src) (data : Nat) : Chip :=
  let b := bits data 0 5
  let set := data.testBit 31
  let clear := data.testBit 30
  c.port src 0x030 0x054
    [ (isSecure src, E.OWNER), (bits data 5 25 == 0, E.RESERVED), (decide (1 ≤ b) && decide (b ≤ 0x15) && !(set && clear), E.VALUE) ] fun c =>
    let c := c.set R.SEC.CLAIM_BLOCK.BLOCK b
    if set || clear then
      ((List.range 512).filter fun p => blockOf p == b && pageExists p).foldl (fun c p => c.set (H.CLAIMED p) (b2n set)) c
    else c

/-- CLAIM_BLOCK_SET (R282). -/
def execClaimBlockSet (src : Src) (block : Nat) (s : State) : Host.Outcome State Fault Refusal :=
  s.on true fun c => c.claimBlock src (block % 32 + 2 ^ 31)

/-- CLAIM_BLOCK_CLEAR (R282). -/
def execClaimBlockClear (src : Src) (block : Nat) (s : State) : Host.Outcome State Fault Refusal :=
  s.on true fun c => c.claimBlock src (block % 32 + 2 ^ 30)

/-! ### The cores (R275, R276) -/

/-- A control core. -/
def Chip.cc (c : Chip) (k : Nat) : CoreSt := c.ctl.core.getD k {}
def Chip.setCc (c : Chip) (k : Nat) (x : CoreSt) : Chip := { c with ctl := { c.ctl with core := c.ctl.core.put {} k x } }

/-- Core `k` is in the secure world. -/
def Chip.ccSecure (c : Chip) (k : Nat) : Bool := (c.get R.CTL.CC_STAT.SECURE).testBit k

/-- Core `k` executes instructions. -/
def Chip.ccRuns (c : Chip) (k : Nat) : Bool := c.pdOn PD.CTL && (c.get R.CTL.CC_STAT.RUNNING).testBit k

/-- The source that core `k` is. -/
def Chip.ccSrc (c : Chip) (k : Nat) : Src := if c.ccSecure k then .ccs k else .ccn k

namespace Csr

/-- Register numbers of RV64 CSRs. -/
def MSTATUS : Nat := 0x300
def MTVEC : Nat := 0x305
def MEPC : Nat := 0x341
def MCAUSE : Nat := 0x342
def MTVAL : Nat := 0x343
def MIP : Nat := 0x344
def STVEC : Nat := 0x105
def SEPC : Nat := 0x141
def SCAUSE : Nat := 0x142
def STVAL : Nat := 0x143

end Csr

def CoreBank.get (b : CoreBank) (r : Nat) : Nat := b.csr.getD r 0
def CoreBank.put (b : CoreBank) (r v : Nat) : CoreBank := { b with csr := b.csr.put 0 r (v % 2 ^ 64) }

/-- The value of a counter CSR of core `k` in the world it is in (R283): time, in ledger nanoseconds / 40, in both worlds; cycle, at 1.6 GHz, of the world's
own bank; instret and the hpmcounters, whose events no rule gives, stand still where the bank's cycle does. The machine-mode numbers name the same
counters. -/
def Chip.counterRead (c : Chip) (k r : Nat) : Option Nat :=
  let x := c.cc k
  let b := if c.ccSecure k then x.sec else x.norm
  let i := if 0xB00 ≤ r ∧ r < 0xB20 then r - 0xB00 else r - 0xC00
  if r = 0xC01 then some (c.led.ns / 40)
  else if !((0xB00 ≤ r ∧ r < 0xB20) ∨ (0xC00 ≤ r ∧ r < 0xC20)) ∨ i = 1 then none
  else if i = 0 then some (b.ran / 1250 % 2 ^ 64)
  else some (Config.coreCount i (b.ran / 1250)).toNat

/-- Trap entry into M mode on a bank: interrupt enable and privilege are stacked as RV64 does (log entry 40). -/
def CoreBank.trapM (b : CoreBank) (cause tval pc priv : Nat) : CoreBank :=
  let st := b.get Csr.MSTATUS
  let st := clearBits st 0x1888 + bits st 3 1 * 2 ^ 7 + priv * 2 ^ 11
  (((b.put Csr.MSTATUS st).put Csr.MEPC pc).put Csr.MCAUSE cause).put Csr.MTVAL tval

/-- Trap entry into S mode. -/
def CoreBank.trapS (b : CoreBank) (cause tval pc priv : Nat) : CoreBank :=
  let st := b.get Csr.MSTATUS
  let st := clearBits st 0x122 + bits st 1 1 * 2 ^ 5 + priv % 2 * 2 ^ 8
  (((b.put Csr.MSTATUS st).put Csr.SEPC pc).put Csr.SCAUSE cause).put Csr.STVAL tval

/-- The address a trap goes to: vectored for an interrupt where the vector register says so. -/
def trapVector (tvec cause : Nat) : Nat :=
  tvec / 4 * 4 + (if tvec % 4 = 1 ∧ 2 ^ 63 ≤ cause then 4 * (cause - 2 ^ 63) else 0)

/-- An exception or interrupt on core `k`, in the world it is in. `pc` and `priv` are those of the interrupted instruction; `delegated` says that the cause
is delegated to S mode, which holds for U and S mode only. -/
def Chip.ccTrap (c : Chip) (k cause tval pc priv : Nat) (delegated : Bool) : Chip :=
  let x := c.cc k
  let toS := delegated && decide (priv ≤ 1)
  let b := if c.ccSecure k then x.sec else x.norm
  let b := if toS then b.trapS cause tval pc priv else b.trapM cause tval pc priv
  let x := { x with pc := trapVector (b.get (if toS then Csr.STVEC else Csr.MTVEC)) cause, priv := if toS then 1 else 3 }
  c.setCc k (if c.ccSecure k then { x with sec := b } else { x with norm := b })

/-- An illegal-instruction exception: cause 2, with an open mtval. -/
def Chip.ccIllegal (c : Chip) (k pc priv : Nat) (delegated : Bool) : Chip :=
  let v := c.fresh 64
  v.2.ccTrap k 2 v.1 pc priv delegated

/-- Core `k` writes register `rd`: x0 stays 0. -/
def CoreSt.write (x : CoreSt) (rd v : Nat) : CoreSt := if rd = 0 then x else { x with x := x.x.put 0 rd (v % 2 ^ 64) }

/-! ### The gateway (R279, R280, R281) -/

/-- Bytes of a cache line (PRESUMED 64, log entry 101). -/
def lineSize : Nat := 64

/-- Line `l` as the cores see it: cached, else as memory, which begins at `base`, holds it. -/
def Chip.lineAt (c : Chip) (mem : Memory) (base l : Nat) : CacheLine :=
  match c.ctl.cache.find? l with
  | some x => { x with bytes := padTo lineSize x.bytes }
  | none => { bytes := Memory.readBytes mem (l * lineSize - base) lineSize }

/-- A valid GATE target (R280). The marker is read as the secure world sees it: from the caches where its line is there. -/
def Chip.gateOk (c : Chip) (sram : Memory) (t : Nat) : Bool :=
  let base := sramBase + c.get R.SEC.ENTRY_BASE.OFFSET * 8
  let o := t - sramBase
  decide (base ≤ t) && decide (t < base + c.get R.SEC.ENTRY_SIZE.SIZE * 256) && t % 8 == 0 && decide (o + 4 ≤ sramSize)
    && leNat (((c.lineAt sram sramBase (t / lineSize)).bytes.drop (t % lineSize)).take 4) == 0x5EC0300B
    && ((c.ctl.cache.find? (t / lineSize)).isSome || !(c.eccFlaws Ecc.SRAM o 4).any fun f => f.2 == 2)

/-- Core `k` enters the secure world in M mode at `t`. -/
def Chip.ccEnter (c : Chip) (k t priv : Nat) : Chip :=
  (c.setBit R.CTL.CC_STAT.SECURE k true).setCc k { c.cc k with pc := t, normPriv := priv, priv := 3 }

/-- A gate fault (R280). -/
def Chip.gateFault (c : Chip) (k t pc priv : Nat) (delegated : Bool) : Chip :=
  ((((c.bump R.SEC.GATE_FAULT.COUNT).raise 0x030 1).record 0x0402 k (parBytes 8 t))).ccTrap k 24 t pc priv delegated

/-- GATE rd, rs1 (R279): core `k` executes it at `pc` in privilege mode `priv` with `target` in rs1. -/
def execGate (k rd imm target pc priv : Nat) (delegated : Bool) (s : State) : Host.Outcome State Fault Refusal :=
  s.on (k < 4 && rd < 32 && priv < 4) fun c => c.when (c.ccRuns k) fun c =>
    if imm ≠ 0 ∨ c.ccSecure k ∨ priv = 0 then c.ccIllegal k pc priv delegated
    else if !c.gateOk s.mem.sram target then c.gateFault k target pc priv delegated
    else (c.setCc k ((c.cc k).write rd (pc + 4))).ccEnter k target priv

/-- GRET rs1 (R279). -/
def execGret (k rd imm target pc priv : Nat) (delegated : Bool) (s : State) : Host.Outcome State Fault Refusal :=
  s.on (k < 4 && rd < 32 && priv < 4) fun c => c.when (c.ccRuns k) fun c =>
    if imm ≠ 0 ∨ rd ≠ 0 ∨ !c.ccSecure k then c.ccIllegal k pc priv delegated
    else
      let x := c.cc k
      (c.setBit R.CTL.CC_STAT.SECURE k false).setCc k { x with pc := target % 2 ^ 64, priv := x.normPriv }

/-- WSTAT rd (R279). -/
def execWstat (k rd rs1 imm pc priv : Nat) (delegated : Bool) (s : State) : Host.Outcome State Fault Refusal :=
  s.on (k < 4 && rd < 32 && priv < 4) fun c => c.when (c.ccRuns k) fun c =>
    if imm ≠ 0 ∨ rs1 ≠ 0 then c.ccIllegal k pc priv delegated
    else c.setCc k { (c.cc k).write rd (b2n (c.ccSecure k) + 2 * k) with pc := (pc + 4) % 2 ^ 64, priv := priv }

/-- GMARK (R279). -/
def execGmark (k rd rs1 imm pc priv : Nat) (delegated : Bool) (s : State) : Host.Outcome State Fault Refusal :=
  s.on (k < 4 && rd < 32 && priv < 4) fun c => c.when (c.ccRuns k) fun c =>
    if imm ≠ 0x5EC ∨ rs1 ≠ 0 ∨ rd ≠ 0 then c.ccIllegal k pc priv delegated
    else c.setCc k { c.cc k with pc := (pc + 4) % 2 ^ 64, priv := priv }

/-- SECURE_INTERRUPT (R281): a secure interrupt reaches core `k` at `pc`. In the normal world it acts as a GATE to SIRQ_VEC. In the secure world it is taken
through mtvec where `enabled` says that it may be, and stays pending else (log entry 40: as an RV64 machine external interrupt). -/
def execSecureInterrupt (k pc priv : Nat) (enabled : Bool) (s : State) : Host.Outcome State Fault Refusal :=
  s.on (k < 4 && priv < 4) fun c => c.when (c.ccRuns k) fun c =>
    if c.ccSecure k then
      if enabled then c.ccTrap k (2 ^ 63 + 11) 0 pc priv false
      else
        let x := c.cc k
        c.setCc k { x with sec := x.sec.put Csr.MIP (x.sec.get Csr.MIP ||| 2 ^ 11) }
    else
      let t := sramBase + c.get R.SEC.SIRQ_VEC.OFFSET * 8
      if c.gateOk s.mem.sram t then
        let x := c.cc k
        (c.setCc k { x with sec := x.sec.put Csr.MEPC pc }).ccEnter k t priv
      else c.gateFault k t pc priv false

/-! ### Writes to SEC_WORLD (R277, R278, R280, R286) -/

/-- The watermarks and what they protect are locked (R278). -/
def Chip.wmLocked (c : Chip) : Bool := c.flag R.SEC.DRAM_WMARK.LOCK

/-- The entry table lies wholly in the first `w` units of 4 KiB of SRAM. -/
def tableIn (offset size w : Nat) : Bool := decide (offset * 8 + size * 256 ≤ w * 4096)

/-- A write of a register of SEC_WORLD by the secure world. -/
def Chip.secWrite (c : Chip) (src : Src) (off : Nat) (checks : List (Bool × Nat)) (eff : Chip → Chip) : Chip :=
  c.port src 0x030 off ((isSecure src, E.OWNER) :: checks) eff

/-- SRAM_WMARK (0x040). -/
def Chip.sramWmark (c : Chip) (src : Src) (data : Nat) : Chip :=
  c.secWrite src 0x040
    [ (!c.wmLocked, E.LOCKED), (data / 1024 == 0, E.RESERVED),
      (decide (data ≤ 0x200) && tableIn (c.get R.SEC.ENTRY_BASE.OFFSET) (c.get R.SEC.ENTRY_SIZE.SIZE) data, E.VALUE) ]
    fun c => c.set R.SEC.SRAM_WMARK.WMARK data

/-- DRAM_WMARK (0x044): the watermark and LOCK. -/
def Chip.dramWmark (c : Chip) (src : Src) (data : Nat) : Chip :=
  let w := bits data 0 15
  c.secWrite src 0x044
    [ (!c.wmLocked, E.LOCKED), (bits data 15 16 == 0, E.RESERVED),
      (decide (w * 2 ^ 21 ≤ c.dramSize), E.RANGE) ]
    fun c => (c.set R.SEC.DRAM_WMARK.WMARK w).set R.SEC.DRAM_WMARK.LOCK (bits data 31 1)

/-- ENTRY_BASE (0x048). -/
def Chip.entryBase (c : Chip) (src : Src) (data : Nat) : Chip :=
  c.secWrite src 0x048
    [ (!c.wmLocked, E.LOCKED), (bits data 0 3 == 0 && data / 2 ^ 21 == 0, E.RESERVED),
      (tableIn (bits data 3 18) (c.get R.SEC.ENTRY_SIZE.SIZE) (c.get R.SEC.SRAM_WMARK.WMARK), E.VALUE) ]
    fun c => c.set R.SEC.ENTRY_BASE.OFFSET (bits data 3 18)

/-- ENTRY_SIZE (0x04C), with ISL_SECURE. -/
def Chip.entrySize (c : Chip) (src : Src) (data : Nat) : Chip :=
  c.secWrite src 0x04C
    [ (!c.wmLocked, E.LOCKED), (bits data 9 22 == 0, E.RESERVED),
      (tableIn (c.get R.SEC.ENTRY_BASE.OFFSET) (bits data 0 9) (c.get R.SEC.SRAM_WMARK.WMARK), E.VALUE) ]
    fun c => (c.set R.SEC.ENTRY_SIZE.SIZE (bits data 0 9)).set R.SEC.ENTRY_SIZE.ISL_SECURE (bits data 31 1)

/-- SIRQ_VEC (0x050): a valid target (R281). -/
def Chip.sirqVec (c : Chip) (sram : Memory) (src : Src) (data : Nat) : Chip :=
  c.secWrite src 0x050
    [ (!c.wmLocked, E.LOCKED), (bits data 0 3 == 0 && data / 2 ^ 21 == 0, E.RESERVED), (c.gateOk sram (sramBase + data), E.VALUE) ]
    fun c => c.set R.SEC.SIRQ_VEC.OFFSET (bits data 3 18)

/-- AUTH (0x058): a failed authentication (R285). The command bit is done with as it is written and reads 0 again at once, as every W1S command bit of
the register map does (DESIGN CHOICE, log entry 86). -/
def Chip.authWrite (c : Chip) (src : Src) (data : Nat) : Chip :=
  c.secWrite src 0x058 [(decide (data < 2), E.RESERVED)] fun c => if data = 0 then c else (c.modeReject E.KEY).record 0x0404 0xFF []

/-- AUTH_FAIL (R285). -/
def execAuthFail (src : Src) (s : State) : Host.Outcome State Fault Refusal := s.on true fun c => c.authWrite src 1

/-- FAULT_ADDR_LO (i = 0) and FAULT_ADDR_HI (i = 1): writing 1 clears the bit and re-arms the log. The fields are no RWS fields: the secure world and the
manager clear them as any register (R8, R286). -/
def Chip.faultAddr (c : Chip) (src : Src) (i data : Nat) : Chip :=
  c.port src 0x030 (0x05C + 4 * i) [(c.mgrOrCtl src, E.OWNER)] fun c =>
    if data = 0 then c
    else
      let f := if i = 0 then R.SEC.FAULT_ADDR_LO.ADDR else R.SEC.FAULT_ADDR_HI.ADDR
      { c.set f (clearBits (c.get f) data) with ctl := { c.ctl with wmLogged := false } }

/-- ISL_ROLLBACK (i = 0) or CC_ROLLBACK (i = 1): one more fuse is blown (R66). -/
def Chip.rollback (c : Chip) (src : Src) (i data : Nat) : Chip :=
  let f := if i = 0 then R.SEC_FUSE.ISL_ROLLBACK.COUNT else R.SEC_FUSE.CC_ROLLBACK.COUNT
  let go := data.testBit 31
  c.port src 0x032 (0x070 + 4 * i)
    [ (isSecure src, E.OWNER), (bits data 6 25 == 0, E.RESERVED), (!go || decide (c.get f < 63), E.RANGE) ] fun c => if go then c.set f (c.get f + 1) else c

/-- ROLLBACK_ADVANCE (R66): of the island's counter or the control cluster's. -/
def execRollbackAdvance (src : Src) (cc : Bool) (s : State) : Host.Outcome State Fault Refusal :=
  s.on true fun c => c.rollback src (b2n cc) (2 ^ 31)

/-! ### Release and reset of cores (R275) -/

/-- Core `k` starts in the secure world, in M mode, at its vector. -/
def Chip.ccStart (c : Chip) (k : Nat) : Chip :=
  let c := { c with ptb := { c.ptb with halted := c.ptb.halted.filter (· ≠ k) } }
  let c := ((c.setBit R.CTL.CC_STAT.SECURE k true).setBit R.CTL.CC_STAT.RUNNING k true).setBit R.CTL.CC_STAT.HALTED k false
  c.setCc k { pc := c.get (R.CTL.CC_VEC.ADDR k) * 4096 }

/-- Core `k` is held in reset. -/
def Chip.ccHold (c : Chip) (k : Nat) : Chip :=
  let c := { c with ptb := { c.ptb with halted := c.ptb.halted.filter (· ≠ k) } }
  (((c.setBit R.CTL.CC_STAT.SECURE k false).setBit R.CTL.CC_STAT.RUNNING k false).setBit R.CTL.CC_STAT.HALTED k false).setCc k {}

/-- A write of CC_CTRL. A normal-world write that changes a claimed core meets the ownership rule first (R38). -/
def Chip.ccCtrl (c : Chip) (src : Src) (data : Nat) : Chip :=
  let rel := bits data 0 4
  let rst := bits data 4 4
  c.port src 0x040 0x040
    [ (isSecure src, E.OWNER), (data / 256 == 0, E.RESERVED), (rel.testBit 0 && !rst.testBit 0, E.VALUE) ] fun c =>
    let was := c.get R.CTL.CC_CTRL.RELEASE
    let c := c.set R.CTL.CC_CTRL.RELEASE rel
    forN 4 c fun k c =>
      if !rel.testBit k then (if was.testBit k then c.ccHold k else c)
      else if !was.testBit k || rst.testBit k then c.ccStart k
      else c

/-- CC_RELEASE (R275): CC_CTRL with these RELEASE bits. -/
def execCcRelease (src : Src) (release : Nat) (s : State) : Host.Outcome State Fault Refusal :=
  s.on true fun c => c.ccCtrl src (release % 16)

/-- CC_RESET (R275): CC_CTRL with the present RELEASE bits and these RESET bits. -/
def execCcReset (src : Src) (mask : Nat) (s : State) : Host.Outcome State Fault Refusal :=
  s.on true fun c => c.ccCtrl src (c.get R.CTL.CC_CTRL.RELEASE + mask % 16 * 16)

/-! ### The secure watchdog (R284) -/

/-- Expiry: cause 0 timeout, 1 wrong key. -/
def Chip.swdExpire (c : Chip) (m : Mems) (cause : Nat) : Chip × Mems := (c.record 0x0403 0xFF [cause]).coldBoot m 3

/-- A write of WD_KICK. -/
def Chip.swdKick (c : Chip) (m : Mems) (src : Src) (data : Nat) : Chip × Mems :=
  let checks := [(isSecure src, E.OWNER), (data / 256 == 0, E.RESERVED)]
  let want := if c.flag R.SEC_WDOG.WD_STAT.NEXT_KEY then 0x3C else 0xC3
  let bad := !c.unheard src 0x031 && (c.turnedAway src 0x031).isNone && firstFail checks == none && c.flag R.SEC_WDOG.WD_CFG.ARMED && data != want
  if bad then c.swdExpire m 1
  else
    (c.port src 0x031 0x044 checks fun c =>
      if !c.flag R.SEC_WDOG.WD_CFG.ARMED then c
      else
        let c := { c with ctl := { c.ctl with wdAge := 0, wdLimit := c.get R.SEC_WDOG.WD_CFG.TIMEOUT, wdWarned := false } }
        (c.set R.SEC_WDOG.WD_STAT.ELAPSED 0).set R.SEC_WDOG.WD_STAT.NEXT_KEY (1 - c.get R.SEC_WDOG.WD_STAT.NEXT_KEY), m)

/-- WD_KICK (R284). -/
def execWdKick (src : Src) (data : Word) (s : State) : Host.Outcome State Fault Refusal :=
  s.onMem true fun c m => c.swdKick m src data.toNat

/-- WD_WARN (R284): due at 75 % of the timeout. -/
def execWdWarn (s : State) : Host.Outcome State Fault Refusal :=
  s.on true fun c => c.when (c.flag R.SEC_WDOG.WD_CFG.ARMED && !c.ctl.wdWarned && decide (3 * (c.ctl.wdLimit * 1000000000) ≤ 4 * c.ctl.wdAge)) fun c =>
    { c with ctl := { c.ctl with wdWarned := true } }.raise 0x031 0

/-- SECURE_WDOG_EXPIRY (R284): due at the timeout. -/
def execSecureWdogExpiry (s : State) : Host.Outcome State Fault Refusal :=
  s.onMem true fun c m =>
    if c.flag R.SEC_WDOG.WD_CFG.ARMED && decide (c.ctl.wdLimit * 1000000000 ≤ c.ctl.wdAge) then c.swdExpire m 0 else (c, m)

/-! ### Memory accesses of the cores (R42, R256, R275, R277) -/

/-- Fabric port of the control cluster (R229). -/
def ctlPort : Nat := 15

/-- DRAM in the control cores' map. -/
def dramBase : Nat := 0x1000000000

/-- An access of fabric port `port` to secure memory that R277 refuses. -/
def Chip.wmFault (c : Chip) (port a : Nat) : Chip :=
  let c := (c.bump R.SEC.WMARK_FAULT.COUNT).raise 0x030 0
  if c.ctl.wmLogged then c
  else
    let c := (c.set R.SEC.FAULT_ADDR_LO.ADDR (a % 2 ^ 32)).set R.SEC.FAULT_ADDR_HI.ADDR (a / 2 ^ 32 % 256 + 256 * port)
    { c with ctl := { c.ctl with wmLogged := true } }

def Chip.setLine (c : Chip) (l : Nat) (x : CacheLine) : Chip := { c with ctl := { c.ctl with cache := SMap.insert c.ctl.cache l x } }
def Chip.dropLine (c : Chip) (l : Nat) : Chip := { c with ctl := { c.ctl with cache := c.ctl.cache.erase l } }

/-- The lines that `n` bytes at `a` touch. -/
def linesOf (a n : Nat) : List Nat := (List.range ((a + n - 1) / lineSize + 1 - a / lineSize)).map (a / lineSize + ·)

/-- The lines of a load or store are in the caches (R275). -/
def Chip.cacheFill (c : Chip) (mem : Memory) (base a n : Nat) : Chip := (linesOf a n).foldl (fun (c : Chip) l => c.setLine l (c.lineAt mem base l)) c

/-- The byte at `a`, whose line is cached. -/
def Chip.cacheByte (c : Chip) (a : Nat) : Byte := (c.ctl.cache.getD (a / lineSize) { bytes := [] }).bytes.getD (a % lineSize) 0

/-- A load of `n` bytes through the caches. -/
def Chip.cacheLoad (c : Chip) (mem : Memory) (base a n : Nat) : Chip :=
  let c := c.cacheFill mem base a n
  { c with readData := leNat ((List.range n).map fun i => c.cacheByte (a + i)) }

/-- A store through the caches: it reaches memory when its line is written back. -/
def Chip.cacheStore (c : Chip) (mem : Memory) (base a : Nat) (data : List Byte) : Chip :=
  data.zipIdx.foldl (fun (c : Chip) x =>
    let l := (a + x.2) / lineSize
    c.setLine l { bytes := (c.lineAt mem base l).bytes.set ((a + x.2) % lineSize) x.1, dirty := true }) (c.cacheFill mem base a data.length)

/-- A cache operation on line `l` (R275): the bytes to write back where the line is dirty and the operation writes it back, and the chip. cbo.clean keeps
the line, cbo.flush and an eviction give it up, cbo.inval discards it. -/
def Chip.cacheOp (c : Chip) (op : CoreOp) (l : Nat) : Option (List Byte) × Chip :=
  match c.ctl.cache.find? l with
  | none => (none, c)
  | some x =>
    let out := if x.dirty && op != .inval then some (padTo lineSize x.bytes) else none
    (out, if op = .clean then c.setLine l { x with dirty := false } else c.dropLine l)

/-- What a core does to on-chip SRAM at offset `o` or to DRAM, which its checks have let through (R42, R256, R275): whether it is served, and its effect. -/
def Chip.ccSram (c : Chip) (m : Mems) (k : Nat) (op : CoreOp) (o n : Nat) (data : List Byte) : Bool × Chip × Mems :=
  let a := sramBase + o
  match op with
  | .load =>
    let fill := (linesOf a n).filter fun l => (c.ctl.cache.find? l).isNone
    let fl := fill.flatMap fun l => c.eccFlaws Ecc.SRAM (l * lineSize - sramBase) lineSize
    let c := c.addSat R.CTL.SRAM_CE.COUNT (fl.filter fun f => f.2 == 1).length
    match fl.find? fun f => f.2 == 2 with
    | some f => (false, ((c.bump R.CTL.SRAM_UE.COUNT).raise 0x040 0).record 0x0501 k (parBytes 8 (sramBase + f.1)), m)
    | none => (true, c.cacheLoad m.sram sramBase a n, m)
  | .store => (true, c.cacheStore m.sram sramBase a data, m)
  | op =>
    let r := c.cacheOp op (a / lineSize)
    match r.1 with
    | none => (true, r.2, m)
    | some bs => (true, r.2.eccWrite Ecc.SRAM (o / lineSize * lineSize) lineSize, { m with sram := Memory.writeBytes m.sram (o / lineSize * lineSize) bs })

/-- The same for DRAM. -/
def Chip.ccDram (c : Chip) (m : Mems) (op : CoreOp) (o n : Nat) (data : List Byte) : Bool × Chip × Mems :=
  let a := dramBase + o
  match op with
  | .load =>
    let fill := (linesOf a n).filter fun l => (c.ctl.cache.find? l).isNone
    let r := fill.foldl (fun (r : Bool × Chip) l =>
      let g := r.2.dramCheck ctlPort (l * lineSize - dramBase) lineSize
      (r.1 && g.1, g.2)) (true, c)
    if r.1 then (true, r.2.cacheLoad m.dram dramBase a n, m) else (false, r.2, m)
  | .store => (true, c.cacheStore m.dram dramBase a data, m)
  | op =>
    let r := c.cacheOp op (a / lineSize)
    match r.1 with
    | none => (true, r.2, m)
    | some bs =>
      let w := r.2.dramPut m (o / lineSize * lineSize) bs
      (true, w.1, w.2)

/-- What an access of a core does: whether it is served, its effect and, for a load, what it reads. A line that the caches give up by themselves is written
back whatever world the core is in. -/
def Chip.ccAccess (c : Chip) (m : Mems) (k : Nat) (op : CoreOp) (a n : Nat) (data : List Byte) : Bool × Chip × Mems :=
  let normal := !c.ccSecure k && op != .evict
  let show_ := fun (c : Chip) (v : Nat) => { c with readData := v }
  if sramBase ≤ a ∧ a + n ≤ sramBase + sramSize then
    if normal && decide (a - sramBase < c.get R.SEC.SRAM_WMARK.WMARK * 4096) then (false, c.wmFault ctlPort a, m)
    else c.ccSram m k op (a - sramBase) n data
  else if 0x04000000 ≤ a ∧ a + n ≤ 0x04000000 + 2 ^ 21 then
    if op = .store then (false, c.reject 0x130 (a % 4096) (srcCode (c.ccSrc k)) E.OWNER, m)
    else if op ≠ .load then (true, c, m)
    else
      let r := c.islRead (a - 0x04000000) n
      let v := r.2.fresh (8 * n)
      (true, if r.1.isEmpty then show_ r.2 (Memory.readNat m.isl (a - 0x04000000) n) else show_ v.2 v.1, m)
  else if dramBase ≤ a ∧ a + n ≤ dramBase + c.dramUsable then
    if normal && decide (a - dramBase < c.get R.SEC.DRAM_WMARK.WMARK * 2 ^ 21) then (false, c.wmFault ctlPort a, m)
    else c.ccDram m op (a - dramBase) n data
  else if a + n ≤ 0x40000 ∧ op ≠ .store then
    let v := c.fresh (8 * n)
    (true, if op = .load then show_ v.2 v.1 else c, m)
  else (false, c, m)

/-- Addresses that other commands serve: the register pages and the remote windows (R42). -/
def otherMap (a : Nat) : Bool :=
  (decide (0x08000000 ≤ a) && decide (a < 0x08200000)) || (decide (0x10000000 ≤ a) && decide (a < 0x50000000))

/-- Fabric port of the safety island's DRAM window (R240). -/
def islPort : Nat := 16

/-- The DRAM window of the island may be used (R208): it is enabled and lies wholly in an in-line ECC region. An access below DRAM_WMARK is refused as well
unless ISL_SECURE = 1 (R277). -/
def Chip.islWindow (c : Chip) : Bool :=
  let a := c.get R.SAF.DWIN_BASE.BASE * 2 ^ 28
  c.flag R.SAF.ISL_DWIN.EN && c.fabOn && c.pdOn PD.MEM && (List.range 8).any fun k =>
    let b := c.get (R.DRC_ECC.REG_BASE.ADDR k) * 2 ^ 21
    c.flag (R.DRC_ECC.REG_BASE.EN k) && decide (b ≤ a) && decide (a + 2 ^ 28 ≤ b + c.get (R.DRC_ECC.REG_SIZE.ADDR k) * 2 ^ 21)

/-- An access of the island's cores (R208): SRAM, where an uncorrectable word is an island fault reset (R209), or the DRAM window. One to a hole, or to a
window that may not be used, or that meets a DRAM error, raises an exception in the island, of whose cores the spec gives no registers (log entry 110). -/
def Chip.islAccess (c : Chip) (m : Mems) (op : CoreOp) (a n : Nat) (data : List Byte) : Chip × Mems :=
  let o := c.get R.SAF.DWIN_BASE.BASE * 2 ^ 28 + (a - 0x80000000)
  if a + n ≤ islSize then
    match op with
    | .load =>
      let r := c.islRead a n
      (if r.1.isEmpty then { r.2 with readData := Memory.readNat m.isl a n } else r.2.islandFault 5, m)
    | .store => (c.eccWrite Ecc.ISL a n, { m with isl := Memory.writeBytes m.isl a data })
    | _ => (c, m)
  else if 0x80000000 ≤ a ∧ a + n ≤ 0x90000000 ∧ c.islWindow then
    if o < c.get R.SEC.DRAM_WMARK.WMARK * 2 ^ 21 ∧ c.get R.SEC.ENTRY_SIZE.ISL_SECURE = 0 then (c.wmFault islPort (dramBase + o), m)
    else match op with
    | .load =>
      let r := c.dramCheck islPort o n
      (if r.1 then { r.2 with readData := Memory.readNat m.dram o n } else r.2, m)
    | .store => c.dramPut m o data
    | _ => (c, m)
  else (c, m)

/-- CORE_MEMORY_ACCESS (R42, R92, R275): a load of `n` bytes, a store of `data` or a cache operation by core `k`, by an instruction at `pc`, or the eviction of
a line. What it may not reach raises an access fault (5 for a load, 7 for the others). With `k` = 4 the access is one of the safety island's cores, which
run in lockstep (R208). -/
def execCoreMemoryAccess (k : Nat) (op : CoreOp) (a n : Nat) (data : List Byte) (pc priv : Nat) (delegated : Bool) (s : State) :
    Host.Outcome State Fault Refusal :=
  s.onMem (k < 5 && priv < 4 && 1 ≤ n && n ≤ 8) fun c m =>
    if k = 4 then (if c.islandRuns && c.pdOn PD.SAFE then c.islAccess m op a n (padTo n data) else (c, m))
    else if !c.ccRuns k || otherMap a then (c, m)
    else
      let r := c.ccAccess m k op a n (padTo n data)
      if r.1 || op == .evict then r.2 else (r.2.1.ccTrap k (if op = .load then 5 else 7) a pc priv delegated, r.2.2)

/-! ### Temperatures (R364) -/

/-- TEMP_PEAK_READ (R364): TEMPi is read, and PEAK begins anew at the present temperature. -/
def execTempPeakRead (src : Src) (i : Nat) (s : State) : Host.Outcome State Fault Refusal :=
  s.on (i < 10) fun c => c.fieldRead src (0x040 + 4 * i) fun c =>
    { c.set (R.PWR_THERM.TEMP.PEAK i) (c.get (R.PWR_THERM.TEMP.TEMP i)) with readData := c.readReg 0x022 (0x040 + 4 * i) }

end Sys2Proof.Machine
end

