-- ==== Sys2Proof/Machine/Link.lean ====
section
/-! DEFINITION. The Jenpin link (chapter 22, R342–R353). Remote register accesses stand with the register port. -/

namespace Sys2Proof.Machine

/-! ### Ports and topology (R343, R344, R347, R352) -/

namespace LnkSt

def DOWN : Nat := 0
def TRAINING : Nat := 1
def UP : Nat := 2
def FAULT : Nat := 3

end LnkSt

def Chip.lnkState (c : Chip) (p : Nat) : Nat := c.get (R.LNK_PORT.PORT_STAT.STATE p)

/-- This device's number. -/
def Chip.devId (c : Chip) : Nat := c.get R.SYS_BOOT.STRAPS.DEVID

/-- TOPO follows the ports that are UP; a device that is no longer reachable loses its locks here (R238, R352). -/
def Chip.topology (c : Chip) : Chip :=
  let r := fun p => if c.lnkState p = LnkSt.UP then c.lnk.reach.getD p 0 else 0
  let old0 := c.get R.LNK.TOPO.REACH0
  let old1 := c.get R.LNK.TOPO.REACH1
  if r 0 = old0 ∧ r 1 = old1 then c
  else
    let c' := ((c.set R.LNK.TOPO.REACH0 (r 0)).set R.LNK.TOPO.REACH1 (r 1)).set R.LNK.TOPO.RING (b2n (r 0 &&& r 1 != 0))
    let c' := c'.raise 0x150 2
    let c' := forN 4 c' fun d c' => if (old0 ||| old1).testBit d && !(r 0 ||| r 1).testBit d then
        let g := c'.lkLose (23 + d)
        { g with lnk := { g.lnk with dacc := g.lnk.dacc.erase d } }
      else c'
    -- the way to D0 has come up: the ledger waits for its first sync (R30)
    let c' := if c.devId ≠ 0 ∧ !(old0 ||| old1).testBit 0 ∧ (r 0 ||| r 1).testBit 0 then c'.syncState 1 else c'
    match c'.linkPath 0 with
    | none => c'
    | some p => c'.set R.LDG_SYNC.SYNC_PATH.LATENCY (c'.lnk.d0.getD p 0)

/-- An access that gets no answer or a refusal: a read faults its core (R348, R349). -/
def Chip.reqFails (c : Chip) (q : LinkReq) : Chip := if q.write then c else c.ccTrap q.core 5 q.addr q.pc q.priv q.delegated

/-- Whatever is outstanding on port `p` ends with an error (R352). -/
def Chip.portFails (c : Chip) (p : Nat) : Chip :=
  let qs := c.lnk.reqs.filter fun q => q.port == p
  let ls := c.lnk.layers.filter fun q => q.port == p
  let c := { c with lnk := { c.lnk with reqs := c.lnk.reqs.filter fun q => q.port != p, layers := c.lnk.layers.filter fun q => q.port != p } }
  let c := qs.foldl (fun c q => c.reqFails q) c
  ls.foldl (fun c q => c.fetchFails q.pipe q.unit q.row) c

/-- Port `p` stops carrying traffic. -/
def Chip.portStops (c : Chip) (p st cause : Nat) : Chip :=
  let c := (c.set (R.LNK_PORT.PORT_STAT.STATE p) st).set (R.LNK_PORT.PORT_STAT.CAUSE p) cause
  let c := { c with lnk := { c.lnk with hello := c.lnk.hello.filter (· ≠ p), reach := c.lnk.reach.erase p, downAt := c.lnk.downAt.insert p c.ps,
                                        replays := c.lnk.replays.erase p } }
  (c.portFails p).topology

/-- Port `p` begins to train. -/
def Chip.portTrains (c : Chip) (p : Nat) : Chip :=
  let c := (c.set (R.LNK_PORT.PORT_STAT.STATE p) LnkSt.TRAINING).set (R.LNK_PORT.PORT_STAT.CAUSE p) 0
  { c with lnk := { c.lnk with hello := c.lnk.hello.filter (· ≠ p), reach := c.lnk.reach.erase p } }

/-- A write of PORT_CFG (R344). -/
def Chip.portCfg (c : Chip) (src : Src) (p data : Nat) : Chip :=
  c.port src (0x151 + p) 0x040 [(c.mgrOrCtl src, E.OWNER), (data / 4 == 0, E.RESERVED)] fun c =>
    let was := c.flag (R.LNK_PORT.PORT_CFG.EN p)
    let c := (c.set (R.LNK_PORT.PORT_CFG.EN p) (bits data 0 1)).set (R.LNK_PORT.PORT_CFG.MAX_RATE p) (bits data 1 1)
    if data.testBit 0 && !was then c.portTrains p
    else if !data.testBit 0 && was then c.portStops p LnkSt.DOWN 0
    else c

/-- LINK_PORT_ENABLE (R344): a write of PORT_CFG. -/
def execLinkPortEnable (src : Src) (port : Nat) (data : Word) (s : State) : Host.Outcome State Fault Refusal :=
  s.on (port < 2) fun c => c.portCfg src port data.toNat

/-- HELLO (R343, R345): from device `dev` on port `port`; `direct` says that it is the neighbour, which then reports the devices `reach` it can reach, the
one-hop latency `hop` and the latency `d0` of the whole path to D0 (2.5 ns units). `dup` says that a device with this device's number has been
reported. `base` and `size` are the sender's DACC range. -/
def execHello (port dev reach hop d0 : Nat) (direct dup : Bool) (base size : Nat) (s : State) : Host.Outcome State Fault Refusal :=
  s.on (port < 2 && dev < 4) fun c => c.when (c.pdOn PD.LINK && (c.lnkState port == LnkSt.TRAINING || c.lnkState port == LnkSt.UP)) fun c =>
    if dup || dev == c.devId then c.portStops port LnkSt.FAULT 1
    else
      let c := { c with lnk := { c.lnk with dacc := c.lnk.dacc.insert dev (base, size) } }
      if !direct then c
      else
        let c := (c.set (R.LNK_PORT.PORT_STAT.NEIGHBOUR port) dev).set (R.LNK_PORT.PORT_STAT.HOP_LAT port) hop
        let mask := putBit ((reach % 16) ||| 2 ^ dev) c.devId false
        let c := { c with lnk := { c.lnk with hello := port :: c.lnk.hello.filter (· ≠ port), reach := c.lnk.reach.insert port mask,
                                              d0 := c.lnk.d0.insert port d0 } }
        c.topology

/-- LINK_PORT_UP (R342, R344): training has ended with `lanes` lanes at rate `rate` (0 8 Gb/s, 1 16 Gb/s). -/
def execLinkPortUp (port lanes rate : Nat) (s : State) : Host.Outcome State Fault Refusal :=
  s.on (port < 2 && lanes ≤ 4) fun c => c.when (c.lnkState port == LnkSt.TRAINING) fun c =>
    let c := c.addSat (R.LNK_PORT.LANE_FAIL.COUNT port) (4 - lanes)
    if lanes < 2 then c.portStops port LnkSt.FAULT 2
    else if !c.lnk.hello.contains port then c
    else
      let c := (c.set (R.LNK_PORT.PORT_STAT.RATE port) (min rate (c.get (R.LNK_PORT.PORT_CFG.MAX_RATE port)))).set (R.LNK_PORT.PORT_STAT.X2 port) (b2n (decide (lanes < 4)))
      ((c.set (R.LNK_PORT.PORT_STAT.STATE port) LnkSt.UP).raise 0x150 1).topology

/-- LINK_RETRAIN_TIMER (R344): due 100 ms after the port went DOWN. -/
def execLinkRetrainTimer (port : Nat) (s : State) : Host.Outcome State Fault Refusal :=
  s.on (port < 2) fun c => c.when (c.pdOn PD.LINK && c.lnkState port == LnkSt.DOWN && c.flag (R.LNK_PORT.PORT_CFG.EN port)
      && decide (c.lnk.downAt.getD port 0 + 100000000000 ≤ c.ps)) fun c => (c.portTrains port).bump (R.LNK_PORT.RETRAIN.COUNT port)

/-- LINK_LANE_FAIL (R342). -/
def execLinkLaneFail (port : Nat) (s : State) : Host.Outcome State Fault Refusal :=
  s.on (port < 2) fun c => c.when (c.lnkState port == LnkSt.UP) fun c =>
    (c.set (R.LNK_PORT.PORT_STAT.X2 port) 1).bump (R.LNK_PORT.LANE_FAIL.COUNT port)

/-- LINK_CRC_ERROR (R346): `again` says that it is a replay of the message that failed last; the first failure of a message is no replay. -/
def execLinkCrcError (port : Nat) (again : Bool) (s : State) : Host.Outcome State Fault Refusal :=
  s.on (port < 2) fun c => c.when (c.lnkState port == LnkSt.UP) fun c =>
    let k := if again then c.lnk.replays.getD port 0 + 1 else 0
    { (c.bump (R.LNK_PORT.CRC_ERR.COUNT port)).bump (R.LNK_PORT.REPLAY.COUNT port) with lnk := { c.lnk with replays := c.lnk.replays.insert port k } }

/-- LINK_LOSS (R352): due after 16 failed replays in a row, or after 10 µs of silence; `events` forwarded events were in flight. -/
def execLinkLoss (port : Nat) (silent : Bool) (events : Nat) (s : State) : Host.Outcome State Fault Refusal :=
  s.on (port < 2) fun c => c.when (c.lnkState port == LnkSt.UP && (silent || decide (16 ≤ c.lnk.replays.getD port 0))) fun c =>
    let c := (c.portStops port LnkSt.DOWN 3).addSat R.LNK.EVT_FWD_LOST.COUNT events
    (c.raise 0x150 0).record 0x0E00 port (parBytes 4 0x044 ++ parBytes 4 (c.readReg (0x151 + port) 0x044))

/-- LINK_MSG_RESERVED (R346). -/
def execLinkMsgReserved (s : State) : Host.Outcome State Fault Refusal :=
  s.on true fun c => c.when (c.pdOn PD.LINK) fun c => c.bump R.LNK.RX_BAD.COUNT

/-! ### Messages (R346) -/

/-- The class of a message type, in the order in which a hop serves the classes: First, Event, ISO, RSP, WR, REQ. -/
def linkClass (kind : Nat) : Nat :=
  if kind = 1 ∨ kind = 0x0B then 0 else if kind = 2 ∨ kind = 3 then 1 else if kind = 4 ∨ kind = 5 then 2 else if kind = 6 then 3
  else if kind = 7 ∨ kind = 8 then 4 else 5

/-- The bytes of a message as it leaves the device: 16 B header, payload and CRC-32. -/
def LinkMsg.bytes (x : LinkMsg) : List Byte :=
  let b := leBytes 1 x.kind ++ leBytes 1 (x.src % 4 + 4 * (x.dst % 4)) ++ leBytes 2 x.tag ++ leBytes 2 x.body.length ++ leBytes 2 0 ++ leBytes 8 x.addr ++ x.body
  b ++ leBytes 4 (crc32 b)

/-- The messages of port `p` that wait, in the order in which the hop serves them: by class, within a class in the order of their issue. -/
def Chip.linkServe (c : Chip) (p : Nat) : List LinkMsg := sortBy (fun x => linkClass x.kind) (c.lnk.out.filter fun x => x.port == p)

/-! ### Remote windows (R348) -/

/-- The remote window that a core's address lies in, and the offset in it. -/
def windowOf (a : Nat) : Option (Nat × Nat) :=
  if 0x10000000 ≤ a ∧ a < 0x50000000 then some ((a - 0x10000000) / 2 ^ 28, (a - 0x10000000) % 2 ^ 28) else none

/-- Where an access at offset `o` of window `d` goes: the message type of a read (that of a write is two less) and its ADDR; none where it faults. -/
def Chip.windowTo (c : Chip) (d o n : Nat) : Option (Nat × Nat) :=
  if !c.flag (R.LNK_WIN.WIN_CFG.EN d) || d == c.devId || (c.linkPath d).isNone then none
  else if c.flag (R.LNK_WIN.WIN_CFG.KIND d) then
    if n ≤ 64 ∧ o + n ≤ 2 ^ 28 then some (0x0A, c.get (R.LNK_WIN.WIN_CFG.BASE d) * 2 ^ 28 + o) else none
  else if o + n ≤ 2 ^ 21 then some (0x09, o) else none

/-- REMOTE_WINDOW_ACCESS (R348): a load of `n` bytes or a store of `data` by core `k`. -/
def execRemoteWindowAccess (k : Nat) (write : Bool) (a n : Nat) (data : List Byte) (pc priv : Nat) (delegated : Bool) (s : State) :
    Host.Outcome State Fault Refusal :=
  s.on (k < 4 && priv < 4 && 1 ≤ n && n ≤ 64) fun c => c.when (c.ccRuns k) fun c =>
    match windowOf a with
    | none => c
    | some (d, o) =>
      match c.windowTo d o n, c.linkPath d with
      | some (kind, addr), some p =>
        let t := c.lnk.tag
        let q : LinkReq := { tag := t, dev := d, port := p, write := write, core := k, addr := a, pc := pc, priv := priv, delegated := delegated, since := c.ps }
        let c := { c with lnk := { c.lnk with tag := (t + 1) % 65536, reqs := c.lnk.reqs ++ [q] } }
        if write then c.linkSend (2 ^ d) (kind - 2) t addr (padTo n data) else c.linkSend (2 ^ d) kind t addr (leBytes 4 n)
      | _, _ => c.ccTrap k (if write then 7 else 5) a pc priv delegated

/-- RSP (R346, R348): the answer of device `dev` to the request `tag`: read data, or the status of a write; `ok` is false where it was refused. -/
def execRsp (dev tag : Nat) (ok : Bool) (data : List Byte) (s : State) : Host.Outcome State Fault Refusal :=
  s.on (dev < 4) fun c =>
    match c.lnk.reqs.find? fun q => q.tag == tag && q.dev == dev with
    | none => c
    | some q =>
      let c := { c with lnk := { c.lnk with reqs := c.lnk.reqs.filter fun x => !(x.tag == tag && x.dev == dev) } }
      if !ok then c.reqFails q else if q.write then c else { c with readData := leNat data }

/-- REMOTE_READ_TIMEOUT (R348): due 100 µs after the read. -/
def execRemoteReadTimeout (tag : Nat) (s : State) : Host.Outcome State Fault Refusal :=
  s.on true fun c =>
    match c.lnk.reqs.find? fun q => q.tag == tag && !q.write with
    | none => c
    | some q => c.when (decide (q.since + 100000000 ≤ c.ps)) fun c =>
      let c := { c with lnk := { c.lnk with reqs := c.lnk.reqs.filter fun x => !(x.tag == tag && !x.write) } }
      (c.reqFails q).bump R.LNK.REMOTE_TIMEOUT.COUNT

/-! ### Requests of other devices (R349, R350) -/

/-- Fabric port of the Jenpin merge (R240). -/
def linkPort : Nat := 17

/-- Answer request `tag` of device `dev`; a refused one with `code`. -/
def Chip.linkAnswer (c : Chip) (dev kind tag addr : Nat) (body : List Byte) : Chip := c.linkSend (2 ^ dev) kind tag addr body

/-- A request is refused (R349): it is counted, and answered with an empty payload or an error status. -/
def Chip.linkRefuse (c : Chip) (dev kind tag addr : Nat) (status : List Byte) : Chip :=
  (c.bump R.LNK.REMOTE_REFUSED.COUNT).linkAnswer dev kind tag addr status

/-- Device `dev` may reach `n` bytes of DRAM from `a` (R349). -/
def Chip.daccOk (c : Chip) (dev a n : Nat) : Bool :=
  let lo := c.get R.LNK.DACC_BASE.UNITS * 2 ^ 21
  (c.get R.LNK.ACCEPT.DRAM_FROM).testBit dev && decide (lo ≤ a) && decide (a + n ≤ lo + c.get R.LNK.DACC_SIZE.UNITS * 2 ^ 21)
    && decide (c.get R.SEC.DRAM_WMARK.WMARK * 2 ^ 21 ≤ a) && decide (a + n ≤ c.dramSize)

/-- A DRAM read for device `dev`, answered by a message of type `kind`. -/
def Chip.linkRead (c : Chip) (dram : Memory) (dev kind tag a n : Nat) : Chip :=
  if !c.daccOk dev a n then c.linkRefuse dev kind tag a []
  else
    let r := c.dramCheck linkPort a n
    r.2.linkAnswer dev kind tag a (if r.1 then dram.readBytes a n else [])

/-- MEM_RD (R349). -/
def execMemRd (dev tag a n : Nat) (s : State) : Host.Outcome State Fault Refusal :=
  s.on (dev < 4 && n ≤ 256) fun c => c.when c.fabOn fun c => c.linkRead s.mem.dram dev 6 tag a n

/-- LAYER_RD (R350). -/
def execLayerRd (dev tag a n : Nat) (s : State) : Host.Outcome State Fault Refusal :=
  s.on (dev < 4 && n ≤ 2048) fun c => c.when c.fabOn fun c => c.linkRead s.mem.dram dev 5 tag a n

/-- MEM_WR (R349). -/
def execMemWr (dev tag a : Nat) (data : List Byte) (s : State) : Host.Outcome State Fault Refusal :=
  s.onMem (dev < 4 && data.length ≤ 256) fun c m =>
    if !c.fabOn then (c, m)
    else if !c.daccOk dev a data.length then (c.linkRefuse dev 6 tag a [BitVec.ofNat 8 E.RANGE], m)
    else
      let r := c.dramPut m a data
      (r.1.linkAnswer dev 6 tag a [0], r.2)

/-- LAYER_DATA (R350): pixels for the read `tag`; `ok` is false where the data was refused or lost. -/
def execLayerData (tag : Nat) (ok : Bool) (data : List Byte) (s : State) : Host.Outcome State Fault Refusal :=
  s.on true fun c =>
    match c.lnk.layers.find? fun q => q.tag == tag with
    | none => c
    | some q =>
      let c := { c with lnk := { c.lnk with layers := c.lnk.layers.filter fun x => x.tag != tag } }
      if ok && data.length == q.len then
        { c with cmp := { c.cmp with remote := c.cmp.remote ++ [{ unit := q.unit, addr := q.addr, bytes := data }] } }
      else c.fetchFails q.pipe q.unit q.row

/-! ### Forwarded events (R351) -/

/-- TCH_EVT (R351): the completion entry `e` of device `dev` goes to the ring that RX_RING names. Status, sequence number, result and stamp are the sender's; the
ring gives the entry its own place. -/
def execTchEvt (dev : Nat) (e : List Byte) (s : State) : Host.Outcome State Fault Refusal :=
  s.on (dev < 4) fun c => c.when (c.pdOn PD.LINK) fun c =>
    let r := c.get (R.LNK_FWD.RX_RING.RING dev)
    let can := c.flag (R.LNK_FWD.RX_RING.EN dev) && (c.ringOwner r == 2 || c.ringOwner r == 3) && c.ringClass r == 5 && c.ringLive r
    if !can then c.bump R.LNK.EVT_FWD_LOST.COUNT
    else
      let b := padTo 32 e
      let x : RingEvent := { ring := r, status := fieldAt b 0 1, result := (b.drop 20).take 12, stamp := fieldAt b 8 8, seq := fieldAt b 4 4, stalls := false }
      { c with imx := { c.imx with events := c.imx.events ++ [x] } }

/-- HAP_TRIG (R351): zone `z` of front end `tf` of device `dev` acts with this effect and priority. -/
def execHapTrig (dev tf z eff prio : Nat) (s : State) : Host.Outcome State Fault Refusal :=
  s.on (dev < 4 && tf < 4 && z < 64 && eff < 256 && prio < 4) fun c => c.when (c.pdOn PD.LINK) fun c =>
    let i := 4 * dev + tf
    if (c.get R.LNK_FWD.FOCUS_EN.EN).testBit i then c.hapZone (bits (c.get R.LNK_FWD.FOCUS_MAP.PAGES) (2 * i) 2) z eff prio
    else c.bump R.LNK.EVT_FWD_LOST.COUNT

/-! ### Writes with checks of their own (R348, R351, R353) -/

/-- DACC_BASE (i = 0) and DACC_SIZE (i = 1): the range stays within the fitted capacity. -/
def Chip.daccWrite (c : Chip) (src : Src) (i data : Nat) : Chip :=
  let base := if i = 0 then data else c.get R.LNK.DACC_BASE.UNITS
  let size := if i = 1 then data else c.get R.LNK.DACC_SIZE.UNITS
  c.genericWrite src 0x150 (0x048 + 4 * i) data (c.mgrOrCtl src) false [(decide ((base + size) * 2 ^ 21 ≤ c.dramSize), E.RANGE)]

/-- WINd_CFG: an opened window names another device. -/
def Chip.winCfg (c : Chip) (src : Src) (d data : Nat) : Chip :=
  c.port src 0x153 (0x040 + 4 * d)
    [ (c.mgrOrCtl src, E.OWNER), (bits data 2 6 == 0 && data / 65536 == 0, E.RESERVED), (!data.testBit 0 || d != c.devId, E.VALUE) ] fun c =>
    ((c.set (R.LNK_WIN.WIN_CFG.EN d) (bits data 0 1)).set (R.LNK_WIN.WIN_CFG.KIND d) (bits data 1 1)).set (R.LNK_WIN.WIN_CFG.BASE d) (bits data 8 8)

/-- TCH_FWDn. -/
def Chip.tchFwd (c : Chip) (src : Src) (n data : Nat) : Chip :=
  c.genericWrite src 0x154 (0x040 + 4 * n) data (c.mgrOrCtl src) false [(!data.testBit (4 + c.devId), E.VALUE)]

/-- RX_RINGs: a ring of the manager or the control world, of class TCH. -/
def Chip.rxRing (c : Chip) (src : Src) (i data : Nat) : Chip :=
  let r := bits data 0 6
  c.genericWrite src 0x154 (0x050 + 4 * i) data (c.mgrOrCtl src) false
    [ ((c.ringOwner r == 2 || c.ringOwner r == 3) && c.ringClass r == 5, E.STATE) ]

end Sys2Proof.Machine
end

