-- ==== Sys2Proof/Machine/Power.lean ====
section
/-! DEFINITION. Mode requests, VIGIL, power requests, thermal protection and the field bridge (R4–R11, R31, R46–R60, R74). -/

namespace Sys2Proof.Machine

/-- A write as `claimPort` handles it, whose rejection the block also notes for itself. -/
def Chip.notedPort (c : Chip) (src : Src) (p off : Nat) (checks : List (Bool × Nat)) (note : Nat → Chip → Chip) (eff : Chip → Chip) : Chip :=
  let d := c.claimPort src p off checks eff
  if !c.unheard src p && (c.turnedAway src p).isNone then
    match firstFail checks with
    | some code => note code d
    | none => d
  else d

/-- Domain `d` loses its power. -/
def Chip.domainOff (c : Chip) (d : Nat) : Chip :=
  let c := c.setBit R.SYS_POWER.PD_ON.ON d false
  if d = PD.CMP then c.cmpPowerOff
  else if d = PD.GFXC then ((forN 17 c fun p c => c.poolEmpty p).linesDrop fun _ => true).l2Show
  else if d = PD.DMA then c.dmaPowerOff
  else if d = PD.AUD then c.ampSilence
  else if d = PD.LINK then (c.portStops 0 LnkSt.DOWN 0).portStops 1 LnkSt.DOWN 0
  else if 5 ≤ d ∧ d ≤ 16 then c.coreShow (d - 5)
  else c

/-- The domains that software switches are again as they were when the device last left RUN (R52): what is in flight in one that goes off is held
(log entry 89). PD_CMP has a rule of its own (R49). -/
def Chip.requestBack (c : Chip) : Chip :=
  forN 24 c fun d c =>
    let was := c.pow.savedPd.testBit d
    if !((5 ≤ d && d ≤ 17) || (21 ≤ d && d ≤ 23)) || c.pdOn d == was then c
    else if was then c.setBit R.SYS_POWER.PD_ON.ON d true
    else c.domainOff d

/-! ### DEGRADED (R46, R47, R49) -/

/-- RUN → DEGRADED begins; with no active output it is complete at once. -/
def Chip.toDegraded (c : Chip) : Chip :=
  let c := c.degradeStart
  if c.mode = Mode.DEGRADED then c.cmpDegraded else c

/-- Mode RUN again, with the domains as they were in RUN: PD_CMP rises if it is off (R49, R52). -/
def Chip.fromDegraded (c : Chip) : Chip :=
  let c := (c.requestBack.modeDone Mode.RUN).agreeClear
  if c.pdOn PD.CMP then c else { c with pow := { c.pow with cmpRising := true } }

/-- An agreement is posted, by the manager or by the island (R47). -/
def Chip.agreePost (c : Chip) (mgr : Bool) : Chip :=
  let mine := if mgr then R.SYS_MODE.AGREE.MGR else R.SYS_MODE.AGREE.SAF
  let other := if mgr then R.SYS_MODE.AGREE.SAF else R.SYS_MODE.AGREE.MGR
  if c.flag other then c.fromDegraded
  else if c.flag mine then c
  else
    let c := (c.set mine 1).raise 0x001 2
    { c with pow := { c.pow with agreeLeft := c.get R.SYS_MODE.AGREE.WINDOW } }

/-- A write of the island's MODE_REQ (R46, R47, R50); DEGRADE wins over AGREE_RUN. -/
def Chip.islModeReq (c : Chip) (src : Src) (data : Nat) : Chip :=
  let r := c.islandDegrade
  let d := c.safWrite src 0x130 0x05C [(data / 4 == 0, E.RESERVED), (!data.testBit 0 || r.1.isNone, r.1.getD 0)] fun c =>
    if data.testBit 0 then (if c.mode ≠ Mode.DEGRADED ∧ r.2.mode = Mode.DEGRADED then r.2.cmpDegraded else r.2)
    else if data.testBit 1 ∧ c.mode = Mode.DEGRADED then c.agreePost false
    else c
  if src = .island ∧ data / 4 = 0 ∧ data.testBit 0 ∧ c.fabOn then
    match r.1 with
    | some code => r.2.reject 0x130 0x05C (srcCode src) code
    | none => d
  else d

/-- ISLAND_DEGRADE_REQ (R46, R7, R50). -/
def execIslandDegradeReq (src : Src) (s : State) : Host.Outcome State Fault Refusal := s.on true fun c => c.islModeReq src 1

/-- ISLAND_AGREE_RUN (R47). -/
def execIslandAgreeRun (src : Src) (s : State) : Host.Outcome State Fault Refusal := s.on true fun c => c.islModeReq src 2

/-- AGREE_EXPIRED (R47): due when the window has run out. -/
def execAgreeExpired (s : State) : Host.Outcome State Fault Refusal :=
  s.on true fun c => c.when (c.agreePending && c.get R.SYS_MODE.AGREE.WINDOW != 0 && c.pow.agreeLeft == 0) fun c =>
    (c.agreeClear.bump R.SYS_MODE.EXPIRE_CNT.COUNT).raise 0x001 3

/-! ### SERVICE entry (R6, R366, R367) -/

/-- RUN → SERVICE begins: it is complete once the banner shows on every active output, at once where there is none. -/
def Chip.toService (c : Chip) : Chip :=
  ({ c.modeStart Mode.SERVICE with pow := { c.pow with switched := [] } }).bannerNow.serviceCheck

/-- SERVICE → RUN, with its cause: halted cores go on, the domains are as they were in RUN, and a request that the island has made meanwhile takes
the device on into DEGRADED. -/
def Chip.fromService (c : Chip) (cause : Nat) : Chip :=
  let h := c.get R.CTL.CC_STAT.HALTED
  let c := (c.set R.CTL.CC_STAT.RUNNING (c.get R.CTL.CC_STAT.RUNNING ||| h)).set R.CTL.CC_STAT.HALTED 0
  let c := c.requestBack.serviceLeave cause
  (if c.mode = Mode.DEGRADED then c.cmpDegraded else c).bannerNow

/-! ### Mode requests (R5–R7, R46) -/

/-- The transitions of R5 that a request may name. VIGIL → RUN is among them, and no writer is its requester. -/
def permitted (m t : Nat) : Bool :=
  (m == Mode.RUN && (t == Mode.VIGIL || t == Mode.DEGRADED || t == Mode.SERVICE)) || (m == Mode.DEGRADED && t == Mode.RUN)
    || (m == Mode.SERVICE && t == Mode.RUN) || (m == Mode.BOOT && t == Mode.RUN) || (m == Mode.VIGIL && t == Mode.RUN)

/-- A claimed page on the compute die. -/
def Chip.computeClaimed (c : Chip) : Bool := (List.range 512).any fun p => c.claimed p && pageExists p && !onField p

/-- RUN → VIGIL begins: every domain to be powered off quiesces (R54). -/
def Chip.toVigil (c : Chip) : Chip :=
  let c := c.modeStart Mode.VIGIL
  { c with pow := { c.pow with quiesce := ((List.range 25).filter fun d => decide (2 ≤ d) && c.pdOn d), quFrom := c.ps, wake := none } }

/-- A write of MODE_REQ, by a requester that R46 names for the transition: the manager, for SERVICE the secure world, which may also leave it. A request
for VIGIL while a power request is in progress is E_BUSY (DESIGN CHOICE, log entry 50). -/
def Chip.modeRequest (c : Chip) (src : Src) (data : Nat) : Chip :=
  let t := bits data 0 3
  let m := c.mode
  let sec := isSecure src
  let named := if m = Mode.RUN ∧ t = Mode.SERVICE then sec else if m = Mode.RUN ∧ (t = Mode.VIGIL ∨ t = Mode.DEGRADED) then c.isMgr src
    else if t = Mode.RUN then
      if m = Mode.DEGRADED then c.isMgr src else if m = Mode.SERVICE then c.isMgr src || sec else if m = Mode.BOOT then sec else m != Mode.VIGIL
    else true
  let cfg := c.get R.SYS_MODE.VIGIL_CFG.WK_PIN + c.get R.SYS_MODE.VIGIL_CFG.WK_TOUCH + c.get R.SYS_MODE.VIGIL_CFG.WK_RTC
    + c.get R.SYS_MODE.VIGIL_CFG.WK_GPIO + c.get R.SYS_MODE.VIGIL_CFG.TIMEOUT
  c.notedPort src 0x001 0x044
    [ (c.mgrOrCtl src && named, E.OWNER),
      (!(t == Mode.VIGIL && m == Mode.RUN && !sec && c.computeClaimed), E.CLAIMED),
      (permitted m t, E.MODE),
      (t != Mode.SERVICE || c.flag R.SYS_BOOT.STRAPS.SERVICE_EN, E.MODE),
      (data / 8 == 0, E.RESERVED),
      (!c.modeBusy && !c.pow.islandHeld || m == Mode.SERVICE, E.BUSY),
      (!(t == Mode.VIGIL && c.flag R.SYS_POWER.PD_RESULT.BUSY), E.BUSY),
      (!(t == Mode.VIGIL && cfg == 0), E.STATE) ]
    (fun code c => if code = E.RESERVED then c else c.modeReject code)
    fun c =>
      if t = Mode.VIGIL then c.toVigil
      else if t = Mode.DEGRADED then c.toDegraded
      else if t = Mode.SERVICE then c.toService
      else if m = Mode.DEGRADED then c.agreePost true
      else if m = Mode.SERVICE then c.fromService 0
      else c.bootReady

/-- MODE_REQ_VIGIL (R46). -/
def execModeReqVigil (src : Src) (s : State) : Host.Outcome State Fault Refusal := s.on true fun c => c.modeRequest src Mode.VIGIL

/-- MODE_REQ_DEGRADED (R46). -/
def execModeReqDegraded (src : Src) (s : State) : Host.Outcome State Fault Refusal := s.on true fun c => c.modeRequest src Mode.DEGRADED

/-- MODE_REQ_RUN (R46, R47). -/
def execModeReqRun (src : Src) (s : State) : Host.Outcome State Fault Refusal := s.on true fun c => c.modeRequest src Mode.RUN

/-- MODE_REQ_SERVICE (R6): `level` is the level at the SERVICE_EN ball. -/
def execModeReqService (src : Src) (level : Bool) (s : State) : Host.Outcome State Fault Refusal :=
  s.on true fun c => (c.set R.SYS_BOOT.STRAPS.SERVICE_EN (b2n level)).modeRequest src Mode.SERVICE

/-- MODE_REQ_OTHER (R5): a request that names any mode. -/
def execModeReqOther (src : Src) (target : Nat) (s : State) : Host.Outcome State Fault Refusal :=
  s.on true fun c => c.modeRequest src (target % 8)

/-! ### Quiescing (R54) -/

/-- Nothing is in flight in domain `d`: its engine stands at a boundary. -/
def Chip.domainQuiet (c : Chip) (d : Nat) : Bool :=
  if 5 ≤ d ∧ d ≤ 16 then (c.gcore (d - 5)).isNone
  else if d = PD.GFXC then c.gfx.jobs.isEmpty
  else if d = PD.MEM then (List.range 12).all fun k => (c.dch1 k).ents.isEmpty
  else if d = PD.HOST then c.imx.rings.all fun x => x.2.issued.all fun e => e.done.isNone
  else if d = PD.LINK then c.lnk.reqs.isEmpty && c.lnk.layers.isEmpty
  else if d = PD.DMA then c.dmaQuiet
  else if d = PD.AUD then c.audIdle
  else true

/-- Every quiescing domain is quiet. -/
def Chip.allQuiet (c : Chip) : Bool := c.pow.quiesce.all c.domainQuiet

/-- µs since GO. -/
def Chip.quiesceUs (c : Chip) : Nat := (c.ps - c.pow.quFrom) / 1000000

/-- The power request ends with `code`. -/
def Chip.pdEnd (c : Chip) (code us : Nat) : Chip :=
  let c := ((c.set R.SYS_POWER.PD_RESULT.CODE code).set R.SYS_POWER.PD_RESULT.BUSY 0).set R.SYS_POWER.PD_RESULT.QUIESCE_US (min us 0xFFFF)
  { c with pow := { c.pow with req := none, quiesce := [] } }

/-- The domains can still have quiesced in time for VIGIL: within 500 µs of the request, with 15 ms more to reach it (R46, R54). -/
def Chip.vigilInTime (c : Chip) : Bool := decide (c.ps ≤ c.pow.quFrom + 15500000000)

/-- QUIESCE_DONE (R54): everything in flight in the domain has reached its boundary within 500 µs of GO, and it powers off within 20 µs more. -/
def execQuiesceDone (s : State) : Host.Outcome State Fault Refusal :=
  s.on true fun c => match c.pow.req with
    | some (d, false) => c.when (c.allQuiet && decide (c.ps ≤ c.pow.quFrom + 520000000)) fun c => ((c.domainOff d).pdEnd E.NONE c.quiesceUs).raise 0x002 0
    | _ => c

/-- QUIESCE_REFUSED (R54): due 500 µs after GO. A refused RUN → VIGIL is rejected with E_BUSY (R46), and PD_RESULT shows its refusal too. -/
def execQuiesceRefused (s : State) : Host.Outcome State Fault Refusal :=
  s.on true fun c => c.when (decide (500 ≤ c.quiesceUs)) fun c =>
    let refuse := fun (c : Chip) => ((c.pdEnd E.BUSY c.quiesceUs).bump R.SYS_POWER.REFUSE_CNT.COUNT).raise 0x002 1
    match c.pow.req with
    | some (_, false) => if c.allQuiet && decide (c.ps ≤ c.pow.quFrom + 520000000) then c else refuse c
    | _ => if c.modeBusy && c.modeTarget == Mode.VIGIL && !(c.allQuiet && c.vigilInTime) then refuse (c.modeIdle.modeReject E.BUSY) else c

/-! ### Power requests (R52, R53) -/

/-- The domain whose power state page `p` follows (R45), 25 for none. -/
def pageDomain (p : Nat) : Nat :=
  if p < 0x020 then PD.DISP else if p < 0x030 then PD.AON else if p < 0x050 then PD.CTL else if p < 0x090 then PD.HOST
  else if p < 0x094 then PD.FAB else if p < 0x0A0 then 25
  else if p < 0x0E0 then (if 0x0B0 ≤ p ∧ p < 0x0BC then PD.GFX (p - 0x0B0) else if 0x0C0 ≤ p ∧ p < 0x0CC then PD.GFX (p - 0x0C0) else PD.GFXC)
  else if p < 0x0E8 then PD.DISP else if p < 0x120 then PD.CMP else if p < 0x130 then PD.DISP else if p < 0x140 then PD.SAFE
  else if p < 0x150 then PD.FAB else if p < 0x160 then PD.LINK else if p < 0x180 then PD.MEM else if p < 0x190 then PD.DMA
  else if p < 0x19E then PD.AUD else if p < 0x1B0 then PD.FIELD else if p < 0x1B4 then PD.AON
  else if 0x1C0 ≤ p ∧ p < 0x1D0 then PD.CTL else 25

/-- Domain `d` holds a claimed page (R35). -/
def Chip.domainClaimed (c : Chip) (d : Nat) : Bool := (List.range 512).any fun p => c.claimed p && pageExists p && pageDomain p == d

/-- Domains that software switches in mode `m` (R52). -/
def requestable (m d : Nat) : Bool :=
  (m == Mode.RUN || m == Mode.SERVICE || m == Mode.DEGRADED) && ((5 ≤ d && d ≤ 17) || (21 ≤ d && d ≤ 23) || (m == Mode.DEGRADED && d == PD.CMP))

/-- The prerequisites of switching domain `d` (R53). -/
def Chip.prereqOk (c : Chip) (d : Nat) (on : Bool) : Bool :=
  if on then (!(5 ≤ d && d ≤ 16) || c.pdOn PD.GFXC) && c.pdOn PD.FAB && c.pdOn PD.MEM
  else d != PD.GFXC || (List.range 12).all fun k => !c.pdOn (PD.GFX k)

/-- An instance is being reset (R84). -/
def Chip.anyResetting (c : Chip) : Bool := (List.range 16).any fun vi => c.viState vi == VS.RESETTING

/-- A write of PD_REQ (R53, R60). PD_RESULT.CODE shows the code of a rejected GO, but not while another request is in progress, whose result it will
show (DESIGN CHOICE, log entry 90). -/
def Chip.pdReq (c : Chip) (src : Src) (data : Nat) : Chip :=
  let d := bits data 0 5
  let on := data.testBit 8
  let go := data.testBit 31
  c.notedPort src 0x002 0x044
    [ (c.mgrOrCtl src, E.OWNER),
      (!(go && !on && !isSecure src && c.domainClaimed d), E.CLAIMED),
      (bits data 5 3 == 0 && bits data 9 22 == 0, E.RESERVED),
      (decide (d ≤ 24), E.VALUE),
      (!go || (!c.flag R.SYS_POWER.PD_RESULT.BUSY && !c.modeBusy && !c.anyResetting && !(d == PD.CMP && c.pow.cmpRising)), E.BUSY),
      (!go || (requestable c.mode d && c.prereqOk d on), E.STATE) ]
    (fun code c => if go && !c.flag R.SYS_POWER.PD_RESULT.BUSY then c.set R.SYS_POWER.PD_RESULT.CODE code else c)
    fun c =>
      let c := (c.set R.SYS_POWER.PD_REQ.DOMAIN d).set R.SYS_POWER.PD_REQ.ON (b2n on)
      c.when go fun c =>
        let c := ((c.set R.SYS_POWER.PD_RESULT.CODE 0).set R.SYS_POWER.PD_RESULT.BUSY 1).set R.SYS_POWER.PD_RESULT.QUIESCE_US 0
        { c with pow := { c.pow with req := some (d, on), quiesce := if on then [] else [d], quFrom := c.ps } }

/-- PD_POWER_ON (R53): a PD_REQ GO with ON = 1. -/
def execPdPowerOn (src : Src) (d : Nat) (s : State) : Host.Outcome State Fault Refusal :=
  s.on true fun c => c.pdReq src (d % 32 + 2 ^ 8 + 2 ^ 31)

/-- PD_POWER_OFF (R54): a PD_REQ GO with ON = 0. -/
def execPdPowerOff (src : Src) (d : Nat) (s : State) : Host.Outcome State Fault Refusal := s.on true fun c => c.pdReq src (d % 32 + 2 ^ 31)

/-- PD_POWER_ON_DONE (R53, R49): domain `d` has come on, for a request or as part of DEGRADED → RUN. -/
def execPdPowerOnDone (d : Nat) (s : State) : Host.Outcome State Fault Refusal :=
  s.on (d < 25) fun c =>
    if c.pow.req = some (d, true) then (((c.setBit R.SYS_POWER.PD_ON.ON d true).pdEnd E.NONE 0).raise 0x002 0).when (d == PD.CMP) Chip.cmpShow
    else if d = PD.CMP ∧ c.pow.cmpRising then
      { c.setBit R.SYS_POWER.PD_ON.ON d true with pow := { c.pow with cmpRising := false } }.cmpShow
    else c

/-! ### VIGIL (R31, R52, R74, R253, R301) -/

/-- Compute-die sensors read 0x80 while the die is off (R364). -/
def Chip.sensorsOff (c : Chip) (v : Nat) : Chip := forN 8 c fun i c => c.set (R.PWR_THERM.TEMP.TEMP i) v

/-- Registers that VIGIL keeps: mode controller retention, the field die's own pages, the fuses, the training results and configuration of the DRAM
controller, the straps and what follows them, DRAM_WMARK with its lock, the front ends of `tf`, and what the work needs that the quiesce holds (R54):
the IMX and RNG pages, without the state of the host links, the DMA pages, and the AUD pages of the compute die. -/
def vigilKeeps (tf : List Nat) (key : Nat) : Bool :=
  let p := key / 32768
  p == 0x001 || isAonPage p || (0x1B0 ≤ p && p < 0x1B4) || (0x160 ≤ p && p < 0x180) || tf.any (fun n => p / 2 == 0xD4 + n)
    || (0x050 ≤ p && p < 0x090 && !(p == 0x050 && key % 32768 / 32 == 0x11)) || (0x180 ≤ p && p < 0x19E)
    || [R.SYS_BOOT.STRAPS.BOOTSEL.key, R.SYS_BOOT.STRAPS.DEVID.key, R.SYS_BOOT.STRAPS.SERVICE_EN.key, R.IMX.MANAGER.MGR.key,
        R.LDG_SYNC.SYNC_STATE.DEVID.key, R.SEC.DRAM_WMARK.WMARK.key, R.SEC.DRAM_WMARK.LOCK.key].contains key

/-- A ring pair over VIGIL (R54): the entries that CMP, GFX, HAP and TCH have taken up and not finished are held as unissued work, for those engines take
them up anew. -/
def Chip.ringHeld (c : Chip) (r : Nat) (x : Ring) : Ring :=
  let cls := c.get (R.RNG.RING_BIND.CLASS (r / 2) (r % 2))
  if cls = 2 ∨ cls = 3 then x
  else { x with issued := x.issued.map fun (e : Issued) => if e.done.isNone then { e with fresh := true } else e }

/-- The device in VIGIL. -/
def Chip.vigilChip (c : Chip) : Chip :=
  let c := c.tchVigil
  let tf := if c.flag R.SYS_MODE.VIGIL_CFG.WK_TOUCH then (List.range 4).filter fun n => c.flag (R.TCH_CFG.WAKE.WAKE_SRC n) else []
  let led : Ledger := { savedFrame := c.get R.LDG.LIVE_FRAME.FRAME, savedNs := c.led.ns, savedRtc := c.ticks, lineNo := c.led.lineNo }
  let pow : Power := { savedPd := c.get R.SYS_POWER.PD_ON.ON ||| 1 <<< PD.CMP, vigilAt := c.ps, wake := c.pow.wake, t0 := c.pow.t0, clamps := c.pow.clamps, islDead := c.pow.islDead, loaded := c.pow.loaded,
                       clampAt := c.pow.clampAt, lossAt := c.pow.lossAt, fieldHot := c.pow.fieldHot }
  let drc : Drc := { c.drc with ch := c.drc.ch.map fun x => (x.1, { x.2 with rows := [], ents := [] }), answers := [], blank := false, iso := false }
  let n : Chip := { rf := c.rf.filter (fun x => vigilKeeps tf x.1), ps := c.ps, free := c.free, readData := c.readData, deliveries := c.deliveries }
  let n := { n with brg := { lastFrame := c.ps }, led := led, pow := pow, drc := drc, csk := c.csk, tch := c.tch.filter (fun x => tf.contains x.1) }
  let n := { n with imx := { c.imx with ready := [], rings := c.imx.rings.map fun (x : Nat × Ring) => (x.1, c.ringHeld x.1 x.2) }, dma := c.dma, aud := { c.aud with amp := [] }, flaws := c.flaws.filter fun f => f.1 / 2 ^ 48 == Ecc.DRAM }
  let n := forN 12 n fun k n => (n.set (R.DRC_DC.DC_STAT.SR k) 2).set (R.DRC_DC.DC_STAT.RETRAINING k) 0
  let n := if c.pow.islDead then n.set R.SAF.ISL_STAT.STATE 2 else n
  -- PD_SAFE is off, which forces SAFE_OK (R221)
  let n := n.setBit R.SAF.SAFE_OK.FORCED 5 true
  ((n.set R.SYS_POWER.PD_ON.ON 3).set R.PWR_RAILS.RAIL_STAT.ON 0x61).sensorsOff 0x80

/-- VIGIL_ENTRY_DONE (R46, R54): due once every domain has quiesced. On-chip memories lose their contents. -/
def execVigilEntryDone (s : State) : Host.Outcome State Fault Refusal :=
  s.onMem true fun c m =>
    if c.modeBusy && c.modeTarget == Mode.VIGIL && c.allQuiet && c.vigilInTime then
      ((c.modeDone Mode.VIGIL).vigilChip, { m.lost with dram := m.dram })
    else (c, m)

/-- The warm resume begins: rails, self-refresh exit with one retraining step of every trained channel, the ledger (R31, R74, R253). -/
def Chip.wakeBegin (c : Chip) : Chip :=
  let c := (c.modeStart Mode.RUN).set R.SYS_POWER.PD_ON.ON R.SYS_POWER.PD_ON.ON.rst
  let c := ((c.set R.PWR_RAILS.RAIL_STAT.ON 0xFF).sensorsOff 0).set R.LDG.LIVE_FRAME.FRAME (c.led.savedFrame + 1)
  let ns := (c.led.savedNs + (c.ticks - c.led.savedRtc) * 10 ^ 9 / 32768) % 2 ^ 64
  let c := { c with led := { lineNo := c.led.lineNo, ns := ns, lineStart := c.ps }, pow := { c.pow with t0 := c.ps }, brg := { lastFrame := c.ps } }
  let c := forN 12 c fun k c =>
    let x := c.dch1 k
    let c := (c.set (R.DRC_DC.DC_STAT.SR k) 0).setDch1 k { x with upTo := c.ps, rem := 0, idleAt := c.ps, rtAt := c.ps }
    if c.flag R.DRC.TRAIN.DONE then c.set (R.DRC_DC.DC_STAT.RETRAINING k) 1 else c
  let c := c.drcSlots
  (c.set R.SYS_BOOT.BOOT_STAT.ERR 0).setStage 7

/-- The resume digest does not match (R51, R74): BOOT from step 9 of R61, with the island and its outputs running on. -/
def Chip.resumeFails (c : Chip) (m : Mems) : Chip × Mems :=
  let cause := c.pow.wake.getD 0
  let c := (c.modeAbandon.recordForced Mode.BOOT cause 0)
  let c := (c.set R.SYS_MODE.MODE_STAT.MODE Mode.BOOT).set R.SYS_MODE.MODE_STAT.CAUSE cause
  let c := { c with rf := c.rf.filter fun x => !(0x160 ≤ x.1 / 32768 && x.1 / 32768 < 0x180) }
  let c := { c with drc := {}, pow := { c.pow with wake := none, savedPd := 0x1FFFFFF }, flaws := c.flaws.filter fun f => f.1 / 2 ^ 48 != Ecc.DRAM }
  let c := (c.set R.SEC.DRAM_WMARK.WMARK 0).set R.SEC.DRAM_WMARK.LOCK 0
  ((c.set R.SYS_BOOT.BOOT_STAT.ERR 0x16).setStage 3 |>.cskBootEntry, { m with dram := [] })

/-- The SHA-384 digest of the resume region, the DRAM below DRAM_WMARK (R74). -/
def Chip.resumeDigest (c : Chip) (dram : Memory) : Nat :=
  let size := c.get R.SEC.DRAM_WMARK.WMARK * 2 ^ 21
  Config.sha384 (dram.filter fun x => decide (x.1 < size)) size

/-- VIGIL_WAKE (R74): an enabled wake source starts the resume; once the island's image has loaded, the boot ROM checks the resume region against
`digest` and enters `vector`, which the secure world has left in PD_AON retention (log entry 95), or finds a mismatch. -/
def execVigilWake (digest vector : Nat) (s : State) : Host.Outcome State Fault Refusal :=
  s.onMem true fun c m =>
    if c.mode ≠ Mode.VIGIL then (c, m)
    else if !c.modeBusy then (if c.pow.wake.isSome then c.wakeBegin else c, m)
    else if c.get R.SYS_BOOT.BOOT_STAT.STAGE = 7 ∧ c.get R.SAF.ISL_STAT.STATE ≠ 0 ∧ !c.flag R.SEC_WDOG.WD_CFG.ARMED then
      if c.resumeDigest m.dram = digest then ({ c.swdArm.cc0Enter vector with pow := { c.pow with wake := none } }, m) else c.resumeFails m
    else (c, m)

/-- VIGIL_TIMEOUT (R51): TIMEOUT minutes in VIGIL. -/
def execVigilTimeout (s : State) : Host.Outcome State Fault Refusal :=
  s.onMem true fun c m =>
    let t := c.get R.SYS_MODE.VIGIL_CFG.TIMEOUT
    if c.mode = Mode.VIGIL ∧ !c.modeBusy ∧ t ≠ 0 ∧ c.pow.vigilAt + t * 60000000000000 ≤ c.ps then c.toDormant m 1 1024 true else (c, m)

/-! ### Temperatures and protection (R51, R56, R57, R364) -/

/-- Sensor `i` reads `t` °C. -/
def Chip.tempSet (c : Chip) (i : Nat) (t : Int) : Chip :=
  let c := c.set (R.PWR_THERM.TEMP.TEMP i) (toBits 8 t)
  let c := if sext 8 (c.get (R.PWR_THERM.TEMP.PEAK i)) < t then c.set (R.PWR_THERM.TEMP.PEAK i) (toBits 8 t) else c
  let val := fun k => sext 8 (c.get (R.PWR_THERM.TEMP.TEMP k))
  let top := (List.range 10).foldl (fun b k => if val b < val k then k else b) 0
  (c.set R.PWR_THERM.TMAX.TEMP (toBits 8 (val top))).set R.PWR_THERM.TMAX.SENSOR top

/-- THERMAL_SHUTDOWN (R51, R55): sensor `i` at or above 125 °C while the compute die is powered. -/
def execThermalShutdown (i : Nat) (tj : Int) (s : State) : Host.Outcome State Fault Refusal :=
  s.onMem (i < 10) fun c m =>
    let c := c.tempSet i tj
    if tj < 125 ∨ !c.pdOn PD.DISP then (c, m)
    else
      let c := (c.resetsCut.record 0x0303 i [toBits 8 tj]).modeAbandon
      let r := c.toDormant m 3 1024 true
      ({ r.1 with pow := { r.1.pow with hot := true } }, r.2)

/-- A throttle step of the GPU clock: 50 MHz less, to no less than 300 MHz; at 300 MHz and 110 °C the control cores and the GPU's DRAM traffic are
held back as well (R56). -/
def Chip.throttleDown (c : Chip) (t : Int) : Chip :=
  let c := c.loopProtect 1 (max 300 (c.loop 1 - 50))
  let c := { c with pow := { c.pow with stepAt := c.ps } }
  if c.loop 1 = 300 ∧ 110 ≤ t ∧ !c.pow.halved then
    { c with pow := { c.pow with halved := true } }.loopProtect 2 (c.loop 2 / 2)
  else c

/-- THERMAL_THROTTLE (R56): sensor `i` reads `t` °C, 105 or more: the GPU clock takes its first step down, or the boost rail is held at 40 V. -/
def execThermalThrottle (i : Nat) (t : Int) (s : State) : Host.Outcome State Fault Refusal :=
  s.on (i < 10) fun c =>
    let c := c.tempSet i t
    if t < 105 ∨ !c.pdOn PD.DISP then c
    else if 8 ≤ i then (if c.pow.fieldHot then c else { c with pow := { c.pow with fieldHot := true } }.hapRailShow)
    else if c.pow.gpuHot then c
    else { c with pow := { c.pow with gpuHot := true, recover := [] } }.throttleDown t

/-- THROTTLE_STEP (R56, R57): due every 1 ms while the hottest compute sensor, which reads `t` °C, stays at 105 °C or above, and every 10 ms after
the release until the value is back inside the bounds. -/
def execThrottleStep (t : Int) (s : State) : Host.Outcome State Fault Refusal :=
  s.on true fun c =>
    if c.pow.gpuHot then c.when (decide (105 ≤ t) && decide (c.pow.stepAt + 1000000000 ≤ c.ps)) fun c => c.throttleDown t
    else c.when (!c.pow.recover.isEmpty && decide (c.pow.stepAt + 10000000000 ≤ c.ps)) fun c =>
      { c with pow := { c.pow with stepAt := c.ps } }.loopClimb 1 |>.loopClimb 2

/-- THERMAL_RELEASE (R56): the sensors of the field die, or of the compute die, read `temps`, all below 102 °C. -/
def execThermalRelease (field : Bool) (temps : List Int) (s : State) : Host.Outcome State Fault Refusal :=
  s.on (temps.length == if field then 2 else 8) fun c =>
    let c := temps.zipIdx.foldl (fun (c : Chip) x => c.tempSet ((if field then 8 else 0) + x.2) x.1) c
    if temps.any fun t => decide (102 ≤ t) then c
    else if field then { c with pow := { c.pow with fieldHot := false } }.hapRailShow
    else c.when c.pow.gpuHot fun c =>
      let c := c.loopRelease 1
      let c := if c.pow.halved then c.loopRelease 2 else c
      { c with pow := { c.pow with gpuHot := false, halved := false, stepAt := c.ps } }

/-- The hottest compute-die sensor, in °C. -/
def Chip.computeHot (c : Chip) : Int := (List.range 8).foldl (fun b k => max b (sext 8 (c.get (R.PWR_THERM.TEMP.TEMP k)))) (-128)

/-- What the thermal frequency loop wants (R58): of `want` what lies in whole 50 MHz on the side that brings the hottest compute sensor to THERM_TARGET:
no more than now while it is hotter, no less while it is cooler. -/
def Chip.thermalWant (c : Chip) (want : Int) : Int :=
  let v : Int := c.loop 1
  let w := want / 50 * 50
  let target : Int := c.get R.SYS_POLICY.THERM_TARGET.TARGET
  if target < c.computeHot then min w v else if c.computeHot < target then max w v else v

/-- POLICY_LOOP_STEP (R57, R58): the adaptive voltage loop (0) or the thermal frequency loop (1) wants the value `want`. The other loops step with
their blocks. -/
def execPolicyLoopStep (n : Nat) (want : Int) (s : State) : Host.Outcome State Fault Refusal :=
  s.on (n < 7) fun c =>
    if 2 ≤ n ∨ !c.pdOn PD.DISP then c
    else
      let c := c.loopStep n (if n = 1 then c.thermalWant want else want)
      if n = 0 then c.set R.PWR_RAILS.VCORE_STAT.SET_MV (c.loop 0) else c

/-! ### The field bridge (R9–R11) -/

/-- BRIDGE_FRAME_RX (R9): a frame arrives, good or with a bad CRC, which is retried. A frame with a bad CRC counts as one that arrives and restarts the
10 µs of silence of R11 (DESIGN CHOICE, log entry 91). `retries` counts what has failed of the frame in progress: its first sending and its retries. -/
def execBridgeFrameRx (ok : Bool) (s : State) : Host.Outcome State Fault Refusal :=
  s.on true fun c => c.when (c.brg.up && c.pdOn PD.DISP) fun c =>
    if ok then { c with brg := { c.brg with retries := 0, lastFrame := c.ps } }
    else { c with brg := { c.brg with retries := c.brg.retries + 1, lastFrame := c.ps } }

/-- Field-die pages whose blocks enter the hold state (R11). -/
def holdPages : List Nat :=
  [0x020, 0x021, 0x022, 0x19E, 0x19F, 0x1A0, 0x1A1, 0x1A4, 0x1A5, 0x1A6, 0x1A7] ++ (List.range 8).map (0x1A8 + ·) ++ [0x1B0, 0x1B1, 0x1B2, 0x1B3]

/-- BRIDGE_DOWN (R11): due after 16 failed retries of a frame, its first sending having failed before, or 10 µs without one. -/
def execBridgeDown (s : State) : Host.Outcome State Fault Refusal :=
  s.on true fun c =>
    let failed := decide (17 ≤ c.brg.retries)
    c.when (c.brg.up && c.pdOn PD.DISP && (failed || decide (c.brg.lastFrame + 10000000 ≤ c.ps))) fun c =>
      let c := { c with brg := { c.brg with up := false, hold := holdPages } }
      let c := c.hapBridgeDown.ampHold
      let c := forN 4 c fun n c => c.tchShow n
      let c := (c.record 0x0305 0xFF [b2n (!failed)]).raise 0x130 3
      if c.flag R.SAF.SAFE_OK.FIELD_DROP then c.safeForce 4 else c

/-- BRIDGE_RETRAINED (R11): the field blocks stay in their hold state until their CTRL is written. -/
def execBridgeRetrained (s : State) : Host.Outcome State Fault Refusal :=
  s.on true fun c => c.when (!c.brg.up && c.pdOn PD.DISP) fun c =>
    { c with brg := { c.brg with up := true, retries := 0, lastFrame := c.ps } }

end Sys2Proof.Machine
end

