-- ==== Sys2Proof/Machine/Supply.lean ====
section
/-! DEFINITION. Supply entry, rails and the power-fail warning (chapter 23, R354–R363). Voltages are in mV. -/

namespace Sys2Proof.Machine

/-- Kiln runs: the device is not DORMANT, and PFWn has not asserted. -/
def Chip.kilnFree (c : Chip) : Bool := c.mode != Mode.DORMANT && !c.flag R.PWR_ENTRY.ENTRY_STAT.PFW

/-- VIN_MON follows the levels. -/
def Chip.vinSet (c : Chip) (vin vsys : Nat) : Chip := (c.set R.PWR_ENTRY.VIN_MON.VIN (vin / 10)).set R.PWR_ENTRY.VIN_MON.VSYS (vsys / 10)

/-- PFWn asserts with PFW_SRC `src` (R357, R338): the UNDERVOLTAGE record is staged, and FREEZE is released. Of two conditions in the same instant
the lower code is recorded. -/
def Chip.pfwAssert (c : Chip) (src vin : Nat) : Chip :=
  if c.mode = Mode.DORMANT then c
  else if c.flag R.PWR_ENTRY.ENTRY_STAT.PFW then
    if c.pow.pfwAt = c.ps ∧ src < c.get R.PWR_ENTRY.ENTRY_STAT.PFW_SRC then c.set R.PWR_ENTRY.ENTRY_STAT.PFW_SRC src else c
  else
    let c := (c.resetsCut.set R.PWR_ENTRY.ENTRY_STAT.PFW 1).set R.PWR_ENTRY.ENTRY_STAT.PFW_SRC src
    let c := ((c.record 0x0302 0xFF (parBytes 4 vin)).set R.CSK.CSK_STAT.PFW 1).set R.CSK.CSK_CTRL.FREEZE 0
    { c with pow := { c.pow with pfwAt := c.ps } }

/-- An event of ENTRY_STAT without a code of its own goes to Cask with the register's offset and value (R333). -/
def Chip.entryRecord (c : Chip) : Chip := c.record 0x0300 0xFF (parBytes 4 0x048 ++ parBytes 4 (c.readReg 0x020 0x048))

/-! ### The surge clamp (R354) -/

/-- Picoseconds of the last 10 s in which the clamp has regulated. -/
def Chip.clampUsed (c : Chip) : Nat :=
  let lo := c.ps - 10 ^ 13
  let all := c.pow.clamps ++ (match c.pow.clampAt with | some t => [(t, c.ps)] | none => [])
  (all.map fun (x : Nat × Nat) => x.2 - max x.1 lo).foldl (· + ·) 0

/-- CLAMP_MS. -/
def Chip.clampShow (c : Chip) : Chip := c.set R.PWR_ENTRY.ENTRY_STAT.CLAMP_MS (min 1023 (c.clampUsed / 10 ^ 9))

/-- The clamp FET no longer regulates. -/
def Chip.clampEnd (c : Chip) : Chip :=
  let c := c.set R.PWR_ENTRY.ENTRY_STAT.CLAMPING 0
  match c.pow.clampAt with
  | none => c
  | some t =>
    let old := c.pow.clamps.filter fun (x : Nat × Nat) => decide (c.ps < x.2 + 10 ^ 13)
    { c with pow := { c.pow with clampAt := none, clamps := old ++ [(t, c.ps)] } }.clampShow

/-- SURGE_CLAMP (R354): VIN above 62 V with the clamp FET fitted. -/
def execSurgeClamp (vin : Nat) (s : State) : Host.Outcome State Fault Refusal :=
  s.on true fun c =>
    c.when (c.kilnFree && c.flag R.PWR_ENTRY.ENTRY_STAT.OVG_FITTED && c.pow.clampAt.isNone && decide (62000 < vin)) fun c =>
      let c := (c.vinSet vin 62000).set R.PWR_ENTRY.ENTRY_STAT.CLAMPING 1
      let c := ({ c with pow := { c.pow with clampAt := some c.ps } }).clampShow
      ((c.bump R.PWR_ENTRY.CLAMP_CNT.COUNT).raise 0x020 1).entryRecord

/-- CLAMP_RELEASE (R354): VIN is back at 62 V or below. -/
def execClampRelease (vin : Nat) (s : State) : Host.Outcome State Fault Refusal :=
  s.on true fun c => c.when (c.pow.clampAt.isSome && decide (vin ≤ 62000)) fun c => (c.vinSet vin vin).clampEnd

/-- SURGE_TRIP (R354): the clamp has been used for 1.0 s within 10 s or VIN is above 74 V; without the FET, VIN has been above 62 V for 10 µs. -/
def execSurgeTrip (vin : Nat) (s : State) : Host.Outcome State Fault Refusal :=
  s.on true fun c =>
    let fitted := c.flag R.PWR_ENTRY.ENTRY_STAT.OVG_FITTED
    let limit := c.pow.clampAt.isSome && decide (10 ^ 12 ≤ c.clampUsed)
    c.when (c.kilnFree && (if fitted then limit || decide (74000 < vin) else decide (62000 < vin))) fun c =>
      let c := (c.set R.PWR_ENTRY.VIN_MON.VIN (vin / 10)).clampEnd
      let c := if fitted then c else c.set R.PWR_ENTRY.ENTRY_STAT.REVG_ON 0
      ((c.bump R.PWR_ENTRY.CLAMP_TRIP.COUNT).raise 0x020 2).pfwAssert 5 vin

/-- REVERSE_CURRENT (R354): REVG acts as an ideal diode between VIN and VSYS. -/
def execReverseCurrent (vin vsys : Nat) (s : State) : Host.Outcome State Fault Refusal :=
  s.on true fun c => c.when c.kilnFree fun c => (c.vinSet vin vsys).set R.PWR_ENTRY.ENTRY_STAT.REVG_ON (b2n (decide (vsys ≤ vin)))

/-! ### Rails (R355, R356) -/

/-- Rail `r` is on. -/
def Chip.railOn (c : Chip) (r : Nat) : Bool := (c.get R.PWR_RAILS.RAIL_STAT.ON).testBit r

/-- RAIL_FAULT (R356): a rail that is on has been out of its window for 10 µs. During BOOT the record names the step of R61 that brings it up. -/
def execRailFault (rail vin : Nat) (s : State) : Host.Outcome State Fault Refusal :=
  s.onMem (rail < 8) fun c m =>
    if !c.kilnFree ∨ !c.railOn rail then (c, m)
    else
      let boot := c.mode = Mode.BOOT
      let step := if boot then (if rail = 0 then 3 else if rail = 7 then 5 else 4) else 0xFF
      let c := (c.setBit R.PWR_RAILS.RAIL_STAT.ON rail false).record 0x0301 0xFF [step, rail]
      if boot then c.toDormant m 2 1024 false else (c.pfwAssert 4 vin, m)

/-- RAIL_WARN (R355): a rail leaves ±3 % and stays inside ±8 %. -/
def execRailWarn (rail : Nat) (s : State) : Host.Outcome State Fault Refusal :=
  s.on (rail < 8) fun c => c.when (c.mode != Mode.DORMANT && c.railOn rail) fun c =>
    ((c.setBit R.PWR_RAILS.RAIL_STAT.WARN rail true).bump R.PWR_RAILS.RAIL_WARN.COUNT).raise 0x021 0

/-- VBUS5_PHASE_SHED (R355): VBUS5 carries `ma` mA. -/
def execVbus5PhaseShed (ma : Nat) (s : State) : Host.Outcome State Fault Refusal :=
  s.on true fun c => c.when (c.mode != Mode.DORMANT && c.railOn 0) fun c =>
    if ma < 3000 then c.set R.PWR_RAILS.VBUS5_STAT.PH1_ON 0 else if 4000 < ma then c.set R.PWR_RAILS.VBUS5_STAT.PH1_ON 1 else c

/-! ### The power-fail warning (R357–R360) -/

/-- INPUT_LOSS (R357): VIN has been at least 1.0 V below VSYS for 20 µs. -/
def execInputLoss (vin vsys : Nat) (s : State) : Host.Outcome State Fault Refusal :=
  s.on true fun c => c.when (c.kilnFree && c.pow.lossAt.isNone && decide (vin + 1000 ≤ vsys)) fun c =>
    let c := (c.vinSet vin vsys).set R.PWR_ENTRY.ENTRY_STAT.REVG_ON 0
    { c with pow := { c.pow with lossAt := some c.ps } }

/-- PFW_DELAY_EXPIRY (R357): PFW_DELAY has elapsed and the input is still lost, or the loss has ended before. -/
def execPfwDelayExpiry (vin vsys : Nat) (s : State) : Host.Outcome State Fault Refusal :=
  s.on true fun c => match c.pow.lossAt with
    | none => c
    | some t => c.when c.kilnFree fun c =>
      let c := c.vinSet vin vsys
      let kept := { c with pow := { c.pow with lossAt := none } }
      if vsys < vin + 1000 then
        ((kept.set R.PWR_ENTRY.ENTRY_STAT.REVG_ON (b2n (decide (vsys ≤ vin)))).bump R.PWR_ENTRY.DIP_CNT.COUNT).raise 0x020 0
      else if t + c.get R.PWR_ENTRY.PFW_CFG.PFW_DELAY * 10000000 ≤ c.ps then kept.pfwAssert 1 vin
      else c

/-- VSYS_LOW (R357): VSYS has been below PFW_TH for 2 µs. -/
def execVsysLow (vin vsys : Nat) (s : State) : Host.Outcome State Fault Refusal :=
  s.on true fun c => c.when (c.mode != Mode.DORMANT && decide (vsys < c.get R.PWR_ENTRY.PFW_CFG.PFW_TH * 100)) fun c => (c.vinSet vin vsys).pfwAssert 2 vin

/-- EXTERNAL_PFWN (R357): PFWn has been held low from outside for 2 µs. -/
def execExternalPfwn (vin : Nat) (s : State) : Host.Outcome State Fault Refusal :=
  s.on true fun c => c.when (c.mode != Mode.DORMANT && c.flag R.PWR_ENTRY.PFW_CFG.EXT_EN) fun c =>
    (c.when c.kilnFree fun c => c.bump R.PWR_ENTRY.EXT_PFW.COUNT).pfwAssert 3 vin

/-- PFWN_ASSERT (R51, R55, R56, R338, R357, R360): the load is shed, Cask commits `written` records, the rails go. -/
def execPfwnAssert (written : Nat) (s : State) : Host.Outcome State Fault Refusal :=
  s.onMem true fun c m =>
    if c.mode = Mode.DORMANT ∨ !c.flag R.PWR_ENTRY.ENTRY_STAT.PFW then (c, m)
    else
      let src := c.get R.PWR_ENTRY.ENTRY_STAT.PFW_SRC
      let r := c.modeAbandon.toDormant m 2 written true
      ({ r.1 with pow := { r.1.pow with railsOff := if src = 4 then none else some r.1.ps } }, r.2)

/-! ### SAFE_OK readback (R363) -/

/-- SAFE_OK_READBACK (R363): the level of SAFE_OK_A, or of SAFE_OK_B, has differed from the driven one for 10 µs. -/
def execSafeOkReadback (b : Bool) (s : State) : Host.Outcome State Fault Refusal :=
  s.on true fun c => c.when (c.mode != Mode.DORMANT) fun c =>
    ((if b then c.set R.PWR_ENTRY.ENTRY_STAT.SOK_B 1 else c.set R.PWR_ENTRY.ENTRY_STAT.SOK_A 1).raise 0x020 3).entryRecord

end Sys2Proof.Machine
end

