-- ==== Sys2Proof/Machine/Imx.lean ====
section
/-! DEFINITION. Host ports and instances: binding, shares, windows, instance reset, the interrupt router, and the selection of ring entries
(R77–R86, R94). -/

namespace Sys2Proof.Machine

/-! ### Functions (R76) -/

/-- Device ID of function `func` of a port: 0 is the physical function, 1–8 its virtual ones. -/
def deviceId (func : Nat) : Nat := if func = 0 then 0x0864 else 0x0865

/-- TotalVFs of a port. -/
def totalVfs : Nat := 8

/-! ### Binding (R77) -/

/-- Instance `vi` is bound to port `port`. -/
def Chip.boundTo (c : Chip) (port vi : Nat) : Bool := c.viState vi != VS.UNBOUND && c.get (R.IMX_VI.VI_BIND.PORT vi) == port

/-- The host has enabled the VF of instance `vi`: VF Enable is set and NumVFs covers it. -/
def Chip.vfOn (c : Chip) (vi : Nat) : Bool :=
  let p := c.get (R.IMX_VI.VI_BIND.PORT vi)
  c.imx.vfEn.getD p 0 == 1 && decide (c.get (R.IMX_VI.VI_BIND.VF vi) ≤ c.imx.numVfs.getD p 0)

/-- A bound instance becomes ACTIVE or BOUND. -/
def Chip.viSettle (c : Chip) (vi : Nat) : Chip := c.set (R.IMX_VI.VI_STAT.STATE vi) (if c.vfOn vi then VS.ACTIVE else VS.BOUND)

/-- Sum of the weights of the bound instances but `skip`. -/
def Chip.bwSum (c : Chip) (skip : Nat) : Nat :=
  ((List.range 16).map fun vi => if vi != skip && c.viState vi != VS.UNBOUND then c.get (R.IMX_VI.SH_BW.WEIGHT vi) else 0).foldl (· + ·) 0

/-- BW_SUM follows the weights. -/
def Chip.bwShow (c : Chip) : Chip := c.set R.IMX.BW_SUM.SUM (c.bwSum 16)

/-- A write of VI_BIND. -/
def Chip.viBind (c : Chip) (src : Src) (vi data : Nat) : Chip :=
  let port := bits data 0 2
  let vf := bits data 2 4
  let on := data.testBit 6
  let st := c.viState vi
  let dup := (List.range 16).any fun k => k != vi && c.boundTo port k && c.get (R.IMX_VI.VI_BIND.VF k) == vf
  c.port src (0x060 + vi) 0x040
    [ (c.shareWriter src, E.OWNER), (data / 128 == 0, E.RESERVED),
      (!on || (decide (1 ≤ vf) && decide (vf ≤ 8)), E.VALUE),
      (!on || st != VS.UNBOUND || decide (c.bwSum vi + c.get (R.IMX_VI.SH_BW.WEIGHT vi) ≤ 256), E.VALUE),
      (st != VS.ACTIVE && st != VS.RESETTING && !(on && dup), E.STATE) ] fun c =>
    let c := ((c.set (R.IMX_VI.VI_BIND.PORT vi) port).set (R.IMX_VI.VI_BIND.VF vi) vf).set (R.IMX_VI.VI_BIND.BOUND vi) (b2n on)
    let c := if !on then ((c.set (R.IMX_VI.VI_STAT.STATE vi) VS.UNBOUND).poolEmpty vi)
      else if st = VS.FAULTED then c else c.viSettle vi
    c.bwShow

/-- VI_BIND (R77). -/
def execViBind (src : Src) (vi : Nat) (data : Word) (s : State) : Host.Outcome State Fault Refusal :=
  s.on (vi < 16) fun c => c.viBind src vi data.toNat

/-- Configuration requests at a port succeed: its link is up, and its configuration space is populated, within 250 ms; before that the port answers with
Configuration Request Retry Status (R72). -/
def Chip.configOn (c : Chip) (port : Nat) : Bool :=
  c.pdOn PD.HOST && c.imx.ready.contains port && decide (c.portFrom port + min Config.configSpace 250000000000 ≤ c.ps)

/-- VF_ENABLE_SET (R77): the host of `port` sets VF Enable with NumVFs = `numVfs`. -/
def execVfEnableSet (port numVfs : Nat) (s : State) : Host.Outcome State Fault Refusal :=
  s.on (port < 4) fun c => c.when (c.configOn port) fun c =>
    let c := { c with imx := { c.imx with vfEn := c.imx.vfEn.insert port 1, numVfs := c.imx.numVfs.insert port (min totalVfs numVfs) } }
    forN 16 c fun vi c => if c.boundTo port vi && c.viState vi == VS.BOUND then c.viSettle vi else c

/-! ### Instance reset (R82, R83) -/

/-- A job has issued writes. -/
def GJob.wrote (j : GJob) : Bool := !j.held.isEmpty || j.stored != 0

/-- Entries of pair `r` that no engine has taken up: doorbelled, fetched, or issued. -/
def Chip.ringQueued (c : Chip) (r : Nat) : Nat :=
  sub32 (c.sqTail r) (c.sqHead r) + (c.ring r).fetched.length + ((c.ring r).issued.filter fun e => e.fresh).length

/-- A cause of R82 reaches instance `vi`: steps 1 to 6 of R83, except that its GPU work ends at the tile boundaries. While the instance is
RESETTING the cause joins the reset in progress. -/
def Chip.viReset (c : Chip) (m : Mems) (vi cause : Nat) : Chip × Mems :=
  if c.viState vi = VS.UNBOUND ∨ c.viState vi = VS.RESETTING then (c, m)
  else
    let rings := c.viRings vi
    let jobs := (c.gfx.jobs.filter fun x => x.2.own == vi).map fun x => x.2
    let ents := (rings.map c.ringQueued).foldl (· + ·) 0
    let commits := (c.cmp.commits.filter fun k => k.own == vi).length
    let d := c.dmaReset vi
    let a := d.2.2.audReset vi
    let t := a.2.2.tchReset fun r => rings.contains r
    let h := t.2.hapReset vi
    let g := h.2.cmpSquash vi |>.gfxAbort m vi
    let c := g.1
    let squashed := ents + commits + d.1 + a.1 + t.1 + h.1 + (jobs.filter fun j => !j.wrote).length
    let drained := d.2.1 + a.2.1 + (jobs.filter fun j => j.wrote).length
    let c := rings.foldl (fun (c : Chip) r => c.setRing r { c.ring r with fetched := [], issued := [] }) c
    let imx := { c.imx with events := c.imx.events.filter (fun e => !rings.contains e.ring),
                            resets := c.imx.resets.insert vi { cause := cause, start := c.ps, squashed := squashed, drained := drained } }
    let c := ({ c with imx := imx }.lkLose vi).bump (R.IMX_VI.RESET_CNT.COUNT vi)
    ((c.set (R.IMX_VI.VI_STAT.STATE vi) VS.RESETTING).set (H.RESET (0x060 + vi)) 1, g.2)

/-- A cause that reaches every bound instance of a port. -/
def Chip.portReset (c : Chip) (m : Mems) (port cause : Nat) : Chip × Mems :=
  ((List.range 16).filter (c.boundTo port)).foldl (fun (x : Chip × Mems) vi => x.1.viReset x.2 vi cause) (c, m)

/-- CTRL.RESET of IMX_VIn is set (cause 3), or that of page 0 of the instance's own window (cause 4); `en` is the ENABLE bit written with it. -/
def Chip.instReset (c : Chip) (m : Mems) (src : Src) (vi : Nat) (en : Bool) : Chip × Mems :=
  let held := c.claimed (0x060 + vi) && !isSecure src
  let bound := c.viState vi != VS.UNBOUND
  match src with
  | .inst k =>
    let no := fun (code : Nat) => c.rejectInst k 0 (0x060 + k) 0x008 0x008 code
    if !c.instOn k then (c, m)
    else if k ≠ vi ∨ en ≠ c.flag (H.ENABLE (0x060 + vi)) then (no E.OWNER, m)
    else if held then ((no E.CLAIMED).claimNote src (0x060 + vi) 0x008, m)
    else if !bound then (no E.STATE, m)
    else c.viReset m vi 4
  | _ =>
    let checks := [(c.mgrOrCtl src, E.OWNER), (!held, E.CLAIMED), (bound, E.STATE)]
    if !c.unheard src (0x060 + vi) && (c.turnedAway src (0x060 + vi)).isNone && (firstFail checks).isNone then (c.set (H.ENABLE (0x060 + vi)) (b2n en)).viReset m vi 3
    else (c.claimPort src (0x060 + vi) 0x008 checks id, m)

/-- INSTANCE_RESET (R82). -/
def execInstanceReset (src : Src) (vi : Nat) (s : State) : Host.Outcome State Fault Refusal :=
  s.onMem (vi < 16) fun c m => c.instReset m src vi (c.flag (H.ENABLE (0x060 + vi)))

/-- INSTANCE_RESET_DONE (R83): due once no job of the instance is left. -/
def execInstanceResetDone (vi : Nat) (s : State) : Host.Outcome State Fault Refusal :=
  s.on (vi < 16) fun c =>
    match c.imx.resets.find? vi with
    | none => c
    | some x =>
      if c.gfxHolds vi ∨ c.viState vi ≠ VS.RESETTING then c
      else
        let c := (c.viRings vi).foldl (fun (c : Chip) r => if c.ringState r = RS.RETIRING then ((c.ringIrq r 3).ringFree r).raise (0x060 + vi) 2
          else
            let c := c.ringZero r
            if c.ringState r = RS.STALLED then c.setRingState r RS.RUNNING else c) c
        let c := (c.set (R.IMX_VI.RST_RESULT.SQUASHED vi) (min x.squashed 0x3FF)).set (R.IMX_VI.RST_RESULT.DRAINED vi) (min x.drained 0xFF)
        let c := (c.set (R.IMX_VI.RST_RESULT.CAUSE vi) x.cause).set (R.IMX_VI.RST_RESULT.US vi) (min ((c.ps - x.start) / 1000000) 0x7FF)
        let c := { c with imx := { c.imx with resets := c.imx.resets.erase vi } }
        ((c.set (H.RESET (0x060 + vi)) 0).viSettle vi).raise (0x060 + vi) 0

/-- VF_ENABLE_CLEAR (R82): the host of `port` clears VF Enable. -/
def execVfEnableClear (port : Nat) (s : State) : Host.Outcome State Fault Refusal :=
  s.onMem (port < 4) fun c m =>
    if c.configOn port then { c with imx := { c.imx with vfEn := c.imx.vfEn.erase port } }.portReset m port 1 else (c, m)

/-- FLR (R82, R238): Function Level Reset of function `func` of a port, 0 the physical function and 1–8 a VF. -/
def execFlr (port func : Nat) (s : State) : Host.Outcome State Fault Refusal :=
  s.onMem (port < 4 && func < 9) fun c m =>
    if !c.configOn port then (c, m)
    else if func = 0 then (if c.get R.IMX.MANAGER.MGR = port then c.lkLose 16 else c).portReset m port 1
    else match (List.range 16).find? fun vi => c.boundTo port vi && c.get (R.IMX_VI.VI_BIND.VF vi) == func with
      | none => (c, m)
      | some vi => c.viReset m vi 0

/-- The link of a port is down. -/
def Chip.hostDown (c : Chip) (m : Mems) (port : Nat) : Chip × Mems :=
  let c := (c.set (R.IMX.PORT_LINK.WIDTH port) 0).set (R.IMX.PORT_LINK.SPEED port) 0
  { c with imx := { c.imx with ready := c.imx.ready.filter (· ≠ port) } }.portReset m port 2

/-- HOST_LINK_DOWN (R82). -/
def execHostLinkDown (port : Nat) (s : State) : Host.Outcome State Fault Refusal :=
  s.onMem (port < 4) fun c m => if c.pdOn PD.HOST then c.hostDown m port else (c, m)

/-- PERSTN_ASSERT (R72, R82). -/
def execPerstnAssert (port : Nat) (s : State) : Host.Outcome State Fault Refusal :=
  s.onMem (port < 4) fun c m =>
    let c := { c with imx := { c.imx with perst := if c.imx.perst.contains port then c.imx.perst else port :: c.imx.perst } }
    if c.pdOn PD.HOST then c.hostDown m port else (c, m)

/-! ### Shares (R79, R80) -/


/-- Share bits that a write of `off` names. -/
def Chip.shareReg (c : Chip) (vi off : Nat) : Nat :=
  if off = 0x058 then c.get (R.IMX_VI.SH_LAYER.UNITS vi 0) else if off = 0x05C then c.get (R.IMX_VI.SH_LAYER.UNITS vi 1)
  else if off = 0x060 then c.get (R.IMX_VI.SH_DMA.CH vi)
  else if off = 0x064 then c.get (R.IMX_VI.SH_IO.AUD vi) + 2 ^ 16 * c.get (R.IMX_VI.SH_IO.TCH vi) + 2 ^ 20 * c.get (R.IMX_VI.SH_IO.HAP vi)
  else 0

/-- The same bits as they are in force. -/
def Share.bitsAt (s : Share) (off : Nat) : Nat :=
  if off = 0x058 then bits s.layers 0 32 else if off = 0x05C then bits s.layers 32 16 else if off = 0x060 then s.dma
  else if off = 0x064 then s.aud + 2 ^ 16 * s.tch + 2 ^ 20 * s.hap else 0

/-- Give an instance shares. -/
def Chip.setShare (c : Chip) (vi : Nat) (s : Share) : Chip := { c with imx := { c.imx with shares := c.imx.shares.put {} vi s } }

/-- When a pending share was written. -/
def Chip.shareSince (c : Chip) (vi kind : Nat) : Nat := c.imx.shareAt.getD (16 * vi + kind) 0
def Chip.setShareAt (c : Chip) (vi kind v : Nat) : Chip := { c with imx := { c.imx with shareAt := c.imx.shareAt.put 0 (16 * vi + kind) v } }

/-- Share `kind` of instance `vi` is pending, or no more; one that was has taken effect. -/
def Chip.pend (c : Chip) (vi kind : Nat) (on : Bool) : Chip :=
  let was := (c.get (R.IMX_VI.VI_STAT.PEND vi)).testBit kind
  let c := c.setBit (R.IMX_VI.VI_STAT.PEND vi) kind on
  if was && !on then c.raise (0x060 + vi) 2 else c

/-- Unit `u` is on no pipe, or on one whose output's timing generator does not run. -/
def Chip.unitFree (c : Chip) (u : Nat) : Bool :=
  let p := c.get (R.CMP_L.LAYER_MGR.PIPE u)
  decide (8 ≤ p) || !c.outRunning p

/-- Front end `n` is in a scan frame: it measures, in SETTLING or LOCKED, and is not in its hold state (R79). -/
def Chip.tchInFrame (c : Chip) (n : Nat) : Bool :=
  let t := c.tch1 n
  (t.phase == 2 || t.phase == 3) && t.measuring && !c.brg.hold.contains (0x1A8 + 2 * n)

/-- Share `kind` of instance `vi` takes effect as far as its epoch has come. -/
def Chip.shareApply (c : Chip) (vi kind : Nat) : Chip :=
  let s := c.share vi
  if kind = 0 then (if c.shareSince vi 0 = 0 then c.pend vi 0 false else c)
  else if kind = 1 then
    let w := c.get (R.IMX_VI.SH_BW.WEIGHT vi)
    if s.bw = w then c.pend vi 1 false
    else if c.shareSince vi 1 < c.led.lineNo + 1 then ((c.setShare vi { s with bw := w }).setShareAt vi 1 0).pend vi 1 false
    else c
  else if kind = 2 then c.layerShares c.unitFree
  else if kind = 3 then
    let w := c.get (R.IMX_VI.SH_DMA.CH vi)
    let gone := (List.range 32).filter fun k => s.dma.testBit k && !w.testBit k && (c.dmaRunning k).isNone
    let come := (List.range 32).filter fun k => w.testBit k && !s.dma.testBit k
    let c := gone.foldl (fun (c : Chip) k => c.dmaEvict k vi) c
    let c := come.foldl (fun (c : Chip) k => c.set (R.DMA_CH.CH_STAT.OWNER k) vi) c
    let d := gone.foldl (fun d k => putBit d k false) (s.dma ||| w)
    (c.setShare vi { s with dma := d }).pend vi 3 (d != w)
  else if kind = 4 then
    let w := c.get (R.IMX_VI.SH_IO.AUD vi)
    if s.aud = w then c.pend vi 4 false
    else if c.aud.n < c.shareSince vi 4 then c
    else
      let c := forN 16 c fun k c =>
        if s.aud.testBit k && !w.testBit k then c.audEvict k vi
        else if w.testBit k && !s.aud.testBit k then c.set (R.AUD_STREAM.ST_STAT.OWNER k) vi
        else c
      ((c.setShare vi { s with aud := w }).setShareAt vi 4 0).pend vi 4 false
  else if kind = 5 then
    let w := c.get (R.IMX_VI.SH_IO.TCH vi)
    let due := (List.range 4).filter fun n => s.tch.testBit n != w.testBit n && !c.tchInFrame (if c.tchPartner n then n - 1 else n)
    let c := due.foldl (fun (c : Chip) n => if s.tch.testBit n then c.tchEvict n else c) c
    let t := due.foldl (fun t n => putBit t n (w.testBit n)) s.tch
    (c.setShare vi { s with tch := t }).pend vi 5 (t != w)
  else if kind = 6 then (c.setShare vi { s with hap := c.get (R.IMX_VI.SH_IO.HAP vi) }).pend vi 6 false
  else c

/-- Cores that a change of the shader share of `vi` affects and that have not come to a tile boundary. -/
def Chip.gfxAffected (c : Chip) (s : Share) (mask mode : Nat) : Nat :=
  (List.range 12).foldl (fun m k =>
    if (c.gcore k).isSome && (mode == 1 || s.gfxMode == 1 || s.gfxMask.testBit k != mask.testBit k) then m ||| 1 <<< k else m) 0

/-- SH_GFX has been written: the picks of the cores follow it from their next boundary on (R123). -/
def Chip.gfxShare (c : Chip) (vi : Nat) : Chip :=
  let s := c.share vi
  let mask := c.get (R.IMX_VI.SH_GFX.MASK vi)
  let mode := c.get (R.IMX_VI.SH_GFX.MODE vi)
  let weight := c.get (R.IMX_VI.SH_GFX.WEIGHT vi)
  let waits := if s.gfxMask = mask ∧ s.gfxMode = mode ∧ s.gfxWeight = weight then c.shareSince vi 0
    else c.shareSince vi 0 ||| c.gfxAffected s mask mode
  let c := (c.setShare vi { s with gfxMask := mask, gfxMode := mode, gfxWeight := weight }).setShareAt vi 0 waits
  c.setBit (R.IMX_VI.VI_STAT.PEND vi) 0 (waits != 0)

/-- A write of a share register of instance `vi`. -/
def Chip.shareWrite (c : Chip) (src : Src) (vi off data : Nat) : Chip :=
  let others := ((List.range 16).filter (· ≠ vi)).foldl (fun m k => m ||| c.shareReg k off ||| (c.share k).bitsAt off) 0
  let added := clearBits data (c.shareReg vi off)
  let known := off == 0x050 || off == 0x054 || off == 0x058 || off == 0x05C || off == 0x060 || off == 0x064
  let reserved := if off = 0x050 then bits data 13 3 == 0 && bits data 25 7 == 0 else if off = 0x054 then bits data 9 23 == 0
    else if off = 0x05C then bits data 16 16 == 0 else if off = 0x064 then bits data 28 4 == 0 else true
  let value := if off = 0x050 then decide (bits data 16 9 ≤ 256)
    else if off = 0x054 then decide (bits data 0 9 ≤ 256) && (c.viState vi == VS.UNBOUND || decide (c.bwSum vi + bits data 0 9 ≤ 256))
    else true
  c.port src (0x060 + vi) off
    [ (c.shareWriter src, E.OWNER), (known || data == 0, E.RESERVED), (reserved, E.RESERVED), (value, E.VALUE),
      (c.viState vi != VS.RESETTING, E.BUSY), (added &&& others == 0, E.STATE) ] fun c =>
    if off = 0x050 then
      (((c.set (R.IMX_VI.SH_GFX.MASK vi) (bits data 0 12)).set (R.IMX_VI.SH_GFX.MODE vi) (bits data 12 1)).set (R.IMX_VI.SH_GFX.WEIGHT vi)
        (bits data 16 9)).gfxShare vi
    else if off = 0x054 then
      let c := (c.set (R.IMX_VI.SH_BW.WEIGHT vi) (bits data 0 9)).bwShow
      (c.setShareAt vi 1 (c.led.lineNo + 1)).setBit (R.IMX_VI.VI_STAT.PEND vi) 1 ((c.share vi).bw != bits data 0 9)
    else if off = 0x058 ∨ off = 0x05C then
      let c := (c.set (R.IMX_VI.SH_LAYER.UNITS vi (if off = 0x058 then 0 else 1)) data).setBit (R.IMX_VI.VI_STAT.PEND vi) 2 false
      c.layerShares c.unitFree
    else if off = 0x060 then ((c.set (R.IMX_VI.SH_DMA.CH vi) data).setBit (R.IMX_VI.VI_STAT.PEND vi) 3 false).shareApply vi 3
    else if off = 0x064 then
      let c := ((c.set (R.IMX_VI.SH_IO.AUD vi) (bits data 0 16)).set (R.IMX_VI.SH_IO.TCH vi) (bits data 16 4)).set (R.IMX_VI.SH_IO.HAP vi) (bits data 20 8)
      let c := (c.setShareAt vi 4 (c.aud.n + 1)).setBit (R.IMX_VI.VI_STAT.PEND vi) 4 ((c.share vi).aud != bits data 0 16)
      ((c.setBit (R.IMX_VI.VI_STAT.PEND vi) 5 false).shareApply vi 5).shareApply vi 6
    else c

/-- SHARE_WRITE (R79, R80): the share register at `off` of IMX_VIn. -/
def execShareWrite (src : Src) (vi off : Nat) (data : Word) (s : State) : Host.Outcome State Fault Refusal :=
  s.on (vi < 16) fun c => c.shareWrite src vi off data.toNat

/-- SHARE_APPLY (R79): share `kind` of instance `vi`, numbered as in PEND from 0, has come to its epoch. -/
def execShareApply (vi kind : Nat) (s : State) : Host.Outcome State Fault Refusal :=
  s.on (vi < 16 && kind < 7) fun c =>
    c.when ((c.get (R.IMX_VI.VI_STAT.PEND vi)).testBit kind) fun c => c.shareApply vi kind

/-! ### Windows (R81, R277) -/

/-- A write of WINk_BASE or WINk_SIZE. -/
def Chip.windowWrite (c : Chip) (src : Src) (vi off data : Nat) : Chip :=
  let k := (off - 0x070) / 8
  let size := off % 8 = 4
  let base := if size then c.get (R.IMX_VI.WIN_BASE.ADDR vi k) else bits data 1 15
  let len := if size then bits data 1 15 else c.get (R.IMX_VI.WIN_SIZE.ADDR vi k)
  let en := if size then c.flag (R.IMX_VI.WIN_BASE.EN vi k) else data.testBit 0
  let st := c.viState vi
  let sameAddr := base == c.get (R.IMX_VI.WIN_BASE.ADDR vi k) && len == c.get (R.IMX_VI.WIN_SIZE.ADDR vi k)
  let free := sameAddr && (en || !c.flag (R.IMX_VI.WIN_BASE.EN vi k))
  let known := decide (0x070 ≤ off) && decide (off < 0x090)
  c.port src (0x060 + vi) off
    [ (c.shareWriter src, E.OWNER), (known || data == 0, E.RESERVED), (data / 65536 == 0 && !(size && data.testBit 0), E.RESERVED),
      (!known || decide ((base + len) * 2 ^ 21 ≤ c.dramSize), E.RANGE),
      (!known || !en || len == 0 || decide (c.get R.SEC.DRAM_WMARK.WMARK ≤ base), E.RANGE),
      (!known || free || st == VS.UNBOUND || st == VS.BOUND || st == VS.FAULTED, E.STATE) ] fun c =>
    if !known then c
    else if size then c.set (R.IMX_VI.WIN_SIZE.ADDR vi k) len
    else (c.set (R.IMX_VI.WIN_BASE.ADDR vi k) base).set (R.IMX_VI.WIN_BASE.EN vi k) (b2n en)

/-- WINDOW_WRITE (R81): the window register at `off` of IMX_VIn. -/
def execWindowWrite (src : Src) (vi off : Nat) (data : Word) (s : State) : Host.Outcome State Fault Refusal :=
  s.on (vi < 16) fun c => c.windowWrite src vi off data.toNat

/-! ### Router (R86) -/

/-- Vectors of a function's MSI-X table: R76 gives up to 16, and every function is taken to have them (DESIGN CHOICE, log entry 99). -/
def msixSize : Nat := 16

/-- A secure or island destination. -/
def secDest (data : Nat) : Bool := bits data 0 2 == 3 || (bits data 0 2 == 2 && data.testBit 14)

/-- A VF that an entry names: only the instance that owns the ring pair, or whose IMX_VIn page it is. -/
def Chip.routeVf (c : Chip) (n i data : Nat) : Bool :=
  let vf := bits data 4 4
  !(bits data 0 2 == 1 && decide (1 ≤ vf) && decide (vf ≤ 8)) ||
    (List.range 16).any fun vi => c.boundTo (bits data 2 2) vi && c.get (R.IMX_VI.VI_BIND.VF vi) == vf
      && (if n = 2 then c.ringOwner i == 1 && c.ringVi i == vi else 256 * n + i == 0x060 + vi)

/-- A write of entry `i` of IMX_ROUTEn. -/
def Chip.routeWrite (c : Chip) (src : Src) (n i data : Nat) : Chip :=
  let old := c.readReg (0x051 + n) (0x040 + 4 * i)
  let known := decide (n < 2) || decide (i < 64)
  let rng := n == 0 && decide (0x070 ≤ i) && decide (i < 0x090)
  c.port src (0x051 + n) (0x040 + 4 * i)
    [ (c.shareWriter src || isSecure src, E.OWNER), (isSecure src || !(secDest data || secDest old), E.OWNER),
      (!known || c.routeVf n i data, E.OWNER), (data / 32768 == 0 && (known || data == 0), E.RESERVED),
      (!rng && decide (bits data 4 4 ≤ 8) && decide (bits data 8 4 < msixSize), E.VALUE) ] fun c =>
    if !known then c
    else
      let c := ((c.set (R.IMX_ROUTE.ROUTE.KIND n i) (bits data 0 2)).set (R.IMX_ROUTE.ROUTE.PORT n i) (bits data 2 2)).set
        (R.IMX_ROUTE.ROUTE.FUNC n i) (bits data 4 4)
      ((c.set (R.IMX_ROUTE.ROUTE.VECTOR n i) (bits data 8 4)).set (R.IMX_ROUTE.ROUTE.CORE n i) (bits data 12 2)).set
        (R.IMX_ROUTE.ROUTE.WORLD n i) (bits data 14 1)

/-- ROUTE_WRITE (R86). -/
def execRouteWrite (src : Src) (n i : Nat) (data : Word) (s : State) : Host.Outcome State Fault Refusal :=
  s.on (n < 3 && i < 256) fun c => c.routeWrite src n i data.toNat

/-! ### Issue (R94, R101) -/

/-- The engine classes' own conditions on the head of a pair. -/
def Chip.classCan (c : Chip) (cls r : Nat) : Bool :=
  if cls = 0 then c.gfxCan r else if cls = 1 then c.cmpCan r else if cls = 2 then c.dmaCan r else if cls = 3 then c.audCan r else true

/-- ENTRY_ISSUE (R94, R101): one selection of engine class `cls`. -/
def execEntryIssue (cls : Nat) (s : State) : Host.Outcome State Fault Refusal :=
  s.on (cls < 7) fun c => c.when (c.pdFree PD.HOST) fun c => c.entryIssue cls fun c r => c.classCan cls r

end Sys2Proof.Machine
end

