-- ==== Sys2Proof/Machine/Service.lean ====
section
/-! DEFINITION. Proof tests, perturbations and the debugger in SERVICE (R365–R372). -/

namespace Sys2Proof.Machine

/-! ### Leaving SERVICE (R46) -/

/-- SERVICE_EN_FALL (R46): the SERVICE_EN ball falls: SERVICE is left, and a request for it that waits for the banner fails with E_MODE. -/
def execServiceEnFall (s : State) : Host.Outcome State Fault Refusal :=
  s.on true fun c =>
    let c := c.set R.SYS_BOOT.STRAPS.SERVICE_EN 0
    if c.mode = Mode.SERVICE then c.fromService 1
    else if c.modeBusy && c.modeTarget == Mode.SERVICE then (c.modeIdle.modeReject E.MODE).bannerNow
    else c

/-! ### Proof tests (R368, R369) -/

/-- Enabled outputs, haptic channels and amplifiers. -/
def Chip.testOuts (c : Chip) : List Nat := (List.range 8).filter fun n => c.flag (R.SCN_OUT.OUT_CFG.ENABLE n)
def Chip.testHaps (c : Chip) : List Nat := (List.range 8).filter fun k => c.flag (R.HAP_CH.CH_CFG.EN k)
def Chip.testAmps (c : Chip) : List Nat := (List.range 2).filter fun a => c.flag (R.AUD_AMP.AMP_CFG.EN a)

/-- The argument range of a test; none for an undefined code. -/
def proofArgs (test : Nat) : Option Nat :=
  if test = 3 then some 128 else if test = 7 then some 8 else if test = 9 then some 16
  else if 1 ≤ test ∧ test ≤ 0xB then some 1 else none

/-- The prerequisite of a test. -/
def Chip.proofReady (c : Chip) (test arg : Nat) : Bool :=
  if test = 1 then c.get R.SAF.ISL_STAT.RECENT == 0
  else if test = 2 then c.get R.SAF.ISL_STAT.RECENT == 0 && c.flag R.SAF.WDOG_CFG.ARM
  else if test = 3 then c.flag (R.SAF_P.RG_CFG.EN (arg / 16) (arg % 16)) && c.flag (R.SAF_P.RG_STAT.VALID (arg / 16) (arg % 16))
  else if test = 7 then c.flag (R.DRC_ECC.REG_BASE.EN arg) && !c.flag (R.DRC_ECC.REG_BASE.INIT_BUSY arg)
  else if test = 9 then (List.range 4).all fun n => !arg.testBit n || c.flag (H.ENABLE (0x1A8 + 2 * n))
  else true

/-- THRESH of the region that a SIG_PATH argument names. -/
def Chip.proofThresh (c : Chip) (arg : Nat) : Nat := c.get (R.SAF_P.RG_CFG.THRESH (arg / 16) (arg % 16))

/-- The action of a test. -/
def Chip.proofAct (c : Chip) (test arg : Nat) : Chip :=
  if test = 1 then (if c.islandRuns then c.islandFault 1 else c)
  else if test = 2 then c.wdogKicked (0xFF - c.saf.wdKey)
  else if test = 3 then
    { c with ptb := { c.ptb with sigWait := true, sigLeft := c.proofThresh arg, sigOut := arg / 16, sigReg := arg % 16 } }
  else if test = 4 then (c.set R.SAF.SAFE_OK.EN_A 0).set R.SAF.SAFE_OK.EN_B 0
  else if test = 6 then { c with flaws := SMap.insert c.flaws (Ecc.key Ecc.ISL Config.reservedWord.toNat) 2 }
  else if test = 7 then
    let p := c.fresh 5
    p.2.dramUe p.1 (c.get (R.DRC_ECC.REG_BASE.ADDR arg) * 2 ^ 21)
  else if test = 8 then c.testOuts.foldl (fun (c : Chip) n =>
    let st := (c.scnOut (c.phyOut n)).link
    if (st = LinkSt.OFF ∨ st = LinkSt.IDLE) ∧ !c.flag (R.SCN_PHY.LANE_TEST.BUSY n) then
      (c.set (R.SCN_PHY.LANE_TEST.BUSY n) 1).setScn n { c.scnOut n with testAt := c.ps }
    else c) c
  else if test = 9 then forN 4 c fun n c => if arg.testBit n && !c.tchPartner n then c.tchTestReq n none else c
  else if test = 0xA then
    let c := c.hapTest (c.testHaps.foldl (fun m k => m + 2 ^ k) 0) none
    c.testAmps.foldl (fun (c : Chip) a => (c.set (R.AUD_AMP.AMP_CMD.TEST a) 1).setAmp a { c.aamp a with testing := true }) c
  else c

/-- A write of TEST_CTRL. -/
def Chip.testCtrl (c : Chip) (src : Src) (data : Nat) : Chip :=
  let test := bits data 0 8
  let arg := bits data 8 8
  let go := data.testBit 31
  let shown := c.ptbShow
  c.port src 0x1C0 0x044
    [ (c.mgrOrCtl src, E.OWNER), (c.mode == Mode.SERVICE, E.MODE), (bits data 16 15 == 0, E.RESERVED),
      (!go || (match proofArgs test with | some n => decide (arg < n) | none => false), E.VALUE),
      (!go || (c.ptb.proof.isNone && shown.get R.PTB.PTB_STAT.ACTIVE == 0), E.BUSY),
      (!go || c.proofReady test arg, E.STATE) ] fun c =>
    let c := (c.set R.PTB.TEST_CTRL.TEST test).set R.PTB.TEST_CTRL.ARG arg
    c.when go fun c =>
      let b := c.baseNow (8 + arg / 16 % 8)
      let seen := if test = 6 then c.get R.SAF.ECC_UNCORR.COUNT else 0
      let c := { c with ptb := { c.ptb with proof := some { test := test, arg := arg, start := c.ps, frame0 := b.1, line0 := b.2.1, seen := seen } } }
      ((c.bump R.PTB.TESTS_RUN.COUNT).proofAct test arg).ptbShow

/-- The word that starts a test. -/
def testWord (test arg : Nat) : Nat := test + 256 * (arg % 256) + 2 ^ 31

/-- PROOF_LOCKSTEP (R369). -/
def execProofLockstep (src : Src) (s : State) : Host.Outcome State Fault Refusal := s.on true fun c => c.testCtrl src (testWord 1 0)

/-- PROOF_WDOG (R369). -/
def execProofWdog (src : Src) (s : State) : Host.Outcome State Fault Refusal := s.on true fun c => c.testCtrl src (testWord 2 0)

/-- PROOF_SIG_PATH (R369) of region `arg` [3:0] of output `arg` [6:4]. -/
def execProofSigPath (src : Src) (arg : Nat) (s : State) : Host.Outcome State Fault Refusal := s.on true fun c => c.testCtrl src (testWord 3 arg)

/-- PROOF_SAFE_OK (R369). -/
def execProofSafeOk (src : Src) (s : State) : Host.Outcome State Fault Refusal := s.on true fun c => c.testCtrl src (testWord 4 0)

/-- PROOF_CLKMON (R369). -/
def execProofClkmon (src : Src) (s : State) : Host.Outcome State Fault Refusal := s.on true fun c => c.testCtrl src (testWord 5 0)

/-- PROOF_ECC_ISL (R369). -/
def execProofEccIsl (src : Src) (s : State) : Host.Outcome State Fault Refusal := s.on true fun c => c.testCtrl src (testWord 6 0)

/-- PROOF_ECC_DRAM (R369) of region `k`. -/
def execProofEccDram (src : Src) (k : Nat) (s : State) : Host.Outcome State Fault Refusal := s.on true fun c => c.testCtrl src (testWord 7 k)

/-- PROOF_LANES (R369). -/
def execProofLanes (src : Src) (s : State) : Host.Outcome State Fault Refusal := s.on true fun c => c.testCtrl src (testWord 8 0)

/-- PROOF_TOUCH (R369) of the front ends in `mask`. -/
def execProofTouch (src : Src) (mask : Nat) (s : State) : Host.Outcome State Fault Refusal := s.on true fun c => c.testCtrl src (testWord 9 mask)

/-- PROOF_OUTPUTS (R369). -/
def execProofOutputs (src : Src) (s : State) : Host.Outcome State Fault Refusal := s.on true fun c => c.testCtrl src (testWord 0xA 0)

/-- PROOF_SUPPLY (R369). -/
def execProofSupply (src : Src) (s : State) : Host.Outcome State Fault Refusal := s.on true fun c => c.testCtrl src (testWord 0xB 0)

/-- The bound of a test has been reached. -/
def Chip.proofLate (c : Chip) (p : Proof) : Bool :=
  let us := fun (n : Nat) => decide (p.start + n * 1000000 ≤ c.ps)
  if p.test = 3 then
    let b := c.baseNow (8 + p.arg / 16)
    let d := sub32 b.1 p.frame0
    let n := c.proofThresh p.arg + 2
    !b.2.2.2 || decide (n < d) || (d == n && decide (p.line0 ≤ b.2.1))
  else if p.test ≤ 2 then us 130000 else if p.test = 4 ∨ p.test = 7 ∨ p.test = 8 then us 1000
  else if p.test = 5 then us 100 else if p.test = 6 then us 110000 else if p.test = 9 ∨ p.test = 0xA then us 250000 else us 5000

/-- What a test has come to: none while its pass condition and its failure are both open, else PASS (none) or FAIL with DETAIL. `measured`: for
SAFE_OK the levels of the two balls, for SUPPLY one more than the first comparator that does not trip within ±3 %, 0 where all do. -/
def Chip.proofState (c : Chip) (p : Proof) (measured : Nat) : Option (Option Nat) :=
  let first := fun (busy : Bool) (bad : Option Nat) => if busy then none else some bad
  if p.test = 1 then
    if c.get R.SAF.ISL_STAT.STATE = 1 ∧ c.get R.SAF.ISL_STAT.CAUSE = 1 ∧ c.get R.SAF.ISL_STAT.RECENT ≠ 0 then some none else none
  else if p.test = 2 then (if c.get R.SAF.ISL_STAT.CAUSE = 3 ∧ c.get R.SAF.ISL_STAT.RECENT ≠ 0 then some none else none)
  else if p.test = 3 then
    if p.seen = 0 then none else if p.seen = c.proofThresh p.arg + 1 then some none else some (some p.arg)
  else if p.test = 4 then (if measured % 4 = 0 ∧ c.ps ≤ p.start + 10000000 then some none else none)
  else if p.test = 5 then
    if 2 ≤ p.stage ∧ c.flag R.SAF.CLK_STAT.CMP ∧ (c.get R.SAF.SAFE_OK.FORCED).testBit 1 then some none else none
  else if p.test = 6 then
    if p.seen < c.get R.SAF.ECC_UNCORR.COUNT ∧ (c.get R.SAF.SAFE_OK.FORCED).testBit 2 then some none else none
  else if p.test = 7 then
    let a := c.get R.DRC_ECC.ERR_ADDR_LO.ADDR + 2 ^ 32 * c.get R.DRC_ECC.ERR_ADDR_HI.ADDR
    if c.flag R.DRC_ECC.ERR_INFO.VALID ∧ c.flag R.DRC_ECC.ERR_INFO.UNCORR ∧ a = c.get (R.DRC_ECC.REG_BASE.ADDR p.arg) * 2 ^ 21 then some none
    else some (some p.arg)
  else if p.test = 8 then
    first (c.testOuts.any fun n => c.flag (R.SCN_PHY.LANE_TEST.BUSY n))
      (c.testOuts.find? fun n => c.get (R.SCN_PHY.PHY_STAT.SHORT n) != 0 || c.get (R.SCN_PHY.PHY_STAT.OPEN n) != 0)
  else if p.test = 9 then
    let mine := (List.range 4).filter fun n => p.arg.testBit n
    first (mine.any fun n => (c.tch1 n).phase == 1) (mine.find? fun n => c.get (R.TCH_ST.TEST_RESULT.FOUND n) != 0)
  else if p.test = 0xA then
    let bad := (c.testHaps.filter fun k => c.get (R.HAP_CH.CH_STAT.FAULT k) != 0)
      ++ ((c.testAmps.filter fun a => c.get (R.AUD_AMP.AMP_STAT.FAULT a) != 0).map fun a => 8 + a)
    first (!c.hap.tests.isEmpty || c.testHaps.any (fun k => (c.hch k).testing) || c.testAmps.any fun a => (c.aamp a).testing) bad.head?
  else if measured = 0 then some none else some (some (measured - 1))

/-- DETAIL of a test that has run into its bound. -/
def Chip.proofLateDetail (c : Chip) (p : Proof) : Nat :=
  if p.test = 3 ∨ p.test = 7 then p.arg
  else if p.test = 8 then (c.testOuts.find? fun n => c.flag (R.SCN_PHY.LANE_TEST.BUSY n)).getD 0
  else if p.test = 9 then ((List.range 4).find? fun n => p.arg.testBit n && (c.tch1 n).phase == 1).getD 0
  else if p.test = 0xA then
    match c.testHaps.find? fun k => (c.hch k).testing || c.hap.tests.any fun t => t.1 == k with
    | some k => k
    | none => 8 + (c.testAmps.find? fun a => (c.aamp a).testing).getD 0
  else 0

/-- PROOF_TEST_END (R368): the test in progress has reached its pass condition, has failed, or has run into its bound. -/
def execProofTestEnd (measured : Nat) (s : State) : Host.Outcome State Fault Refusal :=
  s.on true fun c =>
    match c.ptb.proof with
    | none => c
    | some p =>
      match c.proofState p measured with
      | some none => c.proofEnd 1 0
      | some (some d) => c.proofEnd 2 d
      | none => if c.proofLate p then c.proofEnd 2 (c.proofLateDetail p) else c

/-! ### Perturbations (R370, R371) -/

/-- Size of the map of an ECC_INJ target: 2 MiB of SRAM, or the fitted DRAM, through which the L2 is addressed too. -/
def Chip.eccSpan (c : Chip) (target : Nat) : Nat := if target < 2 then 0x200000 else c.dramSize

/-- A write of a register of PTB_PERTURB. -/
def Chip.perturbWrite (c : Chip) (src : Src) (off data : Nat) : Chip :=
  let specs := (findReg 0x1C1 off).getD []
  let go := data.testBit 31
  let enables :=
    if off = 0x040 then bits data 0 20 != 0 else if off = 0x048 then bits data 0 12 != 0 else if off = 0x04C then go
    else if off = 0x050 then bits data 0 8 != 0 else if off = 0x054 then go else if off = 0x058 then go else if off = 0x064 then go else false
  let value :=
    if off = 0x044 then bits data 0 16 != 0 && decide (bits data 0 16 ≤ bits data 16 16 * 1024)
    else if off = 0x04C then !go || bits data 16 15 != 0
    else if off = 0x064 then decide (bits data 9 6 ≤ 35) && decide (bits data 2 7 < c.tchNd (bits data 0 2))
    else specs.all fun f => !f.writable || f.legal.ok (f.of data)
  let addr := if off = 0x05C then data + 2 ^ 32 * c.get R.PTB_PERTURB.ECC_ADDR_HI.ADDR
    else if off = 0x060 then c.get R.PTB_PERTURB.ECC_ADDR_LO.ADDR + 2 ^ 32 * data else 0
  let inside := !(off == 0x05C || off == 0x060) || decide (addr < c.eccSpan (c.get R.PTB_PERTURB.ECC_INJ.TARGET))
  c.port src 0x1C1 off
    [ (c.mgrOrCtl src, E.OWNER), (c.mode == Mode.SERVICE, E.MODE), (reservedOk specs data, E.RESERVED), (value, E.VALUE), (inside, E.RANGE),
      (!enables || c.ptb.proof.isNone, E.BUSY) ] fun c =>
    let c := specs.foldl (fun (c : Chip) f => if f.fld.lo = 31 ∧ f.acc = .w1s then c else c.set f.fld (f.of data)) c
    let c := if !enables then c
      else (c.bump R.PTB.PERTURB_SETS.COUNT).record 0x1502 0xFF (parBytes 4 off ++ parBytes 4 data)
    let c := if off = 0x040 ∧ enables then { c with fab := { c.fab with stallAt := c.ps } }
      else if off = 0x04C ∧ go then
        let c := c.pressSettle
        let t := c.ps + bits data 16 15 * 1024 * 2500 / 3
        ({ c with fab := { c.fab with pressed := bits data 0 4, pressedUntil := t, pressedFrom := c.ps } }).set R.FAB.CREDIT_STAT.FULL (bits data 0 4)
      else if off = 0x054 ∧ go then
        { c with ptb := { c.ptb with sigWait := true, sigLeft := bits data 8 4, sigOut := bits data 0 3, sigReg := bits data 3 4 } }
      else if off = 0x058 ∧ go then c.set R.PTB_PERTURB.ECC_INJ.ARM 1
      else c
    c.ptbShow

/-- FAB_STALL (R371). -/
def execFabStall (src : Src) (data : Word) (s : State) : Host.Outcome State Fault Refusal :=
  s.on true fun c => c.perturbWrite src 0x040 data.toNat

/-- DRAM_DELAY (R371). -/
def execDramDelay (src : Src) (data : Word) (s : State) : Host.Outcome State Fault Refusal :=
  s.on true fun c => c.perturbWrite src 0x048 data.toNat

/-- BACKPRESS (R371): a write of BACKPRESS with GO set. -/
def execBackpress (src : Src) (data : Word) (s : State) : Host.Outcome State Fault Refusal :=
  s.on true fun c => c.perturbWrite src 0x04C (data.toNat ||| 1 <<< 31)

/-- WM_FORCE (R371). -/
def execWmForce (src : Src) (data : Word) (s : State) : Host.Outcome State Fault Refusal :=
  s.on true fun c => c.perturbWrite src 0x050 data.toNat

/-- SIG_INJ (R371): a write of SIG_INJ with GO set. -/
def execSigInj (src : Src) (data : Word) (s : State) : Host.Outcome State Fault Refusal :=
  s.on true fun c => c.perturbWrite src 0x054 (data.toNat ||| 1 <<< 31)

/-- ECC_INJ (R371): a write of ECC_INJ with ARM set. -/
def execEccInj (src : Src) (data : Word) (s : State) : Host.Outcome State Fault Refusal :=
  s.on true fun c => c.perturbWrite src 0x058 (data.toNat ||| 1 <<< 31)

/-- TCH_INJ (R371). -/
def execTchInj (src : Src) (data : Word) (s : State) : Host.Outcome State Fault Refusal :=
  s.on true fun c => c.perturbWrite src 0x064 data.toNat

/-! ### The debugger (R365, R284) -/

/-- DEBUG_HALT (R365): the debugger halts control core `k`, or lets it go on. Outside SERVICE its balls are disconnected. -/
def execDebugHalt (k : Nat) (halt : Bool) (s : State) : Host.Outcome State Fault Refusal :=
  s.on (k < 4) fun c =>
    let runs := (c.get R.CTL.CC_STAT.RUNNING).testBit k
    let halted := (c.get R.CTL.CC_STAT.HALTED).testBit k
    if c.mode ≠ Mode.SERVICE then c
    else if halt && runs then
      let c := (c.setBit R.CTL.CC_STAT.RUNNING k false).setBit R.CTL.CC_STAT.HALTED k true
      { c with ptb := { c.ptb with halted := k :: c.ptb.halted.filter (· ≠ k) } }
    else if !halt && halted then
      let c := (c.setBit R.CTL.CC_STAT.RUNNING k true).setBit R.CTL.CC_STAT.HALTED k false
      { c with ptb := { c.ptb with halted := c.ptb.halted.filter (· ≠ k) } }
    else c

end Sys2Proof.Machine
end

