-- ==== Sys2Proof/Machine/Commit.lean ====
section
/-! DEFINITION. Staged sets: GO, DISCARD, the end of validation and the latch (R39, R40), with the checks of each staged block. -/

namespace Sys2Proof.Machine

/-! ### What a COMMIT covers -/

/-- The pages whose staged sets the COMMIT of page `p` covers, its own first; none where GO on that page is rejected with E_STATE (R32, R181, R198, R302,
R315, R330). -/
def Chip.commitPages (c : Chip) (p : Nat) : Option (List Nat) :=
  if p = 0x010 ∨ p = 0x190 ∨ p = 0x1A0 then some [p]
  else if 0x0E0 ≤ p ∧ p < 0x0E8 then (if p % 2 == 1 && c.splits (p - 0x0E1) then none else some (c.cmpPages (p - 0x0E0)))
  else if p = 0x118 then some (p :: c.cmpFreePages)
  else if 0x120 ≤ p ∧ p < 0x128 then
    if p % 2 == 1 && c.splits (p - 0x121) then none else if c.splits (p - 0x120) then some [p, p + 1] else some [p]
  else if 0x1A8 ≤ p ∧ p < 0x1B0 then some [p]
  else none

/-- A CMP page. -/
def isCmpPage (p : Nat) : Bool := decide (0x0E0 ≤ p) && decide (p < 0x119)

/-! ### GO and DISCARD (R39) -/

/-- GO starts the validation of the sets of `l` by the COMMIT of page `p`. -/
def Chip.commitStart (c : Chip) (src : Src) (p : Nat) (l : List Nat) : Chip :=
  let c := l.foldl (fun (c : Chip) q => c.putStage { c.stage q with busyBy := some p }) c
  (c.putStage { c.stage p with goBy := some src }).set (H.BUSY p) 1

/-- DISCARD reloads the shadows of `l` and cancels what the COMMIT of page `p` has pending. -/
def Chip.commitDrop (c : Chip) (p : Nat) (l : List Nat) : Chip :=
  let c := l.foldl (fun (c : Chip) q => c.putStage { c.stage q with shadow := [], owner := none }) c
  let mine := c.stg.filter fun x => x.pendBy == some p
  (mine.foldl (fun (c : Chip) x => c.putStage { x with pending := [], pendBy := none }) c).set (H.PENDING p) 0

/-- A write of COMMIT. -/
def Chip.commitWrite (c : Chip) (src : Src) (p data : Nat) : Chip :=
  let go := data.testBit 0
  let drop := data.testBit 1
  let home := c.commitPages p
  let l := home.getD [stageHome p]
  let act := go || drop
  c.port src p 0x024
    [ (c.mgrOrCtl src, E.OWNER), (!go || l.all fun q => !c.shadowTaken src q, E.OWNER),
      (!(go && isCmpPage p && c.mode == Mode.DEGRADED), E.MODE), (bits data 4 4 == 0, E.RESERVED), (!(go && drop), E.VALUE),
      (!go || home.isSome, E.STATE), (!(go && isCmpPage p && c.pow.cmpRising), E.BUSY),
      (!act || (!c.flag (H.BUSY p) && l.all fun q => !c.shadowBusy q), E.BUSY), (!go || !c.flag (H.PENDING p), E.BUSY) ] fun c =>
    if go then c.commitStart src p l else if drop then c.commitDrop p l else c

/-! ### Checks at GO -/

/-- A sink names no TDM slot at or above its port's SLOTS (R330). -/
def Chip.audCheck (c : Chip) : Option Nat :=
  let ok := (List.range 16).all fun i =>
    let k := i + 2
    (c.staged (R.AUD_BUS.SINK.AEN k) == 0 && c.staged (R.AUD_BUS.SINK.MEN k) == 0) || decide (i % 8 ≤ c.get (R.AUD_PORTS.TDM_CFG.SLOTS_M1 (i / 8)))
  firstFail [(ok, E.VALUE)]

/-- VLIM within its channel's supply (R315). -/
def Chip.hapCheck (c : Chip) : Option Nat :=
  let ok := (List.range 8).all fun k =>
    decide (c.staged (R.HAP_CH.CH_CFG.VLIM k) ≤ if c.staged (R.HAP_CH.CH_CFG.MODE k) = 1 then 5 else c.staged R.HAP.BOOST.VBOOST)
  firstFail [(ok, E.VALUE)]

/-- The checks of front end `n` (R287, R290, R301, R302). -/
def Chip.tchCheck (c : Chip) (n : Nat) : Option Nat :=
  let v := c.staged
  let nd := if n % 2 == 0 && v (R.TCH_CFG.TF_CFG.COMBINE n) == 1 then 112 else 56
  let self := if v (R.TCH_CFG.TF_CFG.SELF_EN n) = 1 then v (R.TCH_CFG.TIMING.SELF_US n) else 0
  let m := nd * v (R.TCH_CFG.TIMING.STEP_US n) + self
  let b := v (R.TCH_CFG.WINDOW.BASE n)
  let line := if b < 8 then c.ledLinePs else c.linePs (b - 8)
  let free := v (R.TCH_CFG.TF_CFG.MODE n) == 0
  let need := max (v (R.TCH_CFG.TIMING.STEP_US n)) (v (R.TCH_CFG.TIMING.SELF_US n))
  firstFail
    [ (!free || decide ((m + 100) * v (R.TCH_CFG.TF_CFG.RATE_HZ n) ≤ 1000000), E.VALUE),
      (decide (v (R.TCH_CFG.WINDOW.LINE n) < (c.baseNow b).2.2.1), E.VALUE),
      (decide (v (R.TCH_CFG.THRESH.RELEASE_TH n) ≤ v (R.TCH_CFG.THRESH.TOUCH_TH n)), E.VALUE),
      ((List.range 64).all fun z => decide (v (R.TCH_CFG.ZONE_X.LO n z) ≤ v (R.TCH_CFG.ZONE_X.HI n z))
        && decide (v (R.TCH_CFG.ZONE_Y.LO n z) ≤ v (R.TCH_CFG.ZONE_Y.HI n z)), E.VALUE),
      (!(n % 2 == 0 && v (R.TCH_CFG.TF_CFG.COMBINE n) == 1 && !c.flag (R.TCH_CFG.TF_CFG.COMBINE n) && c.flag (H.ENABLE (0x1AA + 2 * n))), E.STATE),
      (v (R.TCH_CFG.WAKE.WAKE_SRC n) == 0 || (List.range 4).all fun k =>
        k == n || (!c.flag (R.TCH_CFG.WAKE.WAKE_SRC k) && c.coming (R.TCH_CFG.WAKE.WAKE_SRC k) == 0), E.STATE),
      (free || decide (need * 1000000 ≤ v (R.TCH_CFG.WINDOW.LEN n) * line), E.SHORT) ]

/-- Validation by the COMMIT of page `p`; `sec`: the secure world gave GO. -/
def Chip.commitCheck (c : Chip) (p : Nat) (sec : Bool) : Option Nat :=
  if p = 0x010 then c.ldgCheck
  else if p < 0x0E8 then c.pipeCheck (p - 0x0E0) sec
  else if p = 0x118 then c.freeCheck sec
  else if p < 0x128 then
    let n := p - 0x120
    if c.splits n && c.staged (R.SCN_OUT.OUT_CFG.ENABLE (n + 1)) == 1 then some 0x3C else c.scnCheck n
  else if p = 0x190 then c.audCheck
  else if p = 0x1A0 then c.hapCheck
  else c.tchCheck ((p - 0x1A8) / 2)

/-! ### The end of validation -/

/-- The validation by page `p` is over; the shadows stay. -/
def Chip.commitEnd (c : Chip) (p : Nat) : Chip :=
  let mine := c.stg.filter fun x => x.busyBy == some p
  (mine.foldl (fun (c : Chip) x => c.putStage { x with busyBy := none, goBy := none }) c).set (H.BUSY p) 0

/-- The sets of `l` are rejected with `code`. -/
def Chip.commitReject (c : Chip) (src : Src) (p : Nat) (l : List Nat) (code : Nat) : Chip :=
  let c := l.foldl (fun (c : Chip) q => c.putStage { c.stage q with shadow := [], owner := none }) c
  (c.set (H.RESULT p) code).reject p 0x024 (srcCode src) code

/-- A set is accepted by the COMMIT of page `p`: its shadow becomes pending. -/
def StageSet.accept (x : StageSet) (p : Nat) : StageSet :=
  if x.shadow.isEmpty then x
  else { x with pending := x.pending.filter (fun y => x.shadow.all fun z => z.1 != y.1) ++ x.shadow, shadow := [], pendBy := some p }

/-- The sets of `l` are accepted. -/
def Chip.commitAccept (c : Chip) (src : Src) (p : Nat) (l : List Nat) : Chip :=
  let sec := isSecure src
  let c := l.foldl (fun (c : Chip) q => c.putStage ((c.stage q).accept p)) c
  let c := ((c.set (H.RESULT p) 0).set (H.PENDING p) 1).startBlock (blockOf p)
  if 0x0E0 ≤ p ∧ p < 0x0E8 then
    let n := p - 0x0E0
    c.setPipe n { c.cpipe n with regOk := c.cmpFrees n, regSec := sec }
  else if p = 0x118 then
    let pages := (c.stg.filter fun x => x.pendBy == some p).map fun x => x.page
    ((c.latchBy p).secMark pages sec).cmpShow
  else if 0x120 ≤ p ∧ p < 0x128 then
    let n := p - 0x120
    { c with pow := { c.pow with early := c.pow.early.erase n } }.scnAccepted n
  else c

/-- The validation by page `p` ends. -/
def Chip.commitValidated (c : Chip) (p : Nat) : Chip :=
  if !c.flag (H.BUSY p) then c
  else
    let src := (c.stage p).goBy.getD (.ccn 0)
    let l := (c.stg.filter fun x => x.busyBy == some p).map fun x => x.page
    let c := c.commitEnd p
    match c.commitCheck p (isSecure src) with
    | some code => c.commitReject src p l code
    | none => c.commitAccept src p l

/-- COMMIT_VALIDATION_END (R39). -/
def execCommitValidationEnd (page : Nat) (s : State) : Host.Outcome State Fault Refusal :=
  s.on (page < 512) fun c => c.when (isCommitPage page) fun c => c.commitValidated page

/-! ### Latches whose point no other command marks (R40) -/

/-- A haptic trigger is in flight (R16): pending, or in its delay. -/
def Chip.hapInFlight (c : Chip) : Bool :=
  (List.range 8).any fun k => (c.hch k).pend.isSome || (match (c.hch k).play with | some x => x.stage == 0 | none => false)

/-- Page `p` is at its latch point: AUD between two samples, HAP with no trigger in flight, TCH between two scan frames. The sets of LDG, CMP and SCN latch
with the line that is their latch point. -/
def Chip.latchDue (c : Chip) (p : Nat) : Bool :=
  c.flag (H.PENDING p) && (if p = 0x190 then c.pdOn PD.AUD else if p = 0x1A0 then !c.hapInFlight
    else if 0x1A8 ≤ p ∧ p < 0x1B0 then !(c.tch1 ((p - 0x1A8) / 2)).measuring else false)

/-- The set of page `p` latches. -/
def Chip.commitLatched (c : Chip) (p : Nat) : Chip :=
  let old := c
  let c := c.latchBy p
  if p = 0x1A0 then c.hapLatched old else if 0x1A8 ≤ p then c.tchLatched old ((p - 0x1A8) / 2) else c

/-- COMMIT_LATCH (R40). -/
def execCommitLatch (page : Nat) (s : State) : Host.Outcome State Fault Refusal :=
  s.on (page < 512) fun c => c.when (c.latchDue page) fun c => c.commitLatched page

end Sys2Proof.Machine
end

