-- ==== Sys2Proof/Machine/Window.lean ====
section
/-! DEFINITION. Ring registers and the instance window (R44, R89, R390). -/

namespace Sys2Proof.Machine

/-! ### Ring registers (R89, R103) -/

/-- A write of ring register `reg` of pair `r` by one of the writers R89 names: RING_CFG, the bases and WAIT_DEFAULT. -/
def Chip.ringConf (c : Chip) (src : Src) (r reg data : Nat) : Chip :=
  let p := ringPage r
  let off := ringOff r reg
  let specs := (findReg p off).getD []
  let lo := reg == 0x08 || reg == 0x10
  let on := c.flag (R.RNG.RING_CTRL.ENABLE (r / 2) (r % 2))
  c.ringPort src r reg
    ((!lo || data % 4096 == 0, E.ALIGN) ::
      c.genericChecks src p off specs data (c.ownsRing src r || c.isMgr src) false
        [ (!(reg == 0x04 && c.noPort (c.ringOwner r) && !data.testBit 16), E.VALUE), (reg == 0x40 || !on, E.STATE) ])
    (fun c => specs.foldl (fun c f => c.writeField src f data) c)

/-- A write of ring register `reg` of pair `r`. -/
def Chip.ringWrite (c : Chip) (m : Mems) (src : Src) (r reg data : Nat) : Chip × Mems :=
  if reg = 0x04 ∨ reg = 0x08 ∨ reg = 0x0C ∨ reg = 0x10 ∨ reg = 0x14 ∨ reg = 0x40 then (c.ringConf src r reg data, m)
  else if reg = 0x18 then (c.ringCtrl src r data, m)
  else if reg = 0x1C then (c.sqDb src r data, m)
  else if reg = 0x20 then c.cqDb m src r data
  else match src with
    | .inst _ => (c.ringPort src r reg [(false, E.OWNER)] id, m)
    | _ =>
      if reg = 0x00 then (c.ringBind src r data, m)
      else if reg = 0x3C then (c.selWrite src r data, m)
      else (c.genericWrite src (ringPage r) (ringOff r reg) data (c.mgrOrCtl src) false [], m)

/-! ### The window's pages -/

/-- The page where the copy of PAGE_ERR of window page `w` is kept. -/
def copyPage (vi w : Nat) : Nat := 0x200 + 16 * vi + w

/-- The pair shown in half `h` of ring page `w`. -/
def Chip.halfRing (c : Chip) (vi w h : Nat) : Option Nat := (c.viRings vi)[2 * (w - 1) + h]?

/-- A ring page of the window. -/
def isRingWin (w : Nat) : Bool := decide (1 ≤ w) && decide (w ≤ 8)

/-- Where an offset of a ring page leads: the half, and the register or counter within it. -/
def halfAt (off : Nat) : Option (Nat × Nat) :=
  if 0x040 ≤ off ∧ off < 0x240 then some ((off - 0x040) / 0x100, (off - 0x040) % 0x100)
  else if 0x800 ≤ off ∧ off < 0x840 then some ((off - 0x800) / 0x20, 0x800 + (off - 0x800) % 0x20)
  else none

/-- The offset in an RNG page of register or counter `reg` of pair `r`. -/
def halfOff (r reg : Nat) : Nat := if reg < 0x800 then ringOff r reg else reg + 0x20 * (r % 2)

/-- The register page and offset that hold offset `off` of window page `w`; where no single one does, IMX_VIn with the window's offset (R36). A header
offset is taken to lie on no single page on every window page (DESIGN CHOICE, log entry 85). -/
def Chip.winUnder (c : Chip) (vi w off : Nat) : Nat × Nat :=
  let none_ := (0x060 + vi, off)
  let i := (off - 0x040) / 4
  let j := (off - 0x100) / 4
  if w = 0 ∨ off < 0x040 then none_
  else if w ≤ 8 then
    match halfAt off with
    | none => none_
    | some (h, reg) => match c.halfRing vi w h with
      | none => none_
      | some r => (ringPage r, halfOff r reg)
  else if w = 9 then
    if off < 0x058 then (0x092, 0x040 + 0x20 * vi + (off - 0x040)) else if 0x100 ≤ off ∧ off < 0x200 then (0x091, off - 0x0C0) else none_
  else if w = 10 then (if i < 2 then (0x0A2, 0x040 + 8 * vi + 4 * i) else none_)
  else if w = 12 then (if 0x100 ≤ off ∧ j < 32 then (0x181, 0x048 + 0x10 * j) else none_)
  else if w = 13 then (if i < 16 then (0x19C, off) else none_)
  else if w = 14 then (if i < 8 then (0x1A1, 0x048 + 0x10 * i) else none_)
  else if w = 15 then (if i < 4 then (0x1A9 + 2 * i, 0x040) else none_)
  else none_

/-- The eight bits of a ring page's IRQ register that belong to pair `r`. -/
def ringBits (v r : Nat) : Nat := bits v (8 * (r % 2)) 8

/-- IRQ_RAW [30:0] or IRQ_EN [30:0] of window page `w`. -/
def Chip.winIrq (c : Chip) (vi w : Nat) (f : Nat → Fld) : Nat :=
  if w = 0 then c.get (f (0x060 + vi)) % 2 ^ 31
  else if isRingWin w then
    let half := fun h => match c.halfRing vi w h with
      | none => 0
      | some r => ringBits (c.get (f (ringPage r))) r
    half 0 + 256 * half 1
  else 0

/-- ERR of window page `w`: its copy of PAGE_ERR holds something. -/
def Chip.winErr (c : Chip) (vi w : Nat) : Bool := c.readHeader (copyPage vi w) 0x010 != 0

/-- BLOCK and DIE of a window page, with VIEW set. -/
def viewId (w : Nat) : Nat :=
  2 ^ 22 + (if w ≤ 8 then 0x07 else [0x08, 0x09, 0x0A, 0x10, 0x11, 0x12, 0x13].getD (w - 9) 0) * 2 ^ 16 + (if 14 ≤ w then 2 ^ 21 else 0)

/-- STATE of a page as it reads: OFF while its domain is off, HOLD, FAULT, QUIESCING (R54), OFF while ENABLE is 0, else IDLE or ACTIVE, which the spec does not tell
apart (free). -/
def Chip.stateNow (c : Chip) (p : Nat) : Nat × Chip :=
  let fault := (0x130 ≤ p ∧ p < 0x140 ∧ c.get R.SAF.ISL_STAT.STATE = 2) ∨ (0x1A8 ≤ p ∧ p < 0x1B0 ∧ (c.tch1 ((p - 0x1A8) / 2)).phase = 5)
  if !c.pdOn (pageDomain p) then (0, c)
  else if c.brg.hold.contains p then (4, c)
  else if fault then (5, c)
  else if c.pow.quiesce.contains (pageDomain p) then (3, c)
  else if !c.flag (H.ENABLE p) then (0, c)
  else
    let v := c.fresh 1
    (1 + v.1, v.2)

/-- The header of an ordinary page as it reads. -/
def Chip.headRead (c : Chip) (p off : Nat) : Nat × Chip :=
  if off = 0x00C then
    let v := c.stateNow p
    (v.1 + 16 * c.get (H.PENDING p), v.2)
  else (c.readHeader p off, c)

/-- The header of window page `w` (R390). -/
def Chip.winHead (c : Chip) (vi w off : Nat) : Nat × Chip :=
  let raw := c.winIrq vi w H.IRQ_RAW + 2 ^ 31 * b2n (c.winErr vi w)
  let en := c.winIrq vi w H.IRQ_EN
  if off = 0x000 then (if w = 0 then c.readHeader (0x060 + vi) 0x000 + 2 ^ 22 else viewId w, c)
  else if off = 0x004 then (0x0100, c)
  else if (off = 0x008 ∨ off = 0x00C) ∧ w = 0 then c.headRead (0x060 + vi) off
  else if off = 0x010 then (c.readHeader (copyPage vi w) 0x010, c)
  else if off = 0x014 then (raw, c)
  else if off = 0x018 then (en, c)
  else if off = 0x01C then (raw &&& en, c)
  else (0, c)

/-- LK_STATE of lock `k` as instance `vi` sees it (R241). -/
def Chip.lockView (c : Chip) (vi k : Nat) : Nat :=
  clearBits (c.readReg 0x091 (0x040 + 4 * k)) 0x20F8 + 0xF8 + 0x2000 * b2n (c.lkHolds vi k)

/-- The body of window page `w` as it reads (R44, R125, R188, R241, R274, R302, R315, R330). -/
def Chip.winBody (c : Chip) (vi w off : Nat) : Nat :=
  let u := c.winUnder vi w off
  let x := c.share vi
  let i := (off - 0x040) / 4
  let j := (off - 0x100) / 4
  let held := u.1 ≠ 0x060 + vi
  let shown := fun (b : Bool) => if held ∧ b then c.readReg u.1 u.2 else 0
  if w = 0 then c.readReg (0x060 + vi) off
  else if w ≤ 8 then shown true
  else if w = 9 then (if 0x100 ≤ off then (if held then c.lockView vi j else 0) else shown true)
  else if w = 10 then shown true
  else if w = 11 then
    if off = 0x040 then bits x.layers 0 32 else if off = 0x044 then bits x.layers 32 16
    else if i < 10 then c.cmp.outFrame.getD (8 * vi + (i - 2)) 0 else 0
  else if w = 12 then (if off = 0x040 then x.dma else shown (x.dma.testBit j))
  else if w = 13 then shown (x.aud.testBit i)
  else if w = 14 then shown (x.hap.testBit i)
  else shown (x.tch.testBit i)

/-- A read of offset `off` of window page `w` by instance `vi`. -/
def Chip.winRead (c : Chip) (vi w off : Nat) : Chip :=
  if off < 0x040 then
    let v := c.winHead vi w off
    { v.2 with readData := v.1 }
  else if 14 ≤ w then c.fieldRead (.inst vi) off fun c => { c with readData := c.winBody vi w off }
  else { c with readData := c.winBody vi w off }

/-! ### Writes through the window -/

/-- W1C on a PAGE_ERR: writing 1 to any bit of a field clears the field (R36). -/
def Chip.errClear (c : Chip) (p data : Nat) : Chip :=
  let c := if bits data 0 8 ≠ 0 then c.set (H.ERR_CODE p) 0 else c
  let c := if bits data 8 12 ≠ 0 then c.set (H.ERR_OFFSET p) 0 else c
  let c := if bits data 20 4 ≠ 0 then c.set (H.ERR_SOURCE p) 0 else c
  if bits data 24 8 ≠ 0 then c.set (H.ERR_COUNT p) 0 else c

/-- IRQ_STAT of page `p`: the bits of `data` are cleared, and an enabled bit that stays set is delivered anew (R41). -/
def Chip.statClear (c : Chip) (p data : Nat) : Chip :=
  c.setIrq p (clearBits (c.get (H.IRQ_RAW p)) data) (c.get (H.IRQ_EN p)) data

/-- The bits that an instance writes to the IRQ registers of ring page `w`, in the place of each pair's half. -/
def Chip.winRingBits (c : Chip) (vi w data : Nat) : List (Nat × Nat) :=
  [0, 1].filterMap fun h => (c.halfRing vi w h).map fun r => (r, bits data (8 * h) 8)

/-- IRQ_EN of window page `w`. -/
def Chip.winEn (c : Chip) (vi w data : Nat) : Chip :=
  let put := fun (c : Chip) (p m v : Nat) =>
    let en := c.get (H.IRQ_EN p)
    c.setIrq p (c.get (H.IRQ_RAW p)) (clearBits en m + v) 0
  if w = 0 then put c (0x060 + vi) (2 ^ 31 - 1) (data % 2 ^ 31)
  else if isRingWin w then (c.winRingBits vi w data).foldl (fun c x => put c (ringPage x.1) (255 * 256 ^ (x.1 % 2)) (x.2 * 256 ^ (x.1 % 2))) c
  else c

/-- IRQ_STAT of window page `w`. -/
def Chip.winStat (c : Chip) (vi w data : Nat) : Chip :=
  if w = 0 then c.statClear (0x060 + vi) (data % 2 ^ 31)
  else if isRingWin w then (c.winRingBits vi w data).foldl (fun c x => c.statClear (ringPage x.1) (x.2 * 256 ^ (x.1 % 2))) c
  else c

/-- A write at `off` of window page `w` by instance `vi` (R44, R390). -/
def Chip.winWrite (c : Chip) (m : Mems) (vi w off data : Nat) : Chip × Mems :=
  let u := c.winUnder vi w off
  let no := fun (code : Nat) => (c.rejectInst vi w u.1 off u.2 code, m)
  if !c.instOn vi then (c, m)
  else if off < 0x040 then
    if off = 0x010 then (c.errClear (copyPage vi w) data, m)
    else if off = 0x018 then (c.winEn vi w data, m)
    else if off = 0x01C then (c.winStat vi w data, m)
    else if off = 0x008 ∧ w = 0 then
      let en := data.testBit 0
      let held := c.claimed (0x060 + vi) && data.testBit 1
      if en ≠ c.flag (H.ENABLE (0x060 + vi)) then no E.OWNER
      else if 4 ≤ data ∧ !held then no E.RESERVED
      else if data.testBit 1 then c.instReset m (.inst vi) vi en
      else (c, m)
    else no E.OWNER
  else if isRingWin w then
    match halfAt off with
    | none => no E.OWNER
    | some (h, reg) => match c.halfRing vi w h with
      | none => no E.RANGE
      | some r => if reg < 0x800 then c.ringWrite m (.inst vi) r reg data else no E.OWNER
  else if w = 9 then
    if off = 0x040 then (c.lkWriteAcq (.inst vi) vi data, m)
    else if off = 0x044 then (c.lkWriteRel (.inst vi) vi data, m)
    else if off = 0x048 then (c.lkWriteCancel (.inst vi) vi data, m)
    else if off < 0x058 then (c, m)
    else no E.OWNER
  else no E.OWNER

end Sys2Proof.Machine
end

