-- ==== Sys2Proof/Machine/Bus.lean ====
section
/-! DEFINITION. The register bus: every write and read of a register by any source (R33–R45, R72, R349, R390). -/

namespace Sys2Proof.Machine

/-! ### The common header (R33, R35, R36, R41) -/

/-- Who may write an ordinary page: the manager and the control world, on the SAF pages the island alone (R223). -/
def Chip.pageWriter (c : Chip) (src : Src) (p : Nat) : Bool :=
  if 0x130 ≤ p ∧ p < 0x140 then src == .island else c.mgrOrCtl src

/-- A write of CTRL ends the hold state of a field-die page (R11). -/
def Chip.holdEnd (c : Chip) (p : Nat) : Chip :=
  if !c.brg.hold.contains p then c
  else
    let c := { c with brg := { c.brg with hold := c.brg.hold.filter (· ≠ p) } }
    if p = 0x19E then c.setAmp 0 { c.aamp 0 with held := false } |>.setAmp 1 { c.aamp 1 with held := false }
    else if p = 0x1A0 then
      let c := c.set R.HAP.HAP_STAT.HOLD 0
      c.hapRailShow.hapTestNext
    else if 0x1A8 ≤ p ∧ p < 0x1B0 then c.tchShow ((p - 0x1A8) / 2)
    else c

/-- RESET of page `p` resets the page's logic: the set that its COMMIT stages, with a validation that runs and a set that waits; the haptic channels
and their tests; the class-D channels; a front end. Which logic belongs to the other pages is open, and their work goes on (DESIGN CHOICE, log
entry 12). -/
def Chip.logicReset (c : Chip) (p : Nat) : Chip :=
  let mine := c.stg.filter fun x => x.page == stageHome p || x.busyBy == some p || x.pendBy == some p
  let c := if !isCommitPage p then c
    else (mine.foldl (fun (c : Chip) x => c.putStage { page := x.page }) c |>.set (H.BUSY p) 0).set (H.PENDING p) 0
  if p = 0x1A0 ∨ p = 0x1A1 then { c with hap := { c.hap with tests := [] } }.hapSilence
  else if p = 0x19E then c.ampSilence
  else if 0x1A8 ≤ p ∧ p < 0x1B0 ∧ p % 2 = 0 then c.tchEnable ((p - 0x1A8) / 2) false
  else c

/-- CTRL has been written with these bits: RESET resets the page's logic, ENABLE takes its value, and a block enabled for the first time leaves
the pin state of R73. -/
def Chip.ctrlEff (c : Chip) (p : Nat) (en rst : Bool) : Chip :=
  let c := if rst then c.logicReset p else c
  let c := (c.set (H.ENABLE p) (b2n en)).holdEnd p
  let c := if en then c.startBlock (blockOf p) else c
  if 0x1A8 ≤ p ∧ p < 0x1B0 ∧ p % 2 = 0 then
    c.tchEnable ((p - 0x1A8) / 2) en
  else c

/-- A write of CTRL on an ordinary page (R35). -/
def Chip.ctrlWrite (c : Chip) (m : Mems) (src : Src) (p data : Nat) : Chip × Mems :=
  let en := data.testBit 0
  let rst := data.testBit 1
  let vi := 0x060 ≤ p && p < 0x070
  let held := c.claimed p && !isSecure src && (en != c.flag (H.ENABLE p) || rst)
  let unbound := vi && rst && c.get (R.IMX_VI.VI_STAT.STATE (p - 0x060)) == 0
  let checks := [(c.pageWriter src p, E.OWNER), (!held, E.CLAIMED), (decide (data < 4), E.RESERVED), (!unbound, E.STATE)]
  let ok := !c.unheard src p && (c.turnedAway src p).isNone && firstFail checks == none
  if ok && vi && rst then (c.set (H.ENABLE p) (b2n en)).instReset m src (p - 0x060) en
  else (c.claimPort src p 0x008 checks fun c => c.ctrlEff p en rst, m)

/-- The reserved bits of the read-only header words. -/
def headReserved (off : Nat) : Nat :=
  if off = 0x000 then 0xFF80FE00 else if off = 0x004 then 0xFFFF0000 else if off = 0x00C then 0xE0
  else if off = 0x014 then 0 else 0xFFFFFFFF

/-- A write of the common header of page `p`. -/
def Chip.headWrite (c : Chip) (m : Mems) (src : Src) (p off data : Nat) : Chip × Mems :=
  let own := [(c.pageWriter src p, E.OWNER)]
  if off = 0x008 then c.ctrlWrite m src p data
  else if off = 0x010 then (c.port src p off own fun c => c.errClear p data, m)
  else if off = 0x018 then (c.port src p off own fun c => c.setIrq p (c.get (H.IRQ_RAW p)) data 0, m)
  else if off = 0x01C then (c.port src p off own fun c => c.statClear p data, m)
  else if off = 0x020 then (c.claimWrite src p data, m)
  else if off = 0x024 ∧ isCommitPage p then (c.commitWrite src p data, m)
  else if data = 0 ∧ headReserved off = 0xFFFFFFFF then (c.port src p off [] id, m)
  else (c.port src p off (own ++ [(data &&& headReserved off == 0, E.RESERVED)]) id, m)

/-! ### Block registers -/

/-- A write with no rule of its own but a further condition on its value (R38 check 8) and on the block's state (check 9). -/
def Chip.stateWrite (c : Chip) (src : Src) (p off data : Nat) (owner ok : Bool) (late : List (Bool × Nat)) : Chip :=
  let specs := (findReg p off).getD []
  let l := c.genericChecks src p off specs data owner false late
  c.port src p off (l.take 7 ++ (ok, E.VALUE) :: l.drop 7) fun c => specs.foldl (fun c f => c.writeField src f data) c

/-- A write with no rule of its own but a further condition on its value. -/
def Chip.valueWrite (c : Chip) (src : Src) (p off data : Nat) (owner ok : Bool) : Chip := c.stateWrite src p off data owner ok []

/-- A write with no rule of its own. -/
def Chip.plainWrite (c : Chip) (src : Src) (p off data : Nat) : Chip := c.genericWrite src p off data (c.pageWriter src p) false []

/-- SYS, PWR and SEC pages. -/
def Chip.sysWrite (c : Chip) (m : Mems) (src : Src) (p off data : Nat) : Chip :=
  let own := c.mgrOrCtl src
  let i := (off - 0x040) / 16
  if p = 0x001 ∧ off = 0x044 then c.modeRequest src data
  else if p = 0x002 ∧ off = 0x044 then c.pdReq src data
  else if p = 0x003 ∧ 0x040 ≤ off ∧ off < 0x0B0 ∧ off % 16 = 0 then
    let lo := bits data 0 16
    let hi := bits data 16 16
    c.valueWrite src p off data own (decide (R.loopMin i ≤ lo) && decide (lo ≤ hi) && decide (hi ≤ R.loopMax i) && (i != 0 || decide (750 ≤ hi)))
  else if p = 0x004 ∧ off = 0x050 then c.bootCtrl src data
  else if p = 0x020 ∧ off = 0x044 then c.genericWrite src p off data own (c.flag R.PWR_ENTRY.PFW_CFG.LOCK) []
  else if p = 0x030 then
    if off = 0x040 then c.sramWmark src data
    else if off = 0x044 then c.dramWmark src data
    else if off = 0x048 then c.entryBase src data
    else if off = 0x04C then c.entrySize src data
    else if off = 0x050 then c.sirqVec m.sram src data
    else if off = 0x054 then c.claimBlock src data
    else if off = 0x058 then c.authWrite src data
    else if off = 0x05C then c.faultAddr src 0 data
    else if off = 0x060 then c.faultAddr src 1 data
    else c.plainWrite src p off data
  else if p = 0x032 ∧ off = 0x070 then c.rollback src 0 data
  else if p = 0x032 ∧ off = 0x074 then c.rollback src 1 data
  else if p = 0x040 ∧ off = 0x040 then c.ccCtrl src data
  else c.plainWrite src p off data

/-- LDG pages. -/
def Chip.ldgWrite (c : Chip) (src : Src) (p off data : Nat) : Chip :=
  let k := 64 * (p - 0x012) + (off - 0x040) / 16
  let i := off % 16 / 4
  if p = 0x010 ∧ off = 0x050 then c.snapWrite src data
  else if p = 0x010 ∧ 0x064 ≤ off ∧ off < 0x070 then c.slotPool src ((off - 0x064) / 4) data
  else if p = 0x011 ∧ off < 0x0C0 ∧ i = 0 then c.valueWrite src p off data (c.mgrOrCtl src) (decide (bits data 0 16 < c.ledVTotal))
  else if (p = 0x012 ∨ p = 0x013) ∧ off < 0x440 then
    if i < 2 then c.slotTgt src k i data
    else if i = 2 then c.slotAct src k data
    else c.genericWrite src p off data (c.slotOwner src k) false []
  else c.plainWrite src p off data

/-- IMX pages. -/
def Chip.imxWrite (c : Chip) (src : Src) (p off data : Nat) : Chip :=
  if 0x051 ≤ p ∧ p < 0x054 ∧ off < 0x440 then c.routeWrite src (p - 0x051) ((off - 0x040) / 4) data
  else if 0x060 ≤ p ∧ off = 0x040 then c.viBind src (p - 0x060) data
  else if 0x060 ≤ p ∧ 0x050 ≤ off ∧ off < 0x068 then c.shareWrite src (p - 0x060) off data
  else if 0x060 ≤ p ∧ 0x070 ≤ off ∧ off < 0x090 then c.windowWrite src (p - 0x060) off data
  else c.plainWrite src p off data

/-- Lock `k` is held or waited for by an instance. -/
def Chip.lkUsed (c : Chip) (k : Nat) : Bool :=
  (List.range 16).any fun r => c.lkHolds r k || c.lkWait r == some k

/-- LCK and FAB pages. -/
def Chip.lckWrite (c : Chip) (src : Src) (p off data : Nat) : Chip :=
  let own := c.mgrOrCtl src
  if p = 0x090 ∧ (off = 0x044 ∨ off = 0x048) then
    let i := (off - 0x044) / 4
    c.genericWrite src p off data own false
      [((List.range 32).all fun j => data.testBit j || !(c.get (R.LCK.INST.LOCKS i)).testBit j || !c.lkUsed (32 * i + j), E.STATE)]
  else if p = 0x092 ∧ off < 0x3A0 then
    let r := (off - 0x040) / 0x20
    let x := off % 0x20
    if x = 0x00 then c.lkWriteAcq src r data
    else if x = 0x04 then c.lkWriteRel src r data
    else if x = 0x08 then c.lkWriteCancel src r data
    else c.plainWrite src p off data
  else if p = 0x141 ∧ off = 0x040 then c.arbSel src data
  else c.plainWrite src p off data

/-- GFX pages. -/
def Chip.gfxWrite (c : Chip) (src : Src) (p off data : Nat) : Chip :=
  if p = 0x0A0 ∧ 0x048 ≤ off ∧ off < 0x068 then
    let n := (off - 0x048) / 4
    let vt := if c.onAnchor n then c.ledVTotal else c.vTotal n
    let d := c.valueWrite src p off data (c.mgrOrCtl src) (data == 0 || decide (bits data 0 16 < vt))
    if d.get (R.GFX.ESCALATE.LINES n) = c.get (R.GFX.ESCALATE.LINES n) then d else d.escalateSlot n
  else if p = 0x0A2 ∧ off < 0x0C8 ∧ off % 8 = 0 then c.poolWrite src ((off - 0x040) / 8) data
  else c.plainWrite src p off data

/-- CMP pages (R169). -/
def Chip.cmpWrite (c : Chip) (src : Src) (p off data : Nat) : Chip :=
  let own := c.mgrOrCtl src
  if p < 0x0E8 then c.plainWrite src p off data
  else
    let u := p - 0x0E8
    let busy := [(!c.pow.cmpRising, E.BUSY)]
    if p = 0x118 ∨ off < 0x04C ∨ 0x070 ≤ off then c.genericWrite src p off data own false busy
    else if off = 0x04C then
      let self := data.testBit 27 && bits data 28 2 == c.get R.LDG_SYNC.SYNC_STATE.DEVID
      c.stateWrite src p off data (own && c.unitOwner u == 16) (!self) busy
    else c.genericWrite src p off data (own && c.unitOwner u == 16) false busy

/-- SCN pages. -/
def Chip.scnWrite (c : Chip) (src : Src) (p off data : Nat) : Chip :=
  let own := c.mgrOrCtl src
  let n := p % 8
  if p < 0x128 then
    if off = 0x040 then
      c.valueWrite src p off data own (!(data.testBit 12 && n % 2 == 1) && !(data.testBit 14 && bits data 1 2 != 1))
    else if off = 0x07C then c.urRearm src n data
    else c.plainWrite src p off data
  else if off = 0x040 then c.genericWrite src p off data own false [(c.get (R.SCN_OUT.OUT_STAT.STATE (c.phyOut n)) == 0, E.STATE)]
  else if off = 0x048 then c.laneTest src n data
  else if off = 0x04C then c.auxCmd src n data
  else c.plainWrite src p off data

/-- SAF pages (R223). -/
def Chip.safPageWrite (c : Chip) (m : Mems) (src : Src) (p off data : Nat) : Chip :=
  if p = 0x130 then
    if off = 0x044 then
      c.safWrite src p off [(decide (data < 2), E.RESERVED)] fun c => if data = 1 then c.islandFault 6 else c
    else if off = 0x04C then c.wdogCfg src data
    else if off = 0x050 then c.wdogKick src data
    else if off = 0x054 then c.safeOkWrite src data
    else if off = 0x05C then c.islModeReq src data
    else if off = 0x060 then c.pipeDegr src data
    else if off = 0x064 then
      c.genericWrite src p off data (src == .island) false [(data == 0 || decide (data * 2 ^ 28 < c.dramSize), E.RANGE)]
    else c.plainWrite src p off data
  else if off = 0x040 then c.planeCtrl m.isl src (p - 0x131) data
  else c.plainWrite src p off data

/-- DRC and DMA pages. -/
def Chip.drcWrite (c : Chip) (src : Src) (p off data : Nat) : Chip :=
  let k := (off - 0x040) / 8
  if p = 0x160 ∧ off = 0x040 then c.genericWrite src p off data (c.mgrOrCtl src) (c.flag R.DRC.TRAIN.DONE) []
  else if p = 0x160 ∧ off = 0x04C then c.trainWrite src data
  else if p = 0x161 ∧ off < 0x080 then (if off % 8 = 0 then c.regBase src k data else c.regSize src k data)
  else if p = 0x161 ∧ off = 0x080 then c.eccCarve src data
  else if p = 0x181 ∧ off < 0x240 ∧ off % 16 = 4 then c.dmaCtrl src ((off - 0x040) / 16) data
  else c.plainWrite src p off data

/-- AUD pages. -/
def Chip.audWrite (c : Chip) (src : Src) (p off data : Nat) : Chip :=
  let i := (off - 0x040) / 4
  if 0x196 ≤ p ∧ p < 0x19A ∧ off < 0x2C0 then c.eqWrite src (4 * (p - 0x196) + i / 40) (i % 40 / 5) (i % 5) data
  else if p = 0x19A ∧ off = 0x150 then c.chimeIsland src data
  else if p = 0x19B ∧ i < 2 then
    let live := c.readReg p off
    c.genericWrite src p off data (c.mgrOrCtl src) false [(!live.testBit 0 || data / 2 == live / 2, E.STATE)]
  else if p = 0x19E ∧ off < 0x060 ∧ off % 16 = 0 then
    let a := (off - 0x040) / 16
    (c.plainWrite src p off data).ampConfigured c a
  else if p = 0x19E ∧ off < 0x060 ∧ off % 16 = 8 then c.ampCmd src ((off - 0x040) / 16) data
  else c.plainWrite src p off data

/-- HAP and TCH pages. -/
def Chip.touchWrite (c : Chip) (src : Src) (p off data : Nat) : Chip :=
  let own := c.mgrOrCtl src
  let n := (p - 0x1A8) / 2
  if p = 0x1A0 ∧ off = 0x04C then c.hapIsland src data
  else if p = 0x1A1 ∧ off < 0x0C0 ∧ off % 16 = 12 then c.hapCmd src ((off - 0x040) / 16) data
  else if 0x1A8 ≤ p ∧ p % 2 = 0 then
    let bad := (off == 0x040 && n % 2 == 1 && data.testBit 3) || (0x400 ≤ off && off % 16 == 8 && data.testBit 2 && bits data 16 4 == 0)
    if c.tchPartner n ∧ !bad then c.genericWrite src p off data own false [(false, E.STATE)] else c.valueWrite src p off data own (!bad)
  else if 0x1A8 ≤ p ∧ off = 0x058 then c.tchCmd src n data
  else c.plainWrite src p off data

/-- CSK pages. -/
def Chip.cskWrite (c : Chip) (m : Mems) (src : Src) (p off data : Nat) : Chip :=
  if p = 0x1B0 ∧ off = 0x040 then
    c.genericWrite src p off data (c.mgrOrCtl src) false
      [(c.get R.CSK.CSK_STAT.STATE == 0 || bits data 0 1 == c.get R.CSK.CSK_CFG.MEDIA, E.STATE)]
  else if p = 0x1B0 ∧ off = 0x044 then c.cskCtrl src data
  else if p = 0x1B1 ∧ off = 0x040 then c.cskRdCtrl m.cask src data
  else if p = 0x1B2 ∧ off = 0x040 then c.cskLog src data
  else if p = 0x1B3 ∧ off < 0x04C then c.rtcHold src ((off - 0x040) / 4) data
  else if p = 0x1B3 ∧ off = 0x04C then c.rtcCtrl src data
  else c.plainWrite src p off data

/-- LNK pages. -/
def Chip.lnkWrite (c : Chip) (src : Src) (p off data : Nat) : Chip :=
  let i := (off - 0x040) / 4
  if p = 0x150 ∧ (off = 0x048 ∨ off = 0x04C) then c.daccWrite src (i - 2) data
  else if (p = 0x151 ∨ p = 0x152) ∧ off = 0x040 then c.portCfg src (p - 0x151) data
  else if p = 0x153 ∧ i < 4 then c.winCfg src i data
  else if p = 0x154 ∧ i < 4 then c.tchFwd src i data
  else if p = 0x154 ∧ i < 8 then c.rxRing src (i - 4) data
  else c.plainWrite src p off data

/-- A write of a block register, from 0x040 on, of page `p`. A 0 written to an undefined offset has no effect and is not recorded (R34). -/
def Chip.bodyWrite (c : Chip) (m : Mems) (src : Src) (p off data : Nat) : Chip × Mems :=
  if off < 0xC00 ∧ data = 0 ∧ (findReg p off).isNone then (c.port src p off [] id, m)
  else if p = 0x031 ∧ off = 0x044 then c.swdKick m src data
  else if 0x070 ≤ p ∧ p < 0x090 ∧ off < 0x240 then c.ringWrite m src (2 * (p - 0x070) + (off - 0x040) / 0x100) ((off - 0x040) % 0x100) data
  else
    let d :=
      if p < 0x010 ∨ (0x020 ≤ p ∧ p < 0x050) then c.sysWrite m src p off data
      else if p < 0x020 then c.ldgWrite src p off data
      else if p < 0x070 then c.imxWrite src p off data
      else if 0x090 ≤ p ∧ p < 0x0A0 then c.lckWrite src p off data
      else if 0x0A0 ≤ p ∧ p < 0x0E0 then c.gfxWrite src p off data
      else if 0x0E0 ≤ p ∧ p < 0x120 then c.cmpWrite src p off data
      else if 0x120 ≤ p ∧ p < 0x130 then c.scnWrite src p off data
      else if 0x130 ≤ p ∧ p < 0x140 then c.safPageWrite m src p off data
      else if 0x140 ≤ p ∧ p < 0x150 then c.lckWrite src p off data
      else if 0x150 ≤ p ∧ p < 0x160 then c.lnkWrite src p off data
      else if 0x160 ≤ p ∧ p < 0x190 then c.drcWrite src p off data
      else if 0x190 ≤ p ∧ p < 0x1A0 then c.audWrite src p off data
      else if 0x1A0 ≤ p ∧ p < 0x1B0 then c.touchWrite src p off data
      else if 0x1B0 ≤ p ∧ p < 0x1C0 then c.cskWrite m src p off data
      else if p = 0x1C0 ∧ off = 0x044 then c.testCtrl src data
      else if p = 0x1C1 ∧ (findReg p off).isSome then c.perturbWrite src off data
      else c.plainWrite src p off data
    (d, m)

/-! ### Accesses of any size (R34, R43, R44, R72) -/

/-- An offset of the recovery window of HP0's BAR0, and the SRAM address it reaches (R72). -/
def Chip.recoveryAt (c : Chip) (src : Src) (p off : Nat) : Option Nat :=
  let a := p * 0x1000 + off
  if src = .pf 0 ∧ c.beforeRun ∧ c.get R.SYS_BOOT.STRAPS.BOOTSEL = 5 ∧ 0x20000 ≤ a ∧ a < 0x200000 then some (a - 0x20000) else none

/-- A rejected size or alignment (R34). -/
def Chip.alignErr (c : Chip) (src : Src) (p off : Nat) : Chip :=
  match src with
  | .inst vi => let u := c.winUnder vi p off
    c.rejectInst vi p u.1 off u.2 E.ALIGN
  | _ => match c.turnedAway src p with
    | some (p0, _) => c.reject p0 off (srcCode src) E.ALIGN
    | none => c.reject p off (srcCode src) E.ALIGN

/-- A 32-bit write at offset `off` of page `p`, or of window page `p` for an instance. -/
def Chip.wordWrite (c : Chip) (m : Mems) (src : Src) (p off data : Nat) : Chip × Mems :=
  match src with
  | .inst vi => c.winWrite m vi p off data
  | _ => if off < 0x040 then c.headWrite m src p off data else c.bodyWrite m src p off data

/-- A host function: its 64-bit accesses are two 32-bit accesses (R34). -/
def isHost : Src → Bool
  | .pf _ => true
  | .inst _ => true
  | _ => false

/-- A write of the bytes `bs`. -/
def Chip.busWrite (c : Chip) (m : Mems) (src : Src) (p off : Nat) (bs : List Byte) : Chip × Mems :=
  match c.recoveryAt src p off with
  | some o =>
    if c.unheard src p then (c, m)
    else if c.pow.loaded ∨ bs.length = 0 ∨ 64 < bs.length ∨ 0x1E0000 < o + bs.length then (c.reject 0 off (srcCode src) E.RANGE, m)
    else (c.eccWrite Ecc.SRAM o bs.length, { m with sram := Memory.writeBytes m.sram o bs })
  | none =>
    if c.unheard src p then (c, m)
    else if off % 4 = 0 ∧ bs.length = 4 then c.wordWrite m src p off (leNat bs)
    else if off % 4 = 0 ∧ bs.length = 8 ∧ isHost src then
      let r := c.wordWrite m src p off (leNat (bs.take 4))
      r.1.wordWrite r.2 src (if off = 0xFFC then p + 1 else p) ((off + 4) % 0x1000) (leNat (bs.drop 4))
    else (c.alignErr src p off, m)

/-- The port window of a physical function that is not the manager (R43). -/
def Chip.portWindow (c : Chip) (port p off : Nat) : Nat :=
  if p ≠ 0 then 0
  else if off = 0x000 then 0x060000
  else if off = 0x004 then 0x0100
  else if off = 0x040 then
    c.get (R.IMX.PORT_LINK.WIDTH port) + 8 * c.get (R.IMX.PORT_LINK.SPEED port) + 64 * c.get R.IMX.MANAGER.MGR
  else 0

/-- VCORE_STAT and VBUS5_STAT show what Kiln measures, which no command brings: open values while the rail is on (log entry 115). -/
def Chip.measured (c : Chip) (off : Nat) : Chip :=
  let look := fun (c : Chip) (f : Fld) (on : Bool) => if on then let v := c.fresh f.w; v.2.set f v.1 else c.set f 0
  if off = 0x044 then look (look c R.PWR_RAILS.VCORE_STAT.MEAS_MV (c.railOn 7)) R.PWR_RAILS.VCORE_STAT.AMPS (c.railOn 7)
  else if off = 0x048 then look c R.PWR_RAILS.VBUS5_STAT.MEAS_MV (c.railOn 0)
  else c

/-- A read of a register of an existing page: what it shows, and what the read itself does. Slots 22 to 31 read 0. -/
def Chip.pageRead (c : Chip) (p off : Nat) : Chip :=
  if off < 0x040 then
    let v := c.headRead p off
    { v.2 with readData := v.1 }
  else
    let c := if p = 0x020 then c.clampShow else if p = 0x1C0 then c.ptbShow else if p = 0x140 then c.pressSettle else if p = 0x021 then c.measured off else c
    if p = 0x1B3 ∧ off = 0x040 then c.rtcRead
    else if p = 0x012 ∧ 0x1A0 ≤ off ∧ off < 0x240 then { c with readData := 0 }
    else
      let c := { c with readData := c.readReg p off }
      if p = 0x014 ∧ off = 0x044 then c.set R.LDG_SYNC.SYNC_ERR.MAX_ERR 0
      else if p = 0x022 ∧ 0x040 ≤ off ∧ off < 0x068 then
        let i := (off - 0x040) / 4
        c.set (R.PWR_THERM.TEMP.PEAK i) (c.get (R.PWR_THERM.TEMP.TEMP i))
      else c

/-- A 32-bit read at offset `off` of page `p`, or of window page `p` for an instance. -/
def Chip.wordRead (c : Chip) (src : Src) (p off : Nat) : Chip :=
  let zero := { c with readData := 0 }
  let page := fun (c : Chip) => if !pageExists p then zero else if onField p then c.fieldRead src off fun c => c.pageRead p off else c.pageRead p off
  match src with
  | .inst vi => c.winRead vi p off
  | .pf port =>
    if c.get R.IMX.MANAGER.MGR ≠ port then { c with readData := c.portWindow port p off }
    else if c.beforeRun ∧ 0x010 ≤ p then zero
    else page c
  | _ => page c

/-- A read of `n` bytes: the value is left in `readData`; an access that nothing serves leaves it as it was. -/
def Chip.busRead (c : Chip) (m : Mems) (src : Src) (p off n : Nat) : Chip :=
  match c.recoveryAt src p off with
  | some o =>
    if c.unheard src p then c
    else { c with readData := if c.pow.loaded ∨ 0x1E0000 < o + n then 0 else Memory.readNat m.sram o n }
  | none =>
    if c.unheard src p then c
    else if off % 4 = 0 ∧ n = 4 then c.wordRead src p off
    else if off % 4 = 0 ∧ n = 8 ∧ isHost src then
      let a := c.wordRead src p off
      let b := a.wordRead src (if off = 0xFFC then p + 1 else p) ((off + 4) % 0x1000)
      { b with readData := a.readData + b.readData * 2 ^ 32 }
    else { c.alignErr src p off with readData := 0 }

/-! ### The commands -/

/-- REG_WRITE (R34): the bytes `data` at offset `off` of page `page`. -/
def execRegWrite (src : Src) (page off : Nat) (data : List Byte) (s : State) : Host.Outcome State Fault Refusal :=
  s.onMem (placeOk src page off && decide (data.length ≤ 64)) fun c m => c.busWrite m src page off data

/-- REGISTER_READ (R34, R36): `size` bytes at offset `off` of page `page`. -/
def execRegisterRead (src : Src) (page off size : Nat) (s : State) : Host.Outcome State Fault Refusal :=
  s.on (placeOk src page off && decide (size ≤ 64)) fun c => c.busRead s.mem src page off size

/-- PAGE_ERR_CLEAR (R36): a write of PAGE_ERR. -/
def execPageErrClear (src : Src) (page : Nat) (data : Word) (s : State) : Host.Outcome State Fault Refusal :=
  s.onMem (placeOk src page 0x010) fun c m => c.busWrite m src page 0x010 (leBytes 4 data.toNat)

/-- IRQ_STAT_CLEAR (R41): a write of IRQ_STAT. -/
def execIrqStatClear (src : Src) (page : Nat) (data : Word) (s : State) : Host.Outcome State Fault Refusal :=
  s.onMem (placeOk src page 0x01C) fun c m => c.busWrite m src page 0x01C (leBytes 4 data.toNat)

/-- CTRL_ENABLE (R35): a write of CTRL with this ENABLE and RESET 0. -/
def execCtrlEnable (src : Src) (page : Nat) (en : Bool) (s : State) : Host.Outcome State Fault Refusal :=
  s.onMem (placeOk src page 0x008) fun c m => c.busWrite m src page 0x008 (leBytes 4 (b2n en))

/-- The ENABLE bit that CTRL of a page, or of an instance's window page, now reads. -/
def Chip.enableSeen (c : Chip) (src : Src) (page : Nat) : Nat :=
  match src with
  | .inst vi => c.get (H.ENABLE (0x060 + vi))
  | _ => c.get (H.ENABLE page)

/-- CTRL_RESET (R35): a write of CTRL with RESET set and ENABLE as it stands. -/
def execCtrlReset (src : Src) (page : Nat) (s : State) : Host.Outcome State Fault Refusal :=
  s.onMem (placeOk src page 0x008) fun c m => c.busWrite m src page 0x008 (leBytes 4 (c.enableSeen src page + 2))

/-- COMMIT_GO (R39): a write of COMMIT with GO set. -/
def execCommitGo (src : Src) (page : Nat) (s : State) : Host.Outcome State Fault Refusal :=
  s.onMem (placeOk src page 0x024) fun c m => c.busWrite m src page 0x024 (leBytes 4 1)

/-- COMMIT_DISCARD (R39): a write of COMMIT with DISCARD set. -/
def execCommitDiscard (src : Src) (page : Nat) (s : State) : Host.Outcome State Fault Refusal :=
  s.onMem (placeOk src page 0x024) fun c m => c.busWrite m src page 0x024 (leBytes 4 2)

/-! ### Remote accesses (R349) -/

/-- The status byte of a write by another device: the code it was rejected with, or 0. -/
def Chip.linkStatus (c : Chip) (m : Mems) (dev page off : Nat) (data : List Byte) : Nat :=
  let clean := (c.set (H.ERR_CODE page) 0).set (H.ERR_CODE 0) 0
  let d := (clean.busWrite m (.link dev) page off data).1
  if d.get (H.ERR_CODE page) ≠ 0 then d.get (H.ERR_CODE page) else d.get (H.ERR_CODE 0)

/-- REG_WR (R349): device `dev` writes `data` at offset `off` of page `page`. -/
def execRegWr (dev tag page off : Nat) (data : List Byte) (s : State) : Host.Outcome State Fault Refusal :=
  s.onMem (placeOk (.link dev) page off && decide (data.length ≤ 64)) fun c m =>
    let addr := page * 0x1000 + off
    if !c.fabOn || !c.pdOn PD.LINK then (c, m)
    else if !(c.get R.LNK.ACCEPT.REG_FROM).testBit dev then (c.linkRefuse dev 6 tag addr [BitVec.ofNat 8 E.RANGE], m)
    else
      let st := c.linkStatus m dev page off data
      let r := c.busWrite m (.link dev) page off data
      (r.1.linkAnswer dev 6 tag addr [BitVec.ofNat 8 st], r.2)

/-- REG_RD (R349): device `dev` reads `size` bytes at offset `off` of page `page`. -/
def execRegRd (dev tag page off size : Nat) (s : State) : Host.Outcome State Fault Refusal :=
  s.on (placeOk (.link dev) page off && decide (size ≤ 64)) fun c =>
    let addr := page * 0x1000 + off
    c.when (c.fabOn && c.pdOn PD.LINK) fun c =>
      if !(c.get R.LNK.ACCEPT.REG_FROM).testBit dev then c.linkRefuse dev 6 tag addr []
      else
        let d := c.busRead s.mem (.link dev) page off size
        { d with readData := c.readData }.linkAnswer dev 6 tag addr (leBytes size d.readData)

/-! ### Time without commands -/

/-- One nanosecond passes while no command waits (DESIGN CHOICE, log entry 2): the clocks of R19 count and idle channels settle. -/
def State.idle (s : State) : State := { s with chip := (s.chip.advance (s.chip.ps + 1000)).drcTime }

end Sys2Proof.Machine
end

