-- ==== Sys2Proof/Machine/Packet.lean ====
section
/-! DEFINITION. Command buffers (R110, R130, R137, R160): one definition per packet, and program loads. -/

namespace Sys2Proof.Machine

/-! ### Parsing (R110) -/

/-- LEN of a packet, none where the code is undefined; `any` says that the table fixes no size. -/
def pktLen (code : Nat) : Option (Option Nat) :=
  if code = 0x00 then some none
  else if code = 0x01 then some (some 0)
  else if code = 0x02 ∨ code = 0x22 ∨ code = 0x44 ∨ code = 0x46 then some (some 3)
  else if code = 0x10 ∨ code = 0x11 ∨ code = 0x32 ∨ code = 0x43 ∨ code = 0x45 ∨ code = 0x47 then some (some 2)
  else if code = 0x12 ∨ code = 0x41 ∨ code = 0x50 then some (some 4)
  else if code = 0x20 ∨ code = 0x51 then some (some 5)
  else if code = 0x21 ∨ code = 0x30 ∨ code = 0x40 ∨ code = 0x42 ∨ code = 0x48 then some (some 1)
  else if code = 0x31 then some (some 6)
  else none

/-- Where parsing stands once a called buffer that has run out has returned. -/
def GJob.here (j : GJob) : GJob :=
  match j.ret with
  | some r => if j.code.2.1 ≤ j.code.2.2 then { j with code := r, ret := none } else j
  | none => j

/-- The job has packets to parse. -/
def GJob.parsing (j : GJob) : Bool := j.phase == 0 && !j.ended && j.draw.isNone && j.parked.isNone && j.failed.isNone

/-- It is job `k`'s turn at Grist: no job escalated before it has packets to parse (R122). -/
def Chip.gristTurn (c : Chip) (k : Nat) (j : GJob) : Bool :=
  !(c.gfx.jobs.any fun x => x.1 != k && x.2.parsing && match x.2.escalated, j.escalated with
    | some a, some b => decide (a < b)
    | some _, none => true
    | none, _ => false)

/-- The next packet of a job. -/
inductive NextPkt where
  /-- CMD_LEN has been reached. -/
  | finished
  /-- No packet of the table. -/
  | malformed
  /-- A packet: code, payload words. -/
  | packet (code : Nat) (words : List Nat)
  deriving DecidableEq, Repr

/-- Read the next packet of a job that stands where `here` says. -/
def GJob.next (j : GJob) (mem : Memory) : NextPkt :=
  let len := j.code.2.1
  let off := j.code.2.2
  if len ≤ off then .finished
  else if len < off + 4 then .malformed
  else
    let h := mem.readNat (j.code.1 + off) 4
    let n := bits h 16 16
    match pktLen (bits h 0 8) with
    | none => .malformed
    | some fixed =>
      let wrong := match fixed with | some k => k != n | none => false
      if wrong || bits h 8 8 != 0 || decide (len < off + 4 + 4 * n) then .malformed
      else .packet (bits h 0 8) ((List.range n).map fun i => mem.readNat (j.code.1 + off + 4 + 4 * i) 4)

/-- What a packet makes of its job: a new job, or an error status. -/
abbrev PktEffect := Chip → Memory → GJob → List Nat → (Except Nat GJob) × Chip

/-- Parse the next packet of context `k` if it has code `code`, or one of the cases that the two flags name. -/
def Chip.parse (c : Chip) (m : Mems) (k code : Nat) (takesOver takesBad : Bool) (f : PktEffect) : Chip × Mems :=
  match c.job k with
  | none => (c, m)
  | some j =>
    if !j.parsing || !c.gristTurn k j then (c, m)
    else
      let j := j.here
      let j := if j.ret.isNone then { j with pkt := j.code.2.2 } else j
      let mem := c.gpuSees j.own m.dram
      let go := fun (ws : List Nat) =>
        let g := c.gpuRead mem j.own (j.code.1 + j.code.2.2) (4 + 4 * ws.length)
        let j := { j with code := (j.code.1, j.code.2.1, j.code.2.2 + 4 + 4 * ws.length) }
        if !g.1 then (g.2.setJob k j).jobEnd m k 0x3E none
        else match f g.2 mem j ws with
          | (.ok j', c) => ((c.setJob k j').gfxShow, m)
          | (.error st, c) => (c.setJob k j).jobEnd m k st (if st = 0x3E then none else some j.pkt)
      match j.next mem with
      | .finished => if takesOver then ((c.setJob k { j with ended := true, phase := 1, tiles := zOrder j.tw j.th }).gfxShow, m) else (c, m)
      | .malformed => if takesBad then (c.setJob k j).jobEnd m k 0x30 (some j.pkt) else (c, m)
      | .packet q ws => if q = code then go ws else (c, m)

/-- Word `i` of a payload, and the DRAM offset two words spell. -/
def pw (ws : List Nat) (i : Nat) : Nat := ws.getD i 0
def pAddr (ws : List Nat) (i : Nat) : Nat := pw ws i + 2 ^ 32 * pw ws (i + 1)

/-- A packet that only sets state; `ok` false makes it malformed. -/
def setsState (ok : List Nat → Bool) (f : GState → List Nat → GState) : PktEffect :=
  fun c _ j ws => (if ok ws then .ok { j with st := f j.st ws } else .error 0x30, c)

/-- A packet that names a buffer: malformed, out of range (R81), or a change of state. -/
def setsBuffer (ok : List Nat → Bool) (range : List Nat → Nat × Nat) (f : GState → List Nat → GState) : PktEffect :=
  fun c _ j ws =>
    (if !ok ws then .error 0x30
     else if !c.dramOk j.own (range ws).1 (range ws).2 then .error E.RANGE
     else .ok { j with st := f j.st ws }, c)

/-- The parse row of a packet code. -/
def State.packet (s : State) (j code : Nat) (f : PktEffect) : Host.Outcome State Fault Refusal :=
  s.onMem (j < 16) fun c m => c.parse m j code false false f

/-! ### Control packets -/

/-- PKT_NOP: skipped; an undefined or malformed packet ends the job here (JOB_CMDBUF_ERROR). -/
def execPktNop (j : Nat) (s : State) : Host.Outcome State Fault Refusal :=
  s.onMem (j < 16) fun c m => c.parse m j 0x00 false true fun c _ x _ => (.ok x, c)

/-- PKT_END, or CMD_LEN reached: parsing ends and the render phase begins. -/
def execPktEnd (j : Nat) (s : State) : Host.Outcome State Fault Refusal :=
  s.onMem (j < 16) fun c m => c.parse m j 0x01 true false fun c _ x _ => (.ok { x with ended := true, phase := 1, tiles := zOrder x.tw x.th }, c)

/-- PKT_CALL: run a buffer, then return. -/
def execPktCall (j : Nat) (s : State) : Host.Outcome State Fault Refusal :=
  s.packet j 0x02 fun c _ x ws =>
    (if x.ret.isSome then .error 0x30
     else if !c.dramOk x.own (pAddr ws 0) (pw ws 2) then .error E.RANGE
     else .ok { x with ret := some x.code, code := (pAddr ws 0, pw ws 2, 0) }, c)

/-! ### Programs and buffers -/

/-- Bind a program (R146, R160). -/
def bindProgram (frag : Bool) : PktEffect := fun c mem j ws =>
  let a := pAddr ws 0
  if a % 16 ≠ 0 then (.error 0x30, c)
  else if !c.dramOk j.own a 16 then (.error E.RANGE, c)
  else
    let n := Prog.size (mem.readBytes a 16)
    let g := c.gpuRead mem j.own a n
    let img := mem.readBytes a n
    if !c.dramOk j.own a n then (.error E.RANGE, c)
    else if !g.1 then (.error 0x3E, g.2)
    else if !progOk frag img then (.error 0x32, g.2)
    else
      let p : GProg := { addr := a, image := img, pkt := j.pkt }
      (.ok { j with st := if frag then { j.st with fprog := some p } else { j.st with vprog := some p } }, g.2)

def execPktVprog (j : Nat) (s : State) : Host.Outcome State Fault Refusal := s.packet j 0x10 (bindProgram false)
def execPktFprog (j : Nat) (s : State) : Host.Outcome State Fault Refusal := s.packet j 0x11 (bindProgram true)

/-- PKT_CONSTS: slot and stage, address, size at most 64 KiB. -/
def execPktConsts (j : Nat) (s : State) : Host.Outcome State Fault Refusal :=
  s.packet j 0x12 (setsBuffer (fun ws => decide (pw ws 3 ≤ 65536)) (fun ws => (pAddr ws 1, pw ws 3)) fun st ws =>
    { st with consts := st.consts.insert (4 * bits (pw ws 0) 2 1 + bits (pw ws 0) 0 2) (pAddr ws 1, pw ws 3) })

/-- PKT_VBUF (R111). -/
def execPktVbuf (j : Nat) (s : State) : Host.Outcome State Fault Refusal :=
  s.packet j 0x20 (setsBuffer (fun ws => decide (bits (pw ws 4) 0 16 ≤ 2048) && pw ws 4 / 2 ^ 17 == 0) (fun ws => (pAddr ws 1, pw ws 3)) fun st ws =>
    { st with vbufs := st.vbufs.insert (pw ws 0 % 16) (pAddr ws 1, pw ws 3, pw ws 4) })

/-- PKT_VATTR (R111). -/
def execPktVattr (j : Nat) (s : State) : Host.Outcome State Fault Refusal :=
  s.packet j 0x21 (setsState (fun ws => VAttr.legal (pw ws 0)) fun st ws => { st with vattr := st.vattr.insert (pw ws 0 % 16) (pw ws 0) })

/-- PKT_IBUF. -/
def execPktIbuf (j : Nat) (s : State) : Host.Outcome State Fault Refusal :=
  s.packet j 0x22 (setsBuffer (fun ws => decide (bits (pw ws 2) 0 2 < 2)) (fun ws => (pAddr ws 0, pw ws 2 / 4 * 4)) fun st ws =>
    { st with ibuf := some (pAddr ws 0, pw ws 2) })

/-! ### Geometry state -/

/-- PKT_PRIM (R113). -/
def execPktPrim (j : Nat) (s : State) : Host.Outcome State Fault Refusal :=
  s.packet j 0x30 (setsState (fun ws => Prim.cull (pw ws 0) != 3) fun st ws => { st with prim := pw ws 0 })

/-- PKT_VIEWPORT (R114). -/
def execPktViewport (j : Nat) (s : State) : Host.Outcome State Fault Refusal :=
  s.packet j 0x31 (setsState (fun _ => true) fun st ws => { st with viewport := ws })

/-- PKT_SCISSOR. -/
def execPktScissor (j : Nat) (s : State) : Host.Outcome State Fault Refusal :=
  s.packet j 0x32 (setsState (fun _ => true) fun st ws => { st with scissor := some (pw ws 0, pw ws 1) })

/-! ### Fragment state (R130) -/

/-- PKT_DEPTH. -/
def execPktDepth (j : Nat) (s : State) : Host.Outcome State Fault Refusal :=
  s.packet j 0x40 (setsState (fun _ => true) fun st ws => { st with depth := pw ws 0 })

/-- PKT_STENCIL: bit 0 of word 2 must be 0. -/
def execPktStencil (j : Nat) (s : State) : Host.Outcome State Fault Refusal :=
  s.packet j 0x41 (setsState (fun ws => !(pw ws 2).testBit 0) fun st ws => { st with stencil := ws })

/-- PKT_BLEND: a reserved factor or op makes it malformed. -/
def execPktBlend (j : Nat) (s : State) : Host.Outcome State Fault Refusal :=
  s.packet j 0x42 (setsState (fun ws =>
    let w := pw ws 0
    ([3, 7, 14, 18].all fun i => bits w i 4 != 15) && decide (bits w 11 3 < 5) && decide (bits w 22 3 < 5)) fun st ws =>
    { st with blend := st.blend.insert (pw ws 0 % 4) (pw ws 0) })

/-- PKT_BLEND_CONST. -/
def execPktBlendConst (j : Nat) (s : State) : Host.Outcome State Fault Refusal :=
  s.packet j 0x43 (setsState (fun _ => true) fun st ws =>
    { st with blendConst := [bits (pw ws 0) 0 16, bits (pw ws 0) 16 16, bits (pw ws 1) 0 16, bits (pw ws 1) 16 16] })

/-- PKT_CLEAR_COLOR. -/
def execPktClearColor (j : Nat) (s : State) : Host.Outcome State Fault Refusal :=
  s.packet j 0x44 fun c _ x ws => (.ok { x with clearC := x.clearC.insert (pw ws 0 % 4) (pw ws 1, pw ws 2) }, c)

/-- PKT_CLEAR_DS. -/
def execPktClearDs (j : Nat) (s : State) : Host.Outcome State Fault Refusal :=
  s.packet j 0x45 fun c _ x ws => (.ok { x with clearZ := pw ws 0, clearS := pw ws 1 % 256 }, c)

/-- PKT_TEXTURE (R137). -/
def execPktTexture (j : Nat) (s : State) : Host.Outcome State Fault Refusal :=
  s.packet j 0x46 fun c mem x ws =>
    let a := pAddr ws 1
    if a % 32 ≠ 0 then (.error 0x30, c)
    else if !c.dramOk x.own a 32 then (.error E.RANGE, c)
    else
      let g := c.gpuRead mem x.own a 32
      let d := mem.readBytes a 32
      if !g.1 then (.error 0x3E, g.2)
      else if !Tex.valid d then (.error 0x35, g.2)
      else if !c.dramOk x.own (Tex.addr d) (Tex.extent d) then (.error E.RANGE, g.2)
      else (.ok { x with st := { x.st with textures := x.st.textures.insert (pw ws 0 % 32) d } }, g.2)

/-- PKT_SAMPLER (R137). -/
def execPktSampler (j : Nat) (s : State) : Host.Outcome State Fault Refusal :=
  s.packet j 0x47 (setsState (fun ws => samplerOk (pw ws 1)) fun st ws => { st with samplers := st.samplers.insert (pw ws 0 % 32) (pw ws 1) })

/-- PKT_SAMPLE_MASK. -/
def execPktSampleMask (j : Nat) (s : State) : Host.Outcome State Fault Refusal :=
  s.packet j 0x48 (setsState (fun _ => true) fun st ws => { st with sampleMask := pw ws 0 % 16 })

/-! ### Draws (R110–R113) -/

/-- The vertices of an indexed draw through the 32-entry cache of transformed vertices (R112): those to shade, newest first, and the places
of the draw's vertices among them, last first. The entry transformed longest ago makes room (log entry 102). -/
def cacheStep (a : List (Nat × Nat) × List (Option Nat)) (v : Option (Nat × Nat)) : List (Nat × Nat) × List (Option Nat) :=
  match v with
  | none => (a.1, none :: a.2)
  | some q => match (a.1.take 32).findIdx? (· == q) with
    | some k => (a.1, some (a.1.length - 1 - k) :: a.2)
    | none => (q :: a.1, some a.1.length :: a.2)

/-- The vertices to shade of an indexed draw, and its vertices by their places among them. -/
def cacheItems (l : List (Option (Nat × Nat))) : List (Nat × Nat) × List (Option Nat) :=
  let r := l.foldl cacheStep ([], [])
  (r.1.reverse, r.2.reverse)

/-- A draw of the vertices of its instances; it keeps the state set before it. -/
def startDraw (x : GJob) (shade : List (Nat × Nat)) (items : List (Option Nat)) (perInst : Nat) : GJob :=
  if shade.isEmpty then x
  else { x with states := x.states ++ [x.st], draw := some { st := x.states.length, shade := shade, items := items, perInst := perInst } }

/-- A draw needs both programs. -/
def drawable (x : GJob) : Bool := x.st.vprog.isSome && x.st.fprog.isSome

/-- PKT_DRAW. -/
def execPktDraw (j : Nat) (s : State) : Host.Outcome State Fault Refusal :=
  s.packet j 0x50 fun c _ x ws =>
    if !drawable x then (.error 0x30, c)
    else
      let items := (List.range (pw ws 2)).flatMap fun i => (List.range (pw ws 1)).map fun k =>
        ((pw ws 0 + k) % 2 ^ 32, (pw ws 3 + i) % 2 ^ 32)
      (.ok (startDraw x items ((List.range items.length).map some) (pw ws 1)), c)

/-- Index `i` of the index buffer; one beyond the buffer has no stated value (log entry 31). -/
def indexAt (mem : Memory) (st : GState) (i : Nat) : Nat :=
  match st.ibuf with
  | none => (Config.approx 212 i).toNat
  | some (a, w) =>
    let n := if bits w 0 2 = 1 then 4 else 2
    if i * n + n ≤ w / 4 * 4 then mem.readNat (a + i * n) n else (Config.approx 212 i).toNat % 2 ^ (8 * n)

/-- An index of all ones (R111). -/
def isRestart (st : GState) (v : Nat) : Bool :=
  let n := match st.ibuf with | some (_, w) => if bits w 0 2 = 1 then 32 else 16 | none => 32
  Prim.restart st.prim && Prim.strips st.prim && v == 2 ^ n - 1

/-- PKT_DRAW_INDEXED. -/
def execPktDrawIndexed (j : Nat) (s : State) : Host.Outcome State Fault Refusal :=
  s.packet j 0x51 fun c mem x ws =>
    if !drawable x then (.error 0x30, c)
    else
      let n := pw ws 1
      let span : Nat × Nat := match x.st.ibuf with
        | some (a, w) => let b := if bits w 0 2 = 1 then 4 else 2; (a + pw ws 0 * b, min (n * b) (w / 4 * 4 - pw ws 0 * b))
        | none => (0, 0)
      let g := c.gpuRead mem x.own span.1 span.2
      let idx := (List.range n).map fun k => indexAt mem x.st (pw ws 0 + k)
      let items := (List.range (pw ws 3)).flatMap fun i => idx.map fun v =>
        if isRestart x.st v then none else some ((v + pw ws 2) % 2 ^ 32, (pw ws 4 + i) % 2 ^ 32)
      let r := cacheItems items
      if !g.1 then (.error 0x3E, g.2) else (.ok (startDraw x r.1 r.2 n), g.2)

/-! ### Program loads (R160) -/

/-- PROGRAM_LOAD: a core loads a program of draw state `st` (beyond the last: the state now being set) of context `j` and checks its CRC again. -/
def execProgramLoad (core j st stage : Nat) (s : State) : Host.Outcome State Fault Refusal :=
  s.onMem (decide (core < 12) && decide (j < 16)) fun c m => match c.job j with
    | none => (c, m)
    | some x =>
      let q := if st < x.states.length then x.state st else x.st
      match (if stage = 0 then q.vprog else q.fprog) with
      | none => (c, m)
      | some p =>
        if x.failed.isSome then (c, m)
        else
          let n := p.image.length
          let mem := c.gpuSees x.own m.dram
          let g := c.gpuRead mem x.own p.addr n
          if !g.1 then g.2.jobEnd m j 0x3E none
          else if !Prog.crcOk (Memory.readBytes mem p.addr n) then g.2.jobEnd m j 0x32 (some p.pkt)
          else (g.2, m)

end Sys2Proof.Machine
end

