-- ==== Sys2Proof/Machine/ShaderRows.lean ====
section
/-! DEFINITION. Shader instructions as commands (R150–R161): each steps wave `w` if the wave's next instruction is one of its own. -/

namespace Sys2Proof.Machine

/-- The facing of the fragment in a lane. -/
def Chip.front (c : Chip) (q : GWave) (lane : Nat) : Bool :=
  match c.gcore q.home with
  | none => true
  | some g => match g.list[(q.lane? lane).i]? with | some p => p.front | none => true

/-- An instruction has occupied the issue port of the wave's core for `n` clocks (R123, R161). -/
def Chip.charge (c : Chip) (q : GWave) (n : Nat) : Chip :=
  match c.gcore q.core with
  | none => c
  | some g => c.setCore q.core { g with spent := g.spent + n }

def Chip.setWave (c : Chip) (w : Nat) (q : GWave) : Chip := { c with gfx := { c.gfx with waves := SMap.insert c.gfx.waves w q } }

/-- Step wave `w` if `own` accepts the opcode of its next instruction; `f` gives the wave after it. -/
def State.shader (s : State) (w : Nat) (own : Nat → Bool) (f : Chip → Mems → GWave → Nat → Chip × Mems) : Host.Outcome State Fault Refusal :=
  s.onMem (w < 192) fun c m => match c.gfx.waves.find? w with
    | none => (c, m)
    | some q => match q.code[q.pc]? with
      | none => (c, m)
      | some ins => if own (Ins.op ins) then f (c.charge q (issueClocks q.frag ins)) m q ins else (c, m)

/-- The wave becomes `q'` and goes on to the next instruction. -/
def Chip.stepped (c : Chip) (w : Nat) (q' : GWave) : Chip := c.setWave w { q' with pc := q'.pc + 1 }

/-- An instruction of format A, by its opcodes. -/
def State.aluRow (s : State) (w : Nat) (ops : List Nat) : Host.Outcome State Fault Refusal :=
  s.shader w ops.contains fun c m q ins => (c.stepped w (q.alu (c.front q) ins), m)

/-! ### Format A (R152–R154) -/

def execShaderNop (w : Nat) (s : State) : Host.Outcome State Fault Refusal := s.aluRow w [0x00]
def execMov (w : Nat) (s : State) : Host.Outcome State Fault Refusal := s.aluRow w [0x01, 0x02]
def execSel (w : Nat) (s : State) : Host.Outcome State Fault Refusal := s.aluRow w [0x03, 0x04]
def execFadd (w : Nat) (s : State) : Host.Outcome State Fault Refusal := s.aluRow w [0x10, 0x20]
def execFmul (w : Nat) (s : State) : Host.Outcome State Fault Refusal := s.aluRow w [0x11, 0x21]
def execFfma (w : Nat) (s : State) : Host.Outcome State Fault Refusal := s.aluRow w [0x12, 0x22]
def execFmin (w : Nat) (s : State) : Host.Outcome State Fault Refusal := s.aluRow w [0x13, 0x23]
def execFmax (w : Nat) (s : State) : Host.Outcome State Fault Refusal := s.aluRow w [0x14, 0x24]
def execFfloor (w : Nat) (s : State) : Host.Outcome State Fault Refusal := s.aluRow w [0x15, 0x25]
def execFfract (w : Nat) (s : State) : Host.Outcome State Fault Refusal := s.aluRow w [0x16, 0x26]
def execFrcp (w : Nat) (s : State) : Host.Outcome State Fault Refusal := s.aluRow w [0x17, 0x27]
def execFrsq (w : Nat) (s : State) : Host.Outcome State Fault Refusal := s.aluRow w [0x18, 0x28]
def execFsqrt (w : Nat) (s : State) : Host.Outcome State Fault Refusal := s.aluRow w [0x19, 0x29]
def execFexp2 (w : Nat) (s : State) : Host.Outcome State Fault Refusal := s.aluRow w [0x1A, 0x2A]
def execFlog2 (w : Nat) (s : State) : Host.Outcome State Fault Refusal := s.aluRow w [0x1B, 0x2B]
def execFsin (w : Nat) (s : State) : Host.Outcome State Fault Refusal := s.aluRow w [0x1C, 0x2C]
def execFcos (w : Nat) (s : State) : Host.Outcome State Fault Refusal := s.aluRow w [0x1D, 0x2D]
def execIadd (w : Nat) (s : State) : Host.Outcome State Fault Refusal := s.aluRow w [0x30, 0x40]
def execIsub (w : Nat) (s : State) : Host.Outcome State Fault Refusal := s.aluRow w [0x31, 0x41]
def execImul (w : Nat) (s : State) : Host.Outcome State Fault Refusal := s.aluRow w [0x32, 0x42]
def execImad (w : Nat) (s : State) : Host.Outcome State Fault Refusal := s.aluRow w [0x33, 0x43]
def execImin (w : Nat) (s : State) : Host.Outcome State Fault Refusal := s.aluRow w [0x34, 0x44]
def execImax (w : Nat) (s : State) : Host.Outcome State Fault Refusal := s.aluRow w [0x35, 0x45]
def execUmin (w : Nat) (s : State) : Host.Outcome State Fault Refusal := s.aluRow w [0x36, 0x46]
def execUmax (w : Nat) (s : State) : Host.Outcome State Fault Refusal := s.aluRow w [0x37, 0x47]
def execAnd (w : Nat) (s : State) : Host.Outcome State Fault Refusal := s.aluRow w [0x38, 0x48]
def execOr (w : Nat) (s : State) : Host.Outcome State Fault Refusal := s.aluRow w [0x39, 0x49]
def execXor (w : Nat) (s : State) : Host.Outcome State Fault Refusal := s.aluRow w [0x3A, 0x4A]
def execNot (w : Nat) (s : State) : Host.Outcome State Fault Refusal := s.aluRow w [0x3B, 0x4B]
def execShl (w : Nat) (s : State) : Host.Outcome State Fault Refusal := s.aluRow w [0x3C, 0x4C]
def execShr (w : Nat) (s : State) : Host.Outcome State Fault Refusal := s.aluRow w [0x3D, 0x4D]
def execAsr (w : Nat) (s : State) : Host.Outcome State Fault Refusal := s.aluRow w [0x3E, 0x4E]
def execF16tof32 (w : Nat) (s : State) : Host.Outcome State Fault Refusal := s.aluRow w [0x50]
def execF32tof16 (w : Nat) (s : State) : Host.Outcome State Fault Refusal := s.aluRow w [0x51]
def execI16tof16 (w : Nat) (s : State) : Host.Outcome State Fault Refusal := s.aluRow w [0x52]
def execU16tof16 (w : Nat) (s : State) : Host.Outcome State Fault Refusal := s.aluRow w [0x53]
def execF16toi16 (w : Nat) (s : State) : Host.Outcome State Fault Refusal := s.aluRow w [0x54]
def execF16tou16 (w : Nat) (s : State) : Host.Outcome State Fault Refusal := s.aluRow w [0x55]
def execI32tof32 (w : Nat) (s : State) : Host.Outcome State Fault Refusal := s.aluRow w [0x56]
def execF32toi32 (w : Nat) (s : State) : Host.Outcome State Fault Refusal := s.aluRow w [0x57]
def execI16toi32 (w : Nat) (s : State) : Host.Outcome State Fault Refusal := s.aluRow w [0x58]
def execI32toi16 (w : Nat) (s : State) : Host.Outcome State Fault Refusal := s.aluRow w [0x59]

/-! ### Comparisons, differences, predicates, branches -/

/-- FCMP (R152). -/
def execFcmp (w : Nat) (s : State) : Host.Outcome State Fault Refusal :=
  s.shader w [0x5A, 0x5B].contains fun c m q ins => (c.stepped w (q.cmp (c.front q) ins), m)

/-- ICMP (R152). -/
def execIcmp (w : Nat) (s : State) : Host.Outcome State Fault Refusal :=
  s.shader w [0x5C, 0x5D, 0x5E, 0x5F].contains fun c m q ins => (c.stepped w (q.cmp (c.front q) ins), m)

/-- DDX (R155). -/
def execDdx (w : Nat) (s : State) : Host.Outcome State Fault Refusal :=
  s.shader w [0x60].contains fun c m q ins => (c.stepped w (q.ddxy (c.front q) false ins), m)

/-- DDY (R155). -/
def execDdy (w : Nat) (s : State) : Host.Outcome State Fault Refusal :=
  s.shader w [0x61].contains fun c m q ins => (c.stepped w (q.ddxy (c.front q) true ins), m)

/-- PLOP (R152). -/
def execPlop (w : Nat) (s : State) : Host.Outcome State Fault Refusal :=
  s.shader w [0x62].contains fun c m q ins => (c.stepped w (q.plop ins), m)

/-- BR (R156). -/
def execBr (w : Nat) (s : State) : Host.Outcome State Fault Refusal :=
  s.shader w [0x68].contains fun c m q ins => (c.setWave w (q.br ins), m)

/-- KILL (R157). -/
def execKill (w : Nat) (s : State) : Host.Outcome State Fault Refusal :=
  s.shader w [0x79].contains fun c m q ins => (c.stepped w (q.kill ins), m)

/-- SHADER_OUT (R158, R159). -/
def execShaderOut (w : Nat) (s : State) : Host.Outcome State Fault Refusal :=
  s.shader w [0x78].contains fun c m q ins => (c.stepped w (q.out ins), m)

/-! ### Loads (R158) -/

/-- The lanes that run an instruction. -/
def GWave.running (q : GWave) (ins : Nat) : List Nat := (List.range 64).filter fun l => q.runs ins l

/-- The owner of a wave's job. -/
def Chip.waveOwner (c : Chip) (q : GWave) : Nat := match c.job q.ctx with | some j => j.own | none => 0

/-- Read the ranges a load touches; a load that meets an uncorrectable error ends the job (R256). -/
def Chip.loads (c : Chip) (m : Mems) (q : GWave) (spans : List (Nat × Nat)) (f : Chip → Memory → Chip) : Chip × Mems :=
  let mem := c.gpuSees (c.waveOwner q) m.dram
  let g := c.gpuReads mem (c.waveOwner q) spans
  if g.1 then (f g.2 mem, m) else g.2.jobEnd m q.ctx 0x3E none

/-- The same through the texture unit of the wave's core. -/
def Chip.texLoads (c : Chip) (m : Mems) (q : GWave) (spans : List (Nat × Nat)) (f : Chip → Memory → Chip) : Chip × Mems :=
  let mem := c.texSees q.core (c.waveOwner q) m.dram
  let g := c.texReads mem q.core (c.waveOwner q) spans
  if g.1 then (f g.2 mem, m) else g.2.jobEnd m q.ctx 0x3E none

/-- The draw state of a wave. -/
def Chip.waveState (c : Chip) (q : GWave) : GState := match c.job q.ctx with | some j => j.state q.st | none => {}

/-- LDC (R158). -/
def execLdc (w : Nat) (s : State) : Host.Outcome State Fault Refusal :=
  s.shader w [0x70].contains fun c m q ins =>
    let slot := (c.waveState q).consts.find? (4 * b2n q.frag + bits (Ins.md ins) 0 2)
    let n := 2 * (bits (Ins.md ins) 2 3 + 1)
    let spans := match slot with
      | none => []
      | some (a, size) => (q.running ins).filterMap fun l =>
        let o := (Ins.imm ins + q.source (c.front q) false false ins l 0) / 2 * 2
        if o < size then some (a + o, min n (size - o)) else none
    c.loads m q spans fun c mem => c.stepped w (q.ldc (c.front q) mem slot ins)

/-- ATTR (R111, R158). -/
def execAttr (w : Nat) (s : State) : Host.Outcome State Fault Refusal :=
  s.shader w [0x71].contains fun c m q ins =>
    let st := c.waveState q
    let a := Ins.imm ins % 16
    let wide := (Ins.imm ins).testBit 4
    let spans := (q.running ins).filterMap fun l =>
      (st.vattr.find? a).bind fun v => (attrAt st v (q.lane? l).b (q.lane? l).i).map fun p => (p, VAttr.bytes v)
    c.loads m q spans fun c mem => c.stepped w (q.eachLane ins fun r l =>
      r.put4 wide l (Ins.dst ins) (attrLoad mem st a wide (q.lane? l).b (q.lane? l).i))

/-- Component `i` of varying vector `n` of a vertex, as its registers hold it (R159). -/
def GVert.raw (v : GVert) (n i : Nat) (wide : Bool) : Nat :=
  let h := fun k => v.vary.getD (4 * n + k) 0
  if wide then h (2 * i) + 65536 * h (2 * i + 1) else h i

/-- The same as FP32. -/
def GVert.comp (v : GVert) (n i : Nat) (wide : Bool) : Nat := if wide then v.raw n i wide else toFp32 (v.raw n i wide)

/-- VARY (R158). -/
def execVary (w : Nat) (s : State) : Host.Outcome State Fault Refusal :=
  s.shader w [0x72].contains fun c m q ins =>
    let n := Ins.imm ins % 16
    let flat := (Ins.imm ins).testBit 4
    let wide := Ins.wide ins
    let vp := match c.job q.ctx with | some j => viewportOf (j.state q.st) j.area | none => []
    let prims := match c.gcore q.home with | some g => g.list | none => []
    let val := fun (x : GLane) i => match prims[x.i]? with
      | none => 0
      | some p => if flat then (p.verts.getD p.prov {}).raw n i wide
        else
          let v := p.varying vp (samplePoint false x.a x.b 0) fun v => v.comp n i wide
          if wide then v else toFp16 v
    (c.stepped w (q.eachLane ins fun r l => r.putF wide l ins ((List.range 4).map (val (q.lane? l)))), m)

/-- Count what the texture unit of core `k` delivered: bilinear results, error blocks. -/
def Chip.texCount (c : Chip) (k results : Nat) (ts : List Texel) : Chip :=
  let sum := fun (g : Texel → Nat) => (ts.map g).foldl (· + ·) 0
  ((c.addSat (R.GFX_TX.BILERP_CNT.COUNT k) results).addSat (R.GFX_TX.ASTC_ERR.COUNT k) (sum (·.astcErr))).addSat (R.GFX_TX.NFR_BAD.COUNT k) (sum (·.nfrBad))

/-- The level of detail a TEX asks for in a lane, in 1/256, and whether LOD_BIAS applies (R138, R158). -/
def GWave.lod (q : GWave) (front : Nat → Bool) (d : List Byte) (ins l : Nat) : Int × Bool :=
  let im := Ins.imm ins
  let w32 := im.testBit 8
  let f := if w32 then fp32 else fp16
  let md := bits im 9 2
  if md = 2 then (lodOf fp16 (q.source front false true ins l 2), false)
  else
    let dd := fun y j => q.quadDiff front f w32 y ins l j
    let base := implicitLod f d (dd false 0, dd false 1) (dd true 0, dd true 1)
    (base + (if md = 1 then lodOf fp16 (q.source front false true ins l 2) else 0), true)

/-- TEX (R137, R138, R158). -/
def execTex (w : Nat) (s : State) : Host.Outcome State Fault Refusal :=
  s.shader w [0x73].contains fun c m q ins =>
    let st := c.waveState q
    let im := Ins.imm ins
    let front := c.front q
    match st.textures.find? (16 * b2n q.frag + im % 16) with
    | none => (c.stepped w (q.eachLane ins fun r l => r.putF false l ins [0, 0, 0, fp16.one]), m)
    | some d =>
      let smp := st.samplers.getD (16 * b2n q.frag + bits im 4 4) samplerReset
      let w32 := im.testBit 8
      let f := if w32 then fp32 else fp16
      let taps := fun l =>
        let lod := q.lod front d ins l
        sampleTaps d smp f (q.source front w32 true ins l 0) (q.source front w32 true ins l 1) lod.1 lod.2
      let ls := (q.running ins).map fun l => (l, taps l)
      let res := fun (mem : Memory) => ls.map fun x => (x.1, filterTexels mem d smp x.2.1)
      let n := (ls.map fun x => 1 + b2n x.2.2).foldl (· + ·) 0
      c.texLoads m q (ls.flatMap fun x => tapSpans d x.2.1) fun c mem =>
        (c.texCount q.core n ((res mem).map fun x => x.2)).stepped w
          ((res mem).foldl (fun (r : GWave) x => r.putF false x.1 ins x.2.px) q)

/-- TEXF (R158). -/
def execTexf (w : Nat) (s : State) : Host.Outcome State Fault Refusal :=
  s.shader w [0x74].contains fun c m q ins =>
    let front := c.front q
    match (c.waveState q).textures.find? (16 * b2n q.frag + Ins.imm ins % 16) with
    | none => (c.stepped w (q.eachLane ins fun r l => r.putF false l ins [0, 0, 0, 0]), m)
    | some d =>
      let g := fun l j => sext 16 (q.source front false false ins l j)
      let ls := (q.running ins).map fun l => (l, fetchTap d (g l 0) (g l 1) (g l 2))
      let res := fun (mem : Memory) => ls.map fun x => (x.1, fetchTexel mem d x.2)
      c.texLoads m q (ls.flatMap fun x => tapSpans d x.2.toList) fun c mem =>
        (c.texCount q.core 0 ((res mem).map fun x => x.2)).stepped w ((res mem).foldl (fun (r : GWave) x => r.putF false x.1 ins x.2.px) q)

/-! ### END (R156, R157) -/

/-- The outputs of a lane, counted from 0. -/
def GWave.laneOuts (q : GWave) (l : Nat) : SMap Nat :=
  (q.outs.filter fun x => x.1 / 512 == l).map fun x => (x.1 % 512, x.2)

/-- The vertex a lane has made (R112, R159). -/
def GWave.vertex (q : GWave) (l : Nat) : GVert :=
  let o := q.laneOuts l
  { pos := if (o.find? 0).isSome then some ((List.range 4).map fun i => o.getD (2 * i) 0 + 65536 * o.getD (2 * i + 1) 0) else none,
    vary := (o.filter fun x => decide (128 ≤ x.1)).map fun x => (x.1 - 128, x.2), psize := o.find? 8 }

/-- A vertex wave ends: its vertices are transformed; after the last of the draw, its primitives are binned. -/
def Chip.batchEnd (c : Chip) (m : Mems) (q : GWave) : Chip × Mems :=
  match c.job q.ctx with
  | none => (c, m)
  | some j =>
    match j.draw with
    | none => (c, m)
    | some d =>
      let done := (List.range q.lanes.length).foldl (fun (r : SMap GVert) l =>
        if q.active.testBit l then SMap.insert r (q.lane? l).a (q.vertex l) else r) d.done
      let more := c.gfx.waves.any fun w => w.2.ctx == q.ctx && !w.2.frag
      let d := { d with done := done }
      let d := if !more ∧ d.shade.length ≤ d.sent then { d with left := some (assemble (j.state d.st).prim d) } else d
      (c.setJob q.ctx { j with draw := some d }).binGo m q.ctx

/-- A fragment wave ends: its fragments wait at the owner core's blend unit (R136). -/
def Chip.shadeEnd (c : Chip) (q : GWave) : Chip :=
  match c.gcore q.home with
  | none => c
  | some g =>
    let frag := fun l =>
      let x := q.lane? l
      ({ x := x.a, y := x.b, i := x.i, ord := x.ord, mask := x.mask, killed := q.killed.testBit l, pass := x.pass, early := x.early,
         outs := q.laneOuts l : GFrag })
    let ls := (List.range q.lanes.length).filter fun l => !q.helper.testBit l
    let g := { g with frags := g.frags ++ ls.map frag }
    ((c.addSat (R.GFX_SC.QUAD_CNT.COUNT q.core) (q.lanes.length / 4)).setCore q.home g).launch q.home (launchFuel g)

/-- SHADER_END (R156): the wave ends. -/
def execShaderEnd (w : Nat) (s : State) : Host.Outcome State Fault Refusal :=
  s.shader w [0x7F].contains fun c m q _ =>
    let c := { c with gfx := { c.gfx with waves := SMap.erase c.gfx.waves w } }
    if q.frag then (c.shadeEnd q, m) else c.batchEnd m q

end Sys2Proof.Machine
end

