-- ==== Sys2Proof/Machine/Dispatch.lean ====
section
/-! DEFINITION. One arm per command: the command's meaning, or a rejection by name. -/

namespace Sys2Proof.Machine

/-- The effect of a command on everything but the queue. -/
def exec (i : Instr) (s : State) : Host.Outcome State Fault Refusal :=
  match i with
  | .regWrite src page off data => Sys2Proof.Machine.execRegWrite src page off data s
  | .pageErrClear src page data => Sys2Proof.Machine.execPageErrClear src page data s
  | .irqStatClear src page data => Sys2Proof.Machine.execIrqStatClear src page data s
  | .ctrlEnable src page en => Sys2Proof.Machine.execCtrlEnable src page en s
  | .ctrlReset src page => Sys2Proof.Machine.execCtrlReset src page s
  | .claimWrite src page data => Sys2Proof.Machine.execClaimWrite src page data s
  | .commitGo src page => Sys2Proof.Machine.execCommitGo src page s
  | .commitDiscard src page => Sys2Proof.Machine.execCommitDiscard src page s
  | .commitValidationEnd page => Sys2Proof.Machine.execCommitValidationEnd page s
  | .commitLatch page => Sys2Proof.Machine.execCommitLatch page s
  | .modeReqVigil src => Sys2Proof.Machine.execModeReqVigil src s
  | .modeReqDegraded src => Sys2Proof.Machine.execModeReqDegraded src s
  | .modeReqRun src => Sys2Proof.Machine.execModeReqRun src s
  | .modeReqService src level => Sys2Proof.Machine.execModeReqService src level s
  | .modeReqOther src target => Sys2Proof.Machine.execModeReqOther src target s
  | .islandDegradeReq src => Sys2Proof.Machine.execIslandDegradeReq src s
  | .islandAgreeRun src => Sys2Proof.Machine.execIslandAgreeRun src s
  | .agreeExpired => Sys2Proof.Machine.execAgreeExpired s
  | .wakeRise vinValid => Sys2Proof.Machine.execWakeRise vinValid s
  | .vinRecovery fell => Sys2Proof.Machine.execVinRecovery fell s
  | .powerUpSequence bootsel devid serviceEn ovg => Sys2Proof.Machine.execPowerUpSequence bootsel devid serviceEn ovg s
  | .railStepTimeout step rail => Sys2Proof.Machine.execRailStepTimeout step rail s
  | .islandImageLoaded found tableA tableB copyA copyB => Sys2Proof.Machine.execIslandImageLoaded found tableA tableB copyA copyB s
  | .earlyRetry n => Sys2Proof.Machine.execEarlyRetry n s
  | .ccImageLoaded copyA copyB sram => Sys2Proof.Machine.execCcImageLoaded copyA copyB sram s
  | .bootReady src => Sys2Proof.Machine.execBootReady src s
  | .recoveryLoad src => Sys2Proof.Machine.execRecoveryLoad src s
  | .perstnDeassert port => Sys2Proof.Machine.execPerstnDeassert port s
  | .pciePortReady port width speed => Sys2Proof.Machine.execPciePortReady port width speed s
  | .perstnAssert port => Sys2Proof.Machine.execPerstnAssert port s
  | .vigilEntryDone => Sys2Proof.Machine.execVigilEntryDone s
  | .vigilWake digest vector => Sys2Proof.Machine.execVigilWake digest vector s
  | .vigilTimeout => Sys2Proof.Machine.execVigilTimeout s
  | .sysRstn => Sys2Proof.Machine.execSysRstn s
  | .thermalShutdown idx tj => Sys2Proof.Machine.execThermalShutdown idx tj s
  | .thermalThrottle idx t => Sys2Proof.Machine.execThermalThrottle idx t s
  | .throttleStep t => Sys2Proof.Machine.execThrottleStep t s
  | .thermalRelease field temps => Sys2Proof.Machine.execThermalRelease field temps s
  | .policyLoopStep n want => Sys2Proof.Machine.execPolicyLoopStep n want s
  | .pdPowerOn src d => Sys2Proof.Machine.execPdPowerOn src d s
  | .pdPowerOff src d => Sys2Proof.Machine.execPdPowerOff src d s
  | .pdPowerOnDone d => Sys2Proof.Machine.execPdPowerOnDone d s
  | .quiesceDone => Sys2Proof.Machine.execQuiesceDone s
  | .quiesceRefused => Sys2Proof.Machine.execQuiesceRefused s
  | .bridgeFrameRx ok => Sys2Proof.Machine.execBridgeFrameRx ok s
  | .bridgeDown => Sys2Proof.Machine.execBridgeDown s
  | .bridgeRetrained => Sys2Proof.Machine.execBridgeRetrained s
  | .ledgerLineAdvance => Sys2Proof.Machine.execLedgerLineAdvance s
  | .lockLost out => Sys2Proof.Machine.execLockLost out s
  | .lockAcquired out => Sys2Proof.Machine.execLockAcquired out s
  | .snapTake src => Sys2Proof.Machine.execSnapTake src s
  | .slotArm src slot data => Sys2Proof.Machine.execSlotArm src slot data s
  | .slotDisarm src slot data => Sys2Proof.Machine.execSlotDisarm src slot data s
  | .slotFire k => Sys2Proof.Machine.execSlotFire k s
  | .touchWindowClose n => Sys2Proof.Machine.execTouchWindowClose n s
  | .retrainStepDone k ok => Sys2Proof.Machine.execRetrainStepDone k ok s
  | .linkSyncRx frame ns err matching => Sys2Proof.Machine.execLinkSyncRx frame ns err matching s
  | .linkHoldover => Sys2Proof.Machine.execLinkHoldover s
  | .syncErrRead => Sys2Proof.Machine.execSyncErrRead s
  | .viBind src vi data => Sys2Proof.Machine.execViBind src vi data s
  | .vfEnableSet port numVfs => Sys2Proof.Machine.execVfEnableSet port numVfs s
  | .flr port func => Sys2Proof.Machine.execFlr port func s
  | .hostLinkDown port => Sys2Proof.Machine.execHostLinkDown port s
  | .instanceReset src vi => Sys2Proof.Machine.execInstanceReset src vi s
  | .instanceResetDone vi => Sys2Proof.Machine.execInstanceResetDone vi s
  | .shareWrite src vi off data => Sys2Proof.Machine.execShareWrite src vi off data s
  | .shareApply vi kind => Sys2Proof.Machine.execShareApply vi kind s
  | .windowWrite src vi off data => Sys2Proof.Machine.execWindowWrite src vi off data s
  | .routeWrite src n idx data => Sys2Proof.Machine.execRouteWrite src n idx data s
  | .ringBind src r data => Sys2Proof.Machine.execRingBind src r data s
  | .ringRemove src r => Sys2Proof.Machine.execRingRemove src r s
  | .ringEnable src r => Sys2Proof.Machine.execRingEnable src r s
  | .ringDisable src r => Sys2Proof.Machine.execRingDisable src r s
  | .sqDb src r t => Sys2Proof.Machine.execSqDb src r t s
  | .cqDb src r h => Sys2Proof.Machine.execCqDb src r h s
  | .selWrite src r data => Sys2Proof.Machine.execSelWrite src r data s
  | .ringFetch r data ok => Sys2Proof.Machine.execRingFetch r data ok s
  | .entryIssue cls => Sys2Proof.Machine.execEntryIssue cls s
  | .fenceTimeout r => Sys2Proof.Machine.execFenceTimeout r s
  | .completionRetire r => Sys2Proof.Machine.execCompletionRetire r s
  | .eventPost r => Sys2Proof.Machine.execEventPost r s
  | .cqStallExpiry r => Sys2Proof.Machine.execCqStallExpiry r s
  | .gfxNop r => Sys2Proof.Machine.execGfxNop r s
  | .gfxJob r => Sys2Proof.Machine.execGfxJob r s
  | .binChunks r => Sys2Proof.Machine.execBinChunks r s
  | .poolFlush src p => Sys2Proof.Machine.execPoolFlush src p s
  | .binGrowWaitExpiry j => Sys2Proof.Machine.execBinGrowWaitExpiry j s
  | .partialRenderDone j => Sys2Proof.Machine.execPartialRenderDone j s
  | .tileBoundary k => Sys2Proof.Machine.execTileBoundary k s
  | .fragmentRetire k => Sys2Proof.Machine.execFragmentRetire k s
  | .jobComplete j => Sys2Proof.Machine.execJobComplete j s
  | .pktNop j => Sys2Proof.Machine.execPktNop j s
  | .pktEnd j => Sys2Proof.Machine.execPktEnd j s
  | .pktCall j => Sys2Proof.Machine.execPktCall j s
  | .pktVprog j => Sys2Proof.Machine.execPktVprog j s
  | .pktFprog j => Sys2Proof.Machine.execPktFprog j s
  | .pktConsts j => Sys2Proof.Machine.execPktConsts j s
  | .pktVbuf j => Sys2Proof.Machine.execPktVbuf j s
  | .pktVattr j => Sys2Proof.Machine.execPktVattr j s
  | .pktIbuf j => Sys2Proof.Machine.execPktIbuf j s
  | .pktPrim j => Sys2Proof.Machine.execPktPrim j s
  | .pktViewport j => Sys2Proof.Machine.execPktViewport j s
  | .pktScissor j => Sys2Proof.Machine.execPktScissor j s
  | .pktDepth j => Sys2Proof.Machine.execPktDepth j s
  | .pktStencil j => Sys2Proof.Machine.execPktStencil j s
  | .pktBlend j => Sys2Proof.Machine.execPktBlend j s
  | .pktBlendConst j => Sys2Proof.Machine.execPktBlendConst j s
  | .pktClearColor j => Sys2Proof.Machine.execPktClearColor j s
  | .pktClearDs j => Sys2Proof.Machine.execPktClearDs j s
  | .pktTexture j => Sys2Proof.Machine.execPktTexture j s
  | .pktSampler j => Sys2Proof.Machine.execPktSampler j s
  | .pktSampleMask j => Sys2Proof.Machine.execPktSampleMask j s
  | .pktDraw j => Sys2Proof.Machine.execPktDraw j s
  | .pktDrawIndexed j => Sys2Proof.Machine.execPktDrawIndexed j s
  | .programLoad core j st stage => Sys2Proof.Machine.execProgramLoad core j st stage s
  | .shaderNop w => Sys2Proof.Machine.execShaderNop w s
  | .mov w => Sys2Proof.Machine.execMov w s
  | .sel w => Sys2Proof.Machine.execSel w s
  | .fadd w => Sys2Proof.Machine.execFadd w s
  | .fmul w => Sys2Proof.Machine.execFmul w s
  | .ffma w => Sys2Proof.Machine.execFfma w s
  | .fmin w => Sys2Proof.Machine.execFmin w s
  | .fmax w => Sys2Proof.Machine.execFmax w s
  | .ffloor w => Sys2Proof.Machine.execFfloor w s
  | .ffract w => Sys2Proof.Machine.execFfract w s
  | .frcp w => Sys2Proof.Machine.execFrcp w s
  | .frsq w => Sys2Proof.Machine.execFrsq w s
  | .fsqrt w => Sys2Proof.Machine.execFsqrt w s
  | .fexp2 w => Sys2Proof.Machine.execFexp2 w s
  | .flog2 w => Sys2Proof.Machine.execFlog2 w s
  | .fsin w => Sys2Proof.Machine.execFsin w s
  | .fcos w => Sys2Proof.Machine.execFcos w s
  | .iadd w => Sys2Proof.Machine.execIadd w s
  | .isub w => Sys2Proof.Machine.execIsub w s
  | .imul w => Sys2Proof.Machine.execImul w s
  | .imad w => Sys2Proof.Machine.execImad w s
  | .imin w => Sys2Proof.Machine.execImin w s
  | .imax w => Sys2Proof.Machine.execImax w s
  | .umin w => Sys2Proof.Machine.execUmin w s
  | .umax w => Sys2Proof.Machine.execUmax w s
  | .and w => Sys2Proof.Machine.execAnd w s
  | .or w => Sys2Proof.Machine.execOr w s
  | .xor w => Sys2Proof.Machine.execXor w s
  | .not w => Sys2Proof.Machine.execNot w s
  | .shl w => Sys2Proof.Machine.execShl w s
  | .shr w => Sys2Proof.Machine.execShr w s
  | .asr w => Sys2Proof.Machine.execAsr w s
  | .f16tof32 w => Sys2Proof.Machine.execF16tof32 w s
  | .f32tof16 w => Sys2Proof.Machine.execF32tof16 w s
  | .i16tof16 w => Sys2Proof.Machine.execI16tof16 w s
  | .u16tof16 w => Sys2Proof.Machine.execU16tof16 w s
  | .f16toi16 w => Sys2Proof.Machine.execF16toi16 w s
  | .f16tou16 w => Sys2Proof.Machine.execF16tou16 w s
  | .i32tof32 w => Sys2Proof.Machine.execI32tof32 w s
  | .f32toi32 w => Sys2Proof.Machine.execF32toi32 w s
  | .i16toi32 w => Sys2Proof.Machine.execI16toi32 w s
  | .i32toi16 w => Sys2Proof.Machine.execI32toi16 w s
  | .fcmp w => Sys2Proof.Machine.execFcmp w s
  | .icmp w => Sys2Proof.Machine.execIcmp w s
  | .ddx w => Sys2Proof.Machine.execDdx w s
  | .ddy w => Sys2Proof.Machine.execDdy w s
  | .plop w => Sys2Proof.Machine.execPlop w s
  | .br w => Sys2Proof.Machine.execBr w s
  | .ldc w => Sys2Proof.Machine.execLdc w s
  | .attr w => Sys2Proof.Machine.execAttr w s
  | .vary w => Sys2Proof.Machine.execVary w s
  | .tex w => Sys2Proof.Machine.execTex w s
  | .texf w => Sys2Proof.Machine.execTexf w s
  | .shaderOut w => Sys2Proof.Machine.execShaderOut w s
  | .kill w => Sys2Proof.Machine.execKill w s
  | .shaderEnd w => Sys2Proof.Machine.execShaderEnd w s
  | .cmpNop r => Sys2Proof.Machine.execCmpNop r s
  | .layer r => Sys2Proof.Machine.execLayer r s
  | .cmpCommit r => Sys2Proof.Machine.execCmpCommit r s
  | .sliceStart n => Sys2Proof.Machine.execSliceStart n s
  | .lineCompose n => Sys2Proof.Machine.execLineCompose n s
  | .layerFetchError u row => Sys2Proof.Machine.execLayerFetchError u row s
  | .timingGenStop n => Sys2Proof.Machine.execTimingGenStop n s
  | .outputLineStart n => Sys2Proof.Machine.execOutputLineStart n s
  | .wmEffAdjust n => Sys2Proof.Machine.execWmEffAdjust n s
  | .urRearm src n => Sys2Proof.Machine.execUrRearm src n s
  | .linkTraining sink => Sys2Proof.Machine.execLinkTraining sink s
  | .linkTrainingEnd n err cr eq drive => Sys2Proof.Machine.execLinkTrainingEnd n err cr eq drive s
  | .hpdConnect n => Sys2Proof.Machine.execHpdConnect n s
  | .irqHpd n lost => Sys2Proof.Machine.execIrqHpd n lost s
  | .hpdLoss n => Sys2Proof.Machine.execHpdLoss n s
  | .laneShort n lane => Sys2Proof.Machine.execLaneShort n lane s
  | .lvdsOpenCheck n opens => Sys2Proof.Machine.execLvdsOpenCheck n opens s
  | .laneTest src n => Sys2Proof.Machine.execLaneTest src n s
  | .laneTestDone n shorts opens => Sys2Proof.Machine.execLaneTestDone n shorts opens s
  | .auxNativeWrite src n data => Sys2Proof.Machine.execAuxNativeWrite src n data s
  | .auxNativeRead src n data => Sys2Proof.Machine.execAuxNativeRead src n data s
  | .auxI2cWrite src n mot data => Sys2Proof.Machine.execAuxI2cWrite src n mot data s
  | .auxI2cRead src n mot data => Sys2Proof.Machine.execAuxI2cRead src n mot data s
  | .auxReply n reply data => Sys2Proof.Machine.execAuxReply n reply data s
  | .auxTimeout n => Sys2Proof.Machine.execAuxTimeout n s
  | .backlightEnable n => Sys2Proof.Machine.execBacklightEnable n s
  | .islandFaultReset src cause => Sys2Proof.Machine.execIslandFaultReset src cause s
  | .islandReloadDone images => Sys2Proof.Machine.execIslandReloadDone images s
  | .sramScrub single double => Sys2Proof.Machine.execSramScrub single double s
  | .planeSwap src n => Sys2Proof.Machine.execPlaneSwap src n s
  | .planeCancel src n => Sys2Proof.Machine.execPlaneCancel src n s
  | .pipeDegrWrite src data => Sys2Proof.Machine.execPipeDegrWrite src data s
  | .wdogArm src data => Sys2Proof.Machine.execWdogArm src data s
  | .wdogSelfArm => Sys2Proof.Machine.execWdogSelfArm s
  | .wdogKick src data => Sys2Proof.Machine.execWdogKick src data s
  | .wdogExpiry => Sys2Proof.Machine.execWdogExpiry s
  | .clockMonitorWindow isl cmp ref => Sys2Proof.Machine.execClockMonitorWindow isl cmp ref s
  | .safeOkEnable src data => Sys2Proof.Machine.execSafeOkEnable src data s
  | .lkAcq src r data => Sys2Proof.Machine.execLkAcq src r data s
  | .lkRel src r data => Sys2Proof.Machine.execLkRel src r data s
  | .lkCancel src r data => Sys2Proof.Machine.execLkCancel src r data s
  | .holdExpired k => Sys2Proof.Machine.execHoldExpired k s
  | .progressStall cls => Sys2Proof.Machine.execProgressStall cls s
  | .arbSnap src data => Sys2Proof.Machine.execArbSnap src data s
  | .arbClear src data => Sys2Proof.Machine.execArbClear src data s
  | .dramRequestAdmit port who write off len rest => Sys2Proof.Machine.execDramRequestAdmit port who write off len rest s
  | .dramColumnIssue k iso busy link => Sys2Proof.Machine.execDramColumnIssue k iso busy link s
  | .refreshDebtTick k => Sys2Proof.Machine.execRefreshDebtTick k s
  | .mr4Poll k rate temp => Sys2Proof.Machine.execMr4Poll k rate temp s
  | .srIdleExpiry k => Sys2Proof.Machine.execSrIdleExpiry k s
  | .trainGo src => Sys2Proof.Machine.execTrainGo src s
  | .trainDone failed unitPs => Sys2Proof.Machine.execTrainDone failed unitPs s
  | .eccRegionEnable src k data => Sys2Proof.Machine.execEccRegionEnable src k data s
  | .eccInitDone k => Sys2Proof.Machine.execEccInitDone k s
  | .dmaNop r => Sys2Proof.Machine.execDmaNop r s
  | .copy r => Sys2Proof.Machine.execCopy r s
  | .fill r => Sys2Proof.Machine.execFill r s
  | .compare r => Sys2Proof.Machine.execCompare r s
  | .dmaStop r => Sys2Proof.Machine.execDmaStop r s
  | .chStop src k => Sys2Proof.Machine.execChStop src k s
  | .descriptorStart k => Sys2Proof.Machine.execDescriptorStart k s
  | .dmaBurstIssue burst => Sys2Proof.Machine.execDmaBurstIssue burst s
  | .descriptorComplete k => Sys2Proof.Machine.execDescriptorComplete k s
  | .gate k rd imm target pc priv delegated => Sys2Proof.Machine.execGate k rd imm target pc priv delegated s
  | .gret k rd imm target pc priv delegated => Sys2Proof.Machine.execGret k rd imm target pc priv delegated s
  | .wstat k rd rs1 imm pc priv delegated => Sys2Proof.Machine.execWstat k rd rs1 imm pc priv delegated s
  | .gmark k rd rs1 imm pc priv delegated => Sys2Proof.Machine.execGmark k rd rs1 imm pc priv delegated s
  | .secureInterrupt k pc priv enabled => Sys2Proof.Machine.execSecureInterrupt k pc priv enabled s
  | .claimBlockSet src block => Sys2Proof.Machine.execClaimBlockSet src block s
  | .claimBlockClear src block => Sys2Proof.Machine.execClaimBlockClear src block s
  | .authFail src => Sys2Proof.Machine.execAuthFail src s
  | .wdKick src data => Sys2Proof.Machine.execWdKick src data s
  | .wdWarn => Sys2Proof.Machine.execWdWarn s
  | .secureWdogExpiry => Sys2Proof.Machine.execSecureWdogExpiry s
  | .ccRelease src release => Sys2Proof.Machine.execCcRelease src release s
  | .ccReset src mask => Sys2Proof.Machine.execCcReset src mask s
  | .rollbackAdvance src cc => Sys2Proof.Machine.execRollbackAdvance src cc s
  | .tchNop r => Sys2Proof.Machine.execTchNop r s
  | .subscribe r => Sys2Proof.Machine.execSubscribe r s
  | .loadRef r => Sys2Proof.Machine.execLoadRef r s
  | .recal r => Sys2Proof.Machine.execRecal r s
  | .tchSelfTest r => Sys2Proof.Machine.execTchSelfTest r s
  | .selfTestDone n levels pairs opn self => Sys2Proof.Machine.execSelfTestDone n levels pairs opn self s
  | .raw r => Sys2Proof.Machine.execRaw r s
  | .scanFrameStart n => Sys2Proof.Machine.execScanFrameStart n s
  | .scanFrameEnd n nodes lines => Sys2Proof.Machine.execScanFrameEnd n nodes lines s
  | .stuckTouch n k => Sys2Proof.Machine.execStuckTouch n k s
  | .touchCurrentLimit n line => Sys2Proof.Machine.execTouchCurrentLimit n line s
  | .hapNop r => Sys2Proof.Machine.execHapNop r s
  | .play r => Sys2Proof.Machine.execPlay r s
  | .hapStop r => Sys2Proof.Machine.execHapStop r s
  | .loadEffect r => Sys2Proof.Machine.execLoadEffect r s
  | .effectSlotSwap slot => Sys2Proof.Machine.execEffectSlotSwap slot s
  | .hapTest r => Sys2Proof.Machine.execHapTest r s
  | .hapTestDone gnd vin pair opn lobe => Sys2Proof.Machine.execHapTestDone gnd vin pair opn lobe s
  | .readEffect r => Sys2Proof.Machine.execReadEffect r s
  | .islPlay src data => Sys2Proof.Machine.execIslPlay src data s
  | .actuatorDelayExpiry k => Sys2Proof.Machine.execActuatorDelayExpiry k s
  | .halfCycleBoundary k => Sys2Proof.Machine.execHalfCycleBoundary k s
  | .hapThermalStep => Sys2Proof.Machine.execHapThermalStep s
  | .actuatorOvercurrent k high => Sys2Proof.Machine.execActuatorOvercurrent k high s
  | .boostRailCheck volts => Sys2Proof.Machine.execBoostRailCheck volts s
  | .audNop r => Sys2Proof.Machine.execAudNop r s
  | .buffer r => Sys2Proof.Machine.execBuffer r s
  | .capture r => Sys2Proof.Machine.execCapture r s
  | .chime r => Sys2Proof.Machine.execChime r s
  | .islChime src data => Sys2Proof.Machine.execIslChime src data s
  | .audioSample tdm mic host => Sys2Proof.Machine.execAudioSample tdm mic host s
  | .chimeSegmentEnd t => Sys2Proof.Machine.execChimeSegmentEnd t s
  | .zcTimeout idx b => Sys2Proof.Machine.execZcTimeout idx b s
  | .duckHoldExpiry b => Sys2Proof.Machine.execDuckHoldExpiry b s
  | .silenceDetect idx => Sys2Proof.Machine.execSilenceDetect idx s
  | .ampPowerDown a => Sys2Proof.Machine.execAmpPowerDown a s
  | .eqCoefWrite src b k j data => Sys2Proof.Machine.execEqCoefWrite src b k j data s
  | .ampTest src a => Sys2Proof.Machine.execAmpTest src a s
  | .speakerOvercurrent a high => Sys2Proof.Machine.execSpeakerOvercurrent a high s
  | .eventAdmit => Sys2Proof.Machine.execEventAdmit s
  | .recordCommit ok1 ok2 => Sys2Proof.Machine.execRecordCommit ok1 ok2 s
  | .caskLocate => Sys2Proof.Machine.execCaskLocate s
  | .caskLocateDone answers slotsLog2 gaps => Sys2Proof.Machine.execCaskLocateDone answers slotsLog2 gaps s
  | .caskFreeze src data => Sys2Proof.Machine.execCaskFreeze src data s
  | .freezeTimeout => Sys2Proof.Machine.execFreezeTimeout s
  | .caskRead src data => Sys2Proof.Machine.execCaskRead src data s
  | .caskClear src data => Sys2Proof.Machine.execCaskClear src data s
  | .logEvent src data => Sys2Proof.Machine.execLogEvent src data s
  | .rtcSet src => Sys2Proof.Machine.execRtcSet src s
  | .rtcFracRead src => Sys2Proof.Machine.execRtcFracRead src s
  | .rtcAlarm => Sys2Proof.Machine.execRtcAlarm s
  | .tempPeakRead src idx => Sys2Proof.Machine.execTempPeakRead src idx s
  | .linkPortEnable src port data => Sys2Proof.Machine.execLinkPortEnable src port data s
  | .linkPortUp port lanes rate => Sys2Proof.Machine.execLinkPortUp port lanes rate s
  | .linkRetrainTimer port => Sys2Proof.Machine.execLinkRetrainTimer port s
  | .hello port dev reach hop d0 direct dup base size => Sys2Proof.Machine.execHello port dev reach hop d0 direct dup base size s
  | .hapTrig dev tf z eff prio => Sys2Proof.Machine.execHapTrig dev tf z eff prio s
  | .tchEvt dev e => Sys2Proof.Machine.execTchEvt dev e s
  | .layerRd dev tag a n => Sys2Proof.Machine.execLayerRd dev tag a n s
  | .layerData tag ok data => Sys2Proof.Machine.execLayerData tag ok data s
  | .rsp dev tag ok data => Sys2Proof.Machine.execRsp dev tag ok data s
  | .regWr dev tag page off data => Sys2Proof.Machine.execRegWr dev tag page off data s
  | .memWr dev tag a data => Sys2Proof.Machine.execMemWr dev tag a data s
  | .regRd dev tag page off size => Sys2Proof.Machine.execRegRd dev tag page off size s
  | .memRd dev tag a n => Sys2Proof.Machine.execMemRd dev tag a n s
  | .linkMsgReserved => Sys2Proof.Machine.execLinkMsgReserved s
  | .remoteWindowAccess k write a n data pc priv delegated => Sys2Proof.Machine.execRemoteWindowAccess k write a n data pc priv delegated s
  | .remoteReadTimeout tag => Sys2Proof.Machine.execRemoteReadTimeout tag s
  | .linkLoss port silent events => Sys2Proof.Machine.execLinkLoss port silent events s
  | .surgeClamp vin => Sys2Proof.Machine.execSurgeClamp vin s
  | .surgeTrip vin => Sys2Proof.Machine.execSurgeTrip vin s
  | .reverseCurrent vin vsys => Sys2Proof.Machine.execReverseCurrent vin vsys s
  | .railFault rail vin => Sys2Proof.Machine.execRailFault rail vin s
  | .railWarn rail => Sys2Proof.Machine.execRailWarn rail s
  | .inputLoss vin vsys => Sys2Proof.Machine.execInputLoss vin vsys s
  | .pfwDelayExpiry vin vsys => Sys2Proof.Machine.execPfwDelayExpiry vin vsys s
  | .vsysLow vin vsys => Sys2Proof.Machine.execVsysLow vin vsys s
  | .externalPfwn vin => Sys2Proof.Machine.execExternalPfwn vin s
  | .pfwnAssert written => Sys2Proof.Machine.execPfwnAssert written s
  | .safeOkReadback b => Sys2Proof.Machine.execSafeOkReadback b s
  | .vbus5PhaseShed ma => Sys2Proof.Machine.execVbus5PhaseShed ma s
  | .serviceEnFall => Sys2Proof.Machine.execServiceEnFall s
  | .proofLockstep src => Sys2Proof.Machine.execProofLockstep src s
  | .proofWdog src => Sys2Proof.Machine.execProofWdog src s
  | .proofSigPath src arg => Sys2Proof.Machine.execProofSigPath src arg s
  | .proofSafeOk src => Sys2Proof.Machine.execProofSafeOk src s
  | .proofClkmon src => Sys2Proof.Machine.execProofClkmon src s
  | .proofEccIsl src => Sys2Proof.Machine.execProofEccIsl src s
  | .proofEccDram src k => Sys2Proof.Machine.execProofEccDram src k s
  | .proofLanes src => Sys2Proof.Machine.execProofLanes src s
  | .proofTouch src mask => Sys2Proof.Machine.execProofTouch src mask s
  | .proofOutputs src => Sys2Proof.Machine.execProofOutputs src s
  | .proofSupply src => Sys2Proof.Machine.execProofSupply src s
  | .proofTestEnd measured => Sys2Proof.Machine.execProofTestEnd measured s
  | .fabStall src data => Sys2Proof.Machine.execFabStall src data s
  | .dramDelay src data => Sys2Proof.Machine.execDramDelay src data s
  | .backpress src data => Sys2Proof.Machine.execBackpress src data s
  | .wmForce src data => Sys2Proof.Machine.execWmForce src data s
  | .sigInj src data => Sys2Proof.Machine.execSigInj src data s
  | .eccInj src data => Sys2Proof.Machine.execEccInj src data s
  | .tchInj src data => Sys2Proof.Machine.execTchInj src data s
  | .vfEnableClear port => Sys2Proof.Machine.execVfEnableClear port s
  | .wakeGpio => Sys2Proof.Machine.execWakeGpio s
  | .vbatRise => Sys2Proof.Machine.execVbatRise s
  | .coreMemoryAccess k op a n data pc priv delegated => Sys2Proof.Machine.execCoreMemoryAccess k op a n data pc priv delegated s
  | .registerRead src page off size => Sys2Proof.Machine.execRegisterRead src page off size s
  | .ampTestDone a gnd vin pair opn lobe => Sys2Proof.Machine.execAmpTestDone a gnd vin pair opn lobe s
  | .boostRailOvercurrent => Sys2Proof.Machine.execBoostRailOvercurrent s
  | .clampRelease vin => Sys2Proof.Machine.execClampRelease vin s
  | .thermalBootRelease tj => Sys2Proof.Machine.execThermalBootRelease tj s
  | .pfwWakeHoldoffExpiry vin => Sys2Proof.Machine.execPfwWakeHoldoffExpiry vin s
  | .debugHalt k halt => Sys2Proof.Machine.execDebugHalt k halt s
  | .linkLaneFail port => Sys2Proof.Machine.execLinkLaneFail port s
  | .linkCrcError port again => Sys2Proof.Machine.execLinkCrcError port again s
  | .dmaReadCompletion k data ok => Sys2Proof.Machine.execDmaReadCompletion k data ok s

end Sys2Proof.Machine
end

