-- ==== Sys2Proof/Laws/State.lean ====
section
/-! SUPPORT. What the operations over the chip state change: one lemma for each part of the state and each operation. -/

namespace Sys2Proof.Machine

/-! ### Setting a field -/

@[simp] theorem Chip.set_ps (c : Chip) (f : Fld) (v : Nat) : (c.set f v).ps = c.ps := rfl
@[simp] theorem Chip.set_free (c : Chip) (f : Fld) (v : Nat) : (c.set f v).free = c.free := rfl
@[simp] theorem Chip.set_readData (c : Chip) (f : Fld) (v : Nat) : (c.set f v).readData = c.readData := rfl
@[simp] theorem Chip.set_deliveries (c : Chip) (f : Fld) (v : Nat) : (c.set f v).deliveries = c.deliveries := rfl
@[simp] theorem Chip.set_stg (c : Chip) (f : Fld) (v : Nat) : (c.set f v).stg = c.stg := rfl
@[simp] theorem Chip.set_brg (c : Chip) (f : Fld) (v : Nat) : (c.set f v).brg = c.brg := rfl
@[simp] theorem Chip.set_led (c : Chip) (f : Fld) (v : Nat) : (c.set f v).led = c.led := rfl
@[simp] theorem Chip.set_fab (c : Chip) (f : Fld) (v : Nat) : (c.set f v).fab = c.fab := rfl
@[simp] theorem Chip.set_drc (c : Chip) (f : Fld) (v : Nat) : (c.set f v).drc = c.drc := rfl
@[simp] theorem Chip.set_cmp (c : Chip) (f : Fld) (v : Nat) : (c.set f v).cmp = c.cmp := rfl
@[simp] theorem Chip.set_gfx (c : Chip) (f : Fld) (v : Nat) : (c.set f v).gfx = c.gfx := rfl
@[simp] theorem Chip.set_scn (c : Chip) (f : Fld) (v : Nat) : (c.set f v).scn = c.scn := rfl
@[simp] theorem Chip.set_imx (c : Chip) (f : Fld) (v : Nat) : (c.set f v).imx = c.imx := rfl
@[simp] theorem Chip.set_pow (c : Chip) (f : Fld) (v : Nat) : (c.set f v).pow = c.pow := rfl
@[simp] theorem Chip.set_ctl (c : Chip) (f : Fld) (v : Nat) : (c.set f v).ctl = c.ctl := rfl
@[simp] theorem Chip.set_dma (c : Chip) (f : Fld) (v : Nat) : (c.set f v).dma = c.dma := rfl
@[simp] theorem Chip.set_hap (c : Chip) (f : Fld) (v : Nat) : (c.set f v).hap = c.hap := rfl
@[simp] theorem Chip.set_aud (c : Chip) (f : Fld) (v : Nat) : (c.set f v).aud = c.aud := rfl
@[simp] theorem Chip.set_tch (c : Chip) (f : Fld) (v : Nat) : (c.set f v).tch = c.tch := rfl
@[simp] theorem Chip.set_lnk (c : Chip) (f : Fld) (v : Nat) : (c.set f v).lnk = c.lnk := rfl
@[simp] theorem Chip.set_saf (c : Chip) (f : Fld) (v : Nat) : (c.set f v).saf = c.saf := rfl
@[simp] theorem Chip.set_ptb (c : Chip) (f : Fld) (v : Nat) : (c.set f v).ptb = c.ptb := rfl
@[simp] theorem Chip.set_flaws (c : Chip) (f : Fld) (v : Nat) : (c.set f v).flaws = c.flaws := rfl
@[simp] theorem Chip.set_csk (c : Chip) (f : Fld) (v : Nat) : (c.set f v).csk = c.csk := rfl

/-! ### Sending an interrupt -/

/-- Sending an interrupt lengthens the list of deliveries and does nothing else. -/
theorem Chip.deliver_eq (c : Chip) (l : Nat) : c.deliver l = { c with deliveries := (c.deliver l).deliveries } := by
  simp only [Chip.deliver]; split <;> rfl

@[simp] theorem Chip.deliver_rf (c : Chip) (l : Nat) : (c.deliver l).rf = c.rf := by rw [Chip.deliver_eq]
@[simp] theorem Chip.deliver_ps (c : Chip) (l : Nat) : (c.deliver l).ps = c.ps := by rw [Chip.deliver_eq]
@[simp] theorem Chip.deliver_free (c : Chip) (l : Nat) : (c.deliver l).free = c.free := by rw [Chip.deliver_eq]
@[simp] theorem Chip.deliver_readData (c : Chip) (l : Nat) : (c.deliver l).readData = c.readData := by rw [Chip.deliver_eq]
@[simp] theorem Chip.deliver_stg (c : Chip) (l : Nat) : (c.deliver l).stg = c.stg := by rw [Chip.deliver_eq]
@[simp] theorem Chip.deliver_brg (c : Chip) (l : Nat) : (c.deliver l).brg = c.brg := by rw [Chip.deliver_eq]
@[simp] theorem Chip.deliver_led (c : Chip) (l : Nat) : (c.deliver l).led = c.led := by rw [Chip.deliver_eq]
@[simp] theorem Chip.deliver_fab (c : Chip) (l : Nat) : (c.deliver l).fab = c.fab := by rw [Chip.deliver_eq]
@[simp] theorem Chip.deliver_drc (c : Chip) (l : Nat) : (c.deliver l).drc = c.drc := by rw [Chip.deliver_eq]
@[simp] theorem Chip.deliver_cmp (c : Chip) (l : Nat) : (c.deliver l).cmp = c.cmp := by rw [Chip.deliver_eq]
@[simp] theorem Chip.deliver_gfx (c : Chip) (l : Nat) : (c.deliver l).gfx = c.gfx := by rw [Chip.deliver_eq]
@[simp] theorem Chip.deliver_scn (c : Chip) (l : Nat) : (c.deliver l).scn = c.scn := by rw [Chip.deliver_eq]
@[simp] theorem Chip.deliver_imx (c : Chip) (l : Nat) : (c.deliver l).imx = c.imx := by rw [Chip.deliver_eq]
@[simp] theorem Chip.deliver_pow (c : Chip) (l : Nat) : (c.deliver l).pow = c.pow := by rw [Chip.deliver_eq]
@[simp] theorem Chip.deliver_ctl (c : Chip) (l : Nat) : (c.deliver l).ctl = c.ctl := by rw [Chip.deliver_eq]
@[simp] theorem Chip.deliver_dma (c : Chip) (l : Nat) : (c.deliver l).dma = c.dma := by rw [Chip.deliver_eq]
@[simp] theorem Chip.deliver_hap (c : Chip) (l : Nat) : (c.deliver l).hap = c.hap := by rw [Chip.deliver_eq]
@[simp] theorem Chip.deliver_aud (c : Chip) (l : Nat) : (c.deliver l).aud = c.aud := by rw [Chip.deliver_eq]
@[simp] theorem Chip.deliver_tch (c : Chip) (l : Nat) : (c.deliver l).tch = c.tch := by rw [Chip.deliver_eq]
@[simp] theorem Chip.deliver_lnk (c : Chip) (l : Nat) : (c.deliver l).lnk = c.lnk := by rw [Chip.deliver_eq]
@[simp] theorem Chip.deliver_saf (c : Chip) (l : Nat) : (c.deliver l).saf = c.saf := by rw [Chip.deliver_eq]
@[simp] theorem Chip.deliver_ptb (c : Chip) (l : Nat) : (c.deliver l).ptb = c.ptb := by rw [Chip.deliver_eq]
@[simp] theorem Chip.deliver_flaws (c : Chip) (l : Nat) : (c.deliver l).flaws = c.flaws := by rw [Chip.deliver_eq]
@[simp] theorem Chip.deliver_csk (c : Chip) (l : Nat) : (c.deliver l).csk = c.csk := by rw [Chip.deliver_eq]

/-! ### Reaching a page's interrupt line -/

/-- The lines of a page can only lengthen the list of deliveries. -/
theorem Chip.lines_eq (c d : Chip) (p w : Nat) : c.lines d p w = { d with deliveries := (c.lines d p w).deliveries } := by
  simp only [Chip.lines]
  split
  · split <;> split
    · rw [Chip.deliver_eq, Chip.deliver_eq]
    · exact Chip.deliver_eq d _
    · exact Chip.deliver_eq d _
    · rfl
  · split
    · exact Chip.deliver_eq d p
    · rfl

@[simp] theorem Chip.lines_rf (c d : Chip) (p w : Nat) : (c.lines d p w).rf = d.rf := by rw [Chip.lines_eq]
@[simp] theorem Chip.lines_ps (c d : Chip) (p w : Nat) : (c.lines d p w).ps = d.ps := by rw [Chip.lines_eq]
@[simp] theorem Chip.lines_free (c d : Chip) (p w : Nat) : (c.lines d p w).free = d.free := by rw [Chip.lines_eq]
@[simp] theorem Chip.lines_readData (c d : Chip) (p w : Nat) : (c.lines d p w).readData = d.readData := by rw [Chip.lines_eq]
@[simp] theorem Chip.lines_stg (c d : Chip) (p w : Nat) : (c.lines d p w).stg = d.stg := by rw [Chip.lines_eq]
@[simp] theorem Chip.lines_brg (c d : Chip) (p w : Nat) : (c.lines d p w).brg = d.brg := by rw [Chip.lines_eq]
@[simp] theorem Chip.lines_led (c d : Chip) (p w : Nat) : (c.lines d p w).led = d.led := by rw [Chip.lines_eq]
@[simp] theorem Chip.lines_fab (c d : Chip) (p w : Nat) : (c.lines d p w).fab = d.fab := by rw [Chip.lines_eq]
@[simp] theorem Chip.lines_drc (c d : Chip) (p w : Nat) : (c.lines d p w).drc = d.drc := by rw [Chip.lines_eq]
@[simp] theorem Chip.lines_cmp (c d : Chip) (p w : Nat) : (c.lines d p w).cmp = d.cmp := by rw [Chip.lines_eq]
@[simp] theorem Chip.lines_gfx (c d : Chip) (p w : Nat) : (c.lines d p w).gfx = d.gfx := by rw [Chip.lines_eq]
@[simp] theorem Chip.lines_scn (c d : Chip) (p w : Nat) : (c.lines d p w).scn = d.scn := by rw [Chip.lines_eq]
@[simp] theorem Chip.lines_imx (c d : Chip) (p w : Nat) : (c.lines d p w).imx = d.imx := by rw [Chip.lines_eq]
@[simp] theorem Chip.lines_pow (c d : Chip) (p w : Nat) : (c.lines d p w).pow = d.pow := by rw [Chip.lines_eq]
@[simp] theorem Chip.lines_ctl (c d : Chip) (p w : Nat) : (c.lines d p w).ctl = d.ctl := by rw [Chip.lines_eq]
@[simp] theorem Chip.lines_dma (c d : Chip) (p w : Nat) : (c.lines d p w).dma = d.dma := by rw [Chip.lines_eq]
@[simp] theorem Chip.lines_hap (c d : Chip) (p w : Nat) : (c.lines d p w).hap = d.hap := by rw [Chip.lines_eq]
@[simp] theorem Chip.lines_aud (c d : Chip) (p w : Nat) : (c.lines d p w).aud = d.aud := by rw [Chip.lines_eq]
@[simp] theorem Chip.lines_tch (c d : Chip) (p w : Nat) : (c.lines d p w).tch = d.tch := by rw [Chip.lines_eq]
@[simp] theorem Chip.lines_lnk (c d : Chip) (p w : Nat) : (c.lines d p w).lnk = d.lnk := by rw [Chip.lines_eq]
@[simp] theorem Chip.lines_saf (c d : Chip) (p w : Nat) : (c.lines d p w).saf = d.saf := by rw [Chip.lines_eq]
@[simp] theorem Chip.lines_ptb (c d : Chip) (p w : Nat) : (c.lines d p w).ptb = d.ptb := by rw [Chip.lines_eq]
@[simp] theorem Chip.lines_flaws (c d : Chip) (p w : Nat) : (c.lines d p w).flaws = d.flaws := by rw [Chip.lines_eq]
@[simp] theorem Chip.lines_csk (c d : Chip) (p w : Nat) : (c.lines d p w).csk = d.csk := by rw [Chip.lines_eq]

/-! ### Latching an event bit -/

@[simp] theorem Chip.raise_ps (c : Chip) (p b : Nat) : (c.raise p b).ps = c.ps := by simp [Chip.raise]
@[simp] theorem Chip.raise_free (c : Chip) (p b : Nat) : (c.raise p b).free = c.free := by simp [Chip.raise]
@[simp] theorem Chip.raise_readData (c : Chip) (p b : Nat) : (c.raise p b).readData = c.readData := by simp [Chip.raise]
@[simp] theorem Chip.raise_stg (c : Chip) (p b : Nat) : (c.raise p b).stg = c.stg := by simp [Chip.raise]
@[simp] theorem Chip.raise_brg (c : Chip) (p b : Nat) : (c.raise p b).brg = c.brg := by simp [Chip.raise]
@[simp] theorem Chip.raise_led (c : Chip) (p b : Nat) : (c.raise p b).led = c.led := by simp [Chip.raise]
@[simp] theorem Chip.raise_fab (c : Chip) (p b : Nat) : (c.raise p b).fab = c.fab := by simp [Chip.raise]
@[simp] theorem Chip.raise_drc (c : Chip) (p b : Nat) : (c.raise p b).drc = c.drc := by simp [Chip.raise]
@[simp] theorem Chip.raise_cmp (c : Chip) (p b : Nat) : (c.raise p b).cmp = c.cmp := by simp [Chip.raise]
@[simp] theorem Chip.raise_gfx (c : Chip) (p b : Nat) : (c.raise p b).gfx = c.gfx := by simp [Chip.raise]
@[simp] theorem Chip.raise_scn (c : Chip) (p b : Nat) : (c.raise p b).scn = c.scn := by simp [Chip.raise]
@[simp] theorem Chip.raise_imx (c : Chip) (p b : Nat) : (c.raise p b).imx = c.imx := by simp [Chip.raise]
@[simp] theorem Chip.raise_pow (c : Chip) (p b : Nat) : (c.raise p b).pow = c.pow := by simp [Chip.raise]
@[simp] theorem Chip.raise_ctl (c : Chip) (p b : Nat) : (c.raise p b).ctl = c.ctl := by simp [Chip.raise]
@[simp] theorem Chip.raise_dma (c : Chip) (p b : Nat) : (c.raise p b).dma = c.dma := by simp [Chip.raise]
@[simp] theorem Chip.raise_hap (c : Chip) (p b : Nat) : (c.raise p b).hap = c.hap := by simp [Chip.raise]
@[simp] theorem Chip.raise_aud (c : Chip) (p b : Nat) : (c.raise p b).aud = c.aud := by simp [Chip.raise]
@[simp] theorem Chip.raise_tch (c : Chip) (p b : Nat) : (c.raise p b).tch = c.tch := by simp [Chip.raise]
@[simp] theorem Chip.raise_lnk (c : Chip) (p b : Nat) : (c.raise p b).lnk = c.lnk := by simp [Chip.raise]
@[simp] theorem Chip.raise_saf (c : Chip) (p b : Nat) : (c.raise p b).saf = c.saf := by simp [Chip.raise]
@[simp] theorem Chip.raise_ptb (c : Chip) (p b : Nat) : (c.raise p b).ptb = c.ptb := by simp [Chip.raise]
@[simp] theorem Chip.raise_flaws (c : Chip) (p b : Nat) : (c.raise p b).flaws = c.flaws := by simp [Chip.raise]
@[simp] theorem Chip.raise_csk (c : Chip) (p b : Nat) : (c.raise p b).csk = c.csk := by simp [Chip.raise]

/-! ### Rejecting an access -/

@[simp] theorem Chip.reject_ps (c : Chip) (p o s e : Nat) : (c.reject p o s e).ps = c.ps := by
  simp only [Chip.reject, Chip.bump, Chip.addSat, Chip.raise_ps, Chip.set_ps]; split <;> rfl
@[simp] theorem Chip.reject_free (c : Chip) (p o s e : Nat) : (c.reject p o s e).free = c.free := by
  simp only [Chip.reject, Chip.bump, Chip.addSat, Chip.raise_free, Chip.set_free]; split <;> rfl
@[simp] theorem Chip.reject_readData (c : Chip) (p o s e : Nat) : (c.reject p o s e).readData = c.readData := by
  simp only [Chip.reject, Chip.bump, Chip.addSat, Chip.raise_readData, Chip.set_readData]; split <;> rfl
@[simp] theorem Chip.reject_stg (c : Chip) (p o s e : Nat) : (c.reject p o s e).stg = c.stg := by
  simp only [Chip.reject, Chip.bump, Chip.addSat, Chip.raise_stg, Chip.set_stg]; split <;> rfl
@[simp] theorem Chip.reject_brg (c : Chip) (p o s e : Nat) : (c.reject p o s e).brg = c.brg := by
  simp only [Chip.reject, Chip.bump, Chip.addSat, Chip.raise_brg, Chip.set_brg]; split <;> rfl
@[simp] theorem Chip.reject_led (c : Chip) (p o s e : Nat) : (c.reject p o s e).led = c.led := by
  simp only [Chip.reject, Chip.bump, Chip.addSat, Chip.raise_led, Chip.set_led]; split <;> rfl
@[simp] theorem Chip.reject_fab (c : Chip) (p o s e : Nat) : (c.reject p o s e).fab = c.fab := by
  simp only [Chip.reject, Chip.bump, Chip.addSat, Chip.raise_fab, Chip.set_fab]; split <;> rfl
@[simp] theorem Chip.reject_drc (c : Chip) (p o s e : Nat) : (c.reject p o s e).drc = c.drc := by
  simp only [Chip.reject, Chip.bump, Chip.addSat, Chip.raise_drc, Chip.set_drc]; split <;> rfl
@[simp] theorem Chip.reject_cmp (c : Chip) (p o s e : Nat) : (c.reject p o s e).cmp = c.cmp := by
  simp only [Chip.reject, Chip.bump, Chip.addSat, Chip.raise_cmp, Chip.set_cmp]; split <;> rfl
@[simp] theorem Chip.reject_gfx (c : Chip) (p o s e : Nat) : (c.reject p o s e).gfx = c.gfx := by
  simp only [Chip.reject, Chip.bump, Chip.addSat, Chip.raise_gfx, Chip.set_gfx]; split <;> rfl
@[simp] theorem Chip.reject_scn (c : Chip) (p o s e : Nat) : (c.reject p o s e).scn = c.scn := by
  simp only [Chip.reject, Chip.bump, Chip.addSat, Chip.raise_scn, Chip.set_scn]; split <;> rfl
@[simp] theorem Chip.reject_imx (c : Chip) (p o s e : Nat) : (c.reject p o s e).imx = c.imx := by
  simp only [Chip.reject, Chip.bump, Chip.addSat, Chip.raise_imx, Chip.set_imx]; split <;> rfl
@[simp] theorem Chip.reject_pow (c : Chip) (p o s e : Nat) : (c.reject p o s e).pow = c.pow := by
  simp only [Chip.reject, Chip.bump, Chip.addSat, Chip.raise_pow, Chip.set_pow]; split <;> rfl
@[simp] theorem Chip.reject_ctl (c : Chip) (p o s e : Nat) : (c.reject p o s e).ctl = c.ctl := by
  simp only [Chip.reject, Chip.bump, Chip.addSat, Chip.raise_ctl, Chip.set_ctl]; split <;> rfl
@[simp] theorem Chip.reject_dma (c : Chip) (p o s e : Nat) : (c.reject p o s e).dma = c.dma := by
  simp only [Chip.reject, Chip.bump, Chip.addSat, Chip.raise_dma, Chip.set_dma]; split <;> rfl
@[simp] theorem Chip.reject_hap (c : Chip) (p o s e : Nat) : (c.reject p o s e).hap = c.hap := by
  simp only [Chip.reject, Chip.bump, Chip.addSat, Chip.raise_hap, Chip.set_hap]; split <;> rfl
@[simp] theorem Chip.reject_aud (c : Chip) (p o s e : Nat) : (c.reject p o s e).aud = c.aud := by
  simp only [Chip.reject, Chip.bump, Chip.addSat, Chip.raise_aud, Chip.set_aud]; split <;> rfl
@[simp] theorem Chip.reject_tch (c : Chip) (p o s e : Nat) : (c.reject p o s e).tch = c.tch := by
  simp only [Chip.reject, Chip.bump, Chip.addSat, Chip.raise_tch, Chip.set_tch]; split <;> rfl
@[simp] theorem Chip.reject_lnk (c : Chip) (p o s e : Nat) : (c.reject p o s e).lnk = c.lnk := by
  simp only [Chip.reject, Chip.bump, Chip.addSat, Chip.raise_lnk, Chip.set_lnk]; split <;> rfl
@[simp] theorem Chip.reject_saf (c : Chip) (p o s e : Nat) : (c.reject p o s e).saf = c.saf := by
  simp only [Chip.reject, Chip.bump, Chip.addSat, Chip.raise_saf, Chip.set_saf]; split <;> rfl
@[simp] theorem Chip.reject_ptb (c : Chip) (p o s e : Nat) : (c.reject p o s e).ptb = c.ptb := by
  simp only [Chip.reject, Chip.bump, Chip.addSat, Chip.raise_ptb, Chip.set_ptb]; split <;> rfl
@[simp] theorem Chip.reject_flaws (c : Chip) (p o s e : Nat) : (c.reject p o s e).flaws = c.flaws := by
  simp only [Chip.reject, Chip.bump, Chip.addSat, Chip.raise_flaws, Chip.set_flaws]; split <;> rfl
@[simp] theorem Chip.reject_csk (c : Chip) (p o s e : Nat) : (c.reject p o s e).csk = c.csk := by
  simp only [Chip.reject, Chip.bump, Chip.addSat, Chip.raise_csk, Chip.set_csk]; split <;> rfl

/-! ### Handing an event to Cask -/

@[simp] theorem Chip.record_rf (c : Chip) (e u : Nat) (l : List Nat) : (c.record e u l).rf = c.rf := rfl
@[simp] theorem Chip.record_ps (c : Chip) (e u : Nat) (l : List Nat) : (c.record e u l).ps = c.ps := rfl
@[simp] theorem Chip.record_free (c : Chip) (e u : Nat) (l : List Nat) : (c.record e u l).free = c.free := rfl
@[simp] theorem Chip.record_readData (c : Chip) (e u : Nat) (l : List Nat) : (c.record e u l).readData = c.readData := rfl
@[simp] theorem Chip.record_deliveries (c : Chip) (e u : Nat) (l : List Nat) : (c.record e u l).deliveries = c.deliveries := rfl
@[simp] theorem Chip.record_stg (c : Chip) (e u : Nat) (l : List Nat) : (c.record e u l).stg = c.stg := rfl
@[simp] theorem Chip.record_brg (c : Chip) (e u : Nat) (l : List Nat) : (c.record e u l).brg = c.brg := rfl
@[simp] theorem Chip.record_led (c : Chip) (e u : Nat) (l : List Nat) : (c.record e u l).led = c.led := rfl
@[simp] theorem Chip.record_fab (c : Chip) (e u : Nat) (l : List Nat) : (c.record e u l).fab = c.fab := rfl
@[simp] theorem Chip.record_drc (c : Chip) (e u : Nat) (l : List Nat) : (c.record e u l).drc = c.drc := rfl
@[simp] theorem Chip.record_cmp (c : Chip) (e u : Nat) (l : List Nat) : (c.record e u l).cmp = c.cmp := rfl
@[simp] theorem Chip.record_gfx (c : Chip) (e u : Nat) (l : List Nat) : (c.record e u l).gfx = c.gfx := rfl
@[simp] theorem Chip.record_scn (c : Chip) (e u : Nat) (l : List Nat) : (c.record e u l).scn = c.scn := rfl
@[simp] theorem Chip.record_imx (c : Chip) (e u : Nat) (l : List Nat) : (c.record e u l).imx = c.imx := rfl
@[simp] theorem Chip.record_pow (c : Chip) (e u : Nat) (l : List Nat) : (c.record e u l).pow = c.pow := rfl
@[simp] theorem Chip.record_ctl (c : Chip) (e u : Nat) (l : List Nat) : (c.record e u l).ctl = c.ctl := rfl
@[simp] theorem Chip.record_dma (c : Chip) (e u : Nat) (l : List Nat) : (c.record e u l).dma = c.dma := rfl
@[simp] theorem Chip.record_hap (c : Chip) (e u : Nat) (l : List Nat) : (c.record e u l).hap = c.hap := rfl
@[simp] theorem Chip.record_aud (c : Chip) (e u : Nat) (l : List Nat) : (c.record e u l).aud = c.aud := rfl
@[simp] theorem Chip.record_tch (c : Chip) (e u : Nat) (l : List Nat) : (c.record e u l).tch = c.tch := rfl
@[simp] theorem Chip.record_lnk (c : Chip) (e u : Nat) (l : List Nat) : (c.record e u l).lnk = c.lnk := rfl
@[simp] theorem Chip.record_saf (c : Chip) (e u : Nat) (l : List Nat) : (c.record e u l).saf = c.saf := rfl
@[simp] theorem Chip.record_ptb (c : Chip) (e u : Nat) (l : List Nat) : (c.record e u l).ptb = c.ptb := rfl
@[simp] theorem Chip.record_flaws (c : Chip) (e u : Nat) (l : List Nat) : (c.record e u l).flaws = c.flaws := rfl

/-! ### Taking a free value -/

@[simp] theorem Chip.fresh_rf (c : Chip) (w : Nat) : (c.fresh w).2.rf = c.rf := rfl
@[simp] theorem Chip.fresh_ps (c : Chip) (w : Nat) : (c.fresh w).2.ps = c.ps := rfl
@[simp] theorem Chip.fresh_readData (c : Chip) (w : Nat) : (c.fresh w).2.readData = c.readData := rfl
@[simp] theorem Chip.fresh_deliveries (c : Chip) (w : Nat) : (c.fresh w).2.deliveries = c.deliveries := rfl
@[simp] theorem Chip.fresh_stg (c : Chip) (w : Nat) : (c.fresh w).2.stg = c.stg := rfl
@[simp] theorem Chip.fresh_brg (c : Chip) (w : Nat) : (c.fresh w).2.brg = c.brg := rfl
@[simp] theorem Chip.fresh_led (c : Chip) (w : Nat) : (c.fresh w).2.led = c.led := rfl
@[simp] theorem Chip.fresh_fab (c : Chip) (w : Nat) : (c.fresh w).2.fab = c.fab := rfl
@[simp] theorem Chip.fresh_drc (c : Chip) (w : Nat) : (c.fresh w).2.drc = c.drc := rfl
@[simp] theorem Chip.fresh_cmp (c : Chip) (w : Nat) : (c.fresh w).2.cmp = c.cmp := rfl
@[simp] theorem Chip.fresh_gfx (c : Chip) (w : Nat) : (c.fresh w).2.gfx = c.gfx := rfl
@[simp] theorem Chip.fresh_scn (c : Chip) (w : Nat) : (c.fresh w).2.scn = c.scn := rfl
@[simp] theorem Chip.fresh_imx (c : Chip) (w : Nat) : (c.fresh w).2.imx = c.imx := rfl
@[simp] theorem Chip.fresh_pow (c : Chip) (w : Nat) : (c.fresh w).2.pow = c.pow := rfl
@[simp] theorem Chip.fresh_ctl (c : Chip) (w : Nat) : (c.fresh w).2.ctl = c.ctl := rfl
@[simp] theorem Chip.fresh_dma (c : Chip) (w : Nat) : (c.fresh w).2.dma = c.dma := rfl
@[simp] theorem Chip.fresh_hap (c : Chip) (w : Nat) : (c.fresh w).2.hap = c.hap := rfl
@[simp] theorem Chip.fresh_aud (c : Chip) (w : Nat) : (c.fresh w).2.aud = c.aud := rfl
@[simp] theorem Chip.fresh_tch (c : Chip) (w : Nat) : (c.fresh w).2.tch = c.tch := rfl
@[simp] theorem Chip.fresh_lnk (c : Chip) (w : Nat) : (c.fresh w).2.lnk = c.lnk := rfl
@[simp] theorem Chip.fresh_saf (c : Chip) (w : Nat) : (c.fresh w).2.saf = c.saf := rfl
@[simp] theorem Chip.fresh_ptb (c : Chip) (w : Nat) : (c.fresh w).2.ptb = c.ptb := rfl
@[simp] theorem Chip.fresh_flaws (c : Chip) (w : Nat) : (c.fresh w).2.flaws = c.flaws := rfl
@[simp] theorem Chip.fresh_csk (c : Chip) (w : Nat) : (c.fresh w).2.csk = c.csk := rfl

/-! ### The outcome of a command -/

/-- A command that acts on the chip alone answers a next state exactly when the units it names exist, and leaves memories and queue alone. -/
theorem State.on_next {s t : State} {b : Bool} {f : Chip → Chip} :
    s.on b f = .next t ↔ b = true ∧ t = { s with chip := f s.chip } := by
  unfold State.on
  split
  · constructor
    · intro h; cases h; exact ⟨‹_›, rfl⟩
    · rintro ⟨-, rfl⟩; rfl
  · simp_all

/-- A command that reaches the memories answers a next state exactly when the units it names exist, and leaves the queue alone. -/
theorem State.onMem_next {s t : State} {b : Bool} {f : Chip → Mems → Chip × Mems} :
    s.onMem b f = .next t ↔ b = true ∧ t = { s with chip := (f s.chip s.mem).1, mem := (f s.chip s.mem).2 } := by
  unfold State.onMem
  split
  · constructor
    · intro h; cases h; exact ⟨‹_›, rfl⟩
    · rintro ⟨-, rfl⟩; rfl
  · simp_all

end Sys2Proof.Machine
end

