-- ==== Sys2Proof/Laws/Tables.lean ====
section
/-! SUPPORT. Sparse tables and addressed memories: what a write changes, what it leaves, and the canonical form. -/

namespace Sys2Proof.Machine

/-! ### Sparse tables -/

@[simp] theorem SMap.find?_nil {α : Type} (k : Nat) : SMap.find? ([] : SMap α) k = none := rfl

@[simp] theorem SMap.find?_insert_self {α : Type} (m : SMap α) (k : Nat) (v : α) : (m.insert k v).find? k = some v := by
  induction m with
  | nil => simp [SMap.insert, SMap.find?]
  | cons x r ih =>
    obtain ⟨k', v'⟩ := x
    unfold SMap.insert
    split
    · simp [SMap.find?]
    · split
      · simp [SMap.find?]
      · have : k' ≠ k := by omega
        simp [SMap.find?, this, ih]

theorem SMap.find?_insert_of_ne {α : Type} (m : SMap α) {j k : Nat} (v : α) (h : j ≠ k) : (m.insert k v).find? j = m.find? j := by
  induction m with
  | nil => simp [SMap.insert, SMap.find?, Ne.symm h]
  | cons x r ih =>
    obtain ⟨k', v'⟩ := x
    unfold SMap.insert
    split
    · simp [SMap.find?, Ne.symm h]
    · split
      · next h1 h2 => subst h2; simp [SMap.find?, Ne.symm h]
      · simp [SMap.find?, ih]

/-- Removing a key keeps the other entries, in their order. -/
theorem SMap.erase_eq_filter {α : Type} (m : SMap α) (k : Nat) : m.erase k = List.filter (fun x => x.1 != k) m := by
  induction m with
  | nil => rfl
  | cons x r ih => by_cases h : x.1 = k <;> simp [SMap.erase, h, ih]

@[simp] theorem SMap.find?_erase_self {α : Type} (m : SMap α) (k : Nat) : (m.erase k).find? k = none := by
  induction m with
  | nil => rfl
  | cons x r ih => by_cases h : x.1 = k <;> simp [SMap.erase, SMap.find?, h, ih]

theorem SMap.find?_erase_of_ne {α : Type} (m : SMap α) {j k : Nat} (h : j ≠ k) : (m.erase k).find? j = m.find? j := by
  induction m with
  | nil => rfl
  | cons x r ih => by_cases hx : x.1 = k <;> simp [SMap.erase, SMap.find?, hx, ih, Ne.symm h]

@[simp] theorem SMap.getD_put_self {α : Type} [DecidableEq α] (m : SMap α) (d : α) (k : Nat) (v : α) : (m.put d k v).getD k d = v := by
  unfold SMap.put SMap.getD
  split <;> simp_all

theorem SMap.getD_put_of_ne {α : Type} [DecidableEq α] (m : SMap α) (d e : α) {j k : Nat} (v : α) (h : j ≠ k) :
    (m.put d k v).getD j e = m.getD j e := by
  unfold SMap.put SMap.getD
  split
  · rw [SMap.find?_erase_of_ne _ h]
  · rw [SMap.find?_insert_of_ne _ _ h]

/-! ### The canonical form -/

/-- Every key of the table lies above `k`. -/
def SMap.above {α : Type} (k : Nat) (m : SMap α) : Prop := ∀ x ∈ m, k < x.1

theorem SMap.sorted_cons {α : Type} (x : Nat × α) (m : SMap α) : SMap.sorted (x :: m) = true ↔ SMap.above x.1 m ∧ SMap.sorted m = true := by
  induction m generalizing x with
  | nil => simp [SMap.sorted, SMap.above]
  | cons y r ih =>
    simp only [SMap.sorted, Bool.and_eq_true, decide_eq_true_eq]
    constructor
    · rintro ⟨h1, h2⟩
      refine ⟨?_, h2⟩
      intro z hz
      rcases List.mem_cons.1 hz with rfl | hz
      · exact h1
      · exact Nat.lt_trans h1 ((ih y).1 h2 |>.1 z hz)
    · rintro ⟨h1, h2⟩
      exact ⟨h1 y (by simp), h2⟩

theorem SMap.mem_insert {α : Type} {m : SMap α} {k : Nat} {v : α} {x : Nat × α} (h : x ∈ m.insert k v) : x = (k, v) ∨ x ∈ m := by
  induction m with
  | nil => exact .inl (List.mem_singleton.1 h)
  | cons y r ih =>
    simp only [SMap.insert] at h
    by_cases h1 : k < y.1 <;> by_cases h2 : k = y.1 <;> simp only [h1, h2, if_true, if_false, List.mem_cons] at h ⊢ <;> grind

theorem SMap.mem_of_mem_erase {α : Type} {m : SMap α} {k : Nat} {x : Nat × α} (h : x ∈ m.erase k) : x ∈ m :=
  (List.mem_filter.1 (SMap.erase_eq_filter m k ▸ h)).1

theorem SMap.sorted_insert {α : Type} {m : SMap α} (k : Nat) (v : α) (h : m.sorted = true) : (m.insert k v).sorted = true := by
  induction m with
  | nil => rfl
  | cons y r ih =>
    have ⟨low, hr⟩ := (SMap.sorted_cons y r).1 h
    have mem := fun z => @SMap.mem_insert α r k v z
    have ih := ih hr
    simp only [SMap.insert]
    rcases Nat.lt_trichotomy k y.1 with h1 | h1 | h1
    · rw [if_pos h1, SMap.sorted_cons]
      grind [SMap.above]
    · rw [if_neg (by omega), if_pos h1, SMap.sorted_cons]
      grind [SMap.above]
    · rw [if_neg (by omega), if_neg (by omega), SMap.sorted_cons]
      grind [SMap.above]

theorem SMap.sorted_filter {α : Type} {m : SMap α} (p : Nat × α → Bool) (h : m.sorted = true) : SMap.sorted (m.filter p) = true := by
  induction m with
  | nil => rfl
  | cons y r ih =>
    obtain ⟨ha, hs⟩ := (SMap.sorted_cons _ _).1 h
    by_cases hp : p y = true
    · rw [List.filter_cons_of_pos hp]
      exact (SMap.sorted_cons _ _).2 ⟨fun z hz => ha z (List.mem_filter.1 hz).1, ih hs⟩
    · rw [List.filter_cons_of_neg hp]
      exact ih hs

theorem SMap.sorted_erase {α : Type} {m : SMap α} (k : Nat) (h : m.sorted = true) : (m.erase k).sorted = true :=
  SMap.erase_eq_filter m k ▸ SMap.sorted_filter _ h

theorem SMap.sorted_put {α : Type} [DecidableEq α] {m : SMap α} (d : α) (k : Nat) (v : α) (h : m.sorted = true) : (m.put d k v).sorted = true := by
  unfold SMap.put
  split
  · exact SMap.sorted_erase k h
  · exact SMap.sorted_insert k v h

/-! ### Addressed memories -/

@[simp] theorem Memory.read_write_self (m : Memory) (a : Nat) (v : Byte) : Memory.read (Memory.write m a v) a = v := SMap.getD_put_self m 0 a v

theorem Memory.read_write_of_ne (m : Memory) {a b : Nat} (v : Byte) (h : b ≠ a) : Memory.read (Memory.write m a v) b = Memory.read m b :=
  SMap.getD_put_of_ne m 0 0 v h

theorem Memory.wf_write {m : Memory} (a : Nat) (v : Byte) (h : Memory.wf m = true) : Memory.wf (Memory.write m a v) = true := by
  simp only [Memory.wf, Bool.and_eq_true, List.all_eq_true, bne_iff_ne, ne_eq] at h ⊢
  refine ⟨SMap.sorted_put _ _ _ h.1, ?_⟩
  intro x hx
  unfold Memory.write SMap.put at hx
  split at hx
  · exact h.2 x (SMap.mem_of_mem_erase hx)
  · next hv =>
    rcases SMap.mem_insert hx with rfl | hx
    · exact hv
    · exact h.2 x hx

theorem Memory.wf_writeBytes {m : Memory} (a : Nat) (bs : List Byte) (h : Memory.wf m = true) : Memory.wf (Memory.writeBytes m a bs) = true := by
  induction bs generalizing m a with
  | nil => exact h
  | cons b r ih => exact ih (a + 1) (Memory.wf_write a b h)

theorem Memory.wf_filter {m : Memory} (p : Host.Cell → Bool) (h : Memory.wf m = true) : Memory.wf (m.filter p) = true := by
  simp only [Memory.wf, Bool.and_eq_true, List.all_eq_true] at h ⊢
  exact ⟨SMap.sorted_filter p h.1, fun x hx => h.2 x (List.mem_filter.1 hx).1⟩

/-- Bytes outside the stored range read as before. -/
theorem Memory.read_writeBytes_outside (m : Memory) (a : Nat) (bs : List Byte) {b : Nat} (h : b < a ∨ a + bs.length ≤ b) :
    Memory.read (Memory.writeBytes m a bs) b = Memory.read m b := by
  induction bs generalizing m a with
  | nil => rfl
  | cons x r ih =>
    simp only [List.length_cons] at h
    show Memory.read (Memory.writeBytes (Memory.write m a x) (a + 1) r) b = _
    rw [ih (m := Memory.write m a x) (a := a + 1) (by omega), Memory.read_write_of_ne _ _ (by omega)]

/-- Bytes inside the stored range read as stored. -/
theorem Memory.read_writeBytes_inside (m : Memory) (a : Nat) (bs : List Byte) {i : Nat} (h : i < bs.length) :
    Memory.read (Memory.writeBytes m a bs) (a + i) = bs[i] := by
  induction bs generalizing m a i with
  | nil => simp at h
  | cons x r ih =>
    show Memory.read (Memory.writeBytes (Memory.write m a x) (a + 1) r) (a + i) = _
    cases i with
    | zero => rw [Memory.read_writeBytes_outside _ _ _ (by omega)]; simp
    | succ j =>
      have := ih (m := Memory.write m a x) (a := a + 1) (i := j) (by simpa using h)
      rw [show a + (j + 1) = a + 1 + j by omega]
      simpa using this

end Sys2Proof.Machine
end

