-- ==== Sys2Proof/Laws/Fields.lean ====
section
/-! SUPPORT. Reading a register field after the operations that write fields. -/

namespace Sys2Proof.Machine

@[simp] theorem Chip.get_set_self (c : Chip) (f : Fld) (v : Nat) : (c.set f v).get f = v % 2 ^ f.w := by
  simp [Chip.get, Chip.set]

theorem Chip.get_set_of_ne (c : Chip) {f g : Fld} (v : Nat) (h : g.key ≠ f.key) : (c.set f v).get g = c.get g := by
  unfold Chip.get Chip.set
  exact SMap.getD_put_of_ne _ _ _ _ h

/-- Fields of one page, word and lowest bit share their storage; any other two are apart. -/
theorem Fld.key_eq {f g : Fld} (hf : f.lo < 32) (hg : g.lo < 32) (of : f.off < 4096) (og : g.off < 4096) :
    f.key = g.key ↔ f.page = g.page ∧ f.off / 4 = g.off / 4 ∧ f.lo = g.lo := by
  unfold Fld.key
  omega

/-- Reading any field after one is set. -/
theorem Chip.get_set (c : Chip) (f g : Fld) (v : Nat) (hr : g.key = f.key → g.rst = f.rst) :
    (c.set f v).get g = if g.key = f.key then v % 2 ^ f.w else c.get g := by
  split
  · next h =>
    rw [← Chip.get_set_self c f v]
    simp [Chip.get, h, hr h]
  · next h => exact Chip.get_set_of_ne c v h

@[simp] theorem Chip.get_lines (c d : Chip) (p w : Nat) (f : Fld) : (c.lines d p w).get f = d.get f := by
  simp [Chip.get]

@[simp] theorem Chip.get_record (c : Chip) (e u : Nat) (l : List Nat) (f : Fld) : (c.record e u l).get f = c.get f := rfl

@[simp] theorem Chip.get_fresh (c : Chip) (w : Nat) (f : Fld) : (c.fresh w).2.get f = c.get f := rfl

@[simp] theorem Chip.get_deliver (c : Chip) (l : Nat) (f : Fld) : (c.deliver l).get f = c.get f := by simp [Chip.get]

/-- Latching an event bit sets it in IRQ_RAW of its page, among the bits that stand there. -/
@[simp] theorem Chip.get_raise_self (c : Chip) (p b : Nat) :
    (c.raise p b).get (H.IRQ_RAW p) = (c.get (H.IRQ_RAW p) ||| 1 <<< b) % 2 ^ 32 := by
  simp [Chip.raise, H.IRQ_RAW]

/-- Latching an event bit changes no other field. -/
theorem Chip.get_raise_of_ne (c : Chip) (p b : Nat) {f : Fld} (h : f.key ≠ (H.IRQ_RAW p).key) : (c.raise p b).get f = c.get f := by
  simp [Chip.raise, Chip.get_set_of_ne _ _ h]

/-- Counting one event in a saturating counter. -/
theorem Chip.get_bump_self (c : Chip) (f : Fld) : (c.bump f).get f = min (c.get f + 1) (2 ^ f.w - 1) := by
  have : 0 < 2 ^ f.w := Nat.two_pow_pos _
  simp [Chip.bump, Chip.addSat]
  rw [Nat.mod_eq_of_lt]; omega

theorem Chip.get_bump_of_ne (c : Chip) {f g : Fld} (h : g.key ≠ f.key) : (c.bump f).get g = c.get g := by
  simp [Chip.bump, Chip.addSat, Chip.get_set_of_ne _ _ h]

/-- The first rejection of a page since its PAGE_ERR was cleared is the one it names (R36). -/
theorem Chip.get_reject_code (c : Chip) (p o s e : Nat) :
    (c.reject p o s e).get (H.ERR_CODE p) = if c.get (H.ERR_CODE p) = 0 then e % 256 else c.get (H.ERR_CODE p) := by
  unfold Chip.reject
  rw [Chip.get_raise_of_ne, Chip.get_bump_of_ne]
  · by_cases h : c.get (H.ERR_CODE p) = 0
    · simp only [h, if_true]
      rw [Chip.get_set_of_ne, Chip.get_set_of_ne, Chip.get_set_self]
      · simp [H.ERR_CODE]
      all_goals simp only [H.ERR_CODE, H.ERR_OFFSET, H.ERR_SOURCE, Fld.key]; omega
    · simp [h]
  all_goals simp only [H.ERR_CODE, H.ERR_COUNT, H.IRQ_RAW, Fld.key]; omega

/-- A rejection changes nothing but PAGE_ERR and IRQ_RAW of its page. -/
theorem Chip.get_reject_of_ne (c : Chip) (p o s e : Nat) {f : Fld}
    (h : f.key ∉ [(H.ERR_CODE p).key, (H.ERR_OFFSET p).key, (H.ERR_SOURCE p).key, (H.ERR_COUNT p).key, (H.IRQ_RAW p).key]) :
    (c.reject p o s e).get f = c.get f := by
  simp only [List.mem_cons, List.not_mem_nil, or_false, not_or] at h
  unfold Chip.reject
  rw [Chip.get_raise_of_ne _ _ _ h.2.2.2.2, Chip.get_bump_of_ne _ h.2.2.2.1]
  split
  · rw [Chip.get_set_of_ne _ _ h.2.2.1, Chip.get_set_of_ne _ _ h.2.1, Chip.get_set_of_ne _ _ h.1]
  · rfl

/-- A checked access that passes has its effect. -/
theorem Chip.checked_pass {c : Chip} {src : Src} {p off : Nat} {l : List (Bool × Nat)} {eff : Chip → Chip} (h : firstFail l = none) :
    c.checked src p off l eff = eff c := by
  simp [Chip.checked, h]

/-- A checked access whose first failing check is `e` is a rejection with that code and nothing else. -/
theorem Chip.checked_fail {c : Chip} {src : Src} {p off e : Nat} {l : List (Bool × Nat)} {eff : Chip → Chip} (h : firstFail l = some e) :
    c.checked src p off l eff = c.reject p off (srcCode src) e := by
  simp [Chip.checked, h]

end Sys2Proof.Machine
end

