-- ==== Sys2Proof/Safety.lean ====
section
/-! DEFINITION. The terms in which statements about the block are made: a command that completes, what a command leaves alone, an access that
reaches its page, and the canonical form of the addressed memories. -/

namespace Sys2Proof.Machine

/-- The command has its effect: it answers a next state, of which `P` holds. -/
def Completes (c : Instr) (s : State) (P : State → Prop) : Prop := ∃ t, exec c s = .next t ∧ P t

/-- The parts of the chip state. -/
inductive Part where
  | rf
  | ps
  | free
  | readData
  | deliveries
  | stg
  | brg
  | led
  | fab
  | drc
  | cmp
  | gfx
  | scn
  | imx
  | pow
  | ctl
  | dma
  | hap
  | aud
  | tch
  | lnk
  | saf
  | ptb
  | flaws
  | csk
  deriving DecidableEq, Repr

/-- Part `p` of the chip state is the same in `c` and `d`. -/
def Part.same (p : Part) (c d : Chip) : Prop :=
  match p with
  | .rf => d.rf = c.rf
  | .ps => d.ps = c.ps
  | .free => d.free = c.free
  | .readData => d.readData = c.readData
  | .deliveries => d.deliveries = c.deliveries
  | .stg => d.stg = c.stg
  | .brg => d.brg = c.brg
  | .led => d.led = c.led
  | .fab => d.fab = c.fab
  | .drc => d.drc = c.drc
  | .cmp => d.cmp = c.cmp
  | .gfx => d.gfx = c.gfx
  | .scn => d.scn = c.scn
  | .imx => d.imx = c.imx
  | .pow => d.pow = c.pow
  | .ctl => d.ctl = c.ctl
  | .dma => d.dma = c.dma
  | .hap => d.hap = c.hap
  | .aud => d.aud = c.aud
  | .tch => d.tch = c.tch
  | .lnk => d.lnk = c.lnk
  | .saf => d.saf = c.saf
  | .ptb => d.ptb = c.ptb
  | .flaws => d.flaws = c.flaws
  | .csk => d.csk = c.csk

/-- From `s` to `t` no part of the chip state changes but those in `l`. -/
def PartsBut (l : List Part) (s t : State) : Prop := ∀ p, p ∉ l → p.same s.chip t.chip

/-- From `s` to `t` no register field changes but those in `l`. -/
def RegsBut (l : List Fld) (s t : State) : Prop := ∀ f : Fld, f.key ∉ l.map Fld.key → t.chip.get f = s.chip.get f

/-- The page of the register window in which a field lies. -/
def Fld.pageOf (f : Fld) : Nat := f.key / 32768

/-- From `s` to `t` no register field changes but those of the pages in `l`. -/
def PagesBut (l : List Nat) (s t : State) : Prop := ∀ f : Fld, f.pageOf ∉ l → t.chip.get f = s.chip.get f

/-- Memories and queue are the same in `s` and `t`. -/
def MemSame (s t : State) : Prop := t.mem = s.mem ∧ t.pending = s.pending

/-- From `s` to `t` nothing changes but the listed parts of the chip state and, among the registers, the listed fields. -/
def Only (parts : List Part) (regs : List Fld) (s t : State) : Prop := PartsBut parts s t ∧ RegsBut regs s t ∧ MemSame s t

/-- From `s` to `t` nothing changes but the listed parts of the chip state and, among the registers, the listed pages. -/
def OnlyPages (parts : List Part) (pages : List Nat) (s t : State) : Prop := PartsBut parts s t ∧ PagesBut pages s t ∧ MemSame s t

/-- Every register field reads its reset value in `t`, but those of the pages that `keep` accepts and the listed ones. -/
def ResetBut (keep : Nat → Bool) (regs : List Fld) (t : State) : Prop :=
  ∀ f : Fld, keep f.pageOf = false → f.key ∉ regs.map Fld.key → t.chip.get f = f.rst

/-- One event with this code has been handed to Cask. -/
def Recorded (code : Nat) (s t : State) : Prop :=
  t.chip.csk.waiting.dropLast = s.chip.csk.waiting ∧ t.chip.csk.waiting.getLast?.map (·.event) = some code

/-- The entry with number `seq` of pair `r` ends with `status` and `result`, stamped with the ledger's time; the pair's other entries stay. -/
def EntryEnds (r seq status : Nat) (result : List Byte) (s t : State) : Prop :=
  (t.chip.ring r).issued = (s.chip.ring r).issued.map fun e =>
    if e.seq = seq then { e with fresh := false, done := some { status := status, result := result, stamp := s.chip.stamp } } else e

/-- The entry with number `seq` of pair `r` has been taken up by its engine; the pair's other entries stay. -/
def EntryTaken (r seq : Nat) (s t : State) : Prop :=
  (t.chip.ring r).issued = (s.chip.ring r).issued.map fun e => if e.seq = seq then { e with fresh := false } else e

/-- The bytes from `b` up to `e` read 0 in `m'`, every other one as in `m`. -/
def Zeroed (b e : Nat) (m m' : Memory) : Prop :=
  ∀ a, Memory.read m' a = if b ≤ a ∧ a < e then 0 else Memory.read m a

/-- The bytes `bs` stand in `m'` from `b` on; every other one reads as in `m`. -/
def Stored (b : Nat) (bs : List Byte) (m m' : Memory) : Prop :=
  ∀ a, Memory.read m' a = if b ≤ a ∧ a < b + bs.length then bs.getD (a - b) 0 else Memory.read m a

/-- Wave `w` is `q`, and its next instruction is the word `ins`. -/
abbrev AtIns (s : State) (w : Nat) (q : GWave) (ins : Nat) : Prop :=
  w < 192 ∧ s.chip.gfx.waves.find? w = some q ∧ q.code[q.pc]? = some ins

/-- Source operand `j` of `ins` in lane `l` of wave `q`, as a number of 32 bits (`wide`) or 16 bits, `fl` for the modifiers of floating point. -/
def operand (s : State) (q : GWave) (ins : Nat) (wide fl : Bool) (l j : Nat) : Nat := q.source (s.chip.front q) wide fl ins l j

/-- The chip once the next instruction of wave `w` has occupied its core's issue port (R123, R161). -/
def clocked (s : State) (w : Nat) : Chip :=
  match s.chip.gfx.waves.find? w with
  | none => s.chip
  | some q => s.chip.charge q (issueClocks q.frag ((q.code[q.pc]?).getD 0))

/-- The wave after wave `w`'s step, if it still exists, satisfies `P`; apart from the wave and the issue clocks of its core nothing changes. -/
def WaveStep (w : Nat) (P : GWave → Prop) (s t : State) : Prop :=
  match t.chip.gfx.waves.find? w with
  | none => False
  | some q' => P q' ∧ Only [.gfx] [] s t ∧
      t.chip.gfx = { (clocked s w).gfx with waves := SMap.insert s.chip.gfx.waves w q' }

/-- In every lane that runs `ins` the destination register, of 32 bits (`wide`) or 16, holds `res`; every other register stays. -/
def RegsBecome (q q' : GWave) (ins : Nat) (wide : Bool) (res : Nat → Nat) : Prop :=
  ∀ l ∈ List.range 64, ∀ r ∈ List.range 64, q'.h l r =
    if q.runs ins l && (if wide then r / 2 == Ins.dst ins else r == Ins.dst ins) then
      (if wide && r % 2 == 1 then res l / 65536 % 65536 else res l % 65536)
    else q.h l r

/-- Wave `w` goes on to the next instruction with the result `res` of `ins` in its destination and nothing else changed. -/
def AluStep (w : Nat) (q : GWave) (ins : Nat) (wide : Bool) (res : Nat → Nat) (s t : State) : Prop :=
  WaveStep w (fun q' => q' = { q with pc := q.pc + 1, regs := q'.regs } ∧ RegsBecome q q' ins wide res) s t

/-- Wave `w` goes on to the next instruction with predicate `k` holding `res` in every lane that runs `ins` and nothing else changed. -/
def PredStep (w : Nat) (q : GWave) (ins k : Nat) (res : Nat → Bool) (s t : State) : Prop :=
  WaveStep w (fun q' => q' = { q with pc := q.pc + 1, preds := q'.preds } ∧
    ∀ l ∈ List.range 64, ∀ j ∈ List.range 4, q'.p l j = if q.runs ins l && j == k then res l else q.p l j) s t

/-- In every lane that runs `ins` the `n` registers from the destination on, of 32 bits (`wide`) or 16, hold `res`; every other register stays. -/
def RegsLoad (q q' : GWave) (ins : Nat) (wide : Bool) (n : Nat) (res : Nat → Nat → Nat) : Prop :=
  ∀ l ∈ List.range 64, ∀ r ∈ List.range 64,
    let i := if wide then r / 2 else r
    q'.h l r =
      if q.runs ins l && decide (Ins.dst ins ≤ i) && decide (i < Ins.dst ins + n) then
        (if wide && r % 2 == 1 then res l (i - Ins.dst ins) / 65536 % 65536 else res l (i - Ins.dst ins) % 65536)
      else q.h l r

/-- No uncorrectable error lies in the 64-byte lines of DRAM that the `n` bytes from `a` touch (R140, R256). -/
abbrev Readable (s : State) (a n : Nat) : Prop :=
  ((gLinesOf a n).all fun l => (s.chip.eccFlaws Ecc.DRAM l 64).all fun f => f.2 == 1 || !s.chip.eccRegion f.1) = true

/-- What the wave's loads see of DRAM: through the GPU L2, and for its texture unit through its read cache too (R140). -/
def waveSees (s : State) (q : GWave) : Memory := s.chip.gpuSees (s.chip.waveOwner q) s.mem.dram
def unitSees (s : State) (q : GWave) : Memory := s.chip.texSees q.core (s.chip.waveOwner q) s.mem.dram

/-- What a read of the GPU may touch beside its destination: the L2 and its counters, the DRAM's error log, an armed injection. -/
def gpuParts : List Part := [.rf, .free, .deliveries, .gfx, .flaws]
def gpuPages : List Nat := [0x0D0, 0x160, 0x161, 0x1C1]

/-- The wave after wave `w`'s load, if it still exists, satisfies `P`; apart from the wave, the issue clocks of its core, the lines of the caches and the
counters of the memories read nothing changes. -/
def LoadStep (w : Nat) (P : GWave → Prop) (s t : State) : Prop :=
  match t.chip.gfx.waves.find? w with
  | none => False
  | some q' => P q' ∧ PartsBut gpuParts s t ∧ MemSame s t ∧
      t.chip.gfx = { (clocked s w).gfx with waves := SMap.insert s.chip.gfx.waves w q', lines := t.chip.gfx.lines }

/-- What job `j` sees of DRAM: through the GPU L2 (R140). -/
def jobSees (s : State) (j : GJob) : Memory := s.chip.gpuSees j.own s.mem.dram

/-- The next packet of job `j` in context `k` has this code and payload, it is the job's turn, and the packet's bytes are good. -/
abbrev AtPkt (s : State) (k : Nat) (j : GJob) (code : Nat) (ws : List Nat) : Prop :=
  k < 16 ∧ s.chip.job k = some j ∧ j.parsing = true ∧ s.chip.gristTurn k j = true ∧ j.here.next (jobSees s j) = .packet code ws ∧
    Readable s (j.here.code.1 + j.here.code.2.2) (4 + 4 * ws.length)

/-- Job `j` behind the packet at which it stands; inside a called buffer it keeps the place of its CALL. -/
def GJob.past (j : GJob) (ws : List Nat) : GJob :=
  let h := j.here
  { h with pkt := if h.ret.isNone then h.code.2.2 else h.pkt, code := (h.code.1, h.code.2.1, h.code.2.2 + 4 + 4 * ws.length) }

/-- The job of context `k` becomes `j`; apart from it, the job counts, the lines of the caches and the counters of the memories read nothing changes. -/
def PktStep (k : Nat) (j : GJob) (s t : State) : Prop :=
  t.chip.gfx = { s.chip.gfx with jobs := SMap.insert s.chip.gfx.jobs k j, lines := t.chip.gfx.lines } ∧ OnlyPages gpuParts (gpuPages ++ [0x0A0, 0x0A1]) s t

/-- The vertices of an indexed draw, instance by instance, its indices of `w` bytes at `a`; an index of all ones restarts a strip (R111). -/
def drawnItems (s : State) (j : GJob) (ws : List Nat) (a w : Nat) : List (Option (Nat × Nat)) :=
  (List.range (pw ws 3)).flatMap fun i => (List.range (pw ws 1)).map fun n =>
    let v := Memory.readNat (jobSees s j) (a + (pw ws 0 + n) * w) w
    if Prim.restart j.st.prim && Prim.strips j.st.prim && v == 2 ^ (8 * w) - 1 then none else some ((v + pw ws 2) % 2 ^ 32, (pw ws 4 + i) % 2 ^ 32)

/-- Output `n` no longer sends: an output of the early picture is no longer lit, and no other bit of EARLY.LIT moves (R75). -/
def UnlitNow (n : Nat) (s t : State) : Prop :=
  ∀ i ∈ List.range 8, (t.chip.get R.SYS_BOOT.EARLY.LIT).testBit i =
    ((s.chip.get R.SYS_BOOT.EARLY.LIT).testBit i && !(i == n && (s.chip.pow.early.find? n).isSome))

/-- ISL_STAT.STATE after a fault reset of the island: the third within 60 s leaves it in FAULT (R209). -/
def faultState (s : State) : Nat := if 2 ≤ (s.chip.saf.resets.filter fun a => decide (s.chip.ps < a + 60000000000000)).length then 2 else 0

/-- The plane block that a SWAP of plane `n` judges: none where TABLE does not enable a plane or names no whole block (R213). -/
def planeAsked (s : State) (n : Nat) : List Byte :=
  let a := s.chip.staged (R.SAF_P.TABLE.ADDR n)
  if s.chip.staged (R.SAF_P.TABLE.EN n) = 1 ∧ a % 16 = 0 ∧ a + 1536 ≤ islSize then Memory.readBytes s.mem.isl a 1536 else []

/-- The byte at `a` as the control cores see it (R275), of the memory `mem` that begins at `base`. -/
def coreByte (s : State) (mem : Memory) (base a : Nat) : Byte := (s.chip.lineAt mem base (a / lineSize)).bytes.getD (a % lineSize) 0

/-- Of the memory `mem` that begins at `base` the control cores see the bytes `bs` from `a` on, and else what they saw before. -/
def CoreSees (mem : Memory) (base a : Nat) (bs : List Byte) (s t : State) : Prop :=
  ∀ x, base ≤ x → coreByte t mem base x = if a ≤ x ∧ x < a + bs.length then bs.getD (x - a) 0 else coreByte s mem base x

/-- The format of a shader operand. -/
def fmtOf (wide : Bool) : Fmt := if wide then fp32 else fp16

/-- The texels that TEX weighs in lane `l`, with the level of detail that its mode asks for (R137, R138, R158). -/
def texTaps (s : State) (q : GWave) (ins : Nat) (d : List Byte) (l : Nat) : List Tap :=
  let im := Ins.imm ins
  let lod := q.lod (s.chip.front q) d ins l
  (sampleTaps d ((s.chip.waveState q).samplers.getD (16 * b2n q.frag + bits im 4 4) samplerReset) (fmtOf (im.testBit 8))
    (operand s q ins (im.testBit 8) true l 0) (operand s q ins (im.testBit 8) true l 1) lod.1 lod.2).1

/-- The texel that TEXF reads in lane `l` (R158). -/
def texelAsked (s : State) (q : GWave) (ins : Nat) (d : List Byte) (l : Nat) : Option Tap :=
  fetchTap d (sext 16 (operand s q ins false false l 0)) (sext 16 (operand s q ins false false l 1)) (sext 16 (operand s q ins false false l 2))

/-- The bytes that ATTR reads in lane `l`, if its attribute lies inside its buffer (R111). -/
def attrSpans (s : State) (q : GWave) (ins l : Nat) : List (Nat × Nat) :=
  let st := s.chip.waveState q
  match st.vattr.find? (Ins.imm ins % 16) with
  | none => []
  | some v => (attrAt st v (q.lane? l).b (q.lane? l).i).toList.map fun p => (p, VAttr.bytes v)

/-- Bits of a shader operand. -/
def widthOf (wide : Bool) : Nat := if wide then 32 else 16

/-- A write of `src` reaches the checks of page `p`: it is carried, and not turned away before it gets there (R11, R34, R43, R72). -/
abbrev Reaches (c : Chip) (src : Src) (p : Nat) : Prop := c.unheard src p = false ∧ c.turnedAway src p = none

/-- The pages of the instances. -/
def viPages : List Nat := (List.range 16).map (0x060 + ·)

/-- The domains that software switches stand as bits 5–17 and 21–23 of `on` say (R52). -/
abbrev DomainsAsInRun (c : Chip) (on : Nat) : Prop := ∀ d ∈ [5, 6, 7, 8, 9, 10, 11, 12, 13, 14, 15, 16, 17, 21, 22, 23], c.pdOn d = on.testBit d

/-- Every addressed memory is in its canonical form. -/
def Mems.wf (m : Mems) : Bool := Memory.wf m.dram && Memory.wf m.sram && Memory.wf m.isl && Memory.wf m.host && Memory.wf m.cask

end Sys2Proof.Machine
end

