-- ==== Sys2Proof/Laws/Port.lean ====
section
/-! SUPPORT. What the register port does with a write. -/

namespace Sys2Proof.Machine

/-- A write that reaches its page meets the page's checks. -/
theorem Chip.port_reaches {c : Chip} {src : Src} {p off : Nat} {l : List (Bool × Nat)} {eff : Chip → Chip} (h : Reaches c src p) :
    c.port src p off l eff = c.checked src p off l eff := by
  obtain ⟨h1, h2⟩ := h
  unfold Chip.port
  rw [h1, h2]
  cases src <;> simp_all [Chip.turnedAway]

/-- A write that nothing carries changes nothing. -/
theorem Chip.port_unheard {c : Chip} {src : Src} {p off : Nat} {l : List (Bool × Nat)} {eff : Chip → Chip} (h : c.unheard src p = true) :
    c.port src p off l eff = c := by
  simp [Chip.port, h]

/-- A write that reaches its page and passes every check has its effect. -/
theorem Chip.port_effect {c : Chip} {src : Src} {p off : Nat} {l : List (Bool × Nat)} {eff : Chip → Chip} (h : Reaches c src p)
    (hl : firstFail l = none) : c.port src p off l eff = eff c := by
  rw [Chip.port_reaches h, Chip.checked_pass hl]

/-- A write that reaches its page and fails a check is a rejection with the first failing check's code. -/
theorem Chip.port_fail {c : Chip} {src : Src} {p off e : Nat} {l : List (Bool × Nat)} {eff : Chip → Chip} (h : Reaches c src p)
    (hl : firstFail l = some e) : c.port src p off l eff = c.reject p off (srcCode src) e := by
  rw [Chip.port_reaches h, Chip.checked_fail hl]

/-- The same for a port that also notes rejections with E_CLAIMED. -/
theorem Chip.claimPort_effect {c : Chip} {src : Src} {p off : Nat} {l : List (Bool × Nat)} {eff : Chip → Chip} (h : Reaches c src p)
    (hl : firstFail l = none) : c.claimPort src p off l eff = eff c := by
  simp [Chip.claimPort, Chip.port_effect h hl, hl]

/-- The same for a port whose rejections the block also notes for itself. -/
theorem Chip.notedPort_effect {c : Chip} {src : Src} {p off : Nat} {l : List (Bool × Nat)} {note : Nat → Chip → Chip} {eff : Chip → Chip}
    (h : Reaches c src p) (hl : firstFail l = none) : c.notedPort src p off l note eff = eff c := by
  simp [Chip.notedPort, Chip.claimPort_effect h hl, hl]

@[simp] theorem firstFail_nil : firstFail [] = none := rfl

@[simp] theorem firstFail_cons (b : Bool) (e : Nat) (l : List (Bool × Nat)) :
    firstFail ((b, e) :: l) = if b then firstFail l else some e := rfl

/-! ### Frames -/

theorem PartsBut.refl (l : List Part) (s : State) : PartsBut l s s := by intro p _; cases p <;> rfl

theorem RegsBut.refl (l : List Fld) (s : State) : RegsBut l s s := fun _ _ => rfl

theorem RegsBut.trans {l : List Fld} {s t u : State} (h : RegsBut l s t) (k : RegsBut l t u) : RegsBut l s u :=
  fun f hf => (k f hf).trans (h f hf)

end Sys2Proof.Machine
end

