-- ==== Sys2Proof/Machine/Pins.lean ====
section
/-! DEFINITION. What the pins of the field and display side carry, read off the state (R73, R199, R206, R221, R314, R327, R328). -/

namespace Sys2Proof.Machine

/-- What a pin does: high-impedance, an input with a pull-down, held at a level, or driven by its block. -/
inductive Pin where
  | hiZ
  | pullDown
  | level (high : Bool)
  | driven
  deriving DecidableEq, Repr

/-- GPIO `i` (R73). The spec gives GPIOs no register, so they stay inputs with pull-downs. -/
def Chip.gpioPin (_ : Chip) (_ : Nat) : Pin := .pullDown

/-- BLn_EN and BLn_PWM, of a split pair those of the lead (R73, R198, R206). -/
def Chip.blPins (c : Chip) (n : Nat) : Pin × Pin := (.level (c.blPin n), .level (c.pwmPin n))

/-- SAFE_OK_A and SAFE_OK_B (R221): an active output is high, or a 1 kHz square wave from REFCLK. -/
def Chip.safePin (c : Chip) (en dyn : Fld) : Pin :=
  .level (c.pdOn PD.SAFE && c.flag en && (!c.flag dyn || decide (c.ps % 1000000000 < 500000000)))

def Chip.safePins (c : Chip) : Pin × Pin := (c.safePin R.SAF.SAFE_OK.EN_A R.SAF.SAFE_OK.DYN_A, c.safePin R.SAF.SAFE_OK.EN_B R.SAF.SAFE_OK.DYN_B)

/-- HAk (R73, R303): driven during an effect or a test, else high-impedance. -/
def Chip.haPin (c : Chip) (k : Nat) : Pin :=
  let x := c.hch k
  if x.testing || (match x.play with | some p => p.stage != 0 | none => false) then .driven else .hiZ

/-- The drive voltage of HAk (R303), as numerator and denominator in V: s × L × G × min(VLIM, rail) × D, negated with INVERT. In the body the output is
updated at 8 kHz. -/
def Chip.haVolts (c : Chip) (k : Nat) : Int × Nat :=
  match (c.hch k).play with
  | none => (0, 1)
  | some p =>
    let b := c.hapImg p.trig.effect
    let i := min (p.idx + (c.ps - p.at_) / 125000000) (Img.total b - 1)
    let level := if p.stage = 1 then Img.odLevel b else if p.stage = 2 then Img.env b else Img.brLevel b
    let s : Int := if p.stage = 0 then 0 else if p.stage = 2 then Img.sample b i else if p.pol then 127 else -127
    let v : Int := s * (level * p.trig.gain * c.hapVolts k * c.hapDerate p.trig.prio : Nat)
    (if c.flag (R.HAP_CH.CH_CFG.INVERT k) then -v else v, 127 * 255 * 255 * 256)

/-- The outputs of class-D channel `a` (R73, R327). -/
def Chip.spkPin (c : Chip) (a : Nat) : Pin := if c.ampMuted a || (c.aamp a).off then .hiZ else .driven

/-- TDM port `p` drives its data: AUD has been enabled and so has the port (R73). -/
def Chip.tdmOn (c : Chip) (p : Nat) : Bool := c.pdOn PD.AUD && c.blockStarted 0x11 && c.flag (R.AUD_PORTS.TDM_CFG.EN p)

/-- The pins of TDM port `p`: its data output, and its clocks, which a slave takes as inputs (R73, R328). -/
def Chip.tdmPins (c : Chip) (p : Nat) : Pin × Pin :=
  (if c.tdmOn p then .driven else .hiZ, if c.tdmOn p && c.flag (R.AUD_PORTS.TDM_CFG.MASTER p) then .driven else .hiZ)

/-- The words TDM port `p` sends in the present frame, slot 0 first: a 32-bit slot holds its sample in bits [31:16] (R328). -/
def Chip.tdmWords (c : Chip) (p : Nat) : List Nat :=
  if !c.tdmOn p then []
  else (List.range (c.get (R.AUD_PORTS.TDM_CFG.SLOTS_M1 p) + 1)).map fun i =>
    toBits 16 (c.aud.sink.getD (2 + 8 * p + i) 0) * if c.flag (R.AUD_PORTS.TDM_CFG.W32 p) then 65536 else 1

/-- The balls of front end `n` at connector position `k` of its 92 (R73, R287, R300): a drive ball is low and a sense ball high-impedance until the panel
scans, a line shorted to a voltage is not driven, and the lead's sense balls serve a combined panel. -/
def Chip.touchBall (c : Chip) (n k : Nat) : Pin :=
  let lead := if c.tchPartner n then n - 1 else n
  let t := c.tch1 lead
  let pos := if lead = n then k else k + 92
  if t.dead.contains pos then .hiZ
  else if k < 56 then (if t.measuring then .driven else .level false)
  else if t.measuring && lead == n then .driven else .hiZ

/-- TFn_GRD (R289): driven in the self phase with GUARD_EN = 1, else high-impedance. -/
def Chip.touchGuard (c : Chip) (n : Nat) : Pin :=
  let mutual_ := c.tchNd n * c.get (R.TCH_CFG.TIMING.STEP_US n) * 1000000
  if (c.tch1 n).measuring && !c.tchPartner n && c.tchSelf n && c.flag (R.TCH_CFG.TF_CFG.GUARD_EN n) && decide (mutual_ ≤ c.tchDone n) then .driven else .hiZ

end Sys2Proof.Machine
end

