-- ==== Sys2Proof/Certificates/Slice0/Obligations.lean ====
section
/-! DEFINITION. What is to be proved of the model: statements made from the spec's numbered rules. -/

open Sys2Proof Sys2Proof.Machine

/-- An accepted mode request starts or completes its transition (R5, R6, R46, R47, R54, R60). -/
def Obligations.ModeRequestsTakeEffect : Prop :=
  (∀ (s : State) (src : Src),
    Reaches s.chip src 1 →
    s.chip.isMgr src = true →
    s.chip.mode = Mode.RUN →
    s.chip.modeBusy = false →
    s.chip.pow.islandHeld = false →
    (s.chip.computeClaimed = false ∨ isSecure src = true) →
    s.chip.flag R.SYS_POWER.PD_RESULT.BUSY = false →
    (s.chip.get R.SYS_MODE.VIGIL_CFG.WK_PIN ≠ 0 ∨ s.chip.get R.SYS_MODE.VIGIL_CFG.WK_TOUCH ≠ 0 ∨ s.chip.get R.SYS_MODE.VIGIL_CFG.WK_RTC ≠ 0
      ∨ s.chip.get R.SYS_MODE.VIGIL_CFG.WK_GPIO ≠ 0 ∨ s.chip.get R.SYS_MODE.VIGIL_CFG.TIMEOUT ≠ 0) →
    Completes (.modeReqVigil src) s fun t =>
      t.chip.modeBusy = true ∧ t.chip.modeTarget = Mode.VIGIL ∧ t.chip.pow.quiesce = ((List.range 25).filter fun d => decide (2 ≤ d) && s.chip.pdOn d) ∧
      Only [.rf, .pow] [R.SYS_MODE.MODE_STAT.BUSY, R.SYS_MODE.MODE_STAT.TARGET] s t) ∧
  (∀ (s : State) (src : Src),
    Reaches s.chip src 1 →
    s.chip.isMgr src = true →
    s.chip.mode = Mode.RUN →
    s.chip.modeBusy = false →
    s.chip.pow.islandHeld = false →
    s.chip.activeOuts ≠ [] →
    Completes (.modeReqDegraded src) s fun t =>
      t.chip.modeBusy = true ∧ t.chip.modeTarget = Mode.DEGRADED ∧ t.chip.pow.switched = [] ∧ (∀ p ∈ List.range 8, p ∈ t.chip.cmp.hold) ∧
      Only [.rf, .pow, .cmp] [R.SYS_MODE.MODE_STAT.BUSY, R.SYS_MODE.MODE_STAT.TARGET] s t) ∧
  (∀ (s : State) (src : Src),
    Reaches s.chip src 1 →
    s.chip.isMgr src = true →
    s.chip.mode = Mode.DEGRADED →
    s.chip.modeBusy = false →
    s.chip.pow.islandHeld = false →
    s.chip.flag R.SYS_MODE.AGREE.MGR = false →
    (s.chip.flag R.SYS_MODE.AGREE.SAF = true → DomainsAsInRun s.chip s.chip.pow.savedPd) →
    Completes (.modeReqRun src) s fun t =>
      (s.chip.flag R.SYS_MODE.AGREE.SAF = false → t.chip.mode = Mode.DEGRADED ∧ t.chip.flag R.SYS_MODE.AGREE.MGR = true ∧
        t.chip.pow.agreeLeft = s.chip.get R.SYS_MODE.AGREE.WINDOW) ∧
      (s.chip.flag R.SYS_MODE.AGREE.SAF = true → t.chip.mode = Mode.RUN ∧ t.chip.flag R.SYS_MODE.AGREE.MGR = false ∧ t.chip.flag R.SYS_MODE.AGREE.SAF = false ∧
        (s.chip.pdOn PD.CMP = false → t.chip.pow.cmpRising = true)) ∧
      Only [.rf, .deliveries, .pow] [R.SYS_MODE.MODE_STAT.BUSY, R.SYS_MODE.MODE_STAT.TARGET, R.SYS_MODE.MODE_STAT.MODE, R.SYS_MODE.TRANS_CNT.COUNT,
        H.IRQ_RAW 1, R.SYS_MODE.AGREE.MGR, R.SYS_MODE.AGREE.SAF] s t) ∧
  (∀ (s : State) (src : Src),
    Reaches s.chip src 1 →
    s.chip.isMgr src = true →
    s.chip.mode = Mode.DEGRADED →
    s.chip.modeBusy = false →
    s.chip.pow.islandHeld = false →
    s.chip.flag R.SYS_MODE.AGREE.SAF = true →
    Completes (.modeReqRun src) s fun t =>
      t.chip.mode = Mode.RUN ∧ DomainsAsInRun t.chip s.chip.pow.savedPd ∧ MemSame s t) ∧
  (∀ (s : State) (src : Src),
    Reaches s.chip src 1 →
    isSecure src = true →
    s.chip.mode = Mode.RUN →
    s.chip.modeBusy = false →
    s.chip.pow.islandHeld = false →
    s.chip.activeOuts = [] →
    Completes (.modeReqService src true) s fun t =>
      t.chip.mode = Mode.SERVICE ∧ t.chip.flag R.PTB.PTB_STAT.SERVICE = true ∧ t.chip.flag R.SYS_BOOT.STRAPS.SERVICE_EN = true ∧
      OnlyPages [.rf, .deliveries, .cmp, .csk, .pow] [1, 4, 0x1C0] s t) ∧
  (∀ (s : State) (src : Src),
    Reaches s.chip src 1 →
    isSecure src = true →
    s.chip.mode = Mode.RUN →
    s.chip.modeBusy = false →
    s.chip.pow.islandHeld = false →
    s.chip.activeOuts ≠ [] →
    Completes (.modeReqService src true) s fun t =>
      t.chip.mode = Mode.RUN ∧ t.chip.modeBusy = true ∧ t.chip.modeTarget = Mode.SERVICE ∧ t.chip.pow.switched = [] ∧
      Only [.rf, .pow, .cmp] [R.SYS_MODE.MODE_STAT.BUSY, R.SYS_MODE.MODE_STAT.TARGET, R.SYS_BOOT.STRAPS.SERVICE_EN] s t) ∧
  (∀ (s : State) (src : Src) (target : Nat),
    Reaches s.chip src 1 →
    s.chip.mgrOrCtl src = true →
    (target = Mode.DORMANT ∨ target = Mode.BOOT ∨ target = 6 ∨ target = 7) →
    Completes (.modeReqOther src target) s fun t =>
      t.chip.get R.SYS_MODE.MODE_STAT.LAST_ERR = E.MODE ∧
      t.chip.get R.SYS_MODE.REJECT_CNT.COUNT = min (s.chip.get R.SYS_MODE.REJECT_CNT.COUNT + 1) (2 ^ 32 - 1) ∧
      Only [.rf, .deliveries] [R.SYS_MODE.MODE_STAT.LAST_ERR, R.SYS_MODE.REJECT_CNT.COUNT, H.IRQ_RAW 1, H.ERR_CODE 1, H.ERR_OFFSET 1,
        H.ERR_SOURCE 1, H.ERR_COUNT 1] s t)

/-- The island's requests and the agreement to return to RUN (R7, R46, R47, R50). -/
def Obligations.IslandRequestsAndAgreements : Prop :=
  (∀ (s : State),
    Reaches s.chip .island 0x130 →
    s.chip.mode = Mode.RUN →
    s.chip.modeBusy = false →
    s.chip.activeOuts ≠ [] →
    Completes (.islandDegradeReq .island) s fun t =>
      t.chip.modeBusy = true ∧ t.chip.modeTarget = Mode.DEGRADED ∧ (∀ p ∈ List.range 8, p ∈ t.chip.cmp.hold) ∧
      Only [.rf, .pow, .cmp] [R.SYS_MODE.MODE_STAT.BUSY, R.SYS_MODE.MODE_STAT.TARGET] s t) ∧
  (∀ (s : State),
    Reaches s.chip .island 0x130 →
    s.chip.mode = Mode.BOOT →
    Completes (.islandDegradeReq .island) s fun t =>
      t.chip.get R.SYS_MODE.MODE_STAT.LAST_ERR = E.MODE ∧ Recorded 0x0102 s t ∧
      Only [.rf, .deliveries, .csk] [R.SYS_MODE.MODE_STAT.LAST_ERR, R.SYS_MODE.REJECT_CNT.COUNT, H.IRQ_RAW 1, H.ERR_CODE 0x130, H.ERR_OFFSET 0x130,
        H.ERR_SOURCE 0x130, H.ERR_COUNT 0x130, H.IRQ_RAW 0x130] s t) ∧
  (∀ (s : State),
    Reaches s.chip .island 0x130 →
    s.chip.mode = Mode.DEGRADED →
    s.chip.flag R.SYS_MODE.AGREE.SAF = false →
    (s.chip.flag R.SYS_MODE.AGREE.MGR = true → DomainsAsInRun s.chip s.chip.pow.savedPd) →
    Completes (.islandAgreeRun .island) s fun t =>
      (s.chip.flag R.SYS_MODE.AGREE.MGR = false → t.chip.mode = Mode.DEGRADED ∧ t.chip.flag R.SYS_MODE.AGREE.SAF = true ∧
        t.chip.pow.agreeLeft = s.chip.get R.SYS_MODE.AGREE.WINDOW) ∧
      (s.chip.flag R.SYS_MODE.AGREE.MGR = true → t.chip.mode = Mode.RUN ∧ t.chip.flag R.SYS_MODE.AGREE.MGR = false) ∧
      Only [.rf, .deliveries, .pow] [R.SYS_MODE.MODE_STAT.BUSY, R.SYS_MODE.MODE_STAT.TARGET, R.SYS_MODE.MODE_STAT.MODE, R.SYS_MODE.TRANS_CNT.COUNT,
        H.IRQ_RAW 1, R.SYS_MODE.AGREE.MGR, R.SYS_MODE.AGREE.SAF] s t) ∧
  (∀ (s : State),
    s.chip.agreePending = true →
    s.chip.get R.SYS_MODE.AGREE.WINDOW ≠ 0 →
    s.chip.pow.agreeLeft = 0 →
    Completes (.agreeExpired) s fun t =>
      t.chip.agreePending = false ∧ t.chip.get R.SYS_MODE.EXPIRE_CNT.COUNT = min (s.chip.get R.SYS_MODE.EXPIRE_CNT.COUNT + 1) (2 ^ 32 - 1) ∧
      (t.chip.get (H.IRQ_RAW 1)).testBit 3 = true ∧
      Only [.rf, .deliveries, .pow] [R.SYS_MODE.AGREE.MGR, R.SYS_MODE.AGREE.SAF, R.SYS_MODE.EXPIRE_CNT.COUNT, H.IRQ_RAW 1] s t)

/-- Power requests quiesce, switch and answer (R52, R53, R54, R60). -/
def Obligations.PowerRequestsSwitchDomains : Prop :=
  (∀ (s : State) (src : Src) (d : Nat),
    Reaches s.chip src 2 →
    s.chip.mgrOrCtl src = true →
    d ≤ 24 →
    s.chip.flag R.SYS_POWER.PD_RESULT.BUSY = false →
    s.chip.modeBusy = false →
    s.chip.anyResetting = false →
    s.chip.pow.cmpRising = false →
    requestable s.chip.mode d = true →
    s.chip.prereqOk d true = true →
    Completes (.pdPowerOn src d) s fun t =>
      t.chip.pow.req = some (d, true) ∧ t.chip.flag R.SYS_POWER.PD_RESULT.BUSY = true ∧ t.chip.get R.SYS_POWER.PD_RESULT.CODE = E.NONE ∧
      t.chip.get R.SYS_POWER.PD_REQ.DOMAIN = d ∧ t.chip.pow.quiesce = [] ∧
      Only [.rf, .pow] [R.SYS_POWER.PD_REQ.DOMAIN, R.SYS_POWER.PD_REQ.ON, R.SYS_POWER.PD_RESULT.CODE, R.SYS_POWER.PD_RESULT.BUSY,
        R.SYS_POWER.PD_RESULT.QUIESCE_US] s t) ∧
  (∀ (s : State) (src : Src) (d : Nat),
    Reaches s.chip src 2 →
    s.chip.mgrOrCtl src = true →
    d ≤ 24 →
    (s.chip.domainClaimed d = false ∨ isSecure src = true) →
    s.chip.flag R.SYS_POWER.PD_RESULT.BUSY = false →
    s.chip.modeBusy = false →
    s.chip.anyResetting = false →
    s.chip.pow.cmpRising = false →
    requestable s.chip.mode d = true →
    s.chip.prereqOk d false = true →
    Completes (.pdPowerOff src d) s fun t =>
      t.chip.pow.req = some (d, false) ∧ t.chip.flag R.SYS_POWER.PD_RESULT.BUSY = true ∧ t.chip.pow.quiesce = [d] ∧ t.chip.pow.quFrom = s.chip.ps ∧
      Only [.rf, .pow] [R.SYS_POWER.PD_REQ.DOMAIN, R.SYS_POWER.PD_REQ.ON, R.SYS_POWER.PD_RESULT.CODE, R.SYS_POWER.PD_RESULT.BUSY,
        R.SYS_POWER.PD_RESULT.QUIESCE_US] s t) ∧
  (∀ (s : State) (d : Nat),
    d < 25 →
    s.chip.pow.req = some (d, true) →
    Completes (.pdPowerOnDone d) s fun t =>
      t.chip.pdOn d = true ∧ t.chip.get R.SYS_POWER.PD_RESULT.CODE = E.NONE ∧ t.chip.flag R.SYS_POWER.PD_RESULT.BUSY = false ∧ t.chip.pow.req = none ∧
      (t.chip.get (H.IRQ_RAW 2)).testBit 0 = true ∧
      (d ≠ PD.CMP → Only [.rf, .deliveries, .pow] [R.SYS_POWER.PD_ON.ON, R.SYS_POWER.PD_RESULT.CODE, R.SYS_POWER.PD_RESULT.BUSY,
        R.SYS_POWER.PD_RESULT.QUIESCE_US, H.IRQ_RAW 2] s t) ∧
      OnlyPages [.rf, .deliveries, .pow] (2 :: (List.range 56).map (0x0E8 + ·)) s t) ∧
  (∀ (s : State) (d : Nat),
    s.chip.pow.req = some (d, false) →
    s.chip.allQuiet = true →
    s.chip.ps ≤ s.chip.pow.quFrom + 520000000 →
    Completes (.quiesceDone) s fun t =>
      t.chip.pdOn d = false ∧ t.chip.get R.SYS_POWER.PD_RESULT.CODE = E.NONE ∧ t.chip.flag R.SYS_POWER.PD_RESULT.BUSY = false ∧ t.chip.pow.req = none ∧
      (t.chip.get (H.IRQ_RAW 2)).testBit 0 = true ∧ MemSame s t) ∧
  (∀ (s : State) (d : Nat),
    s.chip.pow.req = some (d, false) →
    500 ≤ s.chip.quiesceUs →
    (s.chip.allQuiet = false ∨ s.chip.pow.quFrom + 520000000 < s.chip.ps) →
    Completes (.quiesceRefused) s fun t =>
      t.chip.get R.SYS_POWER.PD_RESULT.CODE = E.BUSY ∧ t.chip.flag R.SYS_POWER.PD_RESULT.BUSY = false ∧ t.chip.pow.req = none ∧ t.chip.pow.quiesce = [] ∧
      t.chip.get R.SYS_POWER.REFUSE_CNT.COUNT = min (s.chip.get R.SYS_POWER.REFUSE_CNT.COUNT + 1) (2 ^ 32 - 1) ∧
      Only [.rf, .deliveries, .pow] [R.SYS_POWER.PD_RESULT.CODE, R.SYS_POWER.PD_RESULT.BUSY, R.SYS_POWER.PD_RESULT.QUIESCE_US,
        R.SYS_POWER.REFUSE_CNT.COUNT, H.IRQ_RAW 2] s t) ∧
  (∀ (s : State),
    s.chip.pow.req = none →
    s.chip.modeBusy = true →
    s.chip.modeTarget = Mode.VIGIL →
    500 ≤ s.chip.quiesceUs →
    (s.chip.allQuiet = false ∨ s.chip.vigilInTime = false) →
    Completes (.quiesceRefused) s fun t =>
      t.chip.mode = s.chip.mode ∧ t.chip.modeBusy = false ∧ t.chip.get R.SYS_MODE.MODE_STAT.LAST_ERR = E.BUSY ∧
      t.chip.get R.SYS_POWER.PD_RESULT.CODE = E.BUSY ∧ t.chip.pow.quiesce = [] ∧
      t.chip.get R.SYS_MODE.REJECT_CNT.COUNT = min (s.chip.get R.SYS_MODE.REJECT_CNT.COUNT + 1) (2 ^ 32 - 1) ∧
      t.chip.get R.SYS_POWER.REFUSE_CNT.COUNT = min (s.chip.get R.SYS_POWER.REFUSE_CNT.COUNT + 1) (2 ^ 32 - 1) ∧
      Only [.rf, .deliveries, .pow] [R.SYS_MODE.MODE_STAT.BUSY, R.SYS_MODE.MODE_STAT.TARGET, R.SYS_MODE.MODE_STAT.LAST_ERR, R.SYS_MODE.REJECT_CNT.COUNT,
        H.IRQ_RAW 1, R.SYS_POWER.PD_RESULT.CODE, R.SYS_POWER.PD_RESULT.BUSY, R.SYS_POWER.PD_RESULT.QUIESCE_US, R.SYS_POWER.REFUSE_CNT.COUNT, H.IRQ_RAW 2] s t)

/-- Entering VIGIL, waking and resuming (R31, R46, R51, R52, R54, R74). -/
def Obligations.VigilEntryAndResume : Prop :=
  (∀ (s : State),
    s.chip.modeBusy = true →
    s.chip.modeTarget = Mode.VIGIL →
    s.chip.allQuiet = true →
    s.chip.vigilInTime = true →
    Completes (.vigilEntryDone) s fun t =>
      t.chip.mode = Mode.VIGIL ∧ t.chip.modeBusy = false ∧ t.chip.get R.SYS_POWER.PD_ON.ON = 3 ∧ t.chip.led.savedFrame = s.chip.get R.LDG.LIVE_FRAME.FRAME ∧
      (t.chip.get R.SAF.SAFE_OK.FORCED).testBit 5 = true ∧
      t.mem = { dram := s.mem.dram, host := s.mem.host, cask := s.mem.cask } ∧ t.pending = s.pending ∧ t.chip.ps = s.chip.ps) ∧
  (∀ (s : State) (digest vector : Nat),
    s.chip.mode = Mode.VIGIL →
    s.chip.modeBusy = false →
    s.chip.pow.wake.isSome = true →
    Completes (.vigilWake digest vector) s fun t =>
      t.chip.mode = Mode.VIGIL ∧ t.chip.modeBusy = true ∧ t.chip.modeTarget = Mode.RUN ∧ t.chip.get R.SYS_BOOT.BOOT_STAT.STAGE = 7 ∧
      t.chip.get R.SYS_POWER.PD_ON.ON = R.SYS_POWER.PD_ON.ON.rst ∧ t.chip.get R.LDG.LIVE_FRAME.FRAME = (s.chip.led.savedFrame + 1) % 2 ^ 32 ∧ MemSame s t) ∧
  (∀ (s : State) (digest vector : Nat),
    s.chip.mode = Mode.VIGIL →
    s.chip.modeBusy = true →
    s.chip.get R.SYS_BOOT.BOOT_STAT.STAGE = 7 →
    s.chip.get R.SAF.ISL_STAT.STATE ≠ 0 →
    s.chip.flag R.SEC_WDOG.WD_CFG.ARMED = false →
    s.chip.resumeDigest s.mem.dram = digest →
    Completes (.vigilWake digest vector) s fun t =>
      t.chip.flag R.SEC_WDOG.WD_CFG.ARMED = true ∧ (t.chip.get R.CTL.CC_STAT.RUNNING).testBit 0 = true ∧ (t.chip.get R.CTL.CC_STAT.SECURE).testBit 0 = true ∧
      t.chip.ctl.core.find? 0 = some { pc := vector } ∧ t.chip.pow.wake = none ∧
      Only [.rf, .ctl, .pow] [R.SEC_WDOG.WD_CFG.ARMED, R.SEC_WDOG.WD_STAT.NEXT_KEY, R.SEC_WDOG.WD_STAT.ELAPSED, R.CTL.CC_STAT.SECURE,
        R.CTL.CC_STAT.RUNNING] s t) ∧
  (∀ (s : State) (digest vector : Nat),
    s.chip.mode = Mode.VIGIL →
    s.chip.modeBusy = true →
    s.chip.get R.SYS_BOOT.BOOT_STAT.STAGE = 7 →
    s.chip.get R.SAF.ISL_STAT.STATE ≠ 0 →
    s.chip.flag R.SEC_WDOG.WD_CFG.ARMED = false →
    s.chip.resumeDigest s.mem.dram ≠ digest →
    Completes (.vigilWake digest vector) s fun t =>
      t.chip.mode = Mode.BOOT ∧ t.chip.modeBusy = false ∧ t.chip.get R.SYS_BOOT.BOOT_STAT.ERR = 0x16 ∧ t.chip.get R.SYS_BOOT.BOOT_STAT.STAGE = 3 ∧
      t.chip.get R.SYS_MODE.MODE_STAT.LAST_ERR = E.STATE ∧ t.mem = { s.mem with dram := [] } ∧ t.pending = s.pending) ∧
  (∀ (s : State),
    s.chip.mode = Mode.VIGIL →
    s.chip.modeBusy = false →
    s.chip.get R.SYS_MODE.VIGIL_CFG.TIMEOUT ≠ 0 →
    s.chip.pow.vigilAt + s.chip.get R.SYS_MODE.VIGIL_CFG.TIMEOUT * 60000000000000 ≤ s.chip.ps →
    Completes (.vigilTimeout) s fun t =>
      t.chip.mode = Mode.DORMANT ∧ t.chip.get R.SYS_MODE.MODE_STAT.DCAUSE = 1 ∧ t.chip.get R.SYS_POWER.PD_ON.ON = 0 ∧
      ResetBut isDormantPage [R.SYS_MODE.MODE_STAT.MODE, R.SYS_MODE.MODE_STAT.CAUSE, R.SYS_MODE.MODE_STAT.DCAUSE, R.SYS_POWER.PD_ON.ON,
        R.SYS_POWER.ABORT_CNT.COUNT, R.SYS_BOOT.STRAPS.SERVICE_EN] t ∧
      t.mem.dram = [] ∧ t.mem.sram = [] ∧ t.mem.isl = [] ∧ t.mem.host = s.mem.host ∧ t.pending = s.pending)

/-- Thermal protection, its release and the policy loops (R51, R55, R56, R57, R58, R364). -/
def Obligations.ThermalProtectionAndLoops : Prop :=
  (∀ (s : State) (i : Nat) (tj : Int),
    i < 10 →
    125 ≤ tj →
    s.chip.pdOn PD.DISP = true →
    Completes (.thermalShutdown i tj) s fun t =>
      t.chip.mode = Mode.DORMANT ∧ t.chip.get R.SYS_MODE.MODE_STAT.DCAUSE = 3 ∧ t.chip.pow.hot = true ∧ t.chip.get R.SYS_POWER.PD_ON.ON = 0 ∧
      ResetBut isDormantPage [R.SYS_MODE.MODE_STAT.MODE, R.SYS_MODE.MODE_STAT.CAUSE, R.SYS_MODE.MODE_STAT.DCAUSE, R.SYS_POWER.PD_ON.ON,
        R.SYS_POWER.ABORT_CNT.COUNT, R.SYS_BOOT.STRAPS.SERVICE_EN] t ∧
      t.mem.dram = [] ∧ t.mem.sram = [] ∧ t.mem.isl = [] ∧ t.mem.host = s.mem.host ∧ t.pending = s.pending) ∧
  (∀ (s : State) (i : Nat) (deg : Int),
    i < 8 →
    (105 ≤ deg ∧ deg < 110) →
    s.chip.pdOn PD.DISP = true →
    s.chip.pow.gpuHot = false →
    Completes (.thermalThrottle i deg) s fun t =>
      t.chip.loop 1 = max 300 (s.chip.loop 1 - 50) % 2 ^ 16 ∧ t.chip.flag (R.SYS_POLICY.STAT.PROTECT 1) = true ∧ t.chip.pow.gpuHot = true ∧
      t.chip.pow.stepAt = s.chip.ps ∧ t.chip.get (R.PWR_THERM.TEMP.TEMP i) = deg.toNat ∧
      (max 300 (s.chip.loop 1 - 50) < s.chip.get (R.SYS_POLICY.BOUNDS.FLOOR 1) → 1 ∉ s.chip.pow.below →
        t.chip.flag (R.SYS_POLICY.STAT.OVERRIDE 1) = true ∧ Recorded 0x0304 s t) ∧
      t.chip.gfx = s.chip.coresRan.gfx ∧ OnlyPages [.rf, .deliveries, .pow, .csk, .gfx] [3, 0x022] s t) ∧
  (∀ (s : State) (i : Nat) (deg : Int),
    (i = 8 ∨ i = 9) →
    105 ≤ deg →
    s.chip.pdOn PD.DISP = true →
    Completes (.thermalThrottle i deg) s fun t =>
      t.chip.pow.fieldHot = true ∧ (s.chip.pow.fieldHot = false → t.chip.get R.HAP.HAP_STAT.RAIL ≤ 40) ∧
      Only [.rf, .pow, .deliveries] [R.PWR_THERM.TEMP.TEMP i, R.PWR_THERM.TEMP.PEAK i, R.PWR_THERM.TMAX.TEMP, R.PWR_THERM.TMAX.SENSOR,
        R.HAP.HAP_STAT.RAIL, H.IRQ_RAW 0x1A0] s t) ∧
  (∀ (s : State) (deg : Int),
    (105 ≤ deg ∧ deg < 110) →
    s.chip.pow.gpuHot = true →
    s.chip.pow.stepAt + 1000000000 ≤ s.chip.ps →
    Completes (.throttleStep deg) s fun t =>
      t.chip.loop 1 = max 300 (s.chip.loop 1 - 50) % 2 ^ 16 ∧ t.chip.pow.stepAt = s.chip.ps ∧
      t.chip.gfx = s.chip.coresRan.gfx ∧ OnlyPages [.rf, .deliveries, .pow, .csk, .gfx] [3] s t) ∧
  (∀ (s : State) (l : List Int),
    l.length = 8 →
    ((l.all fun x => decide (x < 102)) = true) →
    s.chip.pow.gpuHot = true →
    Completes (.thermalRelease false l) s fun t =>
      t.chip.pow.gpuHot = false ∧ t.chip.pow.halved = false ∧ t.chip.flag (R.SYS_POLICY.STAT.PROTECT 1) = false ∧
      (1 ∈ t.chip.pow.recover ↔ s.chip.loop 1 < s.chip.get (R.SYS_POLICY.BOUNDS.FLOOR 1)) ∧ OnlyPages [.rf, .pow] [3, 0x022] s t) ∧
  (∀ (s : State) (n : Nat) (want w : Int),
    (w = if n = 1 then s.chip.thermalWant want else want) →
    n < 2 →
    s.chip.pdOn PD.DISP = true →
    s.chip.flag (R.SYS_POLICY.STAT.PROTECT n) = false →
    n ∉ s.chip.pow.recover →
    (s.chip.get (R.SYS_POLICY.BOUNDS.FLOOR n) : Int) ≤ w ∧ w ≤ (s.chip.get (R.SYS_POLICY.BOUNDS.CEIL n) : Int) →
    Completes (.policyLoopStep n want) s fun t =>
      t.chip.loop n = w.toNat % 2 ^ 16 ∧ (n = 1 → (s.chip.get R.SYS_POLICY.THERM_TARGET.TARGET : Int) < s.chip.computeHot → t.chip.loop 1 ≤ s.chip.loop 1) ∧
      (n = 0 → t.chip.get R.PWR_RAILS.VCORE_STAT.SET_MV = t.chip.loop 0 % 2 ^ R.PWR_RAILS.VCORE_STAT.SET_MV.w) ∧
      t.chip.gfx = (if n = 1 then s.chip.coresRan.gfx else s.chip.gfx) ∧ Only [.rf, .gfx] [R.SYS_POLICY.STAT.VALUE n, R.PWR_RAILS.VCORE_STAT.SET_MV] s t) ∧
  (∀ (s : State) (n : Nat) (want w : Int),
    (w = if n = 1 then s.chip.thermalWant want else want) →
    n < 2 →
    s.chip.pdOn PD.DISP = true →
    s.chip.flag (R.SYS_POLICY.STAT.PROTECT n) = false →
    n ∉ s.chip.pow.recover →
    s.chip.get (R.SYS_POLICY.BOUNDS.FLOOR n) ≤ s.chip.get (R.SYS_POLICY.BOUNDS.CEIL n) →
    (s.chip.get (R.SYS_POLICY.BOUNDS.CEIL n) : Int) < w →
    Completes (.policyLoopStep n want) s fun t =>
      t.chip.loop n = s.chip.get (R.SYS_POLICY.BOUNDS.CEIL n) % 2 ^ 16 ∧ t.chip.flag (R.SYS_POLICY.STAT.CLAMP n) = true ∧
      t.chip.get (R.SYS_POLICY.CLAMP_CNT.COUNT n) = min (s.chip.get (R.SYS_POLICY.CLAMP_CNT.COUNT n) + 1) (2 ^ 32 - 1) ∧
      (t.chip.get (H.IRQ_RAW 3)).testBit n = true ∧
      t.chip.gfx = (if n = 1 then s.chip.coresRan.gfx else s.chip.gfx) ∧
      Only [.rf, .deliveries, .gfx] [R.SYS_POLICY.STAT.VALUE n, R.SYS_POLICY.STAT.CLAMP n, R.SYS_POLICY.CLAMP_CNT.COUNT n, H.IRQ_RAW 3, R.PWR_RAILS.VCORE_STAT.SET_MV] s t)

/-- The field bridge counts frames, goes down and comes back (R9, R10, R11). -/
def Obligations.FieldBridgeFollowsItsFrames : Prop :=
  (∀ (s : State) (ok : Bool),
    s.chip.brg.up = true →
    s.chip.pdOn PD.DISP = true →
    Completes (.bridgeFrameRx ok) s fun t =>
      t.chip.brg = { s.chip.brg with retries := if ok then 0 else s.chip.brg.retries + 1, lastFrame := s.chip.ps } ∧ Only [.brg] [] s t) ∧
  (∀ (s : State),
    s.chip.brg.up = true →
    s.chip.pdOn PD.DISP = true →
    (17 ≤ s.chip.brg.retries ∨ s.chip.brg.lastFrame + 10000000 ≤ s.chip.ps) →
    Completes (.bridgeDown) s fun t =>
      t.chip.brg.up = false ∧ t.chip.brg.hold = holdPages ∧ (t.chip.get (H.IRQ_RAW 0x130)).testBit 3 = true ∧
      t.mem = s.mem ∧ t.pending = s.pending ∧ t.chip.mode = s.chip.mode ∧ t.chip.ps = s.chip.ps) ∧
  (∀ (s : State),
    s.chip.brg.up = false →
    s.chip.pdOn PD.DISP = true →
    Completes (.bridgeRetrained) s fun t =>
      t.chip.brg = { s.chip.brg with up := true, retries := 0, lastFrame := s.chip.ps } ∧ Only [.brg] [] s t)

/-- What wakes a dormant or sleeping device (R46, R51, R62, R359). -/
def Obligations.WakeSourcesLeaveDormant : Prop :=
  (∀ (s : State),
    s.chip.mode = Mode.DORMANT →
    s.chip.pow.hot = false →
    Completes (.wakeRise true) s fun t =>
      t.chip.mode = Mode.BOOT ∧ t.chip.get R.SYS_MODE.MODE_STAT.CAUSE = 0 ∧ t.chip.get R.SYS_POWER.PD_ON.ON = 3 ∧
      t.chip.pow = { t0 := s.chip.ps } ∧
      Only [.rf, .pow, .brg] [R.SYS_MODE.MODE_STAT.MODE, R.SYS_MODE.MODE_STAT.CAUSE, R.SYS_POWER.PD_ON.ON] s t) ∧
  (∀ (s : State) (v : Bool),
    s.chip.mode = Mode.VIGIL →
    s.chip.modeBusy = false →
    s.chip.flag R.SYS_MODE.VIGIL_CFG.WK_PIN = true →
    s.chip.pow.wake = none →
    Completes (.wakeRise v) s fun t =>
      t.chip.pow = { s.chip.pow with wake := some 0 } ∧ Only [.pow] [] s t) ∧
  (∀ (s : State),
    s.chip.mode = Mode.VIGIL →
    s.chip.modeBusy = false →
    s.chip.flag R.SYS_MODE.VIGIL_CFG.WK_GPIO = true →
    s.chip.pow.wake = none →
    Completes (.wakeGpio) s fun t =>
      t.chip.pow = { s.chip.pow with wake := some 6 } ∧ Only [.pow] [] s t) ∧
  (∀ (s : State),
    s.chip.mode = Mode.VIGIL →
    s.chip.modeBusy = false →
    s.chip.flag R.SYS_MODE.VIGIL_CFG.WK_RTC = true →
    s.chip.rtc / 1024 % 2 ^ 32 = s.chip.get R.CSK_RTC.RTC_ALARM.SEC →
    s.chip.pow.wake = none →
    Completes (.rtcAlarm) s fun t =>
      t.chip.pow = { s.chip.pow with wake := some 5 } ∧ Only [.pow] [] s t) ∧
  (∀ (s : State) (fell : Bool),
    s.chip.mode = Mode.DORMANT →
    (fell = true ∨ s.chip.pow.railsOff.isSome = true) →
    s.chip.holdoffOver = true →
    s.chip.pow.hot = false →
    Completes (.vinRecovery fell) s fun t =>
      t.chip.mode = Mode.BOOT ∧ t.chip.get R.SYS_MODE.MODE_STAT.CAUSE = 1 ∧
      Only [.rf, .pow, .brg] [R.SYS_MODE.MODE_STAT.MODE, R.SYS_MODE.MODE_STAT.CAUSE, R.SYS_POWER.PD_ON.ON] s t) ∧
  (∀ (s : State) (vin : Nat),
    s.chip.mode = Mode.DORMANT →
    s.chip.pow.railsOff.isSome = true →
    s.chip.holdoffOver = true →
    8600 < vin →
    s.chip.pow.hot = true →
    s.chip.pow.bootHeld = none →
    Completes (.pfwWakeHoldoffExpiry vin) s fun t =>
      t.chip.pow = { s.chip.pow with bootHeld := some 1 } ∧ Only [.pow] [] s t) ∧
  (∀ (s : State) (tj : Int) (cause : Nat),
    s.chip.mode = Mode.DORMANT →
    s.chip.pow.hot = true →
    tj ≤ 100 →
    s.chip.pow.bootHeld = some cause →
    cause < 8 →
    Completes (.thermalBootRelease tj) s fun t =>
      t.chip.mode = Mode.BOOT ∧ t.chip.get R.SYS_MODE.MODE_STAT.CAUSE = cause ∧ t.chip.pow = { t0 := s.chip.ps } ∧
      Only [.rf, .pow, .brg] [R.SYS_MODE.MODE_STAT.MODE, R.SYS_MODE.MODE_STAT.CAUSE, R.SYS_POWER.PD_ON.ON] s t)

/-- The start-up sequence, its straps and its failures (R51, R61, R62, R63, R64, R65, R66, R67, R68, R70, R71, R75). -/
def Obligations.StartUpStages : Prop :=
  (∀ (s : State) (bootsel devid : Nat) (sv ovg : Bool),
    bootsel < 6 →
    devid < 4 →
    s.chip.mode = Mode.BOOT →
    s.chip.get R.SYS_BOOT.BOOT_STAT.STAGE = 0 →
    Completes (.powerUpSequence bootsel devid sv ovg) s fun t =>
      t.chip.get R.SYS_BOOT.BOOT_STAT.STAGE = 1 ∧ t.chip.get R.SYS_BOOT.STRAPS.BOOTSEL = bootsel ∧ t.chip.get R.SYS_BOOT.STRAPS.DEVID = devid ∧
      t.chip.flag R.SYS_BOOT.STRAPS.SERVICE_EN = sv ∧ t.chip.get R.IMX.MANAGER.MGR = (if bootsel = 5 then 0 else bootsel) ∧
      t.chip.get R.LDG_SYNC.SYNC_STATE.DEVID = devid ∧ t.chip.led.ns = 0 ∧ t.chip.led.lineStart = s.chip.ps ∧
      t.chip.get R.SYS_POWER.PD_ON.ON = R.SYS_POWER.PD_ON.ON.rst ∧
      OnlyPages [.rf, .deliveries, .led] [2, 4, 0x12, 0x14, 0x20, 0x21, 0x50] s t) ∧
  (∀ (s : State) (bootsel devid : Nat) (sv ovg : Bool),
    (bootsel = 6 ∨ bootsel = 7) →
    devid < 4 →
    s.chip.mode = Mode.BOOT →
    s.chip.get R.SYS_BOOT.BOOT_STAT.STAGE = 0 →
    Completes (.powerUpSequence bootsel devid sv ovg) s fun t =>
      t.chip.get R.SYS_BOOT.BOOT_STAT.STAGE = 6 ∧ t.chip.get R.SYS_BOOT.BOOT_STAT.ERR = 0x15 ∧ t.chip.mode = Mode.BOOT ∧ MemSame s t) ∧
  (∀ (s : State) (n rail : Nat),
    (1 ≤ n ∧ n ≤ 6) →
    s.chip.mode = Mode.BOOT →
    s.chip.get R.SYS_BOOT.BOOT_STAT.STAGE = 0 →
    Completes (.railStepTimeout n rail) s fun t =>
      t.chip.mode = Mode.DORMANT ∧ t.chip.get R.SYS_MODE.MODE_STAT.DCAUSE = 2 ∧ t.chip.get R.SYS_POWER.PD_ON.ON = 0 ∧
      ResetBut isDormantPage [R.SYS_MODE.MODE_STAT.MODE, R.SYS_MODE.MODE_STAT.CAUSE, R.SYS_MODE.MODE_STAT.DCAUSE, R.SYS_POWER.PD_ON.ON,
        R.SYS_POWER.ABORT_CNT.COUNT, R.SYS_BOOT.STRAPS.SERVICE_EN] t ∧ t.pending = s.pending) ∧
  (∀ (s : State) (ta tb : FlashTable) (ca cb : FlashImage) (part : List (List Byte)) (b : Bool) (x : FlashImage),
    s.chip.mode = Mode.BOOT →
    s.chip.get R.SYS_BOOT.BOOT_STAT.STAGE = 1 →
    partTable [ta, tb] = some part →
    (pickCopy part 0x01 islSize (s.chip.get R.SEC_FUSE.ISL_ROLLBACK.COUNT) (fun _ => true) [ca, cb] = some (b, x)) →
    earlyCrcOk x = false →
    Completes (.islandImageLoaded true ta tb ca cb) s fun t =>
      t.chip.get R.SYS_BOOT.BOOT_STAT.STAGE = 3 ∧ t.chip.get R.SYS_BOOT.BOOT_STAT.ISL_COPY = b2n b ∧ t.chip.get R.SYS_BOOT.BOOT_STAT.ERR = 0x13 ∧
      t.chip.get R.SYS_BOOT.BOOT_MS.EARLY_MS = 0xFFFF ∧ t.chip.get R.SAF.ISL_STAT.STATE = 1 ∧ (b = true → Recorded 0x0103 s t) ∧
      t.mem = { s.mem with isl := Memory.writeBytes s.mem.isl 0 x.bytes } ∧ t.pending = s.pending) ∧
  (∀ (s : State) (found : Bool) (ta tb : FlashTable) (ca cb : FlashImage),
    s.chip.mode = Mode.BOOT →
    s.chip.get R.SYS_BOOT.BOOT_STAT.STAGE = 1 →
    (found = false ∨ partTable [ta, tb] = none) →
    Completes (.islandImageLoaded found ta tb ca cb) s fun t =>
      t.chip.get R.SYS_BOOT.BOOT_STAT.STAGE = 6 ∧ t.chip.get R.SYS_BOOT.BOOT_STAT.ERR = (if found then 0x11 else 0x10) ∧
      t.chip.get R.SAF.ISL_STAT.STATE = 2 ∧ t.chip.get R.SYS_BOOT.BOOT_MS.EARLY_MS = 0xFFFF ∧ MemSame s t) ∧
  (∀ (s : State) (ta tb : FlashTable) (ca cb : FlashImage) (part : List (List Byte)),
    s.chip.mode = Mode.BOOT →
    s.chip.get R.SYS_BOOT.BOOT_STAT.STAGE = 1 →
    partTable [ta, tb] = some part →
    (pickCopy part 0x01 islSize (s.chip.get R.SEC_FUSE.ISL_ROLLBACK.COUNT) (fun _ => true) [ca, cb] = none) →
    Completes (.islandImageLoaded true ta tb ca cb) s fun t =>
      t.chip.get R.SYS_BOOT.BOOT_STAT.STAGE = 3 ∧ t.chip.get R.SYS_BOOT.BOOT_STAT.ERR = 0x12 ∧ t.chip.get R.SAF.ISL_STAT.STATE = 2 ∧
      t.chip.get R.SYS_BOOT.BOOT_MS.EARLY_MS = 0xFFFF ∧ t.chip.get R.SYS_BOOT.EARLY.SKIPPED = s.chip.get R.SYS_BOOT.EARLY.SKIPPED ∧ MemSame s t) ∧
  (∀ (s : State) (ta tb : FlashTable) (ca cb : FlashImage) (part : List (List Byte)) (b : Bool) (x : FlashImage) (e : List Byte),
    s.chip.mode = Mode.BOOT →
    s.chip.get R.SYS_BOOT.BOOT_STAT.STAGE = 1 →
    partTable [ta, tb] = some part →
    (pickCopy part 0x01 islSize (s.chip.get R.SEC_FUSE.ISL_ROLLBACK.COUNT) (fun _ => true) [ca, cb] = some (b, x)) →
    earlyCrcOk x = true →
    x.early = [e] →
    Early.out (padTo 32 e) < 8 →
    Early.valuesOk (padTo 32 e) = false →
    Completes (.islandImageLoaded true ta tb ca cb) s fun t =>
      t.chip.get R.SYS_BOOT.BOOT_STAT.STAGE = 3 ∧ (t.chip.get R.SYS_BOOT.EARLY.SKIPPED).testBit (Early.out (padTo 32 e)) = true ∧
      t.chip.get R.SYS_BOOT.BOOT_MS.EARLY_MS = 0xFFFF ∧ t.chip.scn = s.chip.scn ∧ t.chip.cmp = s.chip.cmp) ∧
  (∀ (s : State) (ca cb sr : FlashImage) (b : Bool) (x : FlashImage),
    s.chip.mode = Mode.BOOT →
    s.chip.get R.SYS_BOOT.BOOT_STAT.STAGE = 3 →
    s.chip.get R.SYS_BOOT.STRAPS.BOOTSEL ≠ 5 →
    pickCopy s.chip.pow.part 0x03 ccSize (s.chip.get R.SEC_FUSE.CC_ROLLBACK.COUNT) s.chip.authentic [ca, cb] = some (b, x) →
    Completes (.ccImageLoaded ca cb sr) s fun t =>
      t.chip.get R.SYS_BOOT.BOOT_STAT.STAGE = 4 ∧ t.chip.get R.SYS_BOOT.BOOT_STAT.CC_COPY = b2n b ∧ t.chip.flag R.SEC_WDOG.WD_CFG.ARMED = true ∧
      t.chip.ctl.core.find? 0 = some { pc := sramBase } ∧ (t.chip.get R.CTL.CC_STAT.SECURE).testBit 0 = true ∧ (b = true → Recorded 0x0103 s t) ∧
      t.mem = { s.mem with sram := Memory.writeBytes s.mem.sram 0 x.bytes } ∧ t.pending = s.pending ∧
      OnlyPages [.rf, .deliveries, .ctl, .csk] [4, 0x31, 0x40] s { t with mem := s.mem }) ∧
  (∀ (s : State) (ca cb sr : FlashImage),
    s.chip.mode = Mode.BOOT →
    s.chip.get R.SYS_BOOT.BOOT_STAT.STAGE = 3 →
    s.chip.get R.SYS_BOOT.STRAPS.BOOTSEL ≠ 5 →
    pickCopy s.chip.pow.part 0x03 ccSize (s.chip.get R.SEC_FUSE.CC_ROLLBACK.COUNT) s.chip.authentic [ca, cb] = none →
    Completes (.ccImageLoaded ca cb sr) s fun t =>
      t.chip.get R.SYS_BOOT.BOOT_STAT.STAGE = 6 ∧ t.chip.get R.SYS_BOOT.BOOT_STAT.ERR = 0x14 ∧
      Only [.rf, .deliveries] [R.SYS_BOOT.BOOT_STAT.STAGE, R.SYS_BOOT.BOOT_STAT.ERR, H.IRQ_RAW 4] s t) ∧
  (∀ (s : State) (ca cb x : FlashImage),
    s.chip.mode = Mode.BOOT →
    s.chip.get R.SYS_BOOT.BOOT_STAT.STAGE = 3 →
    s.chip.get R.SYS_BOOT.STRAPS.BOOTSEL = 5 →
    s.chip.pow.loaded = true →
    (Memory.readBytes s.mem.sram 0 x.bytes.length = x.bytes ∧ x.bytes.length ≤ ccSize) →
    (x.crcOk = true ∧ s.chip.get R.SEC_FUSE.CC_ROLLBACK.COUNT ≤ x.version ∧ s.chip.authentic x = true) →
    Completes (.ccImageLoaded ca cb x) s fun t =>
      t.chip.get R.SYS_BOOT.BOOT_STAT.STAGE = 4 ∧ t.chip.get R.SYS_BOOT.BOOT_STAT.CC_COPY = 0 ∧ t.chip.ctl.core.find? 0 = some { pc := sramBase } ∧
      OnlyPages [.rf, .deliveries, .ctl] [4, 0x31, 0x40] s t) ∧
  (∀ (s : State) (src : Src),
    Reaches s.chip src 4 →
    isSecure src = true →
    s.chip.mode = Mode.BOOT →
    s.chip.get R.SYS_BOOT.BOOT_STAT.STAGE = 4 →
    Completes (.bootReady src) s fun t =>
      t.chip.mode = Mode.RUN ∧ t.chip.get R.SYS_BOOT.BOOT_STAT.STAGE = 5 ∧ t.chip.get R.SYS_POWER.PD_ON.ON = 0x1FFFFFF ∧
      (t.chip.get (H.IRQ_RAW 1)).testBit 0 = true ∧
      OnlyPages [.rf, .deliveries] ([1, 2, 4] ++ (List.range 56).map (0x0E8 + ·)) s t) ∧
  (∀ (s : State),
    Reaches s.chip (.pf 0) 4 →
    s.chip.get R.SYS_BOOT.STRAPS.BOOTSEL = 5 →
    Completes (.recoveryLoad (.pf 0)) s fun t =>
      t.chip.pow = { s.chip.pow with loaded := true } ∧ t.chip.get R.SYS_BOOT.BOOT_CTRL.LOAD = 1 ∧ Only [.rf, .pow] [R.SYS_BOOT.BOOT_CTRL.LOAD] s t) ∧
  (∀ (s : State),
    s.chip.mode ≠ Mode.DORMANT →
    Completes (.sysRstn) s fun t =>
      t.chip.mode = Mode.BOOT ∧ t.chip.get R.SYS_MODE.MODE_STAT.CAUSE = 2 ∧ t.chip.get R.SYS_BOOT.BOOT_STAT.STAGE = 0 ∧
      ResetBut isAonPage [R.SYS_MODE.MODE_STAT.CAUSE, R.SYS_MODE.MODE_STAT.DCAUSE, R.SYS_BOOT.STRAPS.SERVICE_EN, R.SYS_POWER.PD_ON.ON] t ∧
      t.chip.get R.SYS_POWER.PD_ON.ON = 3 ∧ t.mem = { host := s.mem.host, cask := s.mem.cask } ∧ t.pending = s.pending ∧ t.chip.gfx = {} ∧ t.chip.imx.rings = [] ∧ t.chip.stg = [])

/-- Retrying an early output, and readiness of the host ports (R69, R72). -/
def Obligations.EarlyPictureAndHostPorts : Prop :=
  (∀ (s : State) (n : Nat) (e : List Byte),
    n < 8 →
    s.chip.pow.early.find? n = some e →
    (s.chip.get R.SYS_BOOT.EARLY.SKIPPED).testBit n = true →
    s.chip.flag (R.SCN_OUT.OUT_STAT.HPD n) = true →
    Early.mode e < 2 →
    s.chip.flag (R.SCN_OUT.OUT_CFG.ENABLE n) = true →
    (s.chip.scnOut n).link = LinkSt.IDLE →
    s.chip.lvds n = false →
    Completes (.earlyRetry n) s fun t =>
      (t.chip.get (H.IRQ_RAW 4)).testBit 2 = true ∧ (t.chip.scnOut n).link = LinkSt.TRAINING ∧ MemSame s t) ∧
  (∀ (s : State) (p : Nat),
    p < 4 →
    p ∈ s.chip.imx.perst →
    Completes (.perstnDeassert p) s fun t =>
      p ∉ t.chip.imx.perst ∧ t.chip.imx.perstAt.find? p = some s.chip.ps ∧ Only [.imx] [] s t) ∧
  (∀ (s : State) (p width speed : Nat),
    p < 4 →
    s.chip.pdOn PD.HOST = true →
    (width = 1 ∨ width = 2 ∨ width = 4) →
    (1 ≤ speed ∧ speed ≤ 4) →
    p ∉ s.chip.imx.perst →
    s.chip.pow.t0 + 90000000000 ≤ s.chip.ps →
    s.chip.imx.perstAt.getD p 0 + 90000000000 ≤ s.chip.ps →
    Completes (.pciePortReady p width speed) s fun t =>
      p ∈ t.chip.imx.ready ∧ t.chip.get (R.IMX.PORT_LINK.WIDTH p) = width ∧
      t.chip.get (R.IMX.PORT_LINK.SPEED p) = speed ∧
      Only [.rf, .imx] [R.IMX.PORT_LINK.WIDTH p, R.IMX.PORT_LINK.SPEED p] s t)

/-- The surge clamp, the ideal diode and the power-fail warning (R51, R338, R354, R357, R359, R360). -/
def Obligations.SupplyEntryEvents : Prop :=
  (∀ (s : State) (vin : Nat),
    s.chip.kilnFree = true →
    s.chip.flag R.PWR_ENTRY.ENTRY_STAT.OVG_FITTED = true →
    s.chip.pow.clampAt = none →
    62000 < vin →
    Completes (.surgeClamp vin) s fun t =>
      t.chip.flag R.PWR_ENTRY.ENTRY_STAT.CLAMPING = true ∧ t.chip.pow.clampAt = some s.chip.ps ∧
      t.chip.get R.PWR_ENTRY.CLAMP_CNT.COUNT = min (s.chip.get R.PWR_ENTRY.CLAMP_CNT.COUNT + 1) (2 ^ 32 - 1) ∧
      (t.chip.get (H.IRQ_RAW 0x020)).testBit 1 = true ∧ Recorded 0x0300 s t ∧
      Only [.rf, .deliveries, .pow, .csk] [R.PWR_ENTRY.VIN_MON.VIN, R.PWR_ENTRY.VIN_MON.VSYS, R.PWR_ENTRY.ENTRY_STAT.CLAMPING,
        R.PWR_ENTRY.ENTRY_STAT.CLAMP_MS, R.PWR_ENTRY.CLAMP_CNT.COUNT, H.IRQ_RAW 0x020] s t) ∧
  (∀ (s : State) (vin at_ : Nat),
    s.chip.pow.clampAt = some at_ →
    vin ≤ 62000 →
    Completes (.clampRelease vin) s fun t =>
      t.chip.flag R.PWR_ENTRY.ENTRY_STAT.CLAMPING = false ∧ t.chip.pow.clampAt = none ∧ (at_, s.chip.ps) ∈ t.chip.pow.clamps ∧
      Only [.rf, .pow] [R.PWR_ENTRY.VIN_MON.VIN, R.PWR_ENTRY.VIN_MON.VSYS, R.PWR_ENTRY.ENTRY_STAT.CLAMPING, R.PWR_ENTRY.ENTRY_STAT.CLAMP_MS] s t) ∧
  (∀ (s : State) (vin : Nat),
    s.chip.kilnFree = true →
    s.chip.flag R.PWR_ENTRY.ENTRY_STAT.OVG_FITTED = true →
    74000 < vin →
    Completes (.surgeTrip vin) s fun t =>
      t.chip.flag R.PWR_ENTRY.ENTRY_STAT.PFW = true ∧ t.chip.get R.PWR_ENTRY.ENTRY_STAT.PFW_SRC = 5 ∧ t.chip.pow.clampAt = none ∧
      t.chip.get R.PWR_ENTRY.CLAMP_TRIP.COUNT = min (s.chip.get R.PWR_ENTRY.CLAMP_TRIP.COUNT + 1) (2 ^ 32 - 1) ∧
      (t.chip.get (H.IRQ_RAW 0x020)).testBit 2 = true ∧ Recorded 0x0302 s t ∧ OnlyPages [.rf, .deliveries, .pow, .csk, .imx] ([0x020, 0x1B0] ++ viPages) s t) ∧
  (∀ (s : State) (vin vsys : Nat),
    s.chip.kilnFree = true →
    Completes (.reverseCurrent vin vsys) s fun t =>
      t.chip.flag R.PWR_ENTRY.ENTRY_STAT.REVG_ON = decide (vsys ≤ vin) ∧
      Only [.rf] [R.PWR_ENTRY.VIN_MON.VIN, R.PWR_ENTRY.VIN_MON.VSYS, R.PWR_ENTRY.ENTRY_STAT.REVG_ON] s t) ∧
  (∀ (s : State) (vin vsys : Nat),
    s.chip.kilnFree = true →
    s.chip.pow.lossAt = none →
    vin + 1000 ≤ vsys →
    Completes (.inputLoss vin vsys) s fun t =>
      t.chip.flag R.PWR_ENTRY.ENTRY_STAT.REVG_ON = false ∧ t.chip.pow = { s.chip.pow with lossAt := some s.chip.ps } ∧
      Only [.rf, .pow] [R.PWR_ENTRY.VIN_MON.VIN, R.PWR_ENTRY.VIN_MON.VSYS, R.PWR_ENTRY.ENTRY_STAT.REVG_ON] s t) ∧
  (∀ (s : State) (vin vsys at_ : Nat),
    s.chip.kilnFree = true →
    s.chip.pow.lossAt = some at_ →
    (vsys < vin + 1000 ∨ at_ + s.chip.get R.PWR_ENTRY.PFW_CFG.PFW_DELAY * 10000000 ≤ s.chip.ps) →
    Completes (.pfwDelayExpiry vin vsys) s fun t =>
      t.chip.pow.lossAt = none ∧
      (vsys < vin + 1000 → t.chip.get R.PWR_ENTRY.DIP_CNT.COUNT = min (s.chip.get R.PWR_ENTRY.DIP_CNT.COUNT + 1) (2 ^ 32 - 1) ∧
        t.chip.flag R.PWR_ENTRY.ENTRY_STAT.PFW = false ∧ (t.chip.get (H.IRQ_RAW 0x020)).testBit 0 = true) ∧
      (vin + 1000 ≤ vsys → t.chip.flag R.PWR_ENTRY.ENTRY_STAT.PFW = true ∧ t.chip.get R.PWR_ENTRY.ENTRY_STAT.PFW_SRC = 1 ∧ Recorded 0x0302 s t) ∧
      OnlyPages [.rf, .deliveries, .pow, .csk, .imx] ([0x020, 0x1B0] ++ viPages) s t) ∧
  (∀ (s : State) (vin vsys : Nat),
    s.chip.kilnFree = true →
    vsys < s.chip.get R.PWR_ENTRY.PFW_CFG.PFW_TH * 100 →
    Completes (.vsysLow vin vsys) s fun t =>
      t.chip.flag R.PWR_ENTRY.ENTRY_STAT.PFW = true ∧ t.chip.get R.PWR_ENTRY.ENTRY_STAT.PFW_SRC = 2 ∧ t.chip.pow.pfwAt = s.chip.ps ∧ Recorded 0x0302 s t ∧
      t.chip.flag R.CSK.CSK_CTRL.FREEZE = false ∧ t.chip.imx = { s.chip.imx with resets := [] } ∧
      OnlyPages [.rf, .pow, .csk, .imx] ([0x020, 0x1B0] ++ viPages) s t) ∧
  (∀ (s : State) (vin : Nat),
    s.chip.kilnFree = true →
    s.chip.flag R.PWR_ENTRY.PFW_CFG.EXT_EN = true →
    Completes (.externalPfwn vin) s fun t =>
      t.chip.flag R.PWR_ENTRY.ENTRY_STAT.PFW = true ∧ t.chip.get R.PWR_ENTRY.ENTRY_STAT.PFW_SRC = 3 ∧ Recorded 0x0302 s t ∧
      t.chip.get R.PWR_ENTRY.EXT_PFW.COUNT = min (s.chip.get R.PWR_ENTRY.EXT_PFW.COUNT + 1) (2 ^ 32 - 1) ∧ t.chip.imx = { s.chip.imx with resets := [] } ∧
      OnlyPages [.rf, .pow, .csk, .imx] ([0x020, 0x1B0] ++ viPages) s t) ∧
  (∀ (s : State) (written : Nat),
    s.chip.mode ≠ Mode.DORMANT →
    s.chip.flag R.PWR_ENTRY.ENTRY_STAT.PFW = true →
    Completes (.pfwnAssert written) s fun t =>
      t.chip.mode = Mode.DORMANT ∧ t.chip.get R.SYS_MODE.MODE_STAT.DCAUSE = 2 ∧ t.chip.get R.SYS_POWER.PD_ON.ON = 0 ∧
      t.chip.pow.railsOff = (if s.chip.get R.PWR_ENTRY.ENTRY_STAT.PFW_SRC = 4 then none else some s.chip.ps) ∧
      ResetBut isDormantPage [R.SYS_MODE.MODE_STAT.MODE, R.SYS_MODE.MODE_STAT.CAUSE, R.SYS_MODE.MODE_STAT.DCAUSE, R.SYS_POWER.PD_ON.ON,
        R.SYS_POWER.ABORT_CNT.COUNT, R.SYS_BOOT.STRAPS.SERVICE_EN] t ∧ t.mem.dram = [] ∧ t.mem.host = s.mem.host ∧ t.pending = s.pending)

/-- Rail faults and warnings, phase shedding and the SAFE_OK readback (R355, R356, R363). -/
def Obligations.RailAndReadbackEvents : Prop :=
  (∀ (s : State) (rail vin : Nat),
    rail < 8 →
    s.chip.kilnFree = true →
    s.chip.railOn rail = true →
    s.chip.mode ≠ Mode.BOOT →
    Completes (.railFault rail vin) s fun t =>
      t.chip.railOn rail = false ∧ t.chip.flag R.PWR_ENTRY.ENTRY_STAT.PFW = true ∧ t.chip.get R.PWR_ENTRY.ENTRY_STAT.PFW_SRC = 4 ∧
      t.chip.csk.waiting.map (fun e => (e.event, e.params)) =
        s.chip.csk.waiting.map (fun e => (e.event, e.params)) ++ [(0x0301, [0xFF, rail]), (0x0302, parBytes 4 vin)] ∧
      OnlyPages [.rf, .pow, .csk, .imx] ([0x020, 0x021, 0x1B0] ++ viPages) s t) ∧
  (∀ (s : State) (rail vin : Nat),
    rail < 8 →
    s.chip.kilnFree = true →
    s.chip.railOn rail = true →
    s.chip.mode = Mode.BOOT →
    Completes (.railFault rail vin) s fun t =>
      t.chip.mode = Mode.DORMANT ∧ t.chip.get R.SYS_MODE.MODE_STAT.DCAUSE = 2 ∧
      ResetBut isDormantPage [R.SYS_MODE.MODE_STAT.MODE, R.SYS_MODE.MODE_STAT.CAUSE, R.SYS_MODE.MODE_STAT.DCAUSE, R.SYS_POWER.PD_ON.ON,
        R.SYS_POWER.ABORT_CNT.COUNT, R.SYS_BOOT.STRAPS.SERVICE_EN] t ∧ t.pending = s.pending) ∧
  (∀ (s : State) (rail : Nat),
    rail < 8 →
    s.chip.mode ≠ Mode.DORMANT →
    s.chip.railOn rail = true →
    Completes (.railWarn rail) s fun t =>
      (t.chip.get R.PWR_RAILS.RAIL_STAT.WARN).testBit rail = true ∧
      t.chip.get R.PWR_RAILS.RAIL_WARN.COUNT = min (s.chip.get R.PWR_RAILS.RAIL_WARN.COUNT + 1) (2 ^ 32 - 1) ∧
      (t.chip.get (H.IRQ_RAW 0x021)).testBit 0 = true ∧
      Only [.rf, .deliveries] [R.PWR_RAILS.RAIL_STAT.WARN, R.PWR_RAILS.RAIL_WARN.COUNT, H.IRQ_RAW 0x021] s t) ∧
  (∀ (s : State) (ma : Nat),
    s.chip.mode ≠ Mode.DORMANT →
    s.chip.railOn 0 = true →
    Completes (.vbus5PhaseShed ma) s fun t =>
      t.chip.get R.PWR_RAILS.VBUS5_STAT.PH1_ON = (if ma < 3000 then 0 else if 4000 < ma then 1 else s.chip.get R.PWR_RAILS.VBUS5_STAT.PH1_ON) ∧
      Only [.rf] [R.PWR_RAILS.VBUS5_STAT.PH1_ON] s t) ∧
  (∀ (s : State) (b : Bool),
    s.chip.mode ≠ Mode.DORMANT →
    Completes (.safeOkReadback b) s fun t =>
      t.chip.get (if b then R.PWR_ENTRY.ENTRY_STAT.SOK_B else R.PWR_ENTRY.ENTRY_STAT.SOK_A) = 1 ∧ (t.chip.get (H.IRQ_RAW 0x020)).testBit 3 = true ∧
      Recorded 0x0300 s t ∧
      Only [.rf, .deliveries, .csk] [if b then R.PWR_ENTRY.ENTRY_STAT.SOK_B else R.PWR_ENTRY.ENTRY_STAT.SOK_A, H.IRQ_RAW 0x020] s t)

/-- Binding an instance to a virtual function, and what enables it (R72, R77, R82, R83). -/
def Obligations.InstancesBindAndUnbind : Prop :=
  (∀ (s : State) (src : Src) (vi port vf : Nat) (data : Word),
    vi < 16 →
    port < 4 →
    (1 ≤ vf ∧ vf ≤ 8) →
    data.toNat = port + 4 * vf + 64 →
    Reaches s.chip src (0x060 + vi) →
    s.chip.shareWriter src = true →
    s.chip.viState vi = VS.UNBOUND →
    (∀ k ∈ List.range 16, k ≠ vi → s.chip.boundTo port k = true → s.chip.get (R.IMX_VI.VI_BIND.VF k) ≠ vf) →
    s.chip.bwSum vi + s.chip.get (R.IMX_VI.SH_BW.WEIGHT vi) ≤ 256 →
    Completes (.viBind src vi data) s fun t =>
      t.chip.get (R.IMX_VI.VI_BIND.PORT vi) = port ∧ t.chip.get (R.IMX_VI.VI_BIND.VF vi) = vf ∧ t.chip.flag (R.IMX_VI.VI_BIND.BOUND vi) = true ∧
      t.chip.viState vi = (if s.chip.imx.vfEn.getD port 0 = 1 ∧ vf ≤ s.chip.imx.numVfs.getD port 0 then VS.ACTIVE else VS.BOUND) ∧
      t.chip.get R.IMX.BW_SUM.SUM = s.chip.bwSum vi + s.chip.get (R.IMX_VI.SH_BW.WEIGHT vi) ∧
      Only [.rf] [R.IMX_VI.VI_BIND.PORT vi, R.IMX_VI.VI_BIND.VF vi, R.IMX_VI.VI_BIND.BOUND vi, R.IMX_VI.VI_STAT.STATE vi, R.IMX.BW_SUM.SUM] s t) ∧
  (∀ (s : State) (src : Src) (vi : Nat),
    vi < 16 →
    Reaches s.chip src (0x060 + vi) →
    s.chip.shareWriter src = true →
    s.chip.viState vi = VS.BOUND →
    Completes (.viBind src vi 0) s fun t =>
      t.chip.viState vi = VS.UNBOUND ∧ t.chip.flag (R.IMX_VI.VI_BIND.BOUND vi) = false ∧ MemSame s t ∧
      PagesBut [0x050, 0x060 + vi, 0x090, 0x0A0] s t) ∧
  (∀ (s : State) (port n : Nat),
    port < 4 →
    s.chip.configOn port = true →
    Completes (.vfEnableSet port n) s fun t =>
      t.chip.imx.vfEn.getD port 0 = 1 ∧ t.chip.imx.numVfs.getD port 0 = min 8 n ∧
      (∀ vi ∈ List.range 16, t.chip.viState vi = if s.chip.boundTo port vi = true ∧ s.chip.viState vi = VS.BOUND ∧
        s.chip.get (R.IMX_VI.VI_BIND.VF vi) ≤ min 8 n then VS.ACTIVE else s.chip.viState vi) ∧
      Only [.rf, .imx] ((List.range 16).map R.IMX_VI.VI_STAT.STATE) s t) ∧
  (∀ (s : State) (port : Nat),
    port < 4 →
    s.chip.configOn port = true →
    Completes (.vfEnableClear port) s fun t =>
      t.chip.imx.vfEn.getD port 0 = 0 ∧ (∀ vi ∈ List.range 16, s.chip.boundTo port vi = true → t.chip.viState vi = VS.RESETTING) ∧
      (∀ vi ∈ List.range 16, s.chip.boundTo port vi = false → t.chip.viState vi = s.chip.viState vi)) ∧
  (∀ (s : State) (port vi func : Nat),
    port < 4 →
    vi < 16 →
    (1 ≤ func ∧ func ≤ 8) →
    s.chip.configOn port = true →
    s.chip.boundTo port vi = true →
    (s.chip.get (R.IMX_VI.VI_BIND.VF vi) = func) →
    (∀ k ∈ List.range vi, s.chip.boundTo port k = true → s.chip.get (R.IMX_VI.VI_BIND.VF k) ≠ func) →
    s.chip.viState vi ≠ VS.RESETTING →
    Completes (.flr port func) s fun t =>
      t.chip.viState vi = VS.RESETTING ∧ t.chip.flag (H.RESET (0x060 + vi)) = true ∧ (t.chip.imx.resets.find? vi).map (·.cause) = some 0 ∧
      (∀ k ∈ List.range 16, k ≠ vi → t.chip.viState k = s.chip.viState k) ∧ t.pending = s.pending) ∧
  (∀ (s : State) (port : Nat),
    port < 4 →
    s.chip.pdOn PD.HOST = true →
    Completes (.hostLinkDown port) s fun t =>
      t.chip.get (R.IMX.PORT_LINK.WIDTH port) = 0 ∧ t.chip.get (R.IMX.PORT_LINK.SPEED port) = 0 ∧ port ∉ t.chip.imx.ready ∧
      (∀ vi ∈ List.range 16, s.chip.boundTo port vi = true → t.chip.viState vi = VS.RESETTING)) ∧
  (∀ (s : State) (port : Nat),
    port < 4 →
    s.chip.pdOn PD.HOST = true →
    Completes (.perstnAssert port) s fun t =>
      port ∈ t.chip.imx.perst ∧ port ∉ t.chip.imx.ready ∧ (∀ vi ∈ List.range 16, s.chip.boundTo port vi = true → t.chip.viState vi = VS.RESETTING))

/-- Instance reset, its end, and the shares of an instance (R79, R80, R82, R83). -/
def Obligations.InstanceResetsAndShares : Prop :=
  (∀ (s : State) (src : Src) (vi : Nat),
    vi < 16 →
    (match src with | .inst _ => false | _ => true) = true →
    Reaches s.chip src (0x060 + vi) →
    s.chip.mgrOrCtl src = true →
    (s.chip.claimed (0x060 + vi) = false ∨ isSecure src = true) →
    (s.chip.viState vi = VS.BOUND ∨ s.chip.viState vi = VS.ACTIVE ∨ s.chip.viState vi = VS.FAULTED) →
    Completes (.instanceReset src vi) s fun t =>
      t.chip.viState vi = VS.RESETTING ∧ t.chip.flag (H.RESET (0x060 + vi)) = true ∧ (t.chip.imx.resets.find? vi).map (·.cause) = some 3 ∧
      (t.chip.imx.resets.find? vi).map (·.start) = some s.chip.ps ∧
      t.chip.get (R.IMX_VI.RESET_CNT.COUNT vi) = min (s.chip.get (R.IMX_VI.RESET_CNT.COUNT vi) + 1) (2 ^ 32 - 1) ∧
      (∀ r ∈ List.range 64, r ∈ s.chip.viRings vi → (t.chip.ring r).fetched = [] ∧ (t.chip.ring r).issued = []) ∧
      (∀ k ∈ List.range 16, k ≠ vi → t.chip.viState k = s.chip.viState k) ∧ t.pending = s.pending) ∧
  (∀ (s : State) (vi : Nat) (x : VReset),
    vi < 16 →
    s.chip.imx.resets.find? vi = some x →
    s.chip.gfxHolds vi = false →
    s.chip.viState vi = VS.RESETTING →
    x.cause < 8 →
    Completes (.instanceResetDone vi) s fun t =>
      t.chip.viState vi = (if s.chip.vfOn vi then VS.ACTIVE else VS.BOUND) ∧ t.chip.flag (H.RESET (0x060 + vi)) = false ∧
      t.chip.imx.resets.find? vi = none ∧ t.chip.get (R.IMX_VI.RST_RESULT.CAUSE vi) = x.cause ∧
      t.chip.get (R.IMX_VI.RST_RESULT.SQUASHED vi) = min x.squashed 0x3FF ∧ t.chip.get (R.IMX_VI.RST_RESULT.DRAINED vi) = min x.drained 0xFF ∧
      t.chip.get (R.IMX_VI.RST_RESULT.US vi) = min ((s.chip.ps - x.start) / 1000000) 0x7FF ∧ (t.chip.get (H.IRQ_RAW (0x060 + vi))).testBit 0 = true ∧
      MemSame s t) ∧
  (∀ (s : State) (src : Src) (vi off : Nat) (data : Word),
    vi < 16 →
    Reaches s.chip src (0x060 + vi) →
    s.chip.shareWriter src = true →
    s.chip.viState vi ≠ VS.RESETTING →
    (off = 0x050 ∧ bits data.toNat 13 3 = 0 ∧ bits data.toNat 25 7 = 0 ∧ bits data.toNat 16 9 ≤ 256) ∨
      (off = 0x054 ∧ data.toNat ≤ 256 ∧ (s.chip.viState vi = VS.UNBOUND ∨ s.chip.bwSum vi + data.toNat ≤ 256)) ∨
      off = 0x058 ∨ (off = 0x05C ∧ data.toNat < 2 ^ 16) ∨ off = 0x060 ∨ (off = 0x064 ∧ data.toNat < 2 ^ 28) →
    (∀ k ∈ List.range 16, k ≠ vi → data.toNat &&& (s.chip.shareReg k off ||| (s.chip.share k).bitsAt off) = 0) →
    Completes (.shareWrite src vi off data) s fun t =>
      t.chip.readReg (0x060 + vi) off = data.toNat ∧ (off = 0x054 → t.chip.get R.IMX.BW_SUM.SUM = t.chip.bwSum 16 % 2 ^ R.IMX.BW_SUM.SUM.w) ∧ MemSame s t) ∧
  (∀ (s : State) (vi : Nat),
    vi < 16 →
    (s.chip.get (R.IMX_VI.VI_STAT.PEND vi)).testBit 1 = true →
    s.chip.shareSince vi 1 ≤ s.chip.led.lineNo →
    (s.chip.share vi).bw ≠ s.chip.get (R.IMX_VI.SH_BW.WEIGHT vi) →
    Completes (.shareApply vi 1) s fun t =>
      t.chip.share vi = { s.chip.share vi with bw := s.chip.get (R.IMX_VI.SH_BW.WEIGHT vi) } ∧
      (t.chip.get (R.IMX_VI.VI_STAT.PEND vi)).testBit 1 = false ∧ (t.chip.get (H.IRQ_RAW (0x060 + vi))).testBit 2 = true ∧
      Only [.rf, .deliveries, .imx] [R.IMX_VI.VI_STAT.PEND vi, H.IRQ_RAW (0x060 + vi)] s t) ∧
  (∀ (s : State) (vi : Nat),
    vi < 16 →
    (s.chip.get (R.IMX_VI.VI_STAT.PEND vi)).testBit 6 = true →
    Completes (.shareApply vi 6) s fun t =>
      t.chip.share vi = { s.chip.share vi with hap := s.chip.get (R.IMX_VI.SH_IO.HAP vi) } ∧
      (t.chip.get (R.IMX_VI.VI_STAT.PEND vi)).testBit 6 = false ∧
      Only [.rf, .deliveries, .imx] [R.IMX_VI.VI_STAT.PEND vi, H.IRQ_RAW (0x060 + vi)] s t)

/-- DRAM windows, interrupt routes, and binding and removing ring pairs (R81, R86, R87, R88, R89, R100). -/
def Obligations.WindowsRoutesAndPairBinding : Prop :=
  (∀ (s : State) (src : Src) (vi k : Nat) (data : Word),
    vi < 16 →
    k < 4 →
    Reaches s.chip src (0x060 + vi) →
    s.chip.shareWriter src = true →
    data.toNat < 2 ^ 16 →
    (bits data.toNat 1 15 + s.chip.get (R.IMX_VI.WIN_SIZE.ADDR vi k)) * 2 ^ 21 ≤ s.chip.dramSize →
    (data.toNat.testBit 0 = false ∨ s.chip.get R.SEC.DRAM_WMARK.WMARK ≤ bits data.toNat 1 15) →
    (s.chip.viState vi = VS.UNBOUND ∨ s.chip.viState vi = VS.BOUND ∨ s.chip.viState vi = VS.FAULTED) →
    Completes (.windowWrite src vi (0x070 + 8 * k) data) s fun t =>
      t.chip.get (R.IMX_VI.WIN_BASE.ADDR vi k) = bits data.toNat 1 15 ∧ t.chip.flag (R.IMX_VI.WIN_BASE.EN vi k) = data.toNat.testBit 0 ∧
      Only [.rf] [R.IMX_VI.WIN_BASE.ADDR vi k, R.IMX_VI.WIN_BASE.EN vi k] s t) ∧
  (∀ (s : State) (src : Src) (vi k : Nat) (data : Word),
    vi < 16 →
    k < 4 →
    Reaches s.chip src (0x060 + vi) →
    s.chip.shareWriter src = true →
    data.toNat < 2 ^ 16 →
    data.toNat.testBit 0 = false →
    (s.chip.get (R.IMX_VI.WIN_BASE.ADDR vi k) + bits data.toNat 1 15) * 2 ^ 21 ≤ s.chip.dramSize →
    s.chip.flag (R.IMX_VI.WIN_BASE.EN vi k) = false →
    (s.chip.viState vi = VS.UNBOUND ∨ s.chip.viState vi = VS.BOUND ∨ s.chip.viState vi = VS.FAULTED) →
    Completes (.windowWrite src vi (0x074 + 8 * k) data) s fun t =>
      t.chip.get (R.IMX_VI.WIN_SIZE.ADDR vi k) = bits data.toNat 1 15 ∧ Only [.rf] [R.IMX_VI.WIN_SIZE.ADDR vi k] s t) ∧
  (∀ (s : State) (src : Src) (n i : Nat) (data : Word),
    n < 2 →
    i < 256 →
    (¬ (n = 0 ∧ 0x070 ≤ i ∧ i < 0x090)) →
    Reaches s.chip src (0x051 + n) →
    (s.chip.shareWriter src = true ∨ isSecure src = true) →
    data.toNat < 2 ^ 15 →
    bits data.toNat 4 4 ≤ 8 →
    (isSecure src = true ∨ (secDest data.toNat = false ∧ secDest (s.chip.readReg (0x051 + n) (0x040 + 4 * i)) = false)) →
    s.chip.routeVf n i data.toNat = true →
    Completes (.routeWrite src n i data) s fun t =>
      t.chip.get (R.IMX_ROUTE.ROUTE.KIND n i) = bits data.toNat 0 2 ∧ t.chip.get (R.IMX_ROUTE.ROUTE.PORT n i) = bits data.toNat 2 2 ∧
      t.chip.get (R.IMX_ROUTE.ROUTE.FUNC n i) = bits data.toNat 4 4 ∧ t.chip.get (R.IMX_ROUTE.ROUTE.VECTOR n i) = bits data.toNat 8 4 ∧
      t.chip.get (R.IMX_ROUTE.ROUTE.CORE n i) = bits data.toNat 12 2 ∧ t.chip.get (R.IMX_ROUTE.ROUTE.WORLD n i) = bits data.toNat 14 1 ∧
      Only [.rf] [R.IMX_ROUTE.ROUTE.KIND n i, R.IMX_ROUTE.ROUTE.PORT n i, R.IMX_ROUTE.ROUTE.FUNC n i, R.IMX_ROUTE.ROUTE.VECTOR n i,
        R.IMX_ROUTE.ROUTE.CORE n i, R.IMX_ROUTE.ROUTE.WORLD n i] s t) ∧
  (∀ (s : State) (src : Src) (r vi cl : Nat) (data : Word),
    r < 64 →
    vi < 16 →
    cl < 7 →
    data.toNat = 1 + 4 * vi + 64 * cl →
    Reaches s.chip src (ringPage r) →
    s.chip.shareWriter src = true →
    s.chip.ringState r = RS.FREE →
    (s.chip.viState vi ≠ VS.UNBOUND ∧ s.chip.viState vi ≠ VS.RESETTING) →
    (s.chip.viRings vi).length < 16 →
    s.chip.get (R.RNG.SEL.CQ_STALL_MAX (r / 2) (r % 2)) ≠ 0 →
    Completes (.ringBind src r data) s fun t =>
      t.chip.ringState r = RS.BOUND ∧ t.chip.ringOwner r = 1 ∧ t.chip.ringVi r = vi ∧ t.chip.ringClass r = cl ∧ r ∈ t.chip.viRings vi ∧
      Only [.rf] [R.RNG.RING_BIND.OWNER (r / 2) (r % 2), R.RNG.RING_BIND.VI (r / 2) (r % 2), R.RNG.RING_BIND.CLASS (r / 2) (r % 2),
        R.RNG.RING_STAT.STATE (r / 2) (r % 2), R.IMX_VI.RING.RINGS vi (r / 32)] s t) ∧
  (∀ (s : State) (src : Src) (r : Nat),
    r < 64 →
    Reaches s.chip src (ringPage r) →
    s.chip.shareWriter src = true →
    s.chip.ringState r = RS.BOUND →
    (s.chip.ringOwner r = 1 → s.chip.viState (s.chip.ringVi r) ≠ VS.RESETTING) →
    Completes (.ringRemove src r) s fun t =>
      t.chip.ringState r = RS.FREE ∧ t.chip.ringOwner r = 0 ∧ t.chip.get (R.IMX_ROUTE.ROUTE.KIND 2 r) = 0 ∧
      (s.chip.ringOwner r = 1 → r ∉ t.chip.viRings (s.chip.ringVi r)) ∧
      (∀ p ∈ List.range 16, t.chip.get (H.IRQ_RAW (0x060 + p)) = s.chip.get (H.IRQ_RAW (0x060 + p))) ∧ MemSame s t) ∧
  (∀ (s : State) (src : Src) (r : Nat),
    r < 64 →
    (match src with | .inst _ => false | _ => true) = true →
    Reaches s.chip src (ringPage r) →
    (s.chip.ownsRing src r = true ∨ s.chip.isMgr src = true) →
    s.chip.ringState r = RS.BOUND →
    s.chip.ownerStopped r = false →
    s.chip.ringsInWindow r = true →
    Completes (.ringEnable src r) s fun t =>
      t.chip.ringState r = RS.RUNNING ∧ t.chip.sqHead r = 0 ∧ t.chip.sqTail r = 0 ∧ t.chip.cqHead r = 0 ∧ t.chip.cqTail r = 0 ∧
      t.chip.doneSeq r = 0xFFFFFFFF ∧ t.chip.ring r = {} ∧ OnlyPages [.rf, .imx] [ringPage r] s t) ∧
  (∀ (s : State) (src : Src) (r : Nat),
    r < 64 →
    (match src with | .inst _ => false | _ => true) = true →
    Reaches s.chip src (ringPage r) →
    (s.chip.ownsRing src r = true ∨ s.chip.isMgr src = true) →
    s.chip.flag (R.RNG.RING_CTRL.ENABLE (r / 2) (r % 2)) = true →
    s.chip.ringIdle r = true →
    Completes (.ringDisable src r) s fun t =>
      t.chip.ringState r = RS.BOUND ∧ t.chip.flag (R.RNG.RING_CTRL.ENABLE (r / 2) (r % 2)) = false ∧ t.chip.ring r = {} ∧
      OnlyPages [.rf, .imx] [ringPage r] s t)

/-- A submission entry's way from the doorbell to its completion (R85, R90, R91, R93, R94, R95, R96, R99, R101, R102). -/
def Obligations.DoorbellsFetchIssueAndRetire : Prop :=
  (∀ (s : State) (src : Src) (r : Nat) (n : Word),
    r < 64 →
    (match src with | .inst _ => false | _ => true) = true →
    Reaches s.chip src (ringPage r) →
    s.chip.ownsRing src r = true →
    (s.chip.ringState r = RS.RUNNING ∨ s.chip.ringState r = RS.STALLED) →
    s.chip.ownerStopped r = false →
    sub32 n.toNat (s.chip.sqTail r) ≤ s.chip.sqSize r - sub32 (s.chip.sqTail r) (s.chip.sqHead r) →
    Completes (.sqDb src r n) s fun t =>
      t.chip.sqTail r = n.toNat ∧ Only [.rf] [R.RNG.SQ_TAIL.INDEX (r / 2) (r % 2)] s t) ∧
  (∀ (s : State) (src : Src) (r : Nat) (n : Word),
    r < 64 →
    (match src with | .inst _ => false | _ => true) = true →
    Reaches s.chip src (ringPage r) →
    s.chip.ownsRing src r = true →
    s.chip.ringState r = RS.RUNNING →
    s.chip.ownerStopped r = false →
    sub32 n.toNat (s.chip.cqHead r) ≤ sub32 (s.chip.cqTail r) (s.chip.cqHead r) →
    (s.chip.ring r).ovf = [] →
    Completes (.cqDb src r n) s fun t =>
      t.chip.cqHead r = n.toNat ∧ (t.chip.ring r).stall = 0 ∧ t.mem = s.mem ∧ OnlyPages [.rf, .imx] [ringPage r] s t) ∧
  (∀ (s : State) (src : Src) (r : Nat) (data : Word),
    r < 64 →
    Reaches s.chip src (ringPage r) →
    s.chip.shareWriter src = true →
    bits data.toNat 6 10 = 0 →
    bits data.toNat 0 4 ≠ 0 →
    (bits data.toNat 16 16 ≠ 0 ∨ s.chip.ringOwner r ≠ 1) →
    Completes (.selWrite src r data) s fun t =>
      t.chip.get (R.RNG.SEL.WEIGHT (r / 2) (r % 2)) = bits data.toNat 0 4 ∧ t.chip.get (R.RNG.SEL.PRIO (r / 2) (r % 2)) = bits data.toNat 4 2 ∧
      t.chip.get (R.RNG.SEL.CQ_STALL_MAX (r / 2) (r % 2)) = bits data.toNat 16 16 ∧
      Only [.rf, .imx] [R.RNG.SEL.WEIGHT (r / 2) (r % 2), R.RNG.SEL.PRIO (r / 2) (r % 2), R.RNG.SEL.CQ_STALL_MAX (r / 2) (r % 2)] s t) ∧
  (∀ (s : State) (r : Nat) (data : List Byte),
    r < 64 →
    s.chip.canFetch r = true →
    s.chip.ringLoc r = 0 →
    Completes (.ringFetch r data true) s fun t =>
      t.chip.imx.last = some ⟨s.chip.ownPort (s.chip.ringOwn r), s.chip.ownFunc (s.chip.ringOwn r), false,
        s.chip.sqBase r + 64 * (s.chip.sqHead r % s.chip.sqSize r), 64, false⟩ ∧
      (t.chip.ring r).fetched = (s.chip.ring r).fetched ++ [{ seq := s.chip.sqHead r, bytes := padTo 64 data }] ∧
      t.chip.sqHead r = (s.chip.sqHead r + 1) % 2 ^ 32 ∧
      t.chip.get (R.RNG.SUBMIT_CNT.COUNT (r / 2) (r % 2)) = min (s.chip.get (R.RNG.SUBMIT_CNT.COUNT (r / 2) (r % 2)) + 1) (2 ^ 32 - 1) ∧
      Only [.rf, .imx] [R.RNG.SQ_HEAD.INDEX (r / 2) (r % 2), R.RNG.SUBMIT_CNT.COUNT (r / 2) (r % 2)] s t) ∧
  (∀ (s : State) (cls r : Nat) (e : RingEnt),
    (cls = 4 ∨ cls = 5) →
    s.chip.pdFree PD.HOST = true →
    r < 64 →
    s.chip.failingHead cls = none →
    s.chip.ofClass cls r = true →
    s.chip.issuable r = true →
    (s.chip.ring r).fetched = [e] →
    (∀ k ∈ List.range 64, k ≠ r → s.chip.ofClass cls k = false) →
    (s.chip.ring r).credit ≠ 0 →
    Completes (.entryIssue cls) s fun t =>
      (t.chip.ring r).fetched = [] ∧
      (t.chip.ring r).issued = (s.chip.ring r).issued ++ [{ seq := e.seq, bytes := e.bytes, fresh := true, done := none }] ∧
      (t.chip.ring r).credit = (s.chip.ring r).credit - 1 ∧ MemSame s t) ∧
  (∀ (s : State) (r : Nat) (e : RingEnt),
    r < 64 →
    s.chip.fenceExpired r = true →
    (s.chip.ring r).fetched = [e] →
    Completes (.fenceTimeout r) s fun t =>
      (t.chip.ring r).fetched = [] ∧ (t.chip.ring r).issued = (s.chip.ring r).issued ++
        [{ seq := e.seq, bytes := e.bytes, fresh := false, done := some { status := E.FENCE_TIMEOUT, result := [], stamp := s.chip.stamp } }] ∧ MemSame s t) ∧
  (∀ (s : State) (r : Nat) (e : Issued) (d : Ending),
    r < 64 →
    s.chip.ringState r = RS.RUNNING →
    (s.chip.ring r).issued = [e] →
    (s.chip.ring r).ovf = [] →
    e.done = some d →
    e.flags % 4 = 1 →
    d.status = 0 →
    s.chip.ringLoc r = 0 →
    0 < s.chip.cqFree r →
    Completes (.completionRetire r) s fun t =>
      (t.chip.ring r).issued = [] ∧ t.chip.imx.last.map (·.noSnoop) = some false ∧ t.chip.imx.last.map (·.write) = some true ∧ t.chip.doneSeq r = e.seq % 2 ^ 32 ∧ t.chip.cqTail r = (s.chip.cqTail r + 1) % 2 ^ 32 ∧
      t.mem = { s.mem with host := (Memory.writeBytes s.mem.host
        (hostKey (s.chip.ownPort (s.chip.ringOwn r)) (s.chip.cqBase r + 32 * (s.chip.cqTail r % s.chip.cqSize r)))
        (s.chip.cqEntry r 0 (phaseOf (s.chip.cqSize r) (s.chip.cqTail r)) e.seq d.stamp (fieldAt e.bytes 8 4) d.result)) } ∧ t.pending = s.pending) ∧
  (∀ (s : State) (r : Nat) (e : RingEvent),
    r < 64 →
    s.chip.ringLive r = true →
    s.chip.ringState r ≠ RS.RETIRING →
    s.chip.imx.events = [e] →
    e.ring = r →
    r ∉ s.chip.imx.dropped →
    (s.chip.ring r).issued.length < s.chip.cqSpace r →
    (s.chip.ring r).ovf = [] →
    0 < s.chip.cqFree r →
    s.chip.ringLoc r = 0 →
    Completes (.eventPost r) s fun t =>
      t.chip.imx.events = [] ∧ t.chip.cqTail r = (s.chip.cqTail r + 1) % 2 ^ 32 ∧ t.pending = s.pending ∧
      t.mem = { s.mem with host := (Memory.writeBytes s.mem.host
        (hostKey (s.chip.ownPort (s.chip.ringOwn r)) (s.chip.cqBase r + 32 * (s.chip.cqTail r % s.chip.cqSize r)))
        (putAt (s.chip.cqEntry r e.status 6 e.seq e.stamp 0 (s.chip.eventResult r e.result)) 1 1 (6 + phaseOf (s.chip.cqSize r) (s.chip.cqTail r)))) } ∧
      (t.chip.get (H.IRQ_RAW (ringPage r))).testBit (8 * (r % 2)) = true) ∧
  (∀ (s : State) (r : Nat),
    r < 64 →
    s.chip.stallOver r = true →
    s.chip.ringOwner r = 1 →
    s.chip.viState (s.chip.ringVi r) = VS.ACTIVE →
    Completes (.cqStallExpiry r) s fun t =>
      t.chip.viState (s.chip.ringVi r) = VS.FAULTED ∧ t.chip.get (R.IMX_VI.VI_STAT.FAULT (s.chip.ringVi r)) = 0x20 ∧
      (t.chip.get (H.IRQ_RAW (0x060 + s.chip.ringVi r))).testBit 1 = true ∧ (t.chip.ring r).stall = 0 ∧ MemSame s t)

/-- Acquiring, waiting for, passing on and cancelling locks; arbiter counters (R231, R232, R234, R235, R236, R239). -/
def Obligations.LockUnitAndArbiters : Prop :=
  (∀ (s : State) (src : Src) (r k : Nat) (data : Word),
    (16 ≤ r ∧ r < 27) →
    k < 64 →
    (data.toNat = k ∨ data.toNat = k + 256) →
    (match src with | .inst _ => false | _ => true) = true →
    Reaches s.chip src 0x092 →
    lkId src = r →
    s.chip.get (R.LCK_TABLE.LK_STATE.STATE k) = LK.FREE →
    s.chip.lkCount r ≠ 8 →
    s.chip.lkWait r = none →
    Completes (.lkAcq src r data) s fun t =>
      t.chip.get (R.LCK_TABLE.LK_STATE.STATE k) = LK.HELD ∧ t.chip.get (R.LCK_TABLE.LK_STATE.OWNER k) = r ∧ t.chip.lkHolds r k = true ∧
      t.chip.get (R.LCK_PORTS.LK_RESULT.CODE r) = E.NONE ∧ t.chip.get (R.LCK_PORTS.LK_RESULT.LOCK r) = k ∧
      t.chip.get R.LCK.ACQ_CNT.COUNT = min (s.chip.get R.LCK.ACQ_CNT.COUNT + 1) (2 ^ 32 - 1) ∧ (t.chip.get (H.IRQ_RAW 0x092)).testBit r = true ∧
      OnlyPages [.rf, .deliveries, .fab] [0x090, 0x091, 0x092] s t) ∧
  (∀ (s : State) (src : Src) (r k : Nat) (data : Word),
    (16 ≤ r ∧ r < 27) →
    k < 64 →
    data.toNat = k + 256 →
    (match src with | .inst _ => false | _ => true) = true →
    Reaches s.chip src 0x092 →
    lkId src = r →
    s.chip.get (R.LCK_TABLE.LK_STATE.STATE k) = LK.HELD →
    s.chip.get (R.LCK_TABLE.LK_STATE.OWNER k) ≠ r →
    s.chip.lkCount r ≠ 8 →
    s.chip.lkWait r = none →
    s.chip.lkCycle r (s.chip.get (R.LCK_TABLE.LK_STATE.OWNER k)) 28 = false →
    Completes (.lkAcq src r data) s fun t =>
      t.chip.lkWait r = some k ∧ t.chip.get (R.LCK_PORTS.LK_RESULT.WAITING r) = 1 ∧ t.chip.lkHolds r k = s.chip.lkHolds r k ∧
      t.chip.get (R.LCK_TABLE.LK_STATE.STATE k) = LK.HELD ∧
      Only [.rf, .fab] [R.LCK_PORTS.LK_RESULT.LOCK r, R.LCK_PORTS.LK_RESULT.WAITING r, R.LCK_TABLE.LK_STATE.WAITERS k] s t) ∧
  (∀ (s : State) (src : Src) (r k : Nat) (data : Word),
    (16 ≤ r ∧ r < 27) →
    k < 64 →
    data.toNat = k →
    (match src with | .inst _ => false | _ => true) = true →
    Reaches s.chip src 0x092 →
    lkId src = r →
    s.chip.lkHolds r k = true →
    s.chip.lkNext k = none →
    Completes (.lkRel src r data) s fun t =>
      t.chip.get (R.LCK_TABLE.LK_STATE.STATE k) = LK.FREE ∧ t.chip.lkHolds r k = false ∧
      Only [.rf] [R.LCK_TABLE.LK_STATE.STATE k, R.LCK_PORTS.LK_HELD_LO.LOCKS r, R.LCK_PORTS.LK_HELD_HI.LOCKS r] s t) ∧
  (∀ (s : State) (src : Src) (r k w : Nat) (data : Word),
    (16 ≤ r ∧ r < 27) →
    k < 64 →
    data.toNat = k →
    (match src with | .inst _ => false | _ => true) = true →
    Reaches s.chip src 0x092 →
    lkId src = r →
    s.chip.lkHolds r k = true →
    s.chip.lkNext k = some w →
    w ≠ r →
    Completes (.lkRel src r data) s fun t =>
      t.chip.get (R.LCK_TABLE.LK_STATE.STATE k) = LK.HELD ∧ t.chip.get (R.LCK_TABLE.LK_STATE.OWNER k) = w ∧ t.chip.lkHolds w k = true ∧
      t.chip.lkHolds r k = false ∧ t.chip.lkWait w = none ∧ (t.chip.get (H.IRQ_RAW 0x092)).testBit w = true ∧
      OnlyPages [.rf, .deliveries, .fab] [0x090, 0x091, 0x092] s t) ∧
  (∀ (s : State) (src : Src) (r : Nat),
    (16 ≤ r ∧ r < 27) →
    (match src with | .inst _ => false | _ => true) = true →
    Reaches s.chip src 0x092 →
    lkId src = r →
    Completes (.lkCancel src r 1) s fun t =>
      t.chip.lkWait r = none ∧ t.chip.get (R.LCK_PORTS.LK_RESULT.WAITING r) = 0 ∧
      Only [.rf, .fab] [R.LCK_PORTS.LK_RESULT.WAITING r, R.LCK_TABLE.LK_STATE.WAITERS ((s.chip.lkWait r).getD 0)] s t) ∧
  (∀ (s : State) (k : Nat),
    k < 64 →
    s.chip.lkOverdue k = true →
    Completes (.holdExpired k) s fun t =>
      t.chip.get (R.LCK_TABLE.LK_STATE.EXPIRED k) = 1 ∧ t.chip.get R.LCK.HOLD_EXP_CNT.COUNT = min (s.chip.get R.LCK.HOLD_EXP_CNT.COUNT + 1) (2 ^ 32 - 1) ∧
      (t.chip.get (H.IRQ_RAW 0x090)).testBit 0 = true ∧ Recorded 0x0802 s t ∧
      Only [.rf, .deliveries, .csk] [R.LCK_TABLE.LK_STATE.EXPIRED k, R.LCK.HOLD_EXP_CNT.COUNT, H.IRQ_RAW 0x090] s t) ∧
  (∀ (s : State) (src : Src) (a r n : Nat) (data : Word),
    Reaches s.chip src 0x141 →
    s.chip.mgrOrCtl src = true →
    data.toNat = a + 256 * r →
    (a < 256 ∧ r < 256) →
    arbSize a = some n →
    r < n →
    Completes (.arbSnap src data) s fun t =>
      t.chip.get R.FAB_ARB.ARB_GRANTS.COUNT = s.chip.fab.cnt.getD (arbKey a r 0) 0 % 2 ^ 32 ∧
      t.chip.get R.FAB_ARB.ARB_WAITS.COUNT = s.chip.fab.cnt.getD (arbKey a r 1) 0 % 2 ^ 32 ∧
      t.chip.get R.FAB_ARB.ARB_SEL.ARB = a ∧ t.chip.get R.FAB_ARB.ARB_SEL.REQ = r ∧
      Only [.rf] [R.FAB_ARB.ARB_SEL.ARB, R.FAB_ARB.ARB_SEL.REQ, R.FAB_ARB.ARB_GRANTS.COUNT, R.FAB_ARB.ARB_WAITS.COUNT, R.FAB_ARB.ARB_LONGEST.CYCLES] s t) ∧
  (∀ (s : State) (src : Src) (a r n : Nat) (data : Word),
    Reaches s.chip src 0x141 →
    s.chip.mgrOrCtl src = true →
    data.toNat = a + 256 * r →
    (a < 256 ∧ r < 256) →
    arbSize a = some n →
    r < n →
    Completes (.arbClear src data) s fun t =>
      t.chip.fab.cnt.getD (arbKey a r 0) 0 = 0 ∧ t.chip.fab.cnt.getD (arbKey a r 1) 0 = 0 ∧ t.chip.fab.cnt.getD (arbKey a r 2) 0 = 0 ∧
      t.chip.fab.cnt.getD (arbKey a r 3) 0 = s.chip.fab.cnt.getD (arbKey a r 3) 0 ∧
      Only [.rf, .fab] [R.FAB_ARB.ARB_SEL.ARB, R.FAB_ARB.ARB_SEL.REQ] s t)

/-- A stalled message class is reported and nothing else happens (R228). -/
def Obligations.FabricProgressStall : Prop :=
  (∀ (s : State) (cls : Nat),
    cls < 4 →
    Completes (.progressStall cls) s fun t =>
      (t.chip.get (H.IRQ_RAW 0x140)).testBit 0 = true ∧ t.chip.get R.FAB.STALL_CNT.COUNT = min (s.chip.get R.FAB.STALL_CNT.COUNT + 1) (2 ^ 32 - 1) ∧
      t.chip.get R.FAB.PROGRESS.LAST = 2 ^ cls ∧ Recorded 0x0D01 s t ∧ (t.chip.csk.waiting.getLast?.map (·.params)) = some [2 ^ cls] ∧
      Only [.rf, .deliveries, .csk] [R.FAB.STALL_CNT.COUNT, R.FAB.PROGRESS.LAST, H.IRQ_RAW 0x140] s t)

/-- DRAM training, error regions, retraining and the refresh rate (R242, R243, R250, R255, R257, R258). -/
def Obligations.DramTrainingAndRegions : Prop :=
  (∀ (s : State) (src : Src),
    Reaches s.chip src 0x160 →
    isSecure src = true →
    s.chip.mode = Mode.BOOT →
    s.chip.flag R.DRC.TRAIN.BUSY = false →
    Completes (.trainGo src) s fun t =>
      t.chip.flag R.DRC.TRAIN.BUSY = true ∧ Only [.rf] [R.DRC.TRAIN.BUSY] s t) ∧
  (∀ (s : State) (unitPs : Nat),
    s.chip.flag R.DRC.TRAIN.BUSY = true →
    Completes (.trainDone 0 unitPs) s fun t =>
      t.chip.flag R.DRC.TRAIN.DONE = true ∧ t.chip.flag R.DRC.TRAIN.BUSY = false ∧ t.chip.flag R.DRC.TRAIN.FAIL = false ∧
      t.chip.get R.DRC.CAPACITY.GIB = s.chip.fittedGib % 2 ^ R.DRC.CAPACITY.GIB.w ∧
      t.chip.get R.DRC.CAPACITY.USABLE_2M = (t.chip.get R.DRC.CAPACITY.GIB * 512 - s.chip.get R.DRC_ECC.ECC_CARVE.SIZE) % 2 ^ R.DRC.CAPACITY.USABLE_2M.w ∧
      t.chip.drc.unitPs = unitPs ∧ (t.chip.get (H.IRQ_RAW 0x160)).testBit 2 = true ∧ OnlyPages [.rf, .deliveries, .drc] [0x160] s t) ∧
  (∀ (s : State) (failed unitPs : Nat),
    s.chip.flag R.DRC.TRAIN.BUSY = true →
    (0 < failed ∧ failed < 4096) →
    Completes (.trainDone failed unitPs) s fun t =>
      t.chip.flag R.DRC.TRAIN.FAIL = true ∧ t.chip.get R.DRC.TRAIN.FAILED = failed ∧ t.chip.flag R.DRC.TRAIN.BUSY = false ∧
      Only [.rf, .deliveries] [R.DRC.TRAIN.BUSY, R.DRC.TRAIN.FAILED, R.DRC.TRAIN.FAIL, H.IRQ_RAW 0x160] s t) ∧
  (∀ (s : State) (src : Src) (k : Nat) (data : Word),
    k < 8 →
    Reaches s.chip src 0x161 →
    isSecure src = true →
    s.chip.mode = Mode.BOOT →
    s.chip.flag R.DRC_ECC.ECC_CARVE.ECC_LOCK = false →
    data.toNat < 2 ^ 18 →
    s.chip.regionOk (bits data.toNat 3 15) (s.chip.get (R.DRC_ECC.REG_SIZE.ADDR k)) (s.chip.get R.DRC_ECC.ECC_CARVE.SIZE) (s.chip.otherRegions k) = true →
    Completes (.eccRegionEnable src k data) s fun t =>
      t.chip.flag (R.DRC_ECC.REG_BASE.EN k) = true ∧ t.chip.get (R.DRC_ECC.REG_BASE.ADDR k) = bits data.toNat 3 15 ∧
      (s.chip.flag (R.DRC_ECC.REG_BASE.EN k) = false → data.toNat.testBit 1 = true → t.chip.flag (R.DRC_ECC.REG_BASE.INIT_BUSY k) = true) ∧
      Only [.rf] [R.DRC_ECC.REG_BASE.EN k, R.DRC_ECC.REG_BASE.INIT k, R.DRC_ECC.REG_BASE.ADDR k, R.DRC_ECC.REG_BASE.INIT_BUSY k] s t) ∧
  (∀ (s : State) (k : Nat),
    k < 8 →
    s.chip.flag (R.DRC_ECC.REG_BASE.INIT_BUSY k) = true →
    Completes (.eccInitDone k) s fun t =>
      t.chip.flag (R.DRC_ECC.REG_BASE.INIT_BUSY k) = false ∧ (t.chip.get (H.IRQ_RAW 0x161)).testBit 0 = true ∧
      Zeroed (s.chip.get (R.DRC_ECC.REG_BASE.ADDR k) * 2 ^ 21) (s.chip.get (R.DRC_ECC.REG_BASE.ADDR k) * 2 ^ 21 + s.chip.get (R.DRC_ECC.REG_SIZE.ADDR k) * 2 ^ 21)
        s.mem.dram t.mem.dram ∧
      t.mem.sram = s.mem.sram ∧ t.mem.host = s.mem.host ∧
      PartsBut [.rf, .deliveries, .flaws] s t ∧ RegsBut [R.DRC_ECC.REG_BASE.INIT_BUSY k, H.IRQ_RAW 0x161] s t) ∧
  (∀ (s : State) (k : Nat) (ok : Bool),
    k < 12 →
    s.chip.flag (R.DRC_DC.DC_STAT.RETRAINING k) = true →
    Completes (.retrainStepDone k ok) s fun t =>
      t.chip.flag (R.DRC_DC.DC_STAT.RETRAINING k) = false ∧ t.chip.get R.DRC.RETRAIN_CNT.COUNT = min (s.chip.get R.DRC.RETRAIN_CNT.COUNT + 1) (2 ^ 32 - 1) ∧
      (t.chip.dch1 k).stepFrame = s.chip.drc.frames ∧ (ok = false → (t.chip.get (H.IRQ_RAW 0x160)).testBit 3 = true ∧ Recorded 0x0F03 s t) ∧
      Only [.rf, .deliveries, .drc, .csk] [R.DRC_DC.DC_STAT.RETRAINING k, R.DRC.RETRAIN_CNT.COUNT, R.DRC_DC.RETRAIN_US.COUNT k, H.IRQ_RAW 0x160] s t) ∧
  (∀ (s : State) (k rate temp : Nat),
    k < 12 →
    rate < 3 →
    s.chip.drcReady = true →
    rate ≠ s.chip.get (R.DRC_DC.DC_STAT.RATE k) →
    Completes (.mr4Poll k rate temp) s fun t =>
      t.chip.get (R.DRC_DC.DC_STAT.RATE k) = rate ∧ t.chip.get (R.DRC_DC.DC_STAT.TEMP k) = temp % 2 ^ (R.DRC_DC.DC_STAT.TEMP k).w ∧
      t.chip.get (R.DRC_DC.DEBT.LIMIT k) = max 1 (s.chip.get R.DRC.REF_CFG.POSTPONE_MAX / 2 ^ rate) % 2 ^ (R.DRC_DC.DEBT.LIMIT k).w ∧
      (t.chip.get (H.IRQ_RAW 0x160)).testBit 4 = true ∧ MemSame s t)

/-- A DRAM request's way through its channel's queue, refresh debt and self-refresh (R80, R122, R226, R229, R244, R245, R246, R248, R249, R252, R283). -/
def Obligations.DramQueuesServeRequests : Prop :=
  (∀ (s : State) (k : Nat) (a : DramAsk),
    a.fits = true →
    k = dramChan a.off →
    s.chip.drcReady = true →
    a.off + a.len ≤ s.chip.dramUsable →
    s.chip.get (R.DRC_DC.DC_STAT.SR k) = 0 →
    s.chip.govTime.askFits k a = true →
    Completes (.dramRequestAdmit a.port a.who a.write a.off a.len { sec := a.sec, data := a.data }) s fun t =>
      (∃ e ∈ (t.chip.dch1 k).ents.getLast?, e.off = a.off ∧ e.len = a.len ∧ e.port = a.port ∧ e.cls = s.chip.askClass a ∧ e.write = a.write ∧ e.sent = 0 ∧
        e.sec = a.sec ∧ e.since = s.chip.ps ∧ e.data = (if a.write then padTo a.len a.data else [])) ∧
      (t.chip.dch1 k).ents.dropLast = (s.chip.dch1 k).ents ∧
      Only [.rf, .drc, .fab] [R.DRC_DC.DC_STAT.QUEUED k] s t) ∧
  (∀ (s : State) (k : Nat) (a b : DramAsk),
    (a.fits = true ∧ b.fits = true ∧ a.port ≠ b.port) →
    (k = dramChan a.off ∧ dramChan b.off = k) →
    s.chip.drcReady = true →
    (a.off + a.len ≤ s.chip.dramUsable ∧ b.off + b.len ≤ s.chip.dramUsable) →
    s.chip.get (R.DRC_DC.DC_STAT.SR k) = 0 →
    (s.chip.govTime.askFits k a = true ∧ s.chip.govTime.askFits k b = true) →
    (s.chip.askClass a = 2 ∧ s.chip.askClass b = 2) →
    (s.chip.askWeight (s.chip.askOwner a) = 0 ∧ s.chip.askWeight (s.chip.askOwner b) ≠ 0) →
    Completes (.dramRequestAdmit a.port a.who a.write a.off a.len { sec := a.sec, data := a.data, others := [b] }) s fun t =>
      (t.chip.dch1 k).ents.dropLast = (s.chip.dch1 k).ents ∧
      (t.chip.dch1 k).ents.getLast?.map (fun e => (e.port, e.off, e.len)) = some (b.port, b.off, b.len) ∧
      Only [.rf, .drc, .fab] [R.DRC_DC.DC_STAT.QUEUED k] s t) ∧
  (∀ (s : State) (k : Nat) (iso : Bool) (busy : List Nat) (e : DramEnt),
    k < 12 →
    s.chip.drcReady = true →
    s.chip.flag (R.DRC_DC.DC_STAT.RETRAINING k) = false →
    (s.chip.dch1 k).ents = [e] →
    s.chip.dramBank e.off ∉ busy →
    e.write = true →
    e.cls < 4 →
    (e.sent < e.len ∧ e.len - e.sent ≤ 32 - (e.off + e.sent) % 32) →
    Completes (.dramColumnIssue k iso busy 0) s fun t =>
      (t.chip.dch1 k).ents = [] ∧ t.mem = { s.mem with dram := Memory.writeBytes s.mem.dram e.off e.data } ∧ t.pending = s.pending ∧
      t.chip.drc.answers = s.chip.drc.answers ++ [{ port := e.port, off := e.off, ok := true, data := [] }] ∧
      t.chip.get (R.DRC_DC.WR_CNT.COUNT k) = (if e.sec then s.chip.get (R.DRC_DC.WR_CNT.COUNT k) else min (s.chip.get (R.DRC_DC.WR_CNT.COUNT k) + 1) (2 ^ 32 - 1)) ∧
      PartsBut [.rf, .drc, .free, .flaws] s t) ∧
  (∀ (s : State) (k : Nat) (iso : Bool) (busy : List Nat) (e : DramEnt),
    k < 12 →
    s.chip.drcReady = true →
    s.chip.flag (R.DRC_DC.DC_STAT.RETRAINING k) = false →
    (s.chip.dch1 k).ents = [e] →
    s.chip.dramBank e.off ∉ busy →
    e.write = false →
    e.cls < 4 →
    (e.sent < e.len ∧ e.len - e.sent ≤ 32 - (e.off + e.sent) % 32) →
    s.chip.flaws = [] →
    (s.chip.get R.PTB_PERTURB.DRAM_DELAY.CHANNELS).testBit k = false →
    s.chip.fab.pressed = 0 →
    Completes (.dramColumnIssue k iso busy 0) s fun t =>
      (t.chip.dch1 k).ents = [] ∧ t.chip.drc.answers =
        s.chip.drc.answers ++ [{ port := e.port, off := e.off, ok := true, data := Memory.readBytes s.mem.dram e.off e.len }] ∧
      t.chip.get (R.DRC_DC.RD_CNT.COUNT k) = (if e.sec then s.chip.get (R.DRC_DC.RD_CNT.COUNT k) else min (s.chip.get (R.DRC_DC.RD_CNT.COUNT k) + 1) (2 ^ 32 - 1)) ∧
      MemSame s t ∧ PartsBut [.rf, .drc, .free] s t) ∧
  (∀ (s : State) (k n : Nat),
    k < 12 →
    s.chip.drcReady = true →
    s.chip.get (R.DRC_DC.DC_STAT.SR k) < 2 →
    s.chip.drc.blank = false →
    n = (s.chip.ps - (s.chip.dch1 k).upTo) * 256 * s.chip.dcRate k + (s.chip.dch1 k).rem →
    (s.chip.debt k + n / trefi) / 256 ≤ s.chip.get (R.DRC_DC.DEBT.LIMIT k) →
    s.chip.debt k + n / trefi < 4096 →
    Completes (.refreshDebtTick k) s fun t =>
      t.chip.debt k = s.chip.debt k + n / trefi ∧ (t.chip.dch1 k).rem = n % trefi ∧ (t.chip.dch1 k).upTo = max (s.chip.dch1 k).upTo s.chip.ps ∧
      Only [.rf, .drc] [R.DRC_DC.DEBT.D k] s t) ∧
  (∀ (s : State) (k : Nat),
    k < 12 →
    s.chip.drcReady = true →
    s.chip.flag R.DRC.LP_CFG.SR_EN = true →
    s.chip.mode = Mode.RUN →
    s.chip.get (R.DRC_DC.DC_STAT.SR k) = 0 →
    (s.chip.dch1 k).ents = [] →
    s.chip.fetchRaised = false →
    (s.chip.dch1 k).idleAt + s.chip.get R.DRC.LP_CFG.SR_IDLE * 1000000 ≤ s.chip.ps →
    Completes (.srIdleExpiry k) s fun t =>
      t.chip.get (R.DRC_DC.DC_STAT.SR k) = 1 ∧ (t.chip.dch1 k).srAt = s.chip.ps ∧ (t.chip.dch1 k).rows = [] ∧ t.chip.debt k < 256 ∧
      OnlyPages [.rf, .drc] [0x160, 0x170 + k] s t)

/-- Sparge takes up, starts, moves and completes descriptors (R85, R261, R262, R263, R264, R266, R267, R268, R269, R270). -/
def Obligations.SpargeTakesUpDescriptors : Prop :=
  (∀ (s : State) (r : Nat) (e : Issued),
    r < 64 →
    s.chip.freshEntry r 2 0 = some e →
    zeroAt e.bytes 0x10 48 = true →
    Completes (.dmaNop r) s fun t =>
      EntryEnds r e.seq E.NONE [] s t ∧ Only [.imx] [] s t) ∧
  (∀ (s : State) (r : Nat) (e : Issued) (d : DmaDesc),
    r < 64 →
    s.chip.freshEntry r 2 1 = some e →
    d = { ring := r, seq := e.seq, own := s.chip.ringOwn r, bytes := e.bytes } →
    s.chip.dmaCheck d = none →
    Completes (.copy r) s fun t =>
      (t.chip.dch d.ch).queue = (s.chip.dch d.ch).queue ++ [d] ∧ EntryTaken r e.seq s t ∧ t.chip.get (R.DMA_CH.CH_STAT.OWNER d.ch) = d.own % 32 ∧
      OnlyPages [.rf, .dma, .imx] [0x180, 0x181] s t) ∧
  (∀ (s : State) (r : Nat) (e : Issued) (d : DmaDesc),
    r < 64 →
    s.chip.freshEntry r 2 2 = some e →
    d = { ring := r, seq := e.seq, own := s.chip.ringOwn r, bytes := e.bytes } →
    s.chip.dmaCheck d = none →
    Completes (.fill r) s fun t =>
      (t.chip.dch d.ch).queue = (s.chip.dch d.ch).queue ++ [d] ∧ EntryTaken r e.seq s t ∧ t.chip.get (R.DMA_CH.CH_STAT.OWNER d.ch) = d.own % 32 ∧
      OnlyPages [.rf, .dma, .imx] [0x180, 0x181] s t) ∧
  (∀ (s : State) (r : Nat) (e : Issued) (d : DmaDesc),
    r < 64 →
    s.chip.freshEntry r 2 3 = some e →
    d = { ring := r, seq := e.seq, own := s.chip.ringOwn r, bytes := e.bytes } →
    s.chip.dmaCheck d = none →
    Completes (.compare r) s fun t =>
      (t.chip.dch d.ch).queue = (s.chip.dch d.ch).queue ++ [d] ∧ EntryTaken r e.seq s t ∧ t.chip.get (R.DMA_CH.CH_STAT.OWNER d.ch) = d.own % 32 ∧
      OnlyPages [.rf, .dma, .imx] [0x180, 0x181] s t) ∧
  (∀ (s : State) (r k : Nat) (e : Issued),
    r < 64 →
    s.chip.freshEntry r 2 4 = some e →
    (k < 32 ∧ fieldAt e.bytes 0x10 1 = k) →
    zeroAt e.bytes 0x11 47 = true →
    s.chip.dmaUsable (s.chip.ringOwn r) k = true →
    (s.chip.dch k).run.isSome = true →
    (s.chip.dch k).stopping = false →
    Completes (.dmaStop r) s fun t =>
      (t.chip.dch k).stopping = true ∧ (t.chip.dch k).stopRefs = [(r, e.seq)] ∧ (t.chip.dch k).stopCount = (s.chip.dch k).queue.length - 1 ∧
      t.chip.get (R.DMA_CH.CH_CTRL.STOP k) = 1 ∧ (t.chip.dch k).run = (s.chip.dch k).run ∧ EntryTaken r e.seq s t ∧
      OnlyPages [.rf, .dma, .imx] [0x180, 0x181] s t) ∧
  (∀ (s : State) (src : Src) (k : Nat),
    k < 32 →
    Reaches s.chip src 0x181 →
    s.chip.mgrOrCtl src = true →
    (s.chip.dch k).run.isSome = true →
    (s.chip.dch k).stopping = false →
    Completes (.chStop src k) s fun t =>
      (t.chip.dch k).stopping = true ∧ (t.chip.dch k).stopRefs = [] ∧ (t.chip.dch k).stopCount = (s.chip.dch k).queue.length - 1 ∧
      t.chip.get (R.DMA_CH.CH_CTRL.STOP k) = 1 ∧ (t.chip.dch k).run = (s.chip.dch k).run ∧ OnlyPages [.rf, .dma] [0x180, 0x181] s t) ∧
  (∀ (s : State) (k : Nat) (d : DmaDesc),
    k < 32 →
    (s.chip.dch k).queue.head? = some d →
    (s.chip.dch k).run = none →
    (s.chip.dch k).stopping = false →
    (s.chip.dch k).waiting = false →
    s.chip.pdFree PD.DMA = true →
    s.chip.dmaLeaving k = false →
    d.start = 0 →
    Completes (.descriptorStart k) s fun t =>
      (t.chip.dch k).run = some {} ∧ (t.chip.dch k).queue = (s.chip.dch k).queue ∧ t.chip.get (R.DMA_CH.CH_SEQ.SEQ k) = d.seq % 2 ^ 32 ∧
      OnlyPages [.rf, .dma] [0x180, 0x181] s t) ∧
  (∀ (s : State) (k beats : Nat) (d : DmaDesc) (x : DmaRun),
    k < 32 →
    s.chip.pdOn PD.DMA = true →
    s.chip.dmaRunning k = some (d, x) →
    d.op = 2 →
    d.dstSpace = 0 →
    x.done < d.total →
    x.stopped = none →
    (∀ i ∈ List.range 32, i ≠ k → (s.chip.dch i).run = none) →
    s.chip.flag R.DMA.DMA_CFG.MODE = false →
    Completes (.dmaBurstIssue (.write beats)) s fun t =>
      t.mem = { s.mem with dram := (Memory.writeBytes s.mem.dram (d.dstAt x.done) ((List.range (burstLen d x.done (d.dstAt x.done))).map
        fun j => (leBytes d.pattern d.src).getD ((x.done + j) % d.width % d.pattern) 0)) } ∧
      (t.chip.dch k).run = some { x with done := x.done + burstLen d x.done (d.dstAt x.done), held := x.held.drop (burstLen d x.done (d.dstAt x.done)), slotsSrc := eatSlots (burstLen d x.done (d.dstAt x.done)) x.slotsSrc } ∧
      t.pending = s.pending ∧ PagesBut [0x180, 0x181] s t) ∧
  (∀ (s : State) (k beats n : Nat) (d : DmaDesc) (x : DmaRun),
    k < 32 →
    s.chip.pdOn PD.DMA = true →
    s.chip.dmaRunning k = some (d, x) →
    d.op = 1 →
    x.srcNext < d.total →
    x.stopped = none →
    (x.cutSrc = true ∨ (x.slots < s.chip.get (R.DMA_CH.CH_CFG.BUF_MAX k) ∧ s.chip.dmaSlots < 256)) →
    (∀ i ∈ List.range 32, i ≠ k → (s.chip.dch i).run = none) →
    n = s.chip.beatCut beats (d.srcAt x.srcNext) (burstLen d x.srcNext (d.srcAt x.srcNext)) →
    Completes (.dmaBurstIssue (.read beats)) s fun t =>
      (t.chip.dch k).run = some { x with
        srcNext := x.srcNext + n, cutSrc := decide (n < burstLen d x.srcNext (d.srcAt x.srcNext)),
        reads := x.reads ++ [⟨false, x.srcNext, n, x.cutSrc⟩] } ∧
      t.chip.imx = { s.chip.imx with last := t.chip.imx.last } ∧
      t.chip.imx.last = (if d.srcSpace = 1 then
        some ⟨s.chip.ownPort d.own, s.chip.ownFunc d.own, false, d.srcAt x.srcNext, n, d.dflags.testBit 1⟩ else s.chip.imx.last) ∧
      OnlyPages [.rf, .dma, .imx] [0x180, 0x181] s t) ∧
  (∀ (s : State) (k : Nat) (data : List Byte) (d : DmaDesc) (x : DmaRun) (rd : DmaRead) (rest : List DmaRead),
    k < 32 →
    s.chip.dmaRunning k = some (d, x) →
    d.op = 1 →
    x.reads = rd :: rest →
    rd.dst = false →
    d.srcSpace = 0 →
    s.chip.flaws = [] →
    Completes (.dmaReadCompletion k data true) s fun t =>
      (t.chip.dch k).run = some { x with reads := rest, held := x.held ++ Memory.readBytes s.mem.dram (d.srcAt rd.start) rd.len, slotsSrc := fillSlot x.slotsSrc rd.len rd.join } ∧
      OnlyPages [.rf, .dma] [0x180, 0x181] s t) ∧
  (∀ (s : State) (k : Nat) (d : DmaDesc) (x : DmaRun),
    k < 32 →
    s.chip.dmaRunning k = some (d, x) →
    x.stopped = none →
    x.done = d.total →
    (s.chip.dch k).stopping = false →
    Completes (.descriptorComplete k) s fun t =>
      EntryEnds d.ring d.seq E.NONE (dmaResult d.rows 0 0 0) s t ∧ (t.chip.dch k).run = none ∧ (t.chip.dch k).queue = (s.chip.dch k).queue.drop 1 ∧
      t.chip.get R.DMA.DESC_CNT.COUNT = min (s.chip.get R.DMA.DESC_CNT.COUNT + 1) (2 ^ 32 - 1) ∧ MemSame s t)

/-- Integer arithmetic of the shader cores wraps, lane by lane (R150, R152, R153). -/
def Obligations.ShaderIntegerArithmetic : Prop :=
  (∀ (s : State) (w : Nat) (q : GWave) (ins : Nat) (wide : Bool),
    AtIns s w q ins →
    (Ins.op ins = if wide then 0x40 else 0x30) →
    (wide = true → Ins.dst ins < 32) →
    Ins.sat ins = false →
    Completes (.iadd w) s fun t =>
      AluStep w q ins wide (fun l => (BitVec.ofNat (widthOf wide) (operand s q ins wide false l 0) + BitVec.ofNat (widthOf wide) (operand s q ins wide false l 1)).toNat) s t) ∧
  (∀ (s : State) (w : Nat) (q : GWave) (ins : Nat) (wide : Bool),
    AtIns s w q ins →
    (Ins.op ins = if wide then 0x41 else 0x31) →
    (wide = true → Ins.dst ins < 32) →
    Ins.sat ins = false →
    Completes (.isub w) s fun t =>
      AluStep w q ins wide (fun l => (BitVec.ofNat (widthOf wide) (operand s q ins wide false l 0) - BitVec.ofNat (widthOf wide) (operand s q ins wide false l 1)).toNat) s t) ∧
  (∀ (s : State) (w : Nat) (q : GWave) (ins : Nat) (wide : Bool),
    AtIns s w q ins →
    (Ins.op ins = if wide then 0x42 else 0x32) →
    (wide = true → Ins.dst ins < 32) →
    Ins.sat ins = false →
    Completes (.imul w) s fun t =>
      AluStep w q ins wide (fun l => (BitVec.ofNat (widthOf wide) (operand s q ins wide false l 0) * BitVec.ofNat (widthOf wide) (operand s q ins wide false l 1)).toNat) s t) ∧
  (∀ (s : State) (w : Nat) (q : GWave) (ins : Nat) (wide : Bool),
    AtIns s w q ins →
    (Ins.op ins = if wide then 0x43 else 0x33) →
    (wide = true → Ins.dst ins < 32) →
    Ins.sat ins = false →
    Completes (.imad w) s fun t =>
      AluStep w q ins wide (fun l => (BitVec.ofNat (widthOf wide) (operand s q ins wide false l 0) * BitVec.ofNat (widthOf wide) (operand s q ins wide false l 1) + BitVec.ofNat (widthOf wide) (operand s q ins wide false l 2)).toNat) s t) ∧
  (∀ (s : State) (w : Nat) (q : GWave) (ins : Nat) (wide : Bool),
    AtIns s w q ins →
    (Ins.op ins = if wide then 0x44 else 0x34) →
    (wide = true → Ins.dst ins < 32) →
    Ins.sat ins = false →
    Completes (.imin w) s fun t =>
      AluStep w q ins wide (fun l => if (BitVec.ofNat (widthOf wide) (operand s q ins wide false l 0)).toInt ≤ (BitVec.ofNat (widthOf wide) (operand s q ins wide false l 1)).toInt then (operand s q ins wide false l 0) else (operand s q ins wide false l 1)) s t) ∧
  (∀ (s : State) (w : Nat) (q : GWave) (ins : Nat) (wide : Bool),
    AtIns s w q ins →
    (Ins.op ins = if wide then 0x45 else 0x35) →
    (wide = true → Ins.dst ins < 32) →
    Ins.sat ins = false →
    Completes (.imax w) s fun t =>
      AluStep w q ins wide (fun l => if (BitVec.ofNat (widthOf wide) (operand s q ins wide false l 0)).toInt ≤ (BitVec.ofNat (widthOf wide) (operand s q ins wide false l 1)).toInt then (operand s q ins wide false l 1) else (operand s q ins wide false l 0)) s t) ∧
  (∀ (s : State) (w : Nat) (q : GWave) (ins : Nat) (wide : Bool),
    AtIns s w q ins →
    (Ins.op ins = if wide then 0x46 else 0x36) →
    (wide = true → Ins.dst ins < 32) →
    Ins.sat ins = false →
    Completes (.umin w) s fun t =>
      AluStep w q ins wide (fun l => if (operand s q ins wide false l 0) ≤ (operand s q ins wide false l 1) then (operand s q ins wide false l 0) else (operand s q ins wide false l 1)) s t) ∧
  (∀ (s : State) (w : Nat) (q : GWave) (ins : Nat) (wide : Bool),
    AtIns s w q ins →
    (Ins.op ins = if wide then 0x47 else 0x37) →
    (wide = true → Ins.dst ins < 32) →
    Ins.sat ins = false →
    Completes (.umax w) s fun t =>
      AluStep w q ins wide (fun l => if (operand s q ins wide false l 0) ≤ (operand s q ins wide false l 1) then (operand s q ins wide false l 1) else (operand s q ins wide false l 0)) s t)

/-- Logic, shifts, moves and selections of the shader cores (R150, R152, R153). -/
def Obligations.ShaderLogicMovesAndShifts : Prop :=
  (∀ (s : State) (w : Nat) (q : GWave) (ins : Nat) (wide : Bool),
    AtIns s w q ins →
    (Ins.op ins = if wide then 0x48 else 0x38) →
    (wide = true → Ins.dst ins < 32) →
    Ins.sat ins = false →
    Completes (.and w) s fun t =>
      AluStep w q ins wide (fun l => (BitVec.ofNat (widthOf wide) (operand s q ins wide false l 0) &&& BitVec.ofNat (widthOf wide) (operand s q ins wide false l 1)).toNat) s t) ∧
  (∀ (s : State) (w : Nat) (q : GWave) (ins : Nat) (wide : Bool),
    AtIns s w q ins →
    (Ins.op ins = if wide then 0x49 else 0x39) →
    (wide = true → Ins.dst ins < 32) →
    Ins.sat ins = false →
    Completes (.or w) s fun t =>
      AluStep w q ins wide (fun l => (BitVec.ofNat (widthOf wide) (operand s q ins wide false l 0) ||| BitVec.ofNat (widthOf wide) (operand s q ins wide false l 1)).toNat) s t) ∧
  (∀ (s : State) (w : Nat) (q : GWave) (ins : Nat) (wide : Bool),
    AtIns s w q ins →
    (Ins.op ins = if wide then 0x4a else 0x3a) →
    (wide = true → Ins.dst ins < 32) →
    Ins.sat ins = false →
    Completes (.xor w) s fun t =>
      AluStep w q ins wide (fun l => (BitVec.ofNat (widthOf wide) (operand s q ins wide false l 0) ^^^ BitVec.ofNat (widthOf wide) (operand s q ins wide false l 1)).toNat) s t) ∧
  (∀ (s : State) (w : Nat) (q : GWave) (ins : Nat) (wide : Bool),
    AtIns s w q ins →
    (Ins.op ins = if wide then 0x4b else 0x3b) →
    (wide = true → Ins.dst ins < 32) →
    Ins.sat ins = false →
    Completes (.not w) s fun t =>
      AluStep w q ins wide (fun l => (~~~(BitVec.ofNat (widthOf wide) (operand s q ins wide false l 0))).toNat) s t) ∧
  (∀ (s : State) (w : Nat) (q : GWave) (ins : Nat) (wide : Bool),
    AtIns s w q ins →
    (Ins.op ins = if wide then 0x4c else 0x3c) →
    (wide = true → Ins.dst ins < 32) →
    Ins.sat ins = false →
    Completes (.shl w) s fun t =>
      AluStep w q ins wide (fun l => (BitVec.ofNat (widthOf wide) (operand s q ins wide false l 0) <<< ((operand s q ins wide false l 1) % widthOf wide)).toNat) s t) ∧
  (∀ (s : State) (w : Nat) (q : GWave) (ins : Nat) (wide : Bool),
    AtIns s w q ins →
    (Ins.op ins = if wide then 0x4d else 0x3d) →
    (wide = true → Ins.dst ins < 32) →
    Ins.sat ins = false →
    Completes (.shr w) s fun t =>
      AluStep w q ins wide (fun l => (BitVec.ofNat (widthOf wide) (operand s q ins wide false l 0) >>> ((operand s q ins wide false l 1) % widthOf wide)).toNat) s t) ∧
  (∀ (s : State) (w : Nat) (q : GWave) (ins : Nat) (wide : Bool),
    AtIns s w q ins →
    (Ins.op ins = if wide then 0x4e else 0x3e) →
    (wide = true → Ins.dst ins < 32) →
    Ins.sat ins = false →
    Completes (.asr w) s fun t =>
      AluStep w q ins wide (fun l => ((BitVec.ofNat (widthOf wide) (operand s q ins wide false l 0)).sshiftRight ((operand s q ins wide false l 1) % widthOf wide)).toNat) s t) ∧
  (∀ (s : State) (w : Nat) (q : GWave) (ins : Nat) (wide : Bool),
    AtIns s w q ins →
    (Ins.op ins = if wide then 0x2 else 0x1) →
    (wide = true → Ins.dst ins < 32) →
    Ins.sat ins = false →
    Completes (.mov w) s fun t =>
      AluStep w q ins wide (fun l => (operand s q ins wide false l 0)) s t) ∧
  (∀ (s : State) (w : Nat) (q : GWave) (ins : Nat) (wide : Bool),
    AtIns s w q ins →
    (Ins.op ins = if wide then 0x4 else 0x3) →
    (wide = true → Ins.dst ins < 32) →
    Ins.sat ins = false →
    Completes (.sel w) s fun t =>
      AluStep w q ins wide (fun l => if q.p l (Ins.src ins 2 % 4) then (operand s q ins wide false l 0) else (operand s q ins wide false l 1)) s t) ∧
  (∀ (s : State) (w : Nat) (q : GWave) (ins : Nat),
    AtIns s w q ins →
    Ins.op ins = 0 →
    Completes (.shaderNop w) s fun t =>
      WaveStep w (fun q' => q' = { q with pc := q.pc + 1 }) s t)

/-- Floating-point arithmetic of the shader cores (R150, R152, R153, R154). -/
def Obligations.ShaderFloatArithmetic : Prop :=
  (∀ (s : State) (w : Nat) (q : GWave) (ins : Nat) (wide : Bool),
    AtIns s w q ins →
    (Ins.op ins = if wide then 0x20 else 0x10) →
    (wide = true → Ins.dst ins < 32) →
    Completes (.fadd w) s fun t =>
      AluStep w q ins wide (fun l => let v := (fmtOf wide).ofVal (((fmtOf wide).val (operand s q ins wide true l 0)).add ((fmtOf wide).val (operand s q ins wide true l 1))); if Ins.sat ins then (fmtOf wide).sat v else v) s t) ∧
  (∀ (s : State) (w : Nat) (q : GWave) (ins : Nat) (wide : Bool),
    AtIns s w q ins →
    (Ins.op ins = if wide then 0x21 else 0x11) →
    (wide = true → Ins.dst ins < 32) →
    Completes (.fmul w) s fun t =>
      AluStep w q ins wide (fun l => let v := (fmtOf wide).ofVal (((fmtOf wide).val (operand s q ins wide true l 0)).mul ((fmtOf wide).val (operand s q ins wide true l 1))); if Ins.sat ins then (fmtOf wide).sat v else v) s t) ∧
  (∀ (s : State) (w : Nat) (q : GWave) (ins : Nat) (wide : Bool),
    AtIns s w q ins →
    (Ins.op ins = if wide then 0x22 else 0x12) →
    (wide = true → Ins.dst ins < 32) →
    Completes (.ffma w) s fun t =>
      AluStep w q ins wide (fun l => let v := (fmtOf wide).ofVal ((((fmtOf wide).val (operand s q ins wide true l 0)).mul ((fmtOf wide).val (operand s q ins wide true l 1))).add ((fmtOf wide).val (operand s q ins wide true l 2))); if Ins.sat ins then (fmtOf wide).sat v else v) s t) ∧
  (∀ (s : State) (w : Nat) (q : GWave) (ins : Nat) (wide : Bool),
    AtIns s w q ins →
    (Ins.op ins = if wide then 0x23 else 0x13) →
    (wide = true → Ins.dst ins < 32) →
    Completes (.fmin w) s fun t =>
      AluStep w q ins wide (fun l => let v := (fmtOf wide).ofVal (((fmtOf wide).val (operand s q ins wide true l 0)).min ((fmtOf wide).val (operand s q ins wide true l 1))); if Ins.sat ins then (fmtOf wide).sat v else v) s t) ∧
  (∀ (s : State) (w : Nat) (q : GWave) (ins : Nat) (wide : Bool),
    AtIns s w q ins →
    (Ins.op ins = if wide then 0x24 else 0x14) →
    (wide = true → Ins.dst ins < 32) →
    Completes (.fmax w) s fun t =>
      AluStep w q ins wide (fun l => let v := (fmtOf wide).ofVal (((fmtOf wide).val (operand s q ins wide true l 0)).max ((fmtOf wide).val (operand s q ins wide true l 1))); if Ins.sat ins then (fmtOf wide).sat v else v) s t) ∧
  (∀ (s : State) (w : Nat) (q : GWave) (ins : Nat) (wide : Bool),
    AtIns s w q ins →
    (Ins.op ins = if wide then 0x25 else 0x15) →
    (wide = true → Ins.dst ins < 32) →
    Completes (.ffloor w) s fun t =>
      AluStep w q ins wide (fun l => let v := (fmtOf wide).ofVal ((fmtOf wide).val (operand s q ins wide true l 0)).floor; if Ins.sat ins then (fmtOf wide).sat v else v) s t) ∧
  (∀ (s : State) (w : Nat) (q : GWave) (ins : Nat) (wide : Bool),
    AtIns s w q ins →
    (Ins.op ins = if wide then 0x26 else 0x16) →
    (wide = true → Ins.dst ins < 32) →
    Completes (.ffract w) s fun t =>
      AluStep w q ins wide (fun l => let v := (fmtOf wide).ofVal (((fmtOf wide).val (operand s q ins wide true l 0)).add ((fmtOf wide).val (operand s q ins wide true l 0)).floor.neg); if Ins.sat ins then (fmtOf wide).sat v else v) s t)

/-- FRCP, FRSQ, FSQRT, FEXP2, FLOG2, FSIN and FCOS complete, each with its function of the source under the model's open choice (log entry 26) (R150, R153, R154). -/
def Obligations.ShaderFloatFunctions : Prop :=
  (∀ (s : State) (w : Nat) (q : GWave) (ins : Nat) (wide : Bool),
    AtIns s w q ins →
    (Ins.op ins = if wide then 0x27 else 0x17) →
    (wide = true → Ins.dst ins < 32) →
    Completes (.frcp w) s fun t =>
      AluStep w q ins wide (fun l => let v := (fmtOf wide).rcp (operand s q ins wide true l 0) (Config.approx (7 + (fmtOf wide).mb * 16) (operand s q ins wide true l 0)).toNat; if Ins.sat ins then (fmtOf wide).sat v else v) s t) ∧
  (∀ (s : State) (w : Nat) (q : GWave) (ins : Nat) (wide : Bool),
    AtIns s w q ins →
    (Ins.op ins = if wide then 0x28 else 0x18) →
    (wide = true → Ins.dst ins < 32) →
    Completes (.frsq w) s fun t =>
      AluStep w q ins wide (fun l => let v := (fmtOf wide).rsq (operand s q ins wide true l 0) (Config.approx (8 + (fmtOf wide).mb * 16) (operand s q ins wide true l 0)).toNat; if Ins.sat ins then (fmtOf wide).sat v else v) s t) ∧
  (∀ (s : State) (w : Nat) (q : GWave) (ins : Nat) (wide : Bool),
    AtIns s w q ins →
    (Ins.op ins = if wide then 0x29 else 0x19) →
    (wide = true → Ins.dst ins < 32) →
    Completes (.fsqrt w) s fun t =>
      AluStep w q ins wide (fun l => let v := (fmtOf wide).sqrt (operand s q ins wide true l 0) (Config.approx (9 + (fmtOf wide).mb * 16) (operand s q ins wide true l 0)).toNat; if Ins.sat ins then (fmtOf wide).sat v else v) s t) ∧
  (∀ (s : State) (w : Nat) (q : GWave) (ins : Nat) (wide : Bool),
    AtIns s w q ins →
    (Ins.op ins = if wide then 0x2a else 0x1a) →
    (wide = true → Ins.dst ins < 32) →
    Completes (.fexp2 w) s fun t =>
      AluStep w q ins wide (fun l => let v := (fmtOf wide).exp2 (operand s q ins wide true l 0) (Config.approx (10 + (fmtOf wide).mb * 16) (operand s q ins wide true l 0)).toNat; if Ins.sat ins then (fmtOf wide).sat v else v) s t) ∧
  (∀ (s : State) (w : Nat) (q : GWave) (ins : Nat) (wide : Bool),
    AtIns s w q ins →
    (Ins.op ins = if wide then 0x2b else 0x1b) →
    (wide = true → Ins.dst ins < 32) →
    Completes (.flog2 w) s fun t =>
      AluStep w q ins wide (fun l => let v := (fmtOf wide).log2 (operand s q ins wide true l 0) (Config.approx (11 + (fmtOf wide).mb * 16) (operand s q ins wide true l 0)).toNat; if Ins.sat ins then (fmtOf wide).sat v else v) s t) ∧
  (∀ (s : State) (w : Nat) (q : GWave) (ins : Nat) (wide : Bool),
    AtIns s w q ins →
    (Ins.op ins = if wide then 0x2c else 0x1c) →
    (wide = true → Ins.dst ins < 32) →
    Completes (.fsin w) s fun t =>
      AluStep w q ins wide (fun l => let v := (fmtOf wide).sinTurns false (operand s q ins wide true l 0) (Config.approx (12 + (fmtOf wide).mb * 16) (operand s q ins wide true l 0)).toNat; if Ins.sat ins then (fmtOf wide).sat v else v) s t) ∧
  (∀ (s : State) (w : Nat) (q : GWave) (ins : Nat) (wide : Bool),
    AtIns s w q ins →
    (Ins.op ins = if wide then 0x2d else 0x1d) →
    (wide = true → Ins.dst ins < 32) →
    Completes (.fcos w) s fun t =>
      AluStep w q ins wide (fun l => let v := (fmtOf wide).sinTurns true (operand s q ins wide true l 0) (Config.approx (13 + (fmtOf wide).mb * 16) (operand s q ins wide true l 0)).toNat; if Ins.sat ins then (fmtOf wide).sat v else v) s t)

/-- Conversions between formats and integers (R150, R152, R153, R154). -/
def Obligations.ShaderConversions : Prop :=
  (∀ (s : State) (w : Nat) (q : GWave) (ins : Nat),
    AtIns s w q ins →
    Ins.op ins = 0x50 →
    Ins.dst ins < 32 →
    Completes (.f16tof32 w) s fun t =>
      AluStep w q ins true (fun l => let v := toFp32 (operand s q ins false true l 0); if Ins.sat ins then (fmtOf true).sat v else v) s t) ∧
  (∀ (s : State) (w : Nat) (q : GWave) (ins : Nat),
    AtIns s w q ins →
    Ins.op ins = 0x51 →
    Completes (.f32tof16 w) s fun t =>
      AluStep w q ins false (fun l => let v := toFp16 (operand s q ins true true l 0); if Ins.sat ins then (fmtOf false).sat v else v) s t) ∧
  (∀ (s : State) (w : Nat) (q : GWave) (ins : Nat),
    AtIns s w q ins →
    Ins.op ins = 0x52 →
    Completes (.i16tof16 w) s fun t =>
      AluStep w q ins false (fun l => let v := fp16.ofInt (BitVec.ofNat 16 (operand s q ins false false l 0)).toInt; if Ins.sat ins then (fmtOf false).sat v else v) s t) ∧
  (∀ (s : State) (w : Nat) (q : GWave) (ins : Nat),
    AtIns s w q ins →
    Ins.op ins = 0x53 →
    Completes (.u16tof16 w) s fun t =>
      AluStep w q ins false (fun l => let v := fp16.ofInt ((operand s q ins false false l 0) : Int); if Ins.sat ins then (fmtOf false).sat v else v) s t) ∧
  (∀ (s : State) (w : Nat) (q : GWave) (ins : Nat),
    AtIns s w q ins →
    Ins.op ins = 0x54 →
    Ins.sat ins = false →
    Completes (.f16toi16 w) s fun t =>
      AluStep w q ins false (fun l => (BitVec.ofInt 16 ((fp16.val (operand s q ins false true l 0)).toIntSat (-32768) 32767)).toNat) s t) ∧
  (∀ (s : State) (w : Nat) (q : GWave) (ins : Nat),
    AtIns s w q ins →
    Ins.op ins = 0x55 →
    Ins.sat ins = false →
    Completes (.f16tou16 w) s fun t =>
      AluStep w q ins false (fun l => (BitVec.ofInt 16 ((fp16.val (operand s q ins false true l 0)).toIntSat 0 65535)).toNat) s t) ∧
  (∀ (s : State) (w : Nat) (q : GWave) (ins : Nat),
    AtIns s w q ins →
    Ins.op ins = 0x56 →
    Ins.dst ins < 32 →
    Completes (.i32tof32 w) s fun t =>
      AluStep w q ins true (fun l => let v := fp32.ofInt (BitVec.ofNat 32 (operand s q ins true false l 0)).toInt; if Ins.sat ins then (fmtOf true).sat v else v) s t) ∧
  (∀ (s : State) (w : Nat) (q : GWave) (ins : Nat),
    AtIns s w q ins →
    Ins.op ins = 0x57 →
    Ins.dst ins < 32 →
    Ins.sat ins = false →
    Completes (.f32toi32 w) s fun t =>
      AluStep w q ins true (fun l => (BitVec.ofInt 32 ((fp32.val (operand s q ins true true l 0)).toIntSat (-2147483648) 2147483647)).toNat) s t) ∧
  (∀ (s : State) (w : Nat) (q : GWave) (ins : Nat),
    AtIns s w q ins →
    Ins.op ins = 0x58 →
    Ins.dst ins < 32 →
    Ins.sat ins = false →
    Completes (.i16toi32 w) s fun t =>
      AluStep w q ins true (fun l => (BitVec.ofInt 32 (BitVec.ofNat 16 (operand s q ins false false l 0)).toInt).toNat) s t) ∧
  (∀ (s : State) (w : Nat) (q : GWave) (ins : Nat),
    AtIns s w q ins →
    Ins.op ins = 0x59 →
    Ins.sat ins = false →
    Completes (.i32toi16 w) s fun t =>
      AluStep w q ins false (fun l => (operand s q ins true false l 0) % 65536) s t)

/-- Comparisons, predicate logic, branches, KILL and END of the shader cores (R150, R152, R155, R156, R157, R159). -/
def Obligations.ShaderPredicatesAndFlow : Prop :=
  (∀ (s : State) (w : Nat) (q : GWave) (ins : Nat) (wide : Bool),
    AtIns s w q ins →
    (Ins.op ins = if wide then 0x5B else 0x5A) →
    Ins.cond ins < 7 →
    Completes (.fcmp w) s fun t =>
      PredStep w q ins (Ins.pdst ins) (fun l =>
        let x := (fmtOf wide).val (operand s q ins wide true l 0)
        let y := (fmtOf wide).val (operand s q ins wide true l 1)
        let un := x.isNan || y.isNan
        let v := if Ins.cond ins = 0 then !un && x.eq y else if Ins.cond ins = 1 then un || !x.eq y else if Ins.cond ins = 2 then !un && x.lt y
          else if Ins.cond ins = 3 then !un && (x.lt y || x.eq y) else if Ins.cond ins = 4 then !un && y.lt x
          else if Ins.cond ins = 5 then !un && (y.lt x || x.eq y) else un
        if ins.testBit 14 then v && q.p l (Ins.pdst ins) else v) s t) ∧
  (∀ (s : State) (w : Nat) (q : GWave) (ins : Nat) (wide sg : Bool),
    AtIns s w q ins →
    (Ins.op ins = if wide then (if sg then 0x5E else 0x5F) else (if sg then 0x5C else 0x5D)) →
    Ins.cond ins < 6 →
    Completes (.icmp w) s fun t =>
      PredStep w q ins (Ins.pdst ins) (fun l =>
        let x := BitVec.ofNat (widthOf wide) (operand s q ins wide false l 0)
        let y := BitVec.ofNat (widthOf wide) (operand s q ins wide false l 1)
        let less := fun (a b : BitVec (widthOf wide)) => if sg then a.slt b else a.ult b
        let v := if Ins.cond ins = 0 then x == y else if Ins.cond ins = 1 then x != y else if Ins.cond ins = 2 then less x y
          else if Ins.cond ins = 3 then !less y x else if Ins.cond ins = 4 then less y x else !less x y
        if ins.testBit 14 then v && q.p l (Ins.pdst ins) else v) s t) ∧
  (∀ (s : State) (w : Nat) (q : GWave) (ins : Nat),
    AtIns s w q ins →
    Ins.op ins = 0x62 →
    Completes (.plop w) s fun t =>
      PredStep w q ins (Ins.pdst ins) (fun l =>
        (Ins.imm ins).testBit ((if q.p l (Ins.src ins 0 % 4) then 2 else 0) + (if q.p l (Ins.src ins 1 % 4) then 1 else 0))) s t) ∧
  (∀ (s : State) (w : Nat) (q : GWave) (ins : Nat),
    AtIns s w q ins →
    Ins.op ins = 0x68 →
    Ins.imm ins < 256 →
    Completes (.br w) s fun t =>
      WaveStep w (fun q' => q' = { q with pc := if !Ins.pen ins || (List.range 64).all (fun l => !q.active.testBit l || !q.runs ins l) then Ins.imm ins else q.pc + 1 }) s t) ∧
  (∀ (s : State) (w : Nat) (q : GWave) (ins : Nat),
    AtIns s w q ins →
    Ins.op ins = 0x79 →
    Completes (.kill w) s fun t =>
      WaveStep w (fun q' => q' = { q with pc := q.pc + 1, killed := q'.killed } ∧
        ∀ l ∈ List.range 64, q'.killed.testBit l = (q.killed.testBit l || (q.runs ins l && !q.helper.testBit l))) s t) ∧
  (∀ (s : State) (w : Nat) (q : GWave) (ins : Nat) (g : GCore),
    AtIns s w q ins →
    Ins.op ins = 0x7F →
    q.frag = true →
    (q.core < 12 ∧ q.home < 12) →
    s.chip.gcore q.home = some g →
    (g.queue = [] ∧ g.list.length ≤ 32 * g.pos) →
    Completes (.shaderEnd w) s fun t =>
      t.chip.gfx.waves = SMap.erase s.chip.gfx.waves w ∧
      t.chip.gcore q.home = ((clocked s w).gcore q.home).map (fun g' => { g' with frags := g.frags ++ ((List.range q.lanes.length).filter fun l => !q.helper.testBit l).map fun l =>
        ⟨(q.lane? l).a, (q.lane? l).b, (q.lane? l).i, (q.lane? l).ord, (q.lane? l).mask, q.killed.testBit l, (q.lane? l).pass, (q.lane? l).early, q.laneOuts l⟩ }) ∧
      (∀ k, k ≠ q.home → t.chip.gcore k = (clocked s w).gcore k) ∧
      t.chip.gfx.jobs = s.chip.gfx.jobs ∧ t.chip.gfx.pools = s.chip.gfx.pools ∧
      Only [.rf, .gfx] [R.GFX_SC.QUAD_CNT.COUNT q.core] s t) ∧
  (∀ (s : State) (w : Nat) (q : GWave) (ins : Nat) (j : GJob) (d : GDraw),
    AtIns s w q ins →
    Ins.op ins = 0x7F →
    q.frag = false →
    s.chip.job q.ctx = some j →
    j.draw = some d →
    d.left = none →
    ((s.chip.gfx.waves.any fun x => decide (x.1 ≠ w) && x.2.ctx == q.ctx && !x.2.frag) = true) →
    (SMap.sorted s.chip.gfx.waves) = true →
    Completes (.shaderEnd w) s fun t =>
      t.chip.gfx.waves = SMap.erase s.chip.gfx.waves w ∧ t.chip.job q.ctx = some { j with draw := some { d with done := (
        (List.range q.lanes.length).foldl (fun (r : SMap GVert) l => if q.active.testBit l then SMap.insert r (q.lane? l).a (q.vertex l) else r) d.done) } } ∧
      t.chip.gfx.cores = (clocked s w).gfx.cores ∧ t.chip.gfx.pools = s.chip.gfx.pools ∧ Only [.gfx] [] s t)

/-- Derivatives, constants, attributes, varyings, textures and outputs of the shader cores (R111, R137, R138, R151, R155, R157, R158, R159). -/
def Obligations.ShaderLoadsOutputsAndDerivatives : Prop :=
  (∀ (s : State) (w : Nat) (q : GWave) (ins : Nat),
    AtIns s w q ins →
    Ins.op ins = 0x60 →
    Completes (.ddx w) s fun t =>
      AluStep w q ins false (fun l =>
        let v := fp16.sub (operand s q ins false true (l / 2 * 2 + 1) 0) (operand s q ins false true (l / 2 * 2) 0)
        if Ins.sat ins then fp16.sat v else v) s t) ∧
  (∀ (s : State) (w : Nat) (q : GWave) (ins : Nat),
    AtIns s w q ins →
    Ins.op ins = 0x61 →
    Completes (.ddy w) s fun t =>
      AluStep w q ins false (fun l =>
        let v := fp16.sub (operand s q ins false true (l / 4 * 4 + l % 2 + 2) 0) (operand s q ins false true (l / 4 * 4 + l % 2) 0)
        if Ins.sat ins then fp16.sat v else v) s t) ∧
  (∀ (s : State) (w : Nat) (q : GWave) (ins : Nat) (j : GJob) (a size : Nat),
    AtIns s w q ins →
    Ins.op ins = 0x70 →
    Ins.dst ins + (bits (Ins.md ins) 2 3 + 1) ≤ 64 →
    s.chip.job q.ctx = some j →
    (j.state q.st).consts.find? (4 * b2n q.frag + bits (Ins.md ins) 0 2) = some (a, size) →
    Readable s a size →
    Completes (.ldc w) s fun t =>
      LoadStep w (fun q' => q' = { q with pc := q.pc + 1, regs := q'.regs } ∧ RegsLoad q q' ins false (bits (Ins.md ins) 2 3 + 1) (fun l i =>
        let o := (Ins.imm ins + operand s q ins false false l 0) / 2 * 2 + 2 * i
        (if o < size then (Memory.read (waveSees s q) (a + o)).toNat else 0) + 256 * (if o + 1 < size then (Memory.read (waveSees s q) (a + o + 1)).toNat else 0))) s t) ∧
  (∀ (s : State) (w : Nat) (q : GWave) (ins : Nat),
    AtIns s w q ins →
    Ins.op ins = 0x70 →
    Ins.dst ins + (bits (Ins.md ins) 2 3 + 1) ≤ 64 →
    (s.chip.waveState q).consts.find? (4 * b2n q.frag + bits (Ins.md ins) 0 2) = none →
    Completes (.ldc w) s fun t =>
      LoadStep w (fun q' => q' = { q with pc := q.pc + 1, regs := q'.regs } ∧ RegsLoad q q' ins false (bits (Ins.md ins) 2 3 + 1) (fun _ _ => 0)) s t) ∧
  (∀ (s : State) (w : Nat) (q : GWave) (ins : Nat) (wide : Bool),
    AtIns s w q ins →
    Ins.op ins = 0x71 →
    (Ins.imm ins).testBit 4 = wide →
    (Ins.dst ins + 4 ≤ if wide then 32 else 64) →
    (∀ l ∈ List.range 64, ∀ x ∈ attrSpans s q ins l, Readable s x.1 x.2) →
    Completes (.attr w) s fun t =>
      LoadStep w (fun q' => q' = { q with pc := q.pc + 1, regs := q'.regs } ∧ RegsLoad q q' ins wide 4 (fun l i =>
        (attrLoad (waveSees s q) (s.chip.waveState q) (Ins.imm ins % 16) wide (q.lane? l).b (q.lane? l).i).getD i 0)) s t) ∧
  (∀ (s : State) (w : Nat) (q : GWave) (ins : Nat) (wide : Bool) (j : GJob) (g : GCore),
    AtIns s w q ins →
    Ins.op ins = 0x72 →
    Ins.wide ins = wide →
    (Ins.dst ins + 4 ≤ if wide then 32 else 64) →
    s.chip.job q.ctx = some j →
    s.chip.gcore q.home = some g →
    (∀ l ∈ List.range 64, (q.lane? l).i < g.list.length) →
    Completes (.vary w) s fun t =>
      WaveStep w (fun q' => q' = { q with pc := q.pc + 1, regs := q'.regs } ∧ RegsLoad q q' ins wide 4 (fun l i =>
        let x := q.lane? l
        let v := match g.list[x.i]? with
          | some p => if (Ins.imm ins).testBit 4 then (p.verts.getD p.prov {}).raw (Ins.imm ins % 16) i wide
            else
              let v := p.varying (viewportOf (j.state q.st) j.area) (samplePoint false x.a x.b 0) fun v => v.comp (Ins.imm ins % 16) i wide
              if wide then v else toFp16 v
          | none => 0
        if Ins.sat ins then (fmtOf wide).sat v else v)) s t) ∧
  (∀ (s : State) (w : Nat) (q : GWave) (ins : Nat),
    AtIns s w q ins →
    Ins.op ins = 0x73 →
    Ins.dst ins + 4 ≤ 64 →
    (s.chip.waveState q).textures.find? (16 * b2n q.frag + Ins.imm ins % 16) = none →
    Completes (.tex w) s fun t =>
      WaveStep w (fun q' => q' = { q with pc := q.pc + 1, regs := q'.regs } ∧ RegsLoad q q' ins false 4 (fun _ i =>
        let v := if i = 3 then 0x3C00 else 0
        if Ins.sat ins then fp16.sat v else v)) s t) ∧
  (∀ (s : State) (w : Nat) (q : GWave) (ins : Nat) (d : List Byte),
    AtIns s w q ins →
    Ins.op ins = 0x73 →
    Ins.dst ins + 4 ≤ 64 →
    (s.chip.waveState q).textures.find? (16 * b2n q.frag + Ins.imm ins % 16) = some d →
    (∀ l ∈ List.range 64, ∀ x ∈ tapSpans d (texTaps s q ins d l), Readable s x.1 x.2) →
    Completes (.tex w) s fun t =>
      LoadStep w (fun q' => q' = { q with pc := q.pc + 1, regs := q'.regs } ∧ RegsLoad q q' ins false 4 (fun l i =>
        let v := (filterTexels (unitSees s q) d ((s.chip.waveState q).samplers.getD (16 * b2n q.frag + bits (Ins.imm ins) 4 4) samplerReset) (texTaps s q ins d l)).px.getD i 0
        if Ins.sat ins then fp16.sat v else v)) s t) ∧
  (∀ (s : State) (w : Nat) (q : GWave) (ins : Nat) (d : List Byte),
    AtIns s w q ins →
    Ins.op ins = 0x74 →
    Ins.dst ins + 4 ≤ 64 →
    (s.chip.waveState q).textures.find? (16 * b2n q.frag + Ins.imm ins % 16) = some d →
    (∀ l ∈ List.range 64, ∀ x ∈ tapSpans d (texelAsked s q ins d l).toList, Readable s x.1 x.2) →
    Completes (.texf w) s fun t =>
      LoadStep w (fun q' => q' = { q with pc := q.pc + 1, regs := q'.regs } ∧ RegsLoad q q' ins false 4 (fun l i =>
        let v := (fetchTexel (unitSees s q) d (texelAsked s q ins d l)).px.getD i 0
        if Ins.sat ins then fp16.sat v else v)) s t) ∧
  (∀ (s : State) (w : Nat) (q : GWave) (ins n base : Nat),
    AtIns s w q ins →
    Ins.op ins = 0x78 →
    q.frag = true →
    Ins.imm ins % 32 < 5 →
    (n = if Ins.imm ins % 32 = 4 ∨ Ins.wide ins = true then 2 else 4) →
    (base = if Ins.wide ins then 2 * Ins.src ins 0 else Ins.src ins 0) →
    Completes (.shaderOut w) s fun t =>
      WaveStep w (fun q' => q' = { q with pc := q.pc + 1, outs := q'.outs } ∧ ∀ l ∈ List.range 64, ∀ k ∈ List.range 512,
        q'.outs.find? (512 * l + k) =
          if q.runs ins l && !q.helper.testBit l && !q.killed.testBit l && k / 8 == Ins.imm ins % 32 && decide (k % 8 < n) then some (q.h l (base + k % 8))
          else if q.runs ins l && !q.helper.testBit l && !q.killed.testBit l && k / 8 == Ins.imm ins % 32 && k % 8 == 7 then some (b2n (Ins.wide ins))
          else q.outs.find? (512 * l + k)) s t) ∧
  (∀ (s : State) (w : Nat) (q : GWave) (ins n base at_ : Nat),
    AtIns s w q ins →
    Ins.op ins = 0x78 →
    q.frag = false →
    (Ins.imm ins % 32 < 2 ∨ (16 ≤ Ins.imm ins % 32 ∧ Ins.imm ins % 32 < 31)) →
    (n = if Ins.imm ins % 32 = 1 then 1 else if Ins.wide ins then 8 else 4) →
    (base = if Ins.wide ins then 2 * Ins.src ins 0 else Ins.src ins 0) →
    (at_ = if 16 ≤ Ins.imm ins % 32 then 128 + 4 * (Ins.imm ins % 32 - 16) else 8 * (Ins.imm ins % 32)) →
    Completes (.shaderOut w) s fun t =>
      WaveStep w (fun q' => q' = { q with pc := q.pc + 1, outs := q'.outs } ∧ ∀ l ∈ List.range 64, ∀ k ∈ List.range 512,
        q'.outs.find? (512 * l + k) =
          if q.runs ins l && !q.helper.testBit l && !q.killed.testBit l && decide (at_ ≤ k) && decide (k < at_ + n) then some (q.h l (base + (k - at_)))
          else q.outs.find? (512 * l + k)) s t)

/-- State packets of a command buffer set exactly their state (R110, R111, R130, R133, R137). -/
def Obligations.PacketsSetDrawState : Prop :=
  (∀ (s : State) (k : Nat) (j : GJob) (ws : List Nat),
    AtPkt s k j 0x12 ws →
    pw ws 3 ≤ 65536 →
    s.chip.dramOk j.own (pAddr ws 1) (pw ws 3) = true →
    Completes (.pktConsts k) s fun t =>
      PktStep k { j.past ws with st := { j.st with consts := j.st.consts.insert (4 * bits (pw ws 0) 2 1 + bits (pw ws 0) 0 2) (pAddr ws 1, pw ws 3) } } s t) ∧
  (∀ (s : State) (k : Nat) (j : GJob) (ws : List Nat),
    AtPkt s k j 0x20 ws →
    (bits (pw ws 4) 0 16 ≤ 2048 ∧ pw ws 4 < 2 ^ 17) →
    s.chip.dramOk j.own (pAddr ws 1) (pw ws 3) = true →
    Completes (.pktVbuf k) s fun t =>
      PktStep k { j.past ws with st := { j.st with vbufs := j.st.vbufs.insert (pw ws 0 % 16) (pAddr ws 1, pw ws 3, pw ws 4) } } s t) ∧
  (∀ (s : State) (k : Nat) (j : GJob) (ws : List Nat),
    AtPkt s k j 0x21 ws →
    (VAttr.fmt (pw ws 0) < 10 ∨ (VAttr.fmt (pw ws 0) = 10 ∧ VAttr.comps (pw ws 0) = 4)) →
    Completes (.pktVattr k) s fun t =>
      PktStep k { j.past ws with st := { j.st with vattr := j.st.vattr.insert (pw ws 0 % 16) (pw ws 0) } } s t) ∧
  (∀ (s : State) (k : Nat) (j : GJob) (ws : List Nat),
    AtPkt s k j 0x22 ws →
    bits (pw ws 2) 0 2 < 2 →
    s.chip.dramOk j.own (pAddr ws 0) (pw ws 2 / 4 * 4) = true →
    Completes (.pktIbuf k) s fun t =>
      PktStep k { j.past ws with st := { j.st with ibuf := some (pAddr ws 0, pw ws 2) } } s t) ∧
  (∀ (s : State) (k : Nat) (j : GJob) (ws : List Nat),
    AtPkt s k j 0x30 ws →
    Prim.cull (pw ws 0) ≠ 3 →
    Completes (.pktPrim k) s fun t =>
      PktStep k { j.past ws with st := { j.st with prim := pw ws 0 } } s t) ∧
  (∀ (s : State) (k : Nat) (j : GJob) (ws : List Nat),
    AtPkt s k j 0x31 ws →
    Completes (.pktViewport k) s fun t =>
      PktStep k { j.past ws with st := { j.st with viewport := ws } } s t) ∧
  (∀ (s : State) (k : Nat) (j : GJob) (ws : List Nat),
    AtPkt s k j 0x32 ws →
    Completes (.pktScissor k) s fun t =>
      PktStep k { j.past ws with st := { j.st with scissor := some (pw ws 0, pw ws 1) } } s t) ∧
  (∀ (s : State) (k : Nat) (j : GJob) (ws : List Nat),
    AtPkt s k j 0x40 ws →
    Completes (.pktDepth k) s fun t =>
      PktStep k { j.past ws with st := { j.st with depth := pw ws 0 } } s t) ∧
  (∀ (s : State) (k : Nat) (j : GJob) (ws : List Nat),
    AtPkt s k j 0x41 ws →
    (pw ws 2).testBit 0 = false →
    Completes (.pktStencil k) s fun t =>
      PktStep k { j.past ws with st := { j.st with stencil := ws } } s t) ∧
  (∀ (s : State) (k : Nat) (j : GJob) (ws : List Nat),
    AtPkt s k j 0x42 ws →
    (([3, 7, 14, 18].all fun i => bits (pw ws 0) i 4 != 15) = true) →
    (bits (pw ws 0) 11 3 < 5 ∧ bits (pw ws 0) 22 3 < 5) →
    Completes (.pktBlend k) s fun t =>
      PktStep k { j.past ws with st := { j.st with blend := j.st.blend.insert (pw ws 0 % 4) (pw ws 0) } } s t) ∧
  (∀ (s : State) (k : Nat) (j : GJob) (ws : List Nat),
    AtPkt s k j 0x43 ws →
    Completes (.pktBlendConst k) s fun t =>
      PktStep k { j.past ws with st := { j.st with blendConst := [pw ws 0 % 65536, bits (pw ws 0) 16 16, pw ws 1 % 65536, bits (pw ws 1) 16 16] } } s t) ∧
  (∀ (s : State) (k : Nat) (j : GJob) (ws : List Nat),
    AtPkt s k j 0x44 ws →
    Completes (.pktClearColor k) s fun t =>
      PktStep k { j.past ws with clearC := j.clearC.insert (pw ws 0 % 4) (pw ws 1, pw ws 2) } s t) ∧
  (∀ (s : State) (k : Nat) (j : GJob) (ws : List Nat),
    AtPkt s k j 0x45 ws →
    Completes (.pktClearDs k) s fun t =>
      PktStep k { j.past ws with clearZ := pw ws 0, clearS := pw ws 1 % 256 } s t) ∧
  (∀ (s : State) (k : Nat) (j : GJob) (ws : List Nat) (d : List Byte),
    AtPkt s k j 0x46 ws →
    pAddr ws 1 % 32 = 0 →
    s.chip.dramOk j.own (pAddr ws 1) 32 = true →
    d = Memory.readBytes (jobSees s j) (pAddr ws 1) 32 →
    Readable s (pAddr ws 1) 32 →
    Tex.valid d = true →
    s.chip.dramOk j.own (Tex.addr d) (Tex.extent d) = true →
    Completes (.pktTexture k) s fun t =>
      PktStep k { j.past ws with st := { j.st with textures := j.st.textures.insert (pw ws 0 % 32) d } } s t) ∧
  (∀ (s : State) (k : Nat) (j : GJob) (ws : List Nat),
    AtPkt s k j 0x47 ws →
    samplerOk (pw ws 1) = true →
    Completes (.pktSampler k) s fun t =>
      PktStep k { j.past ws with st := { j.st with samplers := j.st.samplers.insert (pw ws 0 % 32) (pw ws 1) } } s t) ∧
  (∀ (s : State) (k : Nat) (j : GJob) (ws : List Nat),
    AtPkt s k j 0x48 ws →
    Completes (.pktSampleMask k) s fun t =>
      PktStep k { j.past ws with st := { j.st with sampleMask := pw ws 0 % 16 } } s t)

/-- Control packets, program binding, draws and the errors of a command buffer (R105, R108, R110, R111, R131, R160). -/
def Obligations.PacketsControlBindAndDraw : Prop :=
  (∀ (s : State) (k : Nat) (j : GJob) (ws : List Nat),
    AtPkt s k j 0x00 ws →
    Completes (.pktNop k) s fun t =>
      PktStep k (j.past ws) s t) ∧
  (∀ (s : State) (k : Nat) (j : GJob) (ws : List Nat),
    AtPkt s k j 0x01 ws →
    Completes (.pktEnd k) s fun t =>
      PktStep k { j.past ws with ended := true, phase := 1, tiles := zOrder j.tw j.th } s t) ∧
  (∀ (s : State) (k : Nat) (j : GJob) (ws : List Nat),
    AtPkt s k j 0x02 ws →
    j.here.ret = none →
    s.chip.dramOk j.own (pAddr ws 0) (pw ws 2) = true →
    Completes (.pktCall k) s fun t =>
      PktStep k { j.past ws with ret := some (j.past ws).code, code := (pAddr ws 0, pw ws 2, 0) } s t) ∧
  (∀ (s : State) (k : Nat) (j : GJob) (ws : List Nat) (b : List Byte),
    AtPkt s k j 0x10 ws →
    pAddr ws 0 % 16 = 0 →
    b = Memory.readBytes (jobSees s j) (pAddr ws 0) (Prog.size (Memory.readBytes (jobSees s j) (pAddr ws 0) 16)) →
    (s.chip.dramOk j.own (pAddr ws 0) 16 = true ∧ s.chip.dramOk j.own (pAddr ws 0) b.length = true) →
    Readable s (pAddr ws 0) b.length →
    progOk false b = true →
    Completes (.pktVprog k) s fun t =>
      PktStep k { j.past ws with st := { j.st with vprog := some { addr := pAddr ws 0, image := b, pkt := (j.past ws).pkt } } } s t) ∧
  (∀ (s : State) (k : Nat) (j : GJob) (ws : List Nat) (b : List Byte),
    AtPkt s k j 0x11 ws →
    pAddr ws 0 % 16 = 0 →
    b = Memory.readBytes (jobSees s j) (pAddr ws 0) (Prog.size (Memory.readBytes (jobSees s j) (pAddr ws 0) 16)) →
    (s.chip.dramOk j.own (pAddr ws 0) 16 = true ∧ s.chip.dramOk j.own (pAddr ws 0) b.length = true) →
    Readable s (pAddr ws 0) b.length →
    progOk true b = true →
    Completes (.pktFprog k) s fun t =>
      PktStep k { j.past ws with st := { j.st with fprog := some { addr := pAddr ws 0, image := b, pkt := (j.past ws).pkt } } } s t) ∧
  (∀ (s : State) (k : Nat) (j : GJob) (ws : List Nat),
    AtPkt s k j 0x50 ws →
    (j.st.vprog.isSome = true ∧ j.st.fprog.isSome = true) →
    (0 < pw ws 1 ∧ 0 < pw ws 2) →
    Completes (.pktDraw k) s fun t =>
      PktStep k { j.past ws with states := j.states ++ [j.st], draw := some { st := j.states.length, perInst := pw ws 1, items := (List.range (pw ws 2 * pw ws 1)).map some, shade := (
        (List.range (pw ws 2)).flatMap fun i => (List.range (pw ws 1)).map fun n => ((pw ws 0 + n) % 2 ^ 32, (pw ws 3 + i) % 2 ^ 32)) } } s t) ∧
  (∀ (s : State) (k : Nat) (j : GJob) (ws : List Nat) (ib : Nat × Nat) (w : Nat),
    AtPkt s k j 0x51 ws →
    (j.st.vprog.isSome = true ∧ j.st.fprog.isSome = true) →
    j.st.ibuf = some ib →
    (w = if bits ib.2 0 2 = 1 then 4 else 2) →
    (pw ws 0 + pw ws 1) * w ≤ ib.2 / 4 * 4 →
    Readable s (ib.1 + pw ws 0 * w) (pw ws 1 * w) →
    Completes (.pktDrawIndexed k) s fun t =>
      if ((drawnItems s j ws ib.1 w).all fun v => v.isNone) = true then PktStep k (j.past ws) s t else
        PktStep k { j.past ws with states := j.states ++ [j.st], draw := some { st := j.states.length, perInst := pw ws 1, shade := (cacheItems (drawnItems s j ws ib.1 w)).1, items := (cacheItems (drawnItems s j ws ib.1 w)).2 } } s t ∧
        ((cacheItems (drawnItems s j ws ib.1 w)).2.map fun o => o.bind fun n => (cacheItems (drawnItems s j ws ib.1 w)).1[n]?) = drawnItems s j ws ib.1 w) ∧
  (∀ (s : State) (k : Nat) (j : GJob),
    (k < 16 ∧ s.chip.job k = some j) →
    (j.parsing = true ∧ s.chip.gristTurn k j = true) →
    j.here.next (jobSees s j) = .malformed →
    Completes (.pktNop k) s fun t =>
      t.chip.job k = none ∧ EntryEnds j.ring j.seq 0x30 (leBytes 4 j.binned ++ leBytes 4 (j.past []).pkt ++ leBytes 2 (min 65535 j.partials) ++
        leBytes 1 (b2n j.escalated.isSome + 2 * b2n (s.chip.jobLate j) + 4) ++ leBytes 1 0) s t ∧
      t.chip.get R.GFX.ERR_CNT.COUNT = min (s.chip.get R.GFX.ERR_CNT.COUNT + 1) (2 ^ 32 - 1) ∧ (t.chip.get (H.IRQ_RAW 0x0A0)).testBit 2 = true) ∧
  (∀ (s : State) (k : Nat) (j : GJob),
    (k < 16 ∧ s.chip.job k = some j) →
    (j.parsing = true ∧ s.chip.gristTurn k j = true) →
    j.here.code.2.1 ≤ j.here.code.2.2 →
    Completes (.pktEnd k) s fun t =>
      t.chip.job k = some { j.here with pkt := j.here.code.2.2, ended := true, phase := 1, tiles := zOrder j.tw j.th } ∧ OnlyPages [.rf, .gfx] [0x0A0, 0x0A1] s t) ∧
  (∀ (s : State) (k : Nat) (j : GJob) (ws : List Nat) (b : List Byte),
    AtPkt s k j 0x10 ws →
    pAddr ws 0 % 16 = 0 →
    b = Memory.readBytes (jobSees s j) (pAddr ws 0) (Prog.size (Memory.readBytes (jobSees s j) (pAddr ws 0) 16)) →
    (s.chip.dramOk j.own (pAddr ws 0) 16 = true ∧ s.chip.dramOk j.own (pAddr ws 0) b.length = true) →
    Readable s (pAddr ws 0) b.length →
    progOk false b = false →
    Completes (.pktVprog k) s fun t =>
      t.chip.job k = none ∧ (∀ e ∈ (t.chip.ring j.ring).issued, e.seq = j.seq → (e.done.map fun d => d.status) = some 0x32) ∧
      (t.chip.get (H.IRQ_RAW 0x0A0)).testBit 2 = true) ∧
  (∀ (s : State) (core k st : Nat) (j : GJob) (p : GProg),
    (core < 12 ∧ k < 16) →
    (s.chip.job k = some j ∧ j.failed = none) →
    st < j.states.length →
    (j.state st).fprog = some p →
    Readable s p.addr p.image.length →
    Prog.crcOk (Memory.readBytes (jobSees s j) p.addr p.image.length) = true →
    Completes (.programLoad core k st 1) s fun t =>
      t.chip.gfx = { s.chip.gfx with lines := t.chip.gfx.lines } ∧ OnlyPages gpuParts gpuPages s t) ∧
  (∀ (s : State) (core k st : Nat) (j : GJob) (p : GProg),
    (core < 12 ∧ k < 16) →
    (s.chip.job k = some j ∧ j.failed = none) →
    j.states.length ≤ st →
    j.st.vprog = some p →
    Readable s p.addr p.image.length →
    Prog.crcOk (Memory.readBytes (jobSees s j) p.addr p.image.length) = false →
    Completes (.programLoad core k st 0) s fun t =>
      t.chip.job k = none ∧ (∀ e ∈ (t.chip.ring j.ring).issued, e.seq = j.seq → (e.done.map fun d => d.status) = some 0x32) ∧
      (t.chip.get (H.IRQ_RAW 0x0A0)).testBit 2 = true)

/-- GFX ring entries, bin pools, parking, partial render and completion of jobs (R103, R104, R105, R106, R107, R108, R118, R119, R120). -/
def Obligations.JobsPoolsAndPartialRenders : Prop :=
  (∀ (s : State) (r : Nat) (e : Issued),
    r < 64 →
    s.chip.freshEntry r 0 0 = some e →
    Completes (.gfxNop r) s fun t =>
      EntryEnds r e.seq E.NONE [] s t ∧ Only [.imx] [] s t) ∧
  (∀ (s : State) (r k : Nat) (e : Issued) (ts : List Byte),
    r < 64 →
    s.chip.freshEntry r 0 1 = some e →
    (s.chip.freeCtx = some k ∧ s.chip.ctxFree (s.chip.gfxOwner r) = true) →
    s.chip.pdOn PD.GFXC = true →
    ts = Memory.readBytes s.mem.dram (fieldAt e.bytes 0x30 8) 64 →
    s.chip.jobCheck (s.chip.gfxOwner r) e.bytes ts = none →
    Readable s (fieldAt e.bytes 0x30 8) 64 →
    Completes (.gfxJob r) s fun t =>
      ((t.chip.job k).map fun j => (j.ring, j.seq, j.own, j.no, j.target, j.code, j.phase, j.prims.length, j.held.length)) =
        some (r, e.seq, s.chip.gfxOwner r, s.chip.gfx.issued, ts, (fieldAt e.bytes 0x10 8, fieldAt e.bytes 0x18 4, 0), 0, 0, 0) ∧
      ((t.chip.job k).map fun j => (j.wideAt, j.st)) = some (s.chip.get R.GRIST.BIN_CFG.WIDE_THRESH, {}) ∧
      (∀ n ∈ List.range 16, n ≠ k → t.chip.job n = s.chip.job n) ∧ EntryTaken r e.seq s t ∧
      t.chip.get R.GFX_L2.INVAL_CNT.COUNT = min (s.chip.get R.GFX_L2.INVAL_CNT.COUNT + 1) (2 ^ 32 - 1) ∧
      t.chip.gfx.pools = s.chip.gfx.pools ∧ t.chip.gfx.waves = s.chip.gfx.waves ∧ t.chip.gfx.cores = s.chip.gfx.cores ∧
      OnlyPages (.imx :: gpuParts) (gpuPages ++ [0x0A0, 0x0A1]) s t) ∧
  (∀ (s : State) (r k code : Nat) (e : Issued),
    r < 64 →
    s.chip.freshEntry r 0 1 = some e →
    (s.chip.freeCtx = some k ∧ s.chip.ctxFree (s.chip.gfxOwner r) = true) →
    s.chip.pdOn PD.GFXC = true →
    s.chip.jobCheck (s.chip.gfxOwner r) e.bytes (Memory.readBytes s.mem.dram (fieldAt e.bytes 0x30 8) 64) = some code →
    Completes (.gfxJob r) s fun t =>
      EntryEnds r e.seq code (List.replicate 12 0) s t ∧ t.chip.gfx = s.chip.gfx ∧
      t.chip.get R.GFX.ERR_CNT.COUNT = min (s.chip.get R.GFX.ERR_CNT.COUNT + 1) (2 ^ 32 - 1) ∧
      t.chip.get R.GFX.JOB_CNT.COUNT = min (s.chip.get R.GFX.JOB_CNT.COUNT + 1) (2 ^ 32 - 1) ∧
      Only [.rf, .imx, .deliveries] [R.GFX.ERR_CNT.COUNT, R.GFX.JOB_CNT.COUNT, H.IRQ_RAW 0x0A0] s t) ∧
  (∀ (s : State) (r : Nat) (e : Issued) (l : List Nat),
    r < 64 →
    s.chip.freshEntry r 0 2 = some e →
    s.chip.chunkCheck (s.chip.gfxOwner r) e.bytes = none →
    (l = (List.range (fieldAt e.bytes 0x10 1)).map fun i => fieldAt e.bytes (0x18 + 8 * i) 8) →
    ((s.chip.gfx.jobs.all fun x => x.2.parked == none) = true) →
    Completes (.binChunks r) s fun t =>
      t.chip.poolOf (min 16 (s.chip.gfxOwner r)) = s.chip.poolOf (min 16 (s.chip.gfxOwner r)) ++ l ∧
      (∀ p ∈ List.range 17, p ≠ min 16 (s.chip.gfxOwner r) → t.chip.poolOf p = s.chip.poolOf p) ∧ t.chip.gfx.jobs = s.chip.gfx.jobs ∧
      EntryEnds r e.seq E.NONE [] s t ∧ OnlyPages [.rf, .imx, .gfx] [0x0A2] s t) ∧
  (∀ (s : State) (r code : Nat) (e : Issued),
    r < 64 →
    s.chip.freshEntry r 0 2 = some e →
    s.chip.chunkCheck (s.chip.gfxOwner r) e.bytes = some code →
    Completes (.binChunks r) s fun t =>
      EntryEnds r e.seq code [] s t ∧ Only [.imx] [] s t) ∧
  (∀ (s : State) (src : Src) (p : Nat),
    p < 17 →
    Reaches s.chip src 0x0A2 →
    s.chip.mgrOrCtl src = true →
    (match src with | .inst _ => false | _ => true) = true →
    s.chip.get (R.POOL.POOL_CFG.LOW p) ≤ 1024 →
    Completes (.poolFlush src p) s fun t =>
      t.chip.poolOf p = [] ∧ t.chip.get (R.POOL.POOL_STAT.FREE p) = 0 ∧ (∀ q ∈ List.range 17, q ≠ p → t.chip.poolOf q = s.chip.poolOf q) ∧
      (t.chip.get (H.IRQ_RAW 0x0A2)).testBit p = ((s.chip.get (H.IRQ_RAW 0x0A2)).testBit p ||
        (decide (0 < s.chip.get (R.POOL.POOL_CFG.LOW p)) && decide (s.chip.get (R.POOL.POOL_CFG.LOW p) ≤ (s.chip.poolOf p).length))) ∧
      t.chip.gfx.jobs = s.chip.gfx.jobs ∧ Only [.rf, .gfx, .deliveries] [R.POOL.POOL_STAT.FREE p, R.POOL.POOL_STAT.HELD p, H.IRQ_RAW 0x0A2] s t) ∧
  (∀ (s : State) (k w : Nat) (j : GJob),
    k < 16 →
    s.chip.job k = some j →
    j.parked = some w →
    w + j.growWait ≤ s.chip.led.lineNo →
    Completes (.binGrowWaitExpiry k) s fun t =>
      t.chip.job k = some { j with phase := 2, parked := none, tiles := (zOrder j.tw j.th).filter fun i => !(j.meets i).isEmpty } ∧
      t.chip.get R.GRIST.PARK_LINES.COUNT = s.chip.get R.GRIST.PARK_LINES.COUNT ∧
      (∀ n ∈ List.range 16, n ≠ k → t.chip.job n = s.chip.job n) ∧ t.chip.gfx.pools = s.chip.gfx.pools ∧ OnlyPages [.rf, .gfx] [0x0A0, 0x0A1] s t) ∧
  (∀ (s : State) (k : Nat) (j : GJob),
    k < 16 →
    s.chip.job k = some j →
    (j.phase = 2 ∧ j.tiles = [] ∧ j.failed = none ∧ s.chip.coresOf k = []) →
    j.draw = none →
    Completes (.partialRenderDone k) s fun t =>
      t.chip.job k = some { j with phase := 0, spare := j.held, prims := [], segs := [], room := 0, partials := j.partials + 1, nextIdx := if j.nextIdx = lastIndex then 0 else j.nextIdx } ∧
      t.chip.get R.GFX.PR_CNT.COUNT = min (s.chip.get R.GFX.PR_CNT.COUNT + 1) (2 ^ 32 - 1) ∧ (t.chip.get (H.IRQ_RAW 0x0A0)).testBit 1 = true ∧
      (∀ n ∈ List.range 16, n ≠ k → t.chip.job n = s.chip.job n) ∧ t.chip.gfx.pools = s.chip.gfx.pools ∧ OnlyPages [.rf, .gfx, .deliveries] [0x0A0, 0x0A1] s t) ∧
  (∀ (s : State) (k : Nat) (j : GJob),
    k < 16 →
    s.chip.job k = some j →
    (j.phase = 1 ∧ j.tiles = [] ∧ s.chip.coresOf k = []) →
    ((s.chip.gfx.jobs.all fun x => x.2.parked == none) = true) →
    (SMap.sorted s.chip.gfx.jobs) = true →
    Completes (.jobComplete k) s fun t =>
      t.chip.job k = none ∧ (∀ n ∈ List.range 16, n ≠ k → t.chip.job n = s.chip.job n) ∧ t.chip.poolOf j.pool = s.chip.poolOf j.pool ++ j.held ∧
      EntryEnds j.ring j.seq (if j.partials = 0 then E.NONE else E.PARTIAL_RENDER) (leBytes 4 j.binned ++ leBytes 4 j.stored ++ leBytes 2 (min 65535 j.partials) ++
        leBytes 1 (b2n j.escalated.isSome + 2 * b2n (s.chip.jobLate j)) ++ leBytes 1 0) s t ∧
      t.chip.get R.GFX.JOB_CNT.COUNT = min (s.chip.get R.GFX.JOB_CNT.COUNT + 1) (2 ^ 32 - 1) ∧
      OnlyPages [.rf, .gfx, .imx] [0x0A0, 0x0A1, 0x0A2] s t)

/-- Cores take tiles, retire fragments in order and store what they have finished (R120, R123, R131, R134, R136). -/
def Obligations.TilesStartRetireAndStore : Prop :=
  (∀ (s : State) (k n tl : Nat) (j : GJob) (rest : List Nat),
    k < 12 →
    s.chip.gcore k = none →
    s.chip.pdFree (PD.GFX k) = true →
    (s.chip.gfx.jobs = [(n, j)] ∧ n < 16) →
    j.tiles = tl :: rest →
    (j.failed = none ∧ j.escalated = none) →
    j.own < 18 →
    s.chip.mayUse j.own k = true →
    (∀ x ∈ loadSpans j tl, Readable s x.1 x.2) →
    Completes (.tileBoundary k) s fun t =>
      t.chip.job n = some { j with tiles := rest } ∧
      ((t.chip.gcore k).map fun g => (g.ctx, g.tile, g.list)) = some (n, some tl, j.meets tl) ∧
      t.chip.get (R.GFX_TX.NFR_BAD.COUNT k) = min (s.chip.get (R.GFX_TX.NFR_BAD.COUNT k) + loadBad s.mem.dram j tl) (2 ^ 32 - 1) ∧
      t.chip.get (R.GFX_SC.SC_STAT.OWNER k) = j.pool % 32 ∧ t.chip.gfx.pools = s.chip.gfx.pools ∧
      (∀ i ∈ List.range 12, i ≠ k → t.chip.gcore i = s.chip.gcore i) ∧ OnlyPages (.fab :: gpuParts) ((R.GFX_SC.SC_STAT.OWNER k).page :: (R.GFX_TX.NFR_BAD.COUNT k).page :: gpuPages) s t) ∧
  (∀ (s : State) (k : Nat) (g : GCore) (j : GJob) (f : GFrag),
    k < 12 →
    s.chip.gcore k = some g →
    s.chip.job g.ctx = some j →
    (g.queue = [] ∧ g.list.length ≤ 32 * g.pos) →
    (g.frags.find? (fun x => g.board.getD (pixelOf x.x x.y) 0 == x.ord) = some f) →
    Completes (.fragmentRetire k) s fun t =>
      t.chip.gcore k = some { g with frags := g.frags.erase f, mem := (retireFrag j g f).mem, board := (SMap.put g.board 0 (pixelOf f.x f.y) ((f.ord + 1) % 65536)) } ∧
      (f.killed = true → (retireFrag j g f).mem = g.mem) ∧ t.chip.gfx.jobs = s.chip.gfx.jobs ∧ t.chip.gfx.waves = s.chip.gfx.waves ∧
      Only [.rf, .free, .gfx] [R.GFX_SC.ORDER_STALL.COUNT k] s t) ∧
  (∀ (s : State) (k n tl : Nat) (g : GCore) (j : GJob),
    k < 12 →
    s.chip.gfx.cores = [(k, g)] →
    (g.helps = none ∧ g.tile = some tl ∧ g.helper = none ∧ g.ctx = n) →
    s.chip.tileDone k g = true →
    s.chip.gfx.jobs = [(n, j)] →
    (j.phase = 1 ∧ j.failed = none ∧ j.tiles = [] ∧ j.draw = none) →
    Completes (.tileBoundary k) s fun t =>
      t.chip.gcore k = none ∧ t.chip.job n = some { j with stored := j.stored + 1 } ∧
      t.mem = { s.mem with dram := (storeWrites j tl g.mem false).foldl (fun m x => Memory.writeBytes m x.1 x.2) s.mem.dram } ∧
      t.chip.get (R.GFX_SC.TILE_CNT.COUNT k) = min (s.chip.get (R.GFX_SC.TILE_CNT.COUNT k) + 1) (2 ^ 32 - 1) ∧
      PartsBut [.rf, .gfx, .flaws, .imx] s t ∧ PagesBut [(R.GFX_SC.SC_STAT.OWNER k).page, 0x1C1] s t ∧ t.pending = s.pending)

/-- The ledger's lines, locks and followers (R19, R20, R22, R24, R30, R32, R125). -/
def Obligations.LedgerLinesAndLocks : Prop :=
  (∀ (s : State),
    s.chip.pdOn PD.DISP = true →
    s.chip.ledIdle = true →
    s.chip.get R.LDG.LIVE_LINE.LINE + 1 < s.chip.get R.LDG.IDLE_TIMING.V_TOTAL →
    s.chip.get R.LDG.LIVE_LINE.LINE + 1 < 65536 →
    Completes (.ledgerLineAdvance) s fun t =>
      t.chip.get R.LDG.LIVE_LINE.LINE = s.chip.get R.LDG.LIVE_LINE.LINE + 1 ∧ t.chip.get R.LDG.LIVE_LINE.FRAC = 0 ∧
      t.chip.get R.LDG.LIVE_FRAME.FRAME = s.chip.get R.LDG.LIVE_FRAME.FRAME ∧ t.chip.led.lineNo = s.chip.led.lineNo + 1 ∧
      t.chip.get R.GRIST.PARK_LINES.COUNT = min (s.chip.get R.GRIST.PARK_LINES.COUNT + (s.chip.gfx.jobs.filter fun x => x.2.parked.isSome).length) (2 ^ 32 - 1) ∧
      t.chip.led.lineStart = s.chip.led.lineStart + s.chip.get R.LDG.IDLE_TIMING.LINE_PERIOD * 2500 ∧
      t.chip.ps = max s.chip.ps (s.chip.led.lineStart + s.chip.get R.LDG.IDLE_TIMING.LINE_PERIOD * 2500) ∧ t.mem = s.mem ∧ t.pending = s.pending) ∧
  (∀ (s : State),
    s.chip.pdOn PD.DISP = true →
    s.chip.ledIdle = true →
    s.chip.get R.LDG.IDLE_TIMING.V_TOTAL ≤ s.chip.get R.LDG.LIVE_LINE.LINE + 1 →
    s.chip.led.adopt = none →
    s.chip.get (H.PENDING 0x010) = 0 →
    Completes (.ledgerLineAdvance) s fun t =>
      t.chip.get R.LDG.LIVE_LINE.LINE = 0 ∧ t.chip.get R.LDG.LIVE_LINE.FRAC = 0 ∧
      t.chip.get R.LDG.LIVE_FRAME.FRAME = (s.chip.get R.LDG.LIVE_FRAME.FRAME + 1) % 2 ^ 32 ∧ t.chip.led.sinceSync = s.chip.led.sinceSync + 1 ∧
      (t.chip.get (H.IRQ_RAW 0x010)).testBit 0 = true ∧ t.chip.gfx.served = [] ∧ t.mem = s.mem ∧ t.pending = s.pending) ∧
  (∀ (s : State) (n : Nat),
    n < 8 →
    s.chip.get (R.LDG_OUTS.LINE.LOCK_STATE n) = 2 →
    s.chip.follows n = false →
    2 ≤ s.chip.led.phaseBad.getD n 0 →
    Completes (.lockLost n) s fun t =>
      t.chip.get (R.LDG_OUTS.LINE.LOCK_STATE n) = 3 ∧ t.chip.led.phaseBad = SMap.erase s.chip.led.phaseBad n ∧ (t.chip.get (H.IRQ_RAW 0x010)).testBit 4 = true ∧
      Recorded 0x0201 s t ∧ PartsBut [.rf, .deliveries, .led, .csk] s t ∧ PagesBut [0x010, 0x011, 0x012, 0x0A0] s t ∧ MemSame s t) ∧
  (∀ (s : State) (n e : Nat),
    n < 8 →
    s.chip.led.acquiring.find? n = some e →
    e ≤ (s.chip.scnOut n).lineAt + s.chip.lineTime n (s.chip.get (R.LDG_OUTS.LINE.LINE n)) →
    s.chip.outRunning n = true →
    s.chip.follows n = false →
    ((s.chip.scnOut n).startAt = none ∧ (s.chip.scnOut n).offLeft = none) →
    s.chip.led.lockNext = [] →
    s.chip.get (H.PENDING (outPage n)) = 0 →
    (s.chip.leadOf s.chip.anchor ≠ n ∧ s.chip.anchorComing = none) →
    Completes (.lockAcquired n) s fun t =>
      t.chip.get (R.LDG_OUTS.LINE.LOCK_STATE n) = 2 ∧ t.chip.get (R.LDG_OUTS.LINE.LINE n) = 0 ∧
      t.chip.get (R.LDG_OUTS.FRAME.FRAME n) = (s.chip.get (R.LDG_OUTS.FRAME.FRAME n) + 1) % 2 ^ 32 ∧ t.chip.led.acquiring.find? n = none ∧ (t.chip.scnOut n).lineAt = e ∧
      t.mem = s.mem ∧ t.pending = s.pending) ∧
  (∀ (s : State) (src : Src),
    Reaches s.chip src 0x010 →
    (match src with | .inst _ => false | _ => true) = true →
    s.chip.pdOn PD.DISP = true →
    Completes (.snapTake src) s fun t =>
      t.chip.get R.LDG.SNAP_FRAME.VALUE = s.chip.get R.LDG.LIVE_FRAME.FRAME % 2 ^ 32 ∧ t.chip.get R.LDG.SNAP_LINE.LINE = s.chip.get R.LDG.LIVE_LINE.LINE % 2 ^ 16 ∧
      t.chip.get R.LDG.SNAP_LINE.FRAC = s.chip.fraction % 2 ^ 16 ∧ t.chip.get R.LDG.SNAP_NS_LO.VALUE = s.chip.led.ns % 2 ^ 32 ∧
      t.chip.get R.LDG.SNAP_NS_HI.VALUE = s.chip.led.ns / 2 ^ 32 % 2 ^ 32 ∧
      Only [.rf] [R.LDG.SNAP_FRAME.VALUE, R.LDG.SNAP_LINE.LINE, R.LDG.SNAP_LINE.FRAC, R.LDG.SNAP_NS_LO.VALUE, R.LDG.SNAP_NS_HI.VALUE] s t) ∧
  (∀ (s : State) (frame ns : Nat) (err : Int),
    s.chip.get R.LDG_SYNC.SYNC_STATE.DEVID ≠ 0 →
    (-32768 ≤ err ∧ err < 32768) →
    Completes (.linkSyncRx frame ns err false) s fun t =>
      t.chip.get R.LDG_SYNC.SYNC_STATE.STATE = 1 ∧ t.chip.get R.LDG_SYNC.SYNC_ERR.ERR = (BitVec.ofInt 16 err).toNat ∧
      t.chip.get R.LDG_SYNC.SYNC_ERR.MAX_ERR = max (s.chip.get R.LDG_SYNC.SYNC_ERR.MAX_ERR) err.natAbs % 2 ^ 16 ∧ t.chip.led.sinceSync = 0 ∧
      t.chip.led.badPhase = (if 4 < err.natAbs then s.chip.led.badPhase + 1 else 0) ∧ t.chip.led.ns = s.chip.led.ns ∧
      Only [.rf, .led] [R.LDG_SYNC.SYNC_STATE.STATE, R.LDG_SYNC.SYNC_ERR.ERR, R.LDG_SYNC.SYNC_ERR.MAX_ERR, R.LDG.ANCHOR.SOURCE] s t) ∧
  (∀ (s : State) (frame ns : Nat) (err : Int),
    s.chip.get R.LDG_SYNC.SYNC_STATE.DEVID ≠ 0 →
    (s.chip.get R.LDG_SYNC.SYNC_STATE.STATE = 0 ∨ s.chip.get R.LDG_SYNC.SYNC_STATE.STATE = 1) →
    s.chip.ledIdle = false →
    s.chip.led.ns < ns →
    Completes (.linkSyncRx frame ns err true) s fun t =>
      t.chip.get R.LDG_SYNC.SYNC_STATE.STATE = 2 ∧ t.chip.led.ns = ns ∧ t.chip.led.slow = 0 ∧ t.chip.led.slew = 0 ∧ t.chip.led.sinceSync = 0 ∧
      t.chip.led.adopt = (if frame = s.chip.get R.LDG.LIVE_FRAME.FRAME then none else some frame) ∧ Recorded 0x0200 s t ∧
      Only [.rf, .led, .csk] [R.LDG_SYNC.SYNC_STATE.STATE, R.LDG_SYNC.SYNC_ERR.ERR, R.LDG_SYNC.SYNC_ERR.MAX_ERR, R.LDG.ANCHOR.SOURCE] s t) ∧
  (∀ (s : State) (frame ns : Nat) (err : Int),
    s.chip.get R.LDG_SYNC.SYNC_STATE.DEVID ≠ 0 →
    (s.chip.get R.LDG_SYNC.SYNC_STATE.STATE = 0 ∨ s.chip.get R.LDG_SYNC.SYNC_STATE.STATE = 1) →
    s.chip.ledIdle = false →
    ns ≤ s.chip.led.ns →
    Completes (.linkSyncRx frame ns err true) s fun t =>
      t.chip.get R.LDG_SYNC.SYNC_STATE.STATE = 2 ∧ t.chip.led.ns = s.chip.led.ns ∧ t.chip.led.slow = 2 * (s.chip.led.ns - ns) ∧ t.chip.led.slew = 0 ∧
      t.chip.led.adopt = (if frame = s.chip.get R.LDG.LIVE_FRAME.FRAME then none else some frame) ∧
      Only [.rf, .led] [R.LDG_SYNC.SYNC_STATE.STATE, R.LDG_SYNC.SYNC_ERR.ERR, R.LDG_SYNC.SYNC_ERR.MAX_ERR, R.LDG.ANCHOR.SOURCE] s t) ∧
  (∀ (s : State) (frame ns : Nat) (err : Int),
    s.chip.get R.LDG_SYNC.SYNC_STATE.DEVID ≠ 0 →
    (s.chip.get R.LDG_SYNC.SYNC_STATE.STATE = 2 ∨ s.chip.get R.LDG_SYNC.SYNC_STATE.STATE = 3) →
    s.chip.ledIdle = false →
    s.chip.led.slow = 0 →
    1 < err.natAbs →
    Completes (.linkSyncRx frame ns err true) s fun t =>
      t.chip.get R.LDG_SYNC.SYNC_STATE.STATE = 2 ∧ t.chip.led.ns = s.chip.led.ns ∧ t.chip.led.slew = (ns : Int) - s.chip.led.ns ∧ t.chip.led.sinceSync = 0 ∧
      t.chip.led.badPhase = (if 4 < err.natAbs then s.chip.led.badPhase + 1 else 0) ∧
      t.chip.led.adopt = (if frame = s.chip.get R.LDG.LIVE_FRAME.FRAME then none else some frame) ∧
      Only [.rf, .led] [R.LDG_SYNC.SYNC_STATE.STATE, R.LDG_SYNC.SYNC_ERR.ERR, R.LDG_SYNC.SYNC_ERR.MAX_ERR, R.LDG.ANCHOR.SOURCE] s t) ∧
  (∀ (s : State),
    (s.chip.get R.LDG_SYNC.SYNC_STATE.STATE = 2 ∨ s.chip.get R.LDG_SYNC.SYNC_STATE.STATE = 3) →
    (3 ≤ s.chip.led.sinceSync ∨ 4 ≤ s.chip.led.badPhase) →
    Completes (.linkHoldover) s fun t =>
      t.chip.get R.LDG_SYNC.SYNC_STATE.STATE = 4 ∧ (t.chip.get (H.IRQ_RAW 0x010)).testBit 5 = true ∧
      Only [.rf, .deliveries] [R.LDG_SYNC.SYNC_STATE.STATE, R.LDG.ANCHOR.SOURCE, H.IRQ_RAW 0x010] s t) ∧
  (∀ (s : State),
    Completes (.syncErrRead) s fun t =>
      t.chip.readData = s.chip.get R.LDG_SYNC.SYNC_ERR.ERR + 65536 * s.chip.get R.LDG_SYNC.SYNC_ERR.MAX_ERR ∧ t.chip.get R.LDG_SYNC.SYNC_ERR.MAX_ERR = 0 ∧
      Only [.rf, .readData] [R.LDG_SYNC.SYNC_ERR.MAX_ERR] s t)

/-- Schedule slots arm, are refused, disarm and fire (R25, R26, R27, R28, R290). -/
def Obligations.ScheduleSlotsArmAndFire : Prop :=
  (∀ (s : State) (src : Src) (k : Nat) (data : Word),
    (32 ≤ k ∧ k < 128) →
    Reaches s.chip src (0x012 + k / 64) →
    (s.chip.mgrOrCtl src = true ∧ s.chip.ssPool k = false) →
    (match src with | .inst _ => false | _ => true) = true →
    bits data.toNat 24 6 = 0 →
    (bits data.toNat 0 8 = 0 ∨ bits data.toNat 0 8 = 3 ∨ bits data.toNat 0 8 = 7) →
    s.chip.ssState k ≠ SS.ARMED →
    (s.chip.baseNow (s.chip.ssBase k)).2.2.2 = true →
    s.chip.ssLine k < (s.chip.baseNow (s.chip.ssBase k)).2.2.1 →
    later (s.chip.ssFrame k) (s.chip.ssLine k) (s.chip.baseNow (s.chip.ssBase k)).1 (s.chip.baseNow (s.chip.ssBase k)).2.1 = true →
    Completes (.slotArm src k data) s fun t =>
      t.chip.ssState k = SS.ARMED ∧ t.chip.ssAction k = bits data.toNat 0 8 ∧ t.chip.ssArg k = bits data.toNat 8 16 ∧
      t.chip.get (R.LDG_SLOTS.SS_STAT.FIRES (k / 64) (k % 64)) = 0 ∧
      Only [.rf] [R.LDG_SLOTS.SS_STAT.STATE (k / 64) (k % 64), R.LDG_SLOTS.SS_STAT.FIRES (k / 64) (k % 64), R.LDG_SLOTS.SS_ACT.ACTION (k / 64) (k % 64), R.LDG_SLOTS.SS_ACT.ARG (k / 64) (k % 64)] s t) ∧
  (∀ (s : State) (src : Src) (k : Nat) (data : Word),
    (32 ≤ k ∧ k < 128) →
    Reaches s.chip src (0x012 + k / 64) →
    (s.chip.mgrOrCtl src = true ∧ s.chip.ssPool k = false) →
    (match src with | .inst _ => false | _ => true) = true →
    bits data.toNat 24 6 = 0 →
    (bits data.toNat 0 8 = 0 ∨ bits data.toNat 0 8 = 3 ∨ bits data.toNat 0 8 = 7) →
    s.chip.ssState k ≠ SS.ARMED →
    (s.chip.baseNow (s.chip.ssBase k)).2.2.2 = true →
    s.chip.ssLine k < (s.chip.baseNow (s.chip.ssBase k)).2.2.1 →
    later (s.chip.ssFrame k) (s.chip.ssLine k) (s.chip.baseNow (s.chip.ssBase k)).1 (s.chip.baseNow (s.chip.ssBase k)).2.1 = false →
    Completes (.slotArm src k data) s fun t =>
      t.chip.ssState k = SS.REJECTED ∧ t.chip.get (R.LDG_SLOTS.SS_STAT.ERR (k / 64) (k % 64)) = E.LATE ∧
      t.chip.get R.LDG.LATE_CNT.COUNT = min (s.chip.get R.LDG.LATE_CNT.COUNT + 1) (2 ^ 32 - 1) ∧
      t.chip.get (H.ERR_COUNT (0x012 + k / 64)) = min (s.chip.get (H.ERR_COUNT (0x012 + k / 64)) + 1) 255 ∧ t.chip.ssAction k = s.chip.ssAction k ∧
      PartsBut [.rf, .led, .deliveries] s t ∧ PagesBut [0x010, 0x012 + k / 64] s t ∧ MemSame s t) ∧
  (∀ (s : State) (src : Src) (k : Nat) (data : Word),
    (32 ≤ k ∧ k < 128) →
    Reaches s.chip src (0x012 + k / 64) →
    (s.chip.mgrOrCtl src = true ∧ s.chip.ssPool k = false) →
    (match src with | .inst _ => false | _ => true) = true →
    bits data.toNat 24 6 = 0 →
    s.chip.ssState k = SS.ARMED →
    (bits data.toNat 0 8 = s.chip.ssAction k ∧ bits data.toNat 8 16 = s.chip.ssArg k) →
    Completes (.slotDisarm src k data) s fun t =>
      t.chip.ssState k = SS.IDLE ∧ Only [.rf, .led] [R.LDG_SLOTS.SS_STAT.STATE (k / 64) (k % 64)] s t) ∧
  (∀ (s : State) (src : Src) (k : Nat) (data : Word),
    (32 ≤ k ∧ k < 128) →
    Reaches s.chip src (0x012 + k / 64) →
    (s.chip.mgrOrCtl src = true ∧ s.chip.ssPool k = false) →
    (match src with | .inst _ => false | _ => true) = true →
    bits data.toNat 24 6 = 0 →
    s.chip.ssState k = SS.ARMED →
    (bits data.toNat 0 8 ≠ s.chip.ssAction k ∨ bits data.toNat 8 16 ≠ s.chip.ssArg k) →
    Completes (.slotDisarm src k data) s fun t =>
      t.chip.ssState k = SS.ARMED ∧ t.chip.ssAction k = s.chip.ssAction k ∧ t.chip.ssArg k = s.chip.ssArg k ∧
      (s.chip.get (H.ERR_CODE (0x012 + k / 64)) = 0 → t.chip.get (H.ERR_CODE (0x012 + k / 64)) = E.STATE) ∧ t.chip.get (H.ERR_COUNT (0x012 + k / 64)) = min (s.chip.get (H.ERR_COUNT (0x012 + k / 64)) + 1) 255 ∧
      OnlyPages [.rf, .deliveries] [0x012 + k / 64] s t) ∧
  (∀ (s : State) (src : Src) (k : Nat) (data : Word),
    (32 ≤ k ∧ k < 128) →
    Reaches s.chip src (0x012 + k / 64) →
    (s.chip.mgrOrCtl src = false ∨ s.chip.ssPool k = true) →
    (match src with | .inst _ => false | _ => true) = true →
    Completes (.slotDisarm src k data) s fun t =>
      t.chip.ssState k = s.chip.ssState k ∧ t.chip.get (H.ERR_COUNT (0x012 + k / 64)) = min (s.chip.get (H.ERR_COUNT (0x012 + k / 64)) + 1) 255 ∧
      OnlyPages [.rf, .deliveries] [0x012 + k / 64] s t) ∧
  (∀ (s : State) (k : Nat),
    k < 128 →
    s.chip.ssDue k = true →
    (((List.range k).all fun j => !s.chip.ssDue j) = true) →
    s.chip.ssAction k = 7 →
    Completes (.slotFire k) s fun t =>
      t.chip.get R.LDG.SLOT_IRQ.BITS = s.chip.get R.LDG.SLOT_IRQ.BITS ||| 1 <<< (s.chip.ssArg k % 32) ∧ (t.chip.get (H.IRQ_RAW 0x010)).testBit 6 = true ∧
      t.chip.get (R.LDG_SLOTS.SS_STAT.FIRES (k / 64) (k % 64)) = min (s.chip.get (R.LDG_SLOTS.SS_STAT.FIRES (k / 64) (k % 64)) + 1) 65535 ∧
      t.chip.led.fireStamp.find? k = some s.chip.stamp ∧
      (s.chip.get (R.LDG_SLOTS.SS_TGT.MODE (k / 64) (k % 64)) = 0 → t.chip.ssState k = SS.FIRED) ∧
      (s.chip.get (R.LDG_SLOTS.SS_TGT.MODE (k / 64) (k % 64)) = 1 → t.chip.ssState k = SS.ARMED ∧
        t.chip.ssFrame k = (s.chip.ssFrame k + s.chip.get (R.LDG_SLOTS.SS_TGT.PERIOD (k / 64) (k % 64))) % 2 ^ 32) ∧
      PartsBut [.rf, .led, .deliveries] s t ∧ PagesBut [0x010, 0x012 + k / 64] s t ∧ MemSame s t) ∧
  (∀ (s : State) (n : Nat),
    n < 4 →
    (s.chip.tch1 n).window = true →
    ((s.chip.tch1 n).winEnd ≤ s.chip.baseCount (s.chip.get (R.TCH_CFG.WINDOW.BASE n)) ∨ (s.chip.baseNow (s.chip.get (R.TCH_CFG.WINDOW.BASE n))).2.2.2 = false) →
    Completes (.touchWindowClose n) s fun t =>
      t.chip.tch1 n = { s.chip.tch1 n with window := false, done := if (s.chip.tch1 n).measuring then s.chip.tchWhole n (s.chip.tch1 n).done (s.chip.ps - (s.chip.tch1 n).runAt) else 0 } ∧
      t.chip.get (R.TCH_ST.WIN_STALL.COUNT n) = (if (s.chip.tch1 n).phase = 2 ∨ (s.chip.tch1 n).phase = 3 then min (s.chip.get (R.TCH_ST.WIN_STALL.COUNT n) + 1) (2 ^ 32 - 1)
        else s.chip.get (R.TCH_ST.WIN_STALL.COUNT n)) ∧ OnlyPages [.rf, .tch] [0x1A8 + 2 * n, 0x1A9 + 2 * n] s t)

/-- NOP, LAYER and COMMIT entries of the composition rings (R182, R183, R184, R185). -/
def Obligations.ComposerRingEntries : Prop :=
  (∀ (s : State) (r : Nat) (e : Issued),
    r < 64 →
    s.chip.freshEntry r 1 0 = some e →
    Completes (.cmpNop r) s fun t =>
      EntryEnds r e.seq E.NONE [] s t ∧ Only [.imx] [] s t) ∧
  (∀ (s : State) (r u : Nat) (e : Issued),
    r < 64 →
    s.chip.freshEntry r 1 1 = some e →
    (s.chip.copen r).failed = false →
    s.chip.layerCheck e.bytes = none →
    u = fieldAt e.bytes 0x10 1 →
    (((s.chip.copen r).recs.filter fun y => y.1 != u).length < 12) →
    Completes (.layer r) s fun t =>
      (t.chip.copen r).recs = ((s.chip.copen r).recs.filter fun y => y.1 != u) ++ [(u, e.bytes)] ∧ (t.chip.copen r).failed = false ∧ EntryEnds r e.seq E.NONE [] s t ∧
      t.chip.cmp = { s.chip.cmp with opens := t.chip.cmp.opens } ∧ (∀ q ∈ List.range 64, q ≠ r → t.chip.copen q = s.chip.copen q) ∧ Only [.imx, .cmp] [] s t) ∧
  (∀ (s : State) (r code : Nat) (e : Issued),
    r < 64 →
    s.chip.freshEntry r 1 1 = some e →
    (s.chip.copen r).failed = false →
    s.chip.layerCheck e.bytes = some code →
    Completes (.layer r) s fun t =>
      (t.chip.copen r).recs = [] ∧ (t.chip.copen r).failed = true ∧ EntryEnds r e.seq code [] s t ∧
      t.chip.cmp = { s.chip.cmp with opens := t.chip.cmp.opens } ∧ Only [.imx, .cmp] [] s t) ∧
  (∀ (s : State) (r : Nat) (e : Issued),
    r < 64 →
    s.chip.freshEntry r 1 1 = some e →
    (s.chip.copen r).failed = true →
    Completes (.layer r) s fun t =>
      EntryEnds r e.seq (if layerClean e.bytes then 0x39 else E.RESERVED) [] s t ∧ Only [.imx] [] s t) ∧
  (∀ (s : State) (r p : Nat) (e : Issued),
    r < 64 →
    s.chip.freshEntry r 1 2 = some e →
    (s.chip.copen r).failed = false →
    (p = fieldAt e.bytes 0x10 1 ∧ p < 8) →
    (fieldAt e.bytes 0x11 1 < 2 ∧ zeroAt e.bytes 0x12 2 = true ∧ zeroAt e.bytes 0x18 40 = true) →
    s.chip.mode ≠ Mode.DEGRADED →
    s.chip.ringCommitCheck (s.chip.ringOwn r) p (s.chip.copen r).recs false = none →
    Completes (.cmpCommit r) s fun t =>
      (t.chip.cmp.commits.map fun k => (k.ring, k.seq, k.own, k.pipe, k.recs, k.frameEn, k.frame)) =
        (s.chip.cmp.commits.map fun k => (k.ring, k.seq, k.own, k.pipe, k.recs, k.frameEn, k.frame)) ++
          [(r, e.seq, s.chip.ringOwn r, p, (s.chip.copen r).recs, fieldAt e.bytes 0x11 1 == 1, fieldAt e.bytes 0x14 4)] ∧
      t.chip.copen r = {} ∧ EntryTaken r e.seq s t ∧ Only [.imx, .cmp] [] s t) ∧
  (∀ (s : State) (r : Nat) (e : Issued),
    r < 64 →
    s.chip.freshEntry r 1 2 = some e →
    (s.chip.copen r).failed = false →
    fieldAt e.bytes 0x10 1 < 8 →
    (fieldAt e.bytes 0x11 1 < 2 ∧ zeroAt e.bytes 0x12 2 = true ∧ zeroAt e.bytes 0x18 40 = true) →
    s.chip.mode = Mode.DEGRADED →
    Completes (.cmpCommit r) s fun t =>
      EntryEnds r e.seq E.MODE [] s t ∧ t.chip.copen r = {} ∧ t.chip.cmp.commits = s.chip.cmp.commits ∧ Only [.imx, .cmp] [] s t)

/-- Slices start, lines are composed or skipped, outputs step their lines and watermarks adapt (R163, R164, R180, R189, R192, R194, R196, R197). -/
def Obligations.SlicesLinesAndWatermarks : Prop :=
  (∀ (s : State) (n : Nat),
    n < 8 →
    (s.chip.cpipe n).on = true →
    16 * (s.chip.cpipe n).slices < (s.chip.cmpSize n).2 →
    (s.chip.cpipe n).next = 16 * (s.chip.cpipe n).slices →
    ((16 * (s.chip.cpipe n).slices : Nat) : Int) - (s.chip.leadNow n : Int) ≤ s.chip.beam n →
    Completes (.sliceStart n) s fun t =>
      t.chip.cpipe n = { s.chip.cpipe n with slices := (s.chip.cpipe n).slices + 1 } ∧ (∀ m ∈ List.range 8, m ≠ n → t.chip.cpipe m = s.chip.cpipe m) ∧ Only [.cmp] [] s t) ∧
  (∀ (s : State) (n : Nat),
    n < 8 →
    (s.chip.cpipe n).on = true →
    (s.chip.cpipe n).next < min (16 * (s.chip.cpipe n).slices) (s.chip.cmpSize n).2 →
    ((s.chip.cpipe n).next : Int) ≤ s.chip.beam n →
    Completes (.lineCompose n) s fun t =>
      (t.chip.cpipe n).next = (s.chip.cpipe n).next + 1 ∧ (t.chip.cpipe n).buf = (s.chip.cpipe n).buf ∧
      t.chip.get (R.CMP_P.LINE_SKIP.COUNT n) = min (s.chip.get (R.CMP_P.LINE_SKIP.COUNT n) + 1) (2 ^ 32 - 1) ∧ (t.chip.get (H.IRQ_RAW (pipePage n))).testBit 1 = true ∧
      OnlyPages [.rf, .cmp, .deliveries] [pipePage n] s t) ∧
  (∀ (s : State) (n : Nat),
    n < 8 →
    (s.chip.cpipe n).on = true →
    (s.chip.cpipe n).next < min (16 * (s.chip.cpipe n).slices) (s.chip.cmpSize n).2 →
    s.chip.beam n < ((s.chip.cpipe n).next : Int) →
    ((s.chip.cpipe n).next : Int) - s.chip.beam n < (bufLines (s.chip.cmpSize n).1 : Int) →
    (((s.chip.lineUnits n (s.chip.cpipe n).next).all fun q => s.chip.remoteReady q (s.chip.cpipe n).next) = true) →
    Completes (.lineCompose n) s fun t =>
      (t.chip.cpipe n).next = (s.chip.cpipe n).next + 1 ∧
      (t.chip.cpipe n).buf = (s.chip.cpipe n).buf ++ [((s.chip.cpipe n).next, (s.chip.composeLine s.mem.dram s.mem.isl n (s.chip.cpipe n).next).1)] ∧
      t.chip.get (R.CMP_P.PIPE_STAT.BUFFERED n) = min 255 ((s.chip.cpipe n).buf.length + 1) ∧ t.mem = s.mem ∧ t.pending = s.pending ∧ t.chip.ps = s.chip.ps) ∧
  (∀ (s : State) (u row n : Nat),
    u < 48 →
    (s.chip.get (R.CMP_L.LAYER_MGR.PIPE u) = n ∧ n < 8) →
    ((s.chip.cpipe n).on = true ∧ s.chip.bare n = false) →
    s.chip.get (R.CMP_L.LAYER_CTRL.ENABLE u) = 1 →
    Completes (.layerFetchError u row) s fun t =>
      (t.chip.cmp.bad.getD u []).contains row = true ∧ t.chip.get (R.CMP_L.FETCH_ERR.COUNT u) = min (s.chip.get (R.CMP_L.FETCH_ERR.COUNT u) + 1) (2 ^ 32 - 1) ∧
      t.chip.get (R.CMP_P.FETCH_ERR.COUNT n) = min (s.chip.get (R.CMP_P.FETCH_ERR.COUNT n) + 1) (2 ^ 32 - 1) ∧ (t.chip.get (H.IRQ_RAW (pipePage n))).testBit 2 = true ∧
      Only [.rf, .cmp, .deliveries] [R.CMP_L.FETCH_ERR.COUNT u, R.CMP_P.FETCH_ERR.COUNT n, H.IRQ_RAW (pipePage n)] s t) ∧
  (∀ (s : State) (n : Nat),
    n < 8 →
    (s.chip.follows n = false ∧ s.chip.outRunning n = true) →
    ((s.chip.scnOut n).startAt = none ∧ s.chip.led.acquiring.find? n = none) →
    s.chip.get (R.LDG_OUTS.LINE.LINE n) + 1 < s.chip.vTotal n →
    s.chip.leadOf s.chip.anchor ≠ n →
    Completes (.outputLineStart n) s fun t =>
      t.chip.get (R.LDG_OUTS.LINE.LINE n) = s.chip.get (R.LDG_OUTS.LINE.LINE n) + 1 ∧ t.chip.get (R.LDG_OUTS.FRAME.FRAME n) = s.chip.get (R.LDG_OUTS.FRAME.FRAME n) ∧
      (t.chip.scnOut n).lineAt = (s.chip.scnOut n).lineAt + s.chip.lineTime n (s.chip.get (R.LDG_OUTS.LINE.LINE n)) ∧
      t.chip.ps = max s.chip.ps ((s.chip.scnOut n).lineAt + s.chip.lineTime n (s.chip.get (R.LDG_OUTS.LINE.LINE n))) ∧
      t.mem = s.mem ∧ t.pending = s.pending) ∧
  (∀ (s : State) (n : Nat),
    n < 8 →
    (s.chip.follows n = false ∧ s.chip.outRunning n = true) →
    ((s.chip.scnOut n).offLeft = some 0 ∧ (s.chip.scnOut n).startAt = none ∧ s.chip.led.acquiring.find? n = none) →
    s.chip.vTotal n ≤ s.chip.get (R.LDG_OUTS.LINE.LINE n) + 1 →
    s.chip.get (H.PENDING (outPage n)) = 0 →
    s.chip.leadOf s.chip.anchor ≠ n →
    Completes (.timingGenStop n) s fun t =>
      s.chip.outRunning n = true ∧ t.chip.outRunning n = false ∧ (t.chip.scnOut n).link = LinkSt.OFF ∧ (t.chip.scnOut n).blEn = false ∧ (t.chip.scnOut n).offLeft = none ∧
      (t.chip.cpipe n).on = false ∧ t.chip.get (R.LDG_OUTS.LINE.LOCK_STATE n) = 0 ∧ t.mem = s.mem ∧ t.pending = s.pending) ∧
  (∀ (s : State) (n : Nat),
    n < 8 →
    ((s.chip.scnOut n).judged = false ∧ (s.chip.scnOut n).lastIso = true) →
    s.chip.get (R.SCN_OUT.WATERMARK.WM_ADAPT (s.chip.leadOf n)) = 1 →
    s.chip.get (R.SYS_POLICY.BOUNDS.FLOOR 3) ≤ s.chip.get (R.SCN_OUT.OUT_STAT.WM_EFF n) + 2 →
    s.chip.get (R.SCN_OUT.OUT_STAT.WM_EFF n) + 2 ≤ s.chip.get (R.SYS_POLICY.BOUNDS.CEIL 3) →
    s.chip.get (R.SCN_OUT.OUT_STAT.WM_EFF n) + 2 < 256 →
    Completes (.wmEffAdjust n) s fun t =>
      t.chip.get (R.SCN_OUT.OUT_STAT.WM_EFF n) = s.chip.get (R.SCN_OUT.OUT_STAT.WM_EFF n) + 2 ∧ (t.chip.scnOut n).judged = true ∧
      OnlyPages [.rf, .scn] [0x003, outPage n] s t) ∧
  (∀ (s : State) (n : Nat),
    n < 8 →
    (s.chip.scnOut n).judged = false →
    s.chip.get (R.SCN_OUT.WATERMARK.WM_ADAPT (s.chip.leadOf n)) = 0 →
    Completes (.wmEffAdjust n) s fun t =>
      t.chip.get (R.SCN_OUT.OUT_STAT.WM_EFF n) = s.chip.get (R.SCN_OUT.WATERMARK.WM_URGENT (s.chip.leadOf n)) % 256 ∧ (t.chip.scnOut n).judged = true ∧
      Only [.rf, .scn] [R.SCN_OUT.OUT_STAT.WM_EFF n] s t) ∧
  (∀ (s : State) (src : Src) (n : Nat),
    n < 8 →
    Reaches s.chip src (outPage n) →
    s.chip.mgrOrCtl src = true →
    (match src with | .inst _ => false | _ => true) = true →
    Completes (.urRearm src n) s fun t =>
      t.chip.get (R.SCN_OUT.UR_FIRST_LO.STAMP n) = 0 ∧ t.chip.get (R.SCN_OUT.UR_FIRST_HI.STAMP n) = 0 ∧ t.chip.scnOut n = { s.chip.scnOut n with captured := false } ∧
      Only [.rf, .scn] [R.SCN_OUT.UR_FIRST_LO.STAMP n, R.SCN_OUT.UR_FIRST_HI.STAMP n] s t)

/-- Link training, hot plug, lane faults, AUX transfers and the backlight (R200, R201, R202, R204, R205, R206). -/
def Obligations.DisplayLinksTrainAndFail : Prop :=
  (∀ (s : State) (n : Nat) (caps : List Byte),
    (n < 8 ∧ caps.length ≤ 16) →
    ((s.chip.scnOut n).link = LinkSt.TRAINING ∧ (s.chip.scnOut n).training = false) →
    s.chip.sinkOk n caps = true →
    Completes (.linkTraining ⟨n, caps⟩) s fun t =>
      t.chip.get (R.SCN_PHY.PHY_STAT.CR_DONE n) = 0 ∧ t.chip.get (R.SCN_PHY.PHY_STAT.EQ_DONE n) = 0 ∧ t.chip.get (R.SCN_PHY.PHY_STAT.TRAIN_ERR n) = 0 ∧
      t.chip.scnOut n = { s.chip.scnOut n with training := true, caps := caps, drive := (0, 0), eqTps := s.chip.eqPattern n caps, assr := decide (s.chip.get (R.SCN_OUT.OUT_CFG.MODE (s.chip.leadOf n)) = 1 ∧ s.chip.get (R.SCN_OUT.OUT_CFG.ASSR (s.chip.leadOf n)) ≠ 0) } ∧
      Only [.rf, .scn] [R.SCN_PHY.PHY_STAT.CR_DONE n, R.SCN_PHY.PHY_STAT.EQ_DONE n, R.SCN_PHY.PHY_STAT.TRAIN_ERR n] s t) ∧
  (∀ (s : State) (n : Nat) (caps : List Byte),
    (n < 8 ∧ caps.length ≤ 16) →
    ((s.chip.scnOut n).link = LinkSt.TRAINING ∧ (s.chip.scnOut n).training = false) →
    s.chip.sinkOk n caps = false →
    s.chip.pow.early.find? n = none →
    Completes (.linkTraining ⟨n, caps⟩) s fun t =>
      (t.chip.scnOut n).link = LinkSt.IDLE ∧ (t.chip.scnOut n).training = false ∧ (t.chip.get (H.IRQ_RAW (outPage n))).testBit 6 = true ∧
      t.chip.get (R.SCN_OUT.OUT_STAT.IDLE_CAUSE n) = 4 ∧ t.chip.get (R.SCN_PHY.PHY_STAT.TRAIN_ERR n) = 1 ∧ t.chip.get (R.SCN_PHY.PHY_STAT.CR_DONE n) = 0 ∧
      t.chip.get (R.SCN_PHY.TRAIN_ATTEMPTS.COUNT n) = s.chip.get (R.SCN_PHY.TRAIN_ATTEMPTS.COUNT n) ∧ OnlyPages [.rf, .scn, .deliveries] [outPage n, phyPage n] s t) ∧
  (∀ (s : State) (n cr eq a sw pre p : Nat),
    (n < 8 ∧ cr < 16 ∧ eq < 16 ∧ a ≤ 10) →
    (s.chip.scnOut n).training = true →
    s.chip.pow.early.find? n = none →
    (p = if s.chip.splits (s.chip.leadOf n) then s.chip.leadOf n else n) →
    Completes (.linkTrainingEnd n 0 cr eq ⟨a, sw, pre⟩) s fun t =>
      (t.chip.scnOut n).link = LinkSt.SENDING ∧ (t.chip.scnOut n).training = false ∧ (t.chip.scnOut n).retrain = false ∧ (t.chip.get (H.IRQ_RAW (outPage n))).testBit 8 = true ∧
      (t.chip.scnOut n).drive = (min sw (s.chip.get (R.SCN_PHY.PHY_CFG.MAX_SWING p)), min pre (s.chip.get (R.SCN_PHY.PHY_CFG.MAX_PRE p))) ∧
      t.chip.get (R.SCN_PHY.TRAIN_ATTEMPTS.COUNT n) = min (s.chip.get (R.SCN_PHY.TRAIN_ATTEMPTS.COUNT n) + max 1 a) (2 ^ 32 - 1) ∧
      t.chip.get (R.SCN_PHY.PHY_STAT.CR_DONE n) = cr ∧ t.chip.get (R.SCN_PHY.PHY_STAT.EQ_DONE n) = eq ∧ t.chip.get (R.SCN_PHY.PHY_STAT.TRAIN_ERR n) = 0 ∧
      t.chip.get (R.SCN_OUT.OUT_STAT.STATE n) = (if s.chip.follows n then 4 else LinkSt.SENDING) ∧ t.chip.get (R.SCN_OUT.OUT_STAT.IDLE_CAUSE n) = 0 ∧
      OnlyPages [.rf, .scn, .deliveries] [outPage n, phyPage n] s t) ∧
  (∀ (s : State) (n err cr eq a sw pre : Nat),
    (n < 8 ∧ cr < 16 ∧ eq < 16 ∧ a ≤ 10) →
    (err = 2 ∨ err = 3) →
    (s.chip.scnOut n).training = true →
    s.chip.pow.early.find? n = none →
    Completes (.linkTrainingEnd n err cr eq ⟨a, sw, pre⟩) s fun t =>
      (t.chip.scnOut n).link = LinkSt.IDLE ∧ (t.chip.scnOut n).training = false ∧ (t.chip.scnOut n).blEn = false ∧ (t.chip.get (H.IRQ_RAW (outPage n))).testBit 6 = true ∧
      t.chip.get (R.SCN_OUT.OUT_STAT.IDLE_CAUSE n) = 2 ∧ t.chip.get (R.SCN_PHY.PHY_STAT.TRAIN_ERR n) = err ∧
      OnlyPages [.rf, .scn, .deliveries] [outPage n, phyPage n] s t) ∧
  (∀ (s : State) (n : Nat),
    n < 8 →
    s.chip.lvds n = false →
    (s.chip.scnOut n).link ≠ LinkSt.IDLE →
    Completes (.hpdConnect n) s fun t =>
      t.chip.get (R.SCN_OUT.OUT_STAT.HPD n) = 1 ∧ t.chip.get (R.SCN_PHY.PHY_STAT.HPD_RAW n) = 1 ∧ (t.chip.get (H.IRQ_RAW (outPage n))).testBit 4 = true ∧
      Only [.rf, .deliveries] [R.SCN_OUT.OUT_STAT.HPD n, R.SCN_PHY.PHY_STAT.HPD_RAW n, H.IRQ_RAW (outPage n)] s t) ∧
  (∀ (s : State) (n : Nat),
    n < 8 →
    s.chip.lvds n = false →
    ((s.chip.scnOut n).link = LinkSt.IDLE ∧ s.chip.get (R.SCN_OUT.OUT_STAT.IDLE_CAUSE n) = 1) →
    s.chip.get (R.SCN_OUT.OUT_CFG.AUTO_RETRAIN (s.chip.leadOf n)) = 1 →
    Completes (.hpdConnect n) s fun t =>
      t.chip.get (R.SCN_OUT.OUT_STAT.HPD n) = 1 ∧ (t.chip.scnOut n).link = LinkSt.TRAINING ∧ (t.chip.get (H.IRQ_RAW (outPage n))).testBit 4 = true ∧
      t.chip.get (R.SCN_OUT.RETRAIN.COUNT n) = min (s.chip.get (R.SCN_OUT.RETRAIN.COUNT n) + 1) (2 ^ 32 - 1) ∧ OnlyPages [.rf, .scn, .deliveries] [outPage n, phyPage n] s t) ∧
  (∀ (s : State) (n : Nat),
    n < 8 →
    (s.chip.lvds n = false ∧ s.chip.get (R.SCN_OUT.OUT_STAT.HPD n) = 1) →
    Completes (.irqHpd n false) s fun t =>
      t.chip.get (R.SCN_PHY.HPD_IRQ_CNT.COUNT n) = min (s.chip.get (R.SCN_PHY.HPD_IRQ_CNT.COUNT n) + 1) (2 ^ 32 - 1) ∧ (t.chip.get (H.IRQ_RAW (outPage n))).testBit 5 = true ∧
      Only [.rf, .deliveries] [R.SCN_PHY.HPD_IRQ_CNT.COUNT n, H.IRQ_RAW (outPage n)] s t) ∧
  (∀ (s : State) (n : Nat),
    n < 8 →
    (s.chip.lvds n = false ∧ s.chip.get (R.SCN_OUT.OUT_STAT.HPD n) = 1) →
    (s.chip.scnOut n).link = LinkSt.SENDING →
    Completes (.irqHpd n true) s fun t =>
      (t.chip.scnOut n).link = LinkSt.TRAINING ∧ (t.chip.scnOut n).retrain = true ∧ (t.chip.scnOut n).blEn = false ∧
      t.chip.get (R.SCN_OUT.RETRAIN.COUNT n) = min (s.chip.get (R.SCN_OUT.RETRAIN.COUNT n) + 1) (2 ^ 32 - 1) ∧ OnlyPages [.rf, .scn] [outPage n, phyPage n] s t) ∧
  (∀ (s : State) (n : Nat),
    n < 8 →
    (s.chip.lvds n = false ∧ s.chip.get (R.SCN_OUT.OUT_STAT.HPD n) = 1) →
    (s.chip.scnOut n).link ≠ LinkSt.OFF →
    Completes (.hpdLoss n) s fun t =>
      t.chip.get (R.SCN_OUT.OUT_STAT.HPD n) = 0 ∧ t.chip.get (R.SCN_PHY.PHY_STAT.HPD_RAW n) = 0 ∧ (t.chip.get (H.IRQ_RAW (outPage n))).testBit 3 = true ∧
      (t.chip.scnOut n).link = LinkSt.IDLE ∧ t.chip.get (R.SCN_OUT.OUT_STAT.IDLE_CAUSE n) = 1 ∧ UnlitNow n s t ∧
      t.chip.get (R.SCN_OUT.HPD_LOSS.COUNT n) = min (s.chip.get (R.SCN_OUT.HPD_LOSS.COUNT n) + 1) (2 ^ 32 - 1) ∧ OnlyPages [.rf, .scn, .deliveries] [outPage n, phyPage n, R.SYS_BOOT.EARLY.LIT.page] s t) ∧
  (∀ (s : State) (n lane : Nat),
    (n < 8 ∧ lane < 5) →
    (s.chip.driving n = true ∧ s.chip.drivenLane n lane = true) →
    Completes (.laneShort n lane) s fun t =>
      (t.chip.get (R.SCN_PHY.PHY_STAT.SHORT n)).testBit lane = true ∧ (t.chip.scnOut n).offLanes = (s.chip.scnOut n).offLanes ||| 2 ^ lane ∧ UnlitNow (s.chip.phyOut n) s t ∧
      (t.chip.scnOut (s.chip.phyOut n)).link = LinkSt.IDLE ∧ t.chip.get (R.SCN_OUT.OUT_STAT.IDLE_CAUSE (s.chip.phyOut n)) = 3 ∧
      (t.chip.get (H.IRQ_RAW (outPage (s.chip.phyOut n)))).testBit 7 = true ∧ Recorded 0x0B01 s t ∧
      OnlyPages [.rf, .scn, .deliveries, .csk] [outPage (s.chip.phyOut n), phyPage n, R.SYS_BOOT.EARLY.LIT.page] s t) ∧
  (∀ (s : State) (n opens : Nat),
    (n < 8 ∧ opens < 32) →
    (s.chip.lvds n = true ∧ (s.chip.scnOut (s.chip.phyOut n)).link = LinkSt.SENDING) →
    (((List.range 5).any fun i => opens.testBit i && s.chip.drivenLane n i) = true) →
    Completes (.lvdsOpenCheck n opens) s fun t =>
      (∀ i ∈ List.range 5, (t.chip.get (R.SCN_PHY.PHY_STAT.OPEN n)).testBit i = ((s.chip.get (R.SCN_PHY.PHY_STAT.OPEN n)).testBit i || (opens.testBit i && s.chip.drivenLane n i)) ∧
        (t.chip.scnOut n).offLanes.testBit i = ((s.chip.scnOut n).offLanes.testBit i || (opens.testBit i && s.chip.drivenLane n i))) ∧ UnlitNow (s.chip.phyOut n) s t ∧
      (t.chip.scnOut (s.chip.phyOut n)).link = LinkSt.IDLE ∧ t.chip.get (R.SCN_OUT.OUT_STAT.IDLE_CAUSE (s.chip.phyOut n)) = 3 ∧ Recorded 0x0B01 s t ∧
      OnlyPages [.rf, .scn, .deliveries, .csk] [outPage (s.chip.phyOut n), phyPage n, R.SYS_BOOT.EARLY.LIT.page] s t) ∧
  (∀ (s : State) (src : Src) (n : Nat),
    n < 8 →
    Reaches s.chip src (phyPage n) →
    s.chip.mgrOrCtl src = true →
    (match src with | .inst _ => false | _ => true) = true →
    ((s.chip.scnOut (s.chip.phyOut n)).link = LinkSt.OFF ∨ (s.chip.scnOut (s.chip.phyOut n)).link = LinkSt.IDLE) →
    s.chip.get (R.SCN_PHY.LANE_TEST.BUSY n) = 0 →
    Completes (.laneTest src n) s fun t =>
      t.chip.get (R.SCN_PHY.LANE_TEST.BUSY n) = 1 ∧ t.chip.scnOut n = { s.chip.scnOut n with testAt := s.chip.ps } ∧ Only [.rf, .scn] [R.SCN_PHY.LANE_TEST.BUSY n] s t) ∧
  (∀ (s : State) (n a b : Nat),
    (n < 8 ∧ a < 32 ∧ b < 32) →
    s.chip.get (R.SCN_PHY.LANE_TEST.BUSY n) = 1 →
    s.chip.lvds n = false →
    (a ≠ 0 ∨ b ≠ 0) →
    Completes (.laneTestDone n a b) s fun t =>
      t.chip.get (R.SCN_PHY.LANE_TEST.BUSY n) = 0 ∧ t.chip.get (R.SCN_PHY.PHY_STAT.SHORT n) = a ∧ t.chip.get (R.SCN_PHY.PHY_STAT.OPEN n) = b ∧
      (t.chip.get (H.IRQ_RAW (phyPage n))).testBit 1 = true ∧ OnlyPages [.rf, .deliveries] [phyPage n] s t) ∧
  (∀ (s : State) (n a b : Nat),
    (n < 8 ∧ a < 32 ∧ b < 32) →
    (((List.range 5).all fun i => !(a ||| b).testBit i || s.chip.drivenLane n i) = true) →
    s.chip.get (R.SCN_PHY.LANE_TEST.BUSY n) = 1 →
    (s.chip.lvds n = true ∧ (s.chip.scnOut (s.chip.phyOut n)).link ≠ LinkSt.OFF) →
    b ≠ 0 →
    Completes (.laneTestDone n a b) s fun t =>
      t.chip.get (R.SCN_PHY.LANE_TEST.BUSY n) = 0 ∧ t.chip.get (R.SCN_PHY.PHY_STAT.SHORT n) = a ∧ t.chip.get (R.SCN_PHY.PHY_STAT.OPEN n) = b ∧
      (t.chip.get (H.IRQ_RAW (phyPage n))).testBit 1 = true ∧ (t.chip.scnOut n).offLanes = (s.chip.scnOut n).offLanes ||| b ∧
      (t.chip.scnOut (s.chip.phyOut n)).link = LinkSt.IDLE ∧ t.chip.get (R.SCN_OUT.OUT_STAT.IDLE_CAUSE (s.chip.phyOut n)) = 3 ∧ Recorded 0x0B01 s t ∧
      OnlyPages [.rf, .scn, .deliveries, .csk] [outPage (s.chip.phyOut n), phyPage n, R.SYS_BOOT.EARLY.LIT.page] s t) ∧
  (∀ (s : State) (src : Src) (n : Nat) (data : Word),
    n < 8 →
    Reaches s.chip src (phyPage n) →
    s.chip.mgrOrCtl src = true →
    (match src with | .inst _ => false | _ => true) = true →
    bits data.toNat 28 3 = 0 →
    s.chip.lvds n = false →
    s.chip.get (R.SCN_PHY.AUX_STAT.BUSY n) = 0 →
    Completes (.auxNativeWrite src n data) s fun t =>
      t.chip.get (R.SCN_PHY.AUX_STAT.BUSY n) = 1 ∧ t.chip.get (R.SCN_PHY.AUX_CMD.CMD n) = 8 ∧ t.chip.get (R.SCN_PHY.AUX_CMD.LEN_M1 n) = bits data.toNat 4 4 ∧
      t.chip.get (R.SCN_PHY.AUX_CMD.ADDR n) = bits data.toNat 8 20 ∧
      t.chip.scnOut n = { s.chip.scnOut n with aux := some { cmd := 8, len := bits data.toNat 4 4 + 1, addr := bits data.toNat 8 20, since := s.chip.ps } } ∧
      Only [.rf, .scn] [R.SCN_PHY.AUX_STAT.BUSY n, R.SCN_PHY.AUX_CMD.CMD n, R.SCN_PHY.AUX_CMD.LEN_M1 n, R.SCN_PHY.AUX_CMD.ADDR n] s t) ∧
  (∀ (s : State) (src : Src) (n : Nat) (data : Word),
    n < 8 →
    Reaches s.chip src (phyPage n) →
    s.chip.mgrOrCtl src = true →
    (match src with | .inst _ => false | _ => true) = true →
    bits data.toNat 28 3 = 0 →
    s.chip.lvds n = false →
    s.chip.get (R.SCN_PHY.AUX_STAT.BUSY n) = 0 →
    Completes (.auxNativeRead src n data) s fun t =>
      t.chip.get (R.SCN_PHY.AUX_STAT.BUSY n) = 1 ∧ t.chip.get (R.SCN_PHY.AUX_CMD.CMD n) = 9 ∧ t.chip.get (R.SCN_PHY.AUX_CMD.LEN_M1 n) = bits data.toNat 4 4 ∧
      t.chip.get (R.SCN_PHY.AUX_CMD.ADDR n) = bits data.toNat 8 20 ∧
      t.chip.scnOut n = { s.chip.scnOut n with aux := some { cmd := 9, len := bits data.toNat 4 4 + 1, addr := bits data.toNat 8 20, since := s.chip.ps } } ∧
      Only [.rf, .scn] [R.SCN_PHY.AUX_STAT.BUSY n, R.SCN_PHY.AUX_CMD.CMD n, R.SCN_PHY.AUX_CMD.LEN_M1 n, R.SCN_PHY.AUX_CMD.ADDR n] s t) ∧
  (∀ (s : State) (src : Src) (n : Nat) (mot : Bool) (data : Word),
    n < 8 →
    Reaches s.chip src (phyPage n) →
    s.chip.mgrOrCtl src = true →
    (match src with | .inst _ => false | _ => true) = true →
    bits data.toNat 28 3 = 0 →
    s.chip.lvds n = false →
    s.chip.get (R.SCN_PHY.AUX_STAT.BUSY n) = 0 →
    Completes (.auxI2cWrite src n mot data) s fun t =>
      t.chip.get (R.SCN_PHY.AUX_STAT.BUSY n) = 1 ∧ t.chip.get (R.SCN_PHY.AUX_CMD.CMD n) = (if mot then 4 else 0) ∧ t.chip.get (R.SCN_PHY.AUX_CMD.LEN_M1 n) = bits data.toNat 4 4 ∧
      t.chip.get (R.SCN_PHY.AUX_CMD.ADDR n) = bits data.toNat 8 20 ∧
      t.chip.scnOut n = { s.chip.scnOut n with aux := some { cmd := (if mot then 4 else 0), len := bits data.toNat 4 4 + 1, addr := bits data.toNat 8 20, since := s.chip.ps } } ∧
      Only [.rf, .scn] [R.SCN_PHY.AUX_STAT.BUSY n, R.SCN_PHY.AUX_CMD.CMD n, R.SCN_PHY.AUX_CMD.LEN_M1 n, R.SCN_PHY.AUX_CMD.ADDR n] s t) ∧
  (∀ (s : State) (src : Src) (n : Nat) (mot : Bool) (data : Word),
    n < 8 →
    Reaches s.chip src (phyPage n) →
    s.chip.mgrOrCtl src = true →
    (match src with | .inst _ => false | _ => true) = true →
    bits data.toNat 28 3 = 0 →
    s.chip.lvds n = false →
    s.chip.get (R.SCN_PHY.AUX_STAT.BUSY n) = 0 →
    Completes (.auxI2cRead src n mot data) s fun t =>
      t.chip.get (R.SCN_PHY.AUX_STAT.BUSY n) = 1 ∧ t.chip.get (R.SCN_PHY.AUX_CMD.CMD n) = (if mot then 5 else 1) ∧ t.chip.get (R.SCN_PHY.AUX_CMD.LEN_M1 n) = bits data.toNat 4 4 ∧
      t.chip.get (R.SCN_PHY.AUX_CMD.ADDR n) = bits data.toNat 8 20 ∧
      t.chip.scnOut n = { s.chip.scnOut n with aux := some { cmd := (if mot then 5 else 1), len := bits data.toNat 4 4 + 1, addr := bits data.toNat 8 20, since := s.chip.ps } } ∧
      Only [.rf, .scn] [R.SCN_PHY.AUX_STAT.BUSY n, R.SCN_PHY.AUX_CMD.CMD n, R.SCN_PHY.AUX_CMD.LEN_M1 n, R.SCN_PHY.AUX_CMD.ADDR n] s t) ∧
  (∀ (s : State) (n : Nat) (q : AuxReq) (data : List Byte),
    n < 8 →
    s.chip.auxAsked n = some q →
    q.cmd % 2 = 1 →
    (1 ≤ q.len ∧ q.len ≤ 16 ∧ q.len ≤ data.length) →
    Completes (.auxReply n 0 data) s fun t =>
      (t.chip.scnOut n).aux = none ∧ t.chip.get (R.SCN_PHY.AUX_STAT.BUSY n) = 0 ∧ t.chip.get (R.SCN_PHY.AUX_STAT.REPLY n) = 0 ∧ t.chip.get (R.SCN_PHY.AUX_STAT.BYTES n) = q.len ∧
      (∀ i ∈ List.range 16, bits (t.chip.get (R.SCN_PHY.AUX_DATA.DATA n (i / 4))) (8 * (i % 4)) 8 =
        if i < q.len then (data.getD i 0).toNat else bits (s.chip.get (R.SCN_PHY.AUX_DATA.DATA n (i / 4))) (8 * (i % 4)) 8) ∧
      (t.chip.get (H.IRQ_RAW (phyPage n))).testBit 0 = true ∧ OnlyPages [.rf, .scn, .deliveries] [phyPage n] s t) ∧
  (∀ (s : State) (n : Nat) (q : AuxReq) (data : List Byte),
    n < 8 →
    s.chip.auxAsked n = some q →
    Completes (.auxReply n 1 data) s fun t =>
      (t.chip.scnOut n).aux = none ∧ t.chip.get (R.SCN_PHY.AUX_STAT.BUSY n) = 0 ∧ t.chip.get (R.SCN_PHY.AUX_STAT.REPLY n) = 1 ∧ t.chip.get (R.SCN_PHY.AUX_STAT.BYTES n) = 0 ∧
      t.chip.get (R.SCN_PHY.AUX_ERR.COUNT n) = min (s.chip.get (R.SCN_PHY.AUX_ERR.COUNT n) + 1) (2 ^ 32 - 1) ∧
      Only [.rf, .scn, .deliveries] [R.SCN_PHY.AUX_STAT.BUSY n, R.SCN_PHY.AUX_STAT.REPLY n, R.SCN_PHY.AUX_STAT.BYTES n, R.SCN_PHY.AUX_ERR.COUNT n, H.IRQ_RAW (phyPage n)] s t) ∧
  (∀ (s : State) (n : Nat) (q : AuxReq) (data : List Byte),
    n < 8 →
    s.chip.auxAsked n = some q →
    q.defers < 7 →
    Completes (.auxReply n 2 data) s fun t =>
      (t.chip.scnOut n).aux = some { q with defers := q.defers + 1, since := s.chip.ps } ∧ Only [.scn] [] s t) ∧
  (∀ (s : State) (n : Nat) (q : AuxReq),
    n < 8 →
    s.chip.auxAsked n = some q →
    q.since + 400000000 ≤ s.chip.ps →
    Completes (.auxTimeout n) s fun t =>
      (t.chip.scnOut n).aux = none ∧ t.chip.get (R.SCN_PHY.AUX_STAT.BUSY n) = 0 ∧ t.chip.get (R.SCN_PHY.AUX_STAT.REPLY n) = 3 ∧
      t.chip.get (R.SCN_PHY.AUX_ERR.COUNT n) = min (s.chip.get (R.SCN_PHY.AUX_ERR.COUNT n) + 1) (2 ^ 32 - 1) ∧
      Only [.rf, .scn, .deliveries] [R.SCN_PHY.AUX_STAT.BUSY n, R.SCN_PHY.AUX_STAT.REPLY n, R.SCN_PHY.AUX_STAT.BYTES n, R.SCN_PHY.AUX_ERR.COUNT n, H.IRQ_RAW (phyPage n)] s t) ∧
  (∀ (s : State) (n l : Nat),
    n < 8 →
    l = s.chip.leadOf n →
    ((s.chip.scnOut l).link = LinkSt.SENDING ∧ (s.chip.scnOut l).offLeft = none) →
    (s.chip.get (R.SCN_OUT.BL.ON l) = 1 ∧ s.chip.get (R.SCN_OUT.BL.ON_DELAY l) ≤ (s.chip.scnOut l).sending) →
    Completes (.backlightEnable n) s fun t =>
      t.chip.scnOut l = (if (s.chip.scnOut l).blEn then s.chip.scnOut l else { s.chip.scnOut l with blEn := true, pwmAt := s.chip.ps, pwmFrom := s.chip.ps }) ∧
      t.chip.blPin l = true ∧ Only [.scn] [] s t)

/-- Fault resets of the safety island, its watchdog, scrubbing and clock monitor (R208, R209, R219, R220, R221). -/
def Obligations.IslandFaultsAndWatchdog : Prop :=
  (∀ (s : State) (src : Src) (cause : Nat),
    (1 ≤ cause ∧ cause ≤ 5) →
    s.chip.get R.SAF.ISL_STAT.STATE = 1 →
    Completes (.islandFaultReset src cause) s fun t =>
      t.chip.get R.SAF.ISL_STAT.STATE = faultState s ∧ t.chip.get R.SAF.ISL_STAT.CAUSE = cause ∧ t.chip.get R.SAF.SAFE_OK.EN_A = 0 ∧ t.chip.get R.SAF.SAFE_OK.EN_B = 0 ∧
      (t.chip.get R.SAF.SAFE_OK.FORCED).testBit 0 = true ∧ t.chip.get R.SAF.WDOG_CFG.ARM = 0 ∧ t.chip.saf.clear = List.range 8 ∧
      (∀ n ∈ List.range 8, ∀ r ∈ List.range 16, t.chip.get (R.SAF_P.RG_STAT.RUN n r) = 0) ∧ (t.chip.csk.waiting.getLast?.map fun e => e.event) = some 0x0C02 ∧
      t.chip.get R.SAF.LOCKSTEP_ERR.COUNT = (if cause = 1 then min (s.chip.get R.SAF.LOCKSTEP_ERR.COUNT + 1) (2 ^ 32 - 1) else s.chip.get R.SAF.LOCKSTEP_ERR.COUNT) ∧
      t.chip.get R.SAF.WDOG_FAULT.COUNT = (if cause = 2 ∨ cause = 3 then min (s.chip.get R.SAF.WDOG_FAULT.COUNT + 1) (2 ^ 32 - 1) else s.chip.get R.SAF.WDOG_FAULT.COUNT) ∧
      t.chip.get R.SAF.ECC_UNCORR.COUNT = (if cause = 5 then min (s.chip.get R.SAF.ECC_UNCORR.COUNT + 1) (2 ^ 32 - 1) else s.chip.get R.SAF.ECC_UNCORR.COUNT) ∧
      PartsBut [.rf, .deliveries, .saf, .fab, .csk, .pow] s t ∧ (t.chip.pow.islDead = true ↔ s.chip.pow.islDead = true ∨ faultState s = 2) ∧
      PagesBut [0x001, 0x130, 0x131, 0x132, 0x133, 0x134, 0x135, 0x136, 0x137, 0x138, 0x090, 0x091, 0x092] s t ∧ MemSame s t) ∧
  (∀ (s : State),
    Reaches s.chip .island 0x130 →
    Completes (.islandFaultReset .island 6) s fun t =>
      t.chip.get R.SAF.ISL_STAT.STATE = faultState s ∧ t.chip.get R.SAF.ISL_STAT.CAUSE = 6 ∧ t.chip.get R.SAF.SAFE_OK.EN_A = 0 ∧ t.chip.get R.SAF.SAFE_OK.EN_B = 0 ∧
      t.chip.get R.SAF.WDOG_CFG.ARM = 0 ∧ t.chip.saf.clear = List.range 8 ∧ (t.chip.csk.waiting.getLast?.map fun e => e.event) = some 0x0C02 ∧ MemSame s t) ∧
  (∀ (s : State) (images : List FlashImage) (b : Bool) (x : FlashImage),
    (s.chip.get R.SAF.ISL_STAT.STATE = 0 ∧ s.chip.get R.SAF.ISL_STAT.CAUSE ≠ 0) →
    s.chip.pdOn PD.SAFE = true →
    (pickCopy s.chip.pow.part 0x01 islSize (s.chip.get R.SEC_FUSE.ISL_ROLLBACK.COUNT) (fun _ => true) images = some (b, x)) →
    Completes (.islandReloadDone images) s fun t =>
      t.chip.get R.SAF.ISL_STAT.STATE = 1 ∧ t.chip.get R.SYS_BOOT.BOOT_STAT.ISL_COPY = b2n b ∧ (b = true → Recorded 0x0103 s t) ∧ t.chip.saf = { s.chip.saf with startedAt := s.chip.ps } ∧
      t.mem = { s.mem with isl := Memory.writeBytes s.mem.isl 0 x.bytes } ∧ t.pending = s.pending ∧ PartsBut [.rf, .saf, .csk] s t ∧
      PagesBut [R.SAF.ISL_STAT.STATE.page, R.SYS_BOOT.BOOT_STAT.ISL_COPY.page] s t) ∧
  (∀ (s : State) (images : List FlashImage),
    (s.chip.get R.SAF.ISL_STAT.STATE = 0 ∧ s.chip.get R.SAF.ISL_STAT.CAUSE ≠ 0) →
    s.chip.pdOn PD.SAFE = true →
    (pickCopy s.chip.pow.part 0x01 islSize (s.chip.get R.SEC_FUSE.ISL_ROLLBACK.COUNT) (fun _ => true) images = none) →
    Completes (.islandReloadDone images) s fun t =>
      t.chip.get R.SAF.ISL_STAT.STATE = 2 ∧ t.chip.get R.SYS_BOOT.BOOT_STAT.ERR = 0x12 ∧ t.chip.pow = { s.chip.pow with islDead := true } ∧
      Only [.rf, .pow] [R.SAF.ISL_STAT.STATE, R.SYS_BOOT.BOOT_STAT.ERR] s t) ∧
  (∀ (s : State) (a b : Nat),
    s.chip.pdOn PD.SAFE = true →
    b + (s.chip.flawed 0 2).length = 0 →
    Completes (.sramScrub a b) s fun t =>
      t.chip.get R.SAF.ECC_CORR.COUNT = min (s.chip.get R.SAF.ECC_CORR.COUNT + a + (s.chip.flawed 0 1).length) (2 ^ 32 - 1) ∧
      t.chip.flaws = (s.chip.flaws.filter fun f => !(s.chip.flawed 0 1).contains f.1) ∧ Only [.rf, .flaws] [R.SAF.ECC_CORR.COUNT] s t) ∧
  (∀ (s : State) (a b : Nat),
    s.chip.pdOn PD.SAFE = true →
    0 < b + (s.chip.flawed 0 2).length →
    Completes (.sramScrub a b) s fun t =>
      t.chip.get R.SAF.ECC_UNCORR.COUNT = min (s.chip.get R.SAF.ECC_UNCORR.COUNT + b + (s.chip.flawed 0 2).length) (2 ^ 32 - 1) ∧
      t.chip.get R.SAF.SAFE_OK.EN_A = 0 ∧ t.chip.get R.SAF.SAFE_OK.EN_B = 0 ∧ (t.chip.get R.SAF.SAFE_OK.FORCED).testBit 2 = true ∧
      OnlyPages [.rf, .flaws, .deliveries] [0x130] s t) ∧
  (∀ (s : State) (data : Word),
    Reaches s.chip .island 0x130 →
    s.chip.get R.SAF.WDOG_CFG.ARM = 0 →
    bits data.toNat 0 16 < bits data.toNat 16 15 →
    Completes (.wdogArm .island data) s fun t =>
      t.chip.get R.SAF.WDOG_CFG.ARM = 1 ∧ t.chip.get R.SAF.WDOG_CFG.WIN_MIN = bits data.toNat 0 16 ∧ t.chip.get R.SAF.WDOG_CFG.WIN_MAX = bits data.toNat 16 15 ∧
      t.chip.saf = { s.chip.saf with wdBase := s.chip.ps, wdKey := 0x5A } ∧ Only [.rf, .saf] [R.SAF.WDOG_CFG.ARM, R.SAF.WDOG_CFG.WIN_MIN, R.SAF.WDOG_CFG.WIN_MAX] s t) ∧
  (∀ (s : State),
    s.chip.get R.SAF.ISL_STAT.STATE = 1 →
    s.chip.get R.SAF.WDOG_CFG.ARM = 0 →
    s.chip.saf.startedAt + 150000000000 ≤ s.chip.ps →
    Completes (.wdogSelfArm) s fun t =>
      t.chip.get R.SAF.WDOG_CFG.ARM = 1 ∧ t.chip.saf = { s.chip.saf with wdBase := s.chip.ps, wdKey := 0x5A } ∧ Only [.rf, .saf] [R.SAF.WDOG_CFG.ARM] s t) ∧
  (∀ (s : State) (data : Word),
    Reaches s.chip .island 0x130 →
    s.chip.get R.SAF.WDOG_CFG.ARM = 1 →
    (data.toNat = s.chip.saf.wdKey ∧ data.toNat < 256) →
    s.chip.saf.wdBase + s.chip.get R.SAF.WDOG_CFG.WIN_MIN * 10000000 ≤ s.chip.ps →
    Completes (.wdogKick .island data) s fun t =>
      t.chip.saf = { s.chip.saf with wdBase := s.chip.ps, wdKey := if s.chip.saf.wdKey = 0x5A then 0xA5 else 0x5A } ∧ Only [.saf] [] s t) ∧
  (∀ (s : State) (data : Word),
    Reaches s.chip .island 0x130 →
    s.chip.get R.SAF.WDOG_CFG.ARM = 1 →
    data.toNat < 256 →
    (data.toNat ≠ s.chip.saf.wdKey ∨ s.chip.ps < s.chip.saf.wdBase + s.chip.get R.SAF.WDOG_CFG.WIN_MIN * 10000000) →
    Completes (.wdogKick .island data) s fun t =>
      t.chip.get R.SAF.ISL_STAT.STATE = faultState s ∧ t.chip.get R.SAF.ISL_STAT.CAUSE = 3 ∧ t.chip.get R.SAF.WDOG_CFG.ARM = 0 ∧ MemSame s t) ∧
  (∀ (s : State),
    s.chip.get R.SAF.ISL_STAT.STATE = 1 →
    s.chip.get R.SAF.WDOG_CFG.ARM = 1 →
    s.chip.saf.wdBase + s.chip.get R.SAF.WDOG_CFG.WIN_MAX * 10000000 ≤ s.chip.ps →
    Completes (.wdogExpiry) s fun t =>
      t.chip.get R.SAF.ISL_STAT.STATE = faultState s ∧ t.chip.get R.SAF.ISL_STAT.CAUSE = 2 ∧ t.chip.get R.SAF.WDOG_CFG.ARM = 0 ∧
      t.chip.get R.SAF.WDOG_FAULT.COUNT = min (s.chip.get R.SAF.WDOG_FAULT.COUNT + 1) (2 ^ 32 - 1) ∧ MemSame s t) ∧
  (∀ (s : State) (a b r : Nat),
    s.chip.pdOn PD.SAFE = true →
    s.chip.ptb.proof = none →
    (7200 ≤ a ∧ a ≤ 8800 ∧ 10800 ≤ b ∧ b ≤ 13200 ∧ 450 ≤ r ∧ r ≤ 550) →
    s.chip.saf.clkBad = [] →
    Completes (.clockMonitorWindow a b r) s fun t =>
      t.chip.saf = { s.chip.saf with clkRun := t.chip.saf.clkRun } ∧ (∀ k ∈ List.range 3, t.chip.saf.clkRun.find? k = none) ∧ Only [.saf] [] s t) ∧
  (∀ (s : State) (a b r : Nat),
    s.chip.pdOn PD.SAFE = true →
    s.chip.ptb.proof = none →
    (7200 ≤ a ∧ a ≤ 8800 ∧ 450 ≤ r ∧ r ≤ 550) →
    (b < 10800 ∨ 13200 < b) →
    s.chip.saf.clkBad = [] →
    s.chip.saf.clkRun.getD 1 0 = 1 →
    Completes (.clockMonitorWindow a b r) s fun t =>
      t.chip.saf.clkBad = [1] ∧ t.chip.get R.SAF.CLK_STAT.CMP = 1 ∧ (t.chip.get (H.IRQ_RAW 0x130)).testBit 0 = true ∧
      t.chip.get R.SAF.CLK_FAULT_CNT.COUNT = min (s.chip.get R.SAF.CLK_FAULT_CNT.COUNT + 1) (2 ^ 32 - 1) ∧ t.chip.get R.SAF.SAFE_OK.EN_A = 0 ∧
      (t.chip.get R.SAF.SAFE_OK.FORCED).testBit 1 = true ∧ Recorded 0x0C03 s t ∧ OnlyPages [.rf, .saf, .deliveries, .csk] [0x130] s t)

/-- Plane swaps, SAFE_OK and degraded pipes (R210, R213, R218, R221, R223). -/
def Obligations.PlanesSafeOkAndDegradedPipes : Prop :=
  (∀ (s : State) (n : Nat),
    n < 8 →
    Reaches s.chip .island (0x131 + n) →
    s.chip.get (R.SAF_P.PLANE_STAT.PENDING n) = 0 →
    s.chip.dualFollower n = false →
    s.chip.eccFlaws Ecc.ISL (s.chip.staged (R.SAF_P.TABLE.ADDR n)) 1536 = [] →
    s.chip.planeCheck n (planeAsked s n) = none →
    Completes (.planeSwap .island n) s fun t =>
      t.chip.get (R.SAF_P.PLANE_STAT.PENDING n) = 1 ∧ t.chip.get (R.SAF_P.PLANE_STAT.RESULT n) = 0 ∧ (t.chip.stage (0x131 + n)).pending = (s.chip.stage (0x131 + n)).shadow ∧
      Only [.rf, .stg] [R.SAF_P.PLANE_STAT.PENDING n, R.SAF_P.PLANE_STAT.RESULT n] s t) ∧
  (∀ (s : State) (n code : Nat),
    n < 8 →
    Reaches s.chip .island (0x131 + n) →
    s.chip.get (R.SAF_P.PLANE_STAT.PENDING n) = 0 →
    s.chip.dualFollower n = false →
    s.chip.eccFlaws Ecc.ISL (s.chip.staged (R.SAF_P.TABLE.ADDR n)) 1536 = [] →
    s.chip.planeCheck n (planeAsked s n) = some code →
    Completes (.planeSwap .island n) s fun t =>
      t.chip.get (R.SAF_P.PLANE_STAT.PENDING n) = 0 ∧ t.chip.get (R.SAF_P.PLANE_STAT.RESULT n) = code % 256 ∧ Only [.rf] [R.SAF_P.PLANE_STAT.RESULT n] s t) ∧
  (∀ (s : State) (n : Nat),
    n < 8 →
    Reaches s.chip .island (0x131 + n) →
    Completes (.planeCancel .island n) s fun t =>
      t.chip.get (R.SAF_P.PLANE_STAT.PENDING n) = 0 ∧ (t.chip.stage (0x131 + n)).pending = [] ∧ (t.chip.stage (0x131 + n)).shadow = (s.chip.stage (0x131 + n)).shadow ∧
      Only [.rf, .stg] [R.SAF_P.PLANE_STAT.PENDING n] s t) ∧
  (∀ (s : State) (data : Word),
    Reaches s.chip .island 0x130 →
    (bits data.toNat 5 11 = 0 ∧ data.toNat < 2 ^ 22) →
    s.chip.safeHeld = false →
    (data.toNat.testBit 4 = false ∨ s.chip.brg.up = true ∨ s.chip.get R.SAF.SAFE_OK.FIELD_DROP ≠ 0) →
    Completes (.safeOkEnable .island data) s fun t =>
      t.chip.get R.SAF.SAFE_OK.EN_A = bits data.toNat 0 1 ∧ t.chip.get R.SAF.SAFE_OK.EN_B = bits data.toNat 1 1 ∧ t.chip.get R.SAF.SAFE_OK.DYN_A = bits data.toNat 2 1 ∧
      t.chip.get R.SAF.SAFE_OK.DYN_B = bits data.toNat 3 1 ∧ t.chip.get R.SAF.SAFE_OK.FIELD_DROP = bits data.toNat 4 1 ∧
      (∀ i ∈ List.range 6, (t.chip.get R.SAF.SAFE_OK.FORCED).testBit i = ((s.chip.get R.SAF.SAFE_OK.FORCED).testBit i && !data.toNat.testBit (16 + i))) ∧
      Only [.rf] [R.SAF.SAFE_OK.EN_A, R.SAF.SAFE_OK.EN_B, R.SAF.SAFE_OK.DYN_A, R.SAF.SAFE_OK.DYN_B, R.SAF.SAFE_OK.FIELD_DROP, R.SAF.SAFE_OK.FORCED] s t) ∧
  (∀ (s : State) (data : Word),
    Reaches s.chip .island 0x130 →
    (bits data.toNat 5 11 = 0 ∧ data.toNat < 2 ^ 22) →
    s.chip.safeHeld = false →
    (data.toNat.testBit 4 = true ∧ s.chip.brg.up = false ∧ s.chip.get R.SAF.SAFE_OK.FIELD_DROP = 0) →
    Completes (.safeOkEnable .island data) s fun t =>
      t.chip.get R.SAF.SAFE_OK.EN_A = 0 ∧ t.chip.get R.SAF.SAFE_OK.EN_B = 0 ∧ t.chip.get R.SAF.SAFE_OK.FIELD_DROP = 1 ∧
      (t.chip.get R.SAF.SAFE_OK.FORCED).testBit 4 = true ∧ (t.chip.get (H.IRQ_RAW 0x130)).testBit 2 = true ∧ OnlyPages [.rf, .deliveries] [0x130] s t) ∧
  (∀ (s : State) (data : Word),
    Reaches s.chip .island 0x130 →
    (bits data.toNat 5 11 = 0 ∧ data.toNat < 2 ^ 22) →
    s.chip.safeHeld = true →
    (s.chip.get R.SAF.SAFE_OK.EN_A = 0 ∧ data.toNat.testBit 0 = true) →
    Completes (.safeOkEnable .island data) s fun t =>
      t.chip.get R.SAF.SAFE_OK.EN_A = 0 ∧ t.chip.get (H.ERR_COUNT 0x130) = min (s.chip.get (H.ERR_COUNT 0x130) + 1) 255 ∧
      (s.chip.get (H.ERR_CODE 0x130) = 0 → t.chip.get (H.ERR_CODE 0x130) = E.STATE) ∧
      Only [.rf, .deliveries] [H.ERR_CODE 0x130, H.ERR_OFFSET 0x130, H.ERR_SOURCE 0x130, H.ERR_COUNT 0x130, H.IRQ_RAW 0x130] s t) ∧
  (∀ (s : State) (data : Word),
    Reaches s.chip .island 0x130 →
    data.toNat < 256 →
    Completes (.pipeDegrWrite .island data) s fun t =>
      t.chip.get R.SAF.PIPE_DEGR.PIPES = data.toNat ∧ (∀ p ∈ List.range 8, t.chip.cmp.hold.contains p = (s.chip.cmp.hold.contains p || data.toNat.testBit p)) ∧
      Only [.rf, .cmp] [R.SAF.PIPE_DEGR.PIPES] s t) ∧
  (∀ (s : State) (src : Src) (data : Word),
    Reaches s.chip src 0x130 →
    (match src with | .inst _ => false | .island => false | _ => true) = true →
    Completes (.pipeDegrWrite src data) s fun t =>
      t.chip.get (H.ERR_COUNT 0x130) = min (s.chip.get (H.ERR_COUNT 0x130) + 1) 255 ∧ (s.chip.get (H.ERR_CODE 0x130) = 0 → t.chip.get (H.ERR_CODE 0x130) = E.OWNER) ∧
      Only [.rf, .deliveries] [H.ERR_CODE 0x130, H.ERR_OFFSET 0x130, H.ERR_SOURCE 0x130, H.ERR_COUNT 0x130, H.IRQ_RAW 0x130] s t)

/-- GATE, GRET, WSTAT, GMARK and the secure interrupt (R275, R276, R279, R280, R281). -/
def Obligations.GatewayCrossesWorlds : Prop :=
  (∀ (s : State) (k rd target pc priv : Nat) (d : Bool),
    (k < 4 ∧ rd < 32 ∧ priv < 4 ∧ pc + 4 < 2 ^ 64) →
    s.chip.ccRuns k = true →
    (s.chip.ccSecure k = false ∧ 1 ≤ priv) →
    s.chip.gateOk s.mem.sram target = true →
    Completes (.gate k rd 0 target pc priv d) s fun t =>
      t.chip.ccSecure k = true ∧ (t.chip.cc k).pc = target ∧ (t.chip.cc k).priv = 3 ∧ (t.chip.cc k).normPriv = priv ∧
      (∀ i ∈ List.range 32, (t.chip.cc k).x.getD i 0 = if i = rd ∧ rd ≠ 0 then pc + 4 else (s.chip.cc k).x.getD i 0) ∧
      (t.chip.cc k).norm = (s.chip.cc k).norm ∧ (t.chip.cc k).sec = (s.chip.cc k).sec ∧ (∀ j ∈ List.range 4, j ≠ k → t.chip.cc j = s.chip.cc j) ∧
      Only [.rf, .ctl] [R.CTL.CC_STAT.SECURE] s t) ∧
  (∀ (s : State) (k rd target pc priv : Nat) (d : Bool),
    (k < 4 ∧ rd < 32 ∧ priv < 4) →
    s.chip.ccRuns k = true →
    (s.chip.ccSecure k = false ∧ 1 ≤ priv) →
    s.chip.gateOk s.mem.sram target = false →
    Completes (.gate k rd 0 target pc priv d) s fun t =>
      t.chip.ccSecure k = false ∧ t.chip.get R.SEC.GATE_FAULT.COUNT = min (s.chip.get R.SEC.GATE_FAULT.COUNT + 1) (2 ^ 32 - 1) ∧
      (t.chip.get (H.IRQ_RAW 0x030)).testBit 1 = true ∧ Recorded 0x0402 s t ∧
      t.chip.ctl.core = (s.chip.ccTrap k 24 target pc priv d).ctl.core ∧
      OnlyPages [.rf, .ctl, .deliveries, .csk] [0x030] s t) ∧
  (∀ (s : State) (k rd imm target pc priv : Nat) (d : Bool),
    (k < 4 ∧ rd < 32 ∧ priv < 4) →
    s.chip.ccRuns k = true →
    (imm ≠ 0 ∨ s.chip.ccSecure k = true ∨ priv = 0) →
    (d = false ∨ 2 ≤ priv) →
    Completes (.gate k rd imm target pc priv d) s fun t =>
      t.chip.ccSecure k = s.chip.ccSecure k ∧ (t.chip.cc k).priv = 3 ∧ (t.chip.cc k).x = (s.chip.cc k).x ∧
      ((if s.chip.ccSecure k then (t.chip.cc k).sec else (t.chip.cc k).norm).get Csr.MCAUSE) = 2 ∧
      ((if s.chip.ccSecure k then (t.chip.cc k).sec else (t.chip.cc k).norm).get Csr.MEPC) = pc % 2 ^ 64 ∧ Only [.ctl, .free] [] s t) ∧
  (∀ (s : State) (k rd imm target pc priv : Nat),
    (k < 4 ∧ rd < 32 ∧ priv < 2) →
    s.chip.ccRuns k = true →
    (imm ≠ 0 ∨ s.chip.ccSecure k = true ∨ priv = 0) →
    Completes (.gate k rd imm target pc priv true) s fun t =>
      t.chip.ccSecure k = s.chip.ccSecure k ∧ (t.chip.cc k).priv = 1 ∧ (t.chip.cc k).x = (s.chip.cc k).x ∧
      ((if s.chip.ccSecure k then (t.chip.cc k).sec else (t.chip.cc k).norm).get Csr.SCAUSE) = 2 ∧
      ((if s.chip.ccSecure k then (t.chip.cc k).sec else (t.chip.cc k).norm).get Csr.SEPC) = pc % 2 ^ 64 ∧ Only [.ctl, .free] [] s t) ∧
  (∀ (s : State) (k target pc priv : Nat) (d : Bool),
    (k < 4 ∧ priv < 4 ∧ target < 2 ^ 64) →
    s.chip.ccRuns k = true →
    s.chip.ccSecure k = true →
    Completes (.gret k 0 0 target pc priv d) s fun t =>
      t.chip.ccSecure k = false ∧ t.chip.cc k = { s.chip.cc k with pc := target, priv := (s.chip.cc k).normPriv } ∧
      (∀ j ∈ List.range 4, j ≠ k → t.chip.ccSecure j = s.chip.ccSecure j) ∧ Only [.rf, .ctl] [R.CTL.CC_STAT.SECURE] s t) ∧
  (∀ (s : State) (k rd pc priv : Nat) (d : Bool),
    (k < 4 ∧ rd < 32 ∧ priv < 4 ∧ pc + 4 < 2 ^ 64) →
    s.chip.ccRuns k = true →
    Completes (.wstat k rd 0 0 pc priv d) s fun t =>
      (t.chip.cc k).pc = pc + 4 ∧ (t.chip.cc k).priv = priv ∧
      (∀ i ∈ List.range 32, (t.chip.cc k).x.getD i 0 = if i = rd ∧ rd ≠ 0 then b2n (s.chip.ccSecure k) + 2 * k else (s.chip.cc k).x.getD i 0) ∧
      t.chip.ccSecure k = s.chip.ccSecure k ∧ Only [.ctl] [] s t) ∧
  (∀ (s : State) (k pc priv : Nat) (d : Bool),
    (k < 4 ∧ priv < 4 ∧ pc + 4 < 2 ^ 64) →
    s.chip.ccRuns k = true →
    Completes (.gmark k 0 0 0x5EC pc priv d) s fun t =>
      t.chip.cc k = { s.chip.cc k with pc := pc + 4, priv := priv } ∧ Only [.ctl] [] s t) ∧
  (∀ (s : State) (k pc priv : Nat) (en : Bool),
    (k < 4 ∧ priv < 4 ∧ pc < 2 ^ 64) →
    s.chip.ccRuns k = true →
    s.chip.ccSecure k = false →
    s.chip.gateOk s.mem.sram (sramBase + s.chip.get R.SEC.SIRQ_VEC.OFFSET * 8) = true →
    Completes (.secureInterrupt k pc priv en) s fun t =>
      t.chip.ccSecure k = true ∧ (t.chip.cc k).pc = sramBase + s.chip.get R.SEC.SIRQ_VEC.OFFSET * 8 ∧ (t.chip.cc k).priv = 3 ∧ (t.chip.cc k).normPriv = priv ∧
      (t.chip.cc k).sec.get Csr.MEPC = pc ∧ (t.chip.cc k).x = (s.chip.cc k).x ∧ (t.chip.cc k).norm = (s.chip.cc k).norm ∧ Only [.rf, .ctl] [R.CTL.CC_STAT.SECURE] s t) ∧
  (∀ (s : State) (k pc priv : Nat),
    (k < 4 ∧ priv < 4) →
    s.chip.ccRuns k = true →
    s.chip.ccSecure k = true →
    Completes (.secureInterrupt k pc priv false) s fun t =>
      ((t.chip.cc k).sec.get Csr.MIP).testBit 11 = true ∧ (t.chip.cc k).pc = (s.chip.cc k).pc ∧ (t.chip.cc k).priv = (s.chip.cc k).priv ∧ Only [.ctl] [] s t)

/-- Claims of whole blocks, the secure watchdog, core release and reset, rollback counters, core memory and the debugger (R42, R66, R208, R275, R277, R282, R284, R365). -/
def Obligations.SecureWorldRegistersAndCores : Prop :=
  (∀ (s : State) (src : Src) (b : Nat),
    (1 ≤ b ∧ b ≤ 0x15) →
    Reaches s.chip src 0x030 →
    isSecure src = true →
    Completes (.claimBlockSet src b) s fun t =>
      (∀ p ∈ List.range 512, t.chip.get (H.CLAIMED p) = if blockOf p = b ∧ pageExists p = true then 1 else s.chip.get (H.CLAIMED p)) ∧
      t.chip.get R.SEC.CLAIM_BLOCK.BLOCK = b ∧ PartsBut [.rf] s t ∧ MemSame s t) ∧
  (∀ (s : State) (src : Src) (b : Nat),
    (1 ≤ b ∧ b ≤ 0x15) →
    Reaches s.chip src 0x030 →
    isSecure src = true →
    Completes (.claimBlockClear src b) s fun t =>
      (∀ p ∈ List.range 512, t.chip.get (H.CLAIMED p) = if blockOf p = b ∧ pageExists p = true then 0 else s.chip.get (H.CLAIMED p)) ∧
      t.chip.get R.SEC.CLAIM_BLOCK.BLOCK = b ∧ PartsBut [.rf] s t ∧ MemSame s t) ∧
  (∀ (s : State) (src : Src) (data : Word),
    Reaches s.chip src 0x031 →
    isSecure src = true →
    s.chip.get R.SEC_WDOG.WD_CFG.ARMED = 1 →
    (data.toNat = if s.chip.get R.SEC_WDOG.WD_STAT.NEXT_KEY = 1 then 0x3C else 0xC3) →
    Completes (.wdKick src data) s fun t =>
      t.chip.ctl = { s.chip.ctl with wdAge := 0, wdLimit := s.chip.get R.SEC_WDOG.WD_CFG.TIMEOUT, wdWarned := false } ∧ t.chip.get R.SEC_WDOG.WD_STAT.ELAPSED = 0 ∧
      t.chip.get R.SEC_WDOG.WD_STAT.NEXT_KEY = (1 - s.chip.get R.SEC_WDOG.WD_STAT.NEXT_KEY) % 2 ∧
      Only [.rf, .ctl] [R.SEC_WDOG.WD_STAT.ELAPSED, R.SEC_WDOG.WD_STAT.NEXT_KEY] s t) ∧
  (∀ (s : State) (src : Src) (data : Word),
    Reaches s.chip src 0x031 →
    isSecure src = true →
    s.chip.get R.SEC_WDOG.WD_CFG.ARMED = 1 →
    data.toNat < 256 →
    (data.toNat ≠ if s.chip.get R.SEC_WDOG.WD_STAT.NEXT_KEY = 1 then 0x3C else 0xC3) →
    Completes (.wdKick src data) s fun t =>
      t.chip.mode = Mode.BOOT ∧ t.chip.get R.SYS_MODE.MODE_STAT.CAUSE = 3 ∧ t.mem.dram = [] ∧ t.mem.sram = [] ∧ t.mem.isl = [] ∧ t.mem.host = s.mem.host ∧ t.pending = s.pending) ∧
  (∀ (s : State),
    s.chip.get R.SEC_WDOG.WD_CFG.ARMED = 1 →
    s.chip.ctl.wdWarned = false →
    3 * (s.chip.ctl.wdLimit * 1000000000) ≤ 4 * s.chip.ctl.wdAge →
    Completes (.wdWarn) s fun t =>
      t.chip.ctl = { s.chip.ctl with wdWarned := true } ∧ (t.chip.get (H.IRQ_RAW 0x031)).testBit 0 = true ∧ Only [.rf, .ctl, .deliveries] [H.IRQ_RAW 0x031] s t) ∧
  (∀ (s : State),
    s.chip.get R.SEC_WDOG.WD_CFG.ARMED = 1 →
    s.chip.ctl.wdLimit * 1000000000 ≤ s.chip.ctl.wdAge →
    Completes (.secureWdogExpiry) s fun t =>
      t.chip.mode = Mode.BOOT ∧ t.chip.get R.SYS_MODE.MODE_STAT.CAUSE = 3 ∧ t.mem.dram = [] ∧ t.mem.sram = [] ∧ t.mem.isl = [] ∧ t.mem.host = s.mem.host ∧ t.pending = s.pending) ∧
  (∀ (s : State) (src : Src) (rel : Nat),
    (rel < 16 ∧ rel % 2 = 1) →
    Reaches s.chip src 0x040 →
    isSecure src = true →
    Completes (.ccRelease src rel) s fun t =>
      t.chip.get R.CTL.CC_CTRL.RELEASE = rel ∧ (∀ k ∈ List.range 4,
        (rel.testBit k = true ∧ (s.chip.get R.CTL.CC_CTRL.RELEASE).testBit k = false →
          t.chip.cc k = { pc := s.chip.get (R.CTL.CC_VEC.ADDR k) * 4096 } ∧ t.chip.ccSecure k = true ∧ (t.chip.get R.CTL.CC_STAT.RUNNING).testBit k = true) ∧
        (rel.testBit k = false ∧ (s.chip.get R.CTL.CC_CTRL.RELEASE).testBit k = true → t.chip.cc k = {} ∧ (t.chip.get R.CTL.CC_STAT.RUNNING).testBit k = false) ∧
        (rel.testBit k = (s.chip.get R.CTL.CC_CTRL.RELEASE).testBit k → t.chip.cc k = s.chip.cc k ∧ t.chip.ccSecure k = s.chip.ccSecure k)) ∧
      Only [.rf, .ctl, .ptb] [R.CTL.CC_CTRL.RELEASE, R.CTL.CC_STAT.SECURE, R.CTL.CC_STAT.RUNNING, R.CTL.CC_STAT.HALTED] s t) ∧
  (∀ (s : State) (src : Src) (mask : Nat),
    (mask < 16 ∧ mask % 2 = 0) →
    (s.chip.get R.CTL.CC_CTRL.RELEASE < 16 ∧ s.chip.get R.CTL.CC_CTRL.RELEASE % 2 = 1) →
    Reaches s.chip src 0x040 →
    isSecure src = true →
    Completes (.ccReset src mask) s fun t =>
      (∀ k ∈ List.range 4, t.chip.cc k = if mask.testBit k = true ∧ (s.chip.get R.CTL.CC_CTRL.RELEASE).testBit k = true then { pc := s.chip.get (R.CTL.CC_VEC.ADDR k) * 4096 } else s.chip.cc k) ∧
      t.chip.get R.CTL.CC_CTRL.RELEASE = s.chip.get R.CTL.CC_CTRL.RELEASE ∧
      Only [.rf, .ctl, .ptb] [R.CTL.CC_STAT.SECURE, R.CTL.CC_STAT.RUNNING, R.CTL.CC_STAT.HALTED] s t) ∧
  (∀ (s : State) (src : Src) (cc : Bool) (f : Fld),
    Reaches s.chip src 0x032 →
    isSecure src = true →
    (f = if cc then R.SEC_FUSE.CC_ROLLBACK.COUNT else R.SEC_FUSE.ISL_ROLLBACK.COUNT) →
    s.chip.get f < 63 →
    Completes (.rollbackAdvance src cc) s fun t =>
      t.chip.get f = s.chip.get f + 1 ∧ Only [.rf] [f] s t) ∧
  (∀ (s : State) (src : Src) (cc : Bool) (f : Fld),
    Reaches s.chip src 0x032 →
    isSecure src = true →
    (f = if cc then R.SEC_FUSE.CC_ROLLBACK.COUNT else R.SEC_FUSE.ISL_ROLLBACK.COUNT) →
    s.chip.get f = 63 →
    Completes (.rollbackAdvance src cc) s fun t =>
      t.chip.get f = 63 ∧ t.chip.get (H.ERR_COUNT 0x032) = min (s.chip.get (H.ERR_COUNT 0x032) + 1) 255 ∧
      Only [.rf, .deliveries] [H.ERR_CODE 0x032, H.ERR_OFFSET 0x032, H.ERR_SOURCE 0x032, H.ERR_COUNT 0x032, H.IRQ_RAW 0x032] s t) ∧
  (∀ (s : State) (k a n pc priv : Nat) (data : List Byte) (d : Bool),
    (k < 4 ∧ priv < 4 ∧ 1 ≤ n ∧ n ≤ 8 ∧ data.length = n) →
    s.chip.ccRuns k = true →
    (sramBase ≤ a ∧ a + n ≤ sramBase + sramSize) →
    (s.chip.ccSecure k = true ∨ s.chip.get R.SEC.SRAM_WMARK.WMARK * 4096 ≤ a - sramBase) →
    Completes (.coreMemoryAccess k .store a n data pc priv d) s fun t =>
      CoreSees s.mem.sram sramBase a data s t ∧ t.chip.ctl.core = s.chip.ctl.core ∧ Only [.ctl] [] s t) ∧
  (∀ (s : State) (k a n pc priv : Nat) (data : List Byte) (d : Bool),
    (k < 4 ∧ priv < 4 ∧ 1 ≤ n ∧ n ≤ 8) →
    s.chip.ccRuns k = true →
    (sramBase ≤ a ∧ a + n ≤ sramBase + sramSize) →
    (s.chip.ccSecure k = true ∨ s.chip.get R.SEC.SRAM_WMARK.WMARK * 4096 ≤ a - sramBase) →
    (∀ l ∈ linesOf a n, s.chip.eccFlaws Ecc.SRAM (l * lineSize - sramBase) lineSize = []) →
    Completes (.coreMemoryAccess k .load a n data pc priv d) s fun t =>
      t.chip.readData = leNat ((List.range n).map fun i => coreByte s s.mem.sram sramBase (a + i)) ∧ CoreSees s.mem.sram sramBase a [] s t ∧
      t.chip.ctl.core = s.chip.ctl.core ∧ Only [.rf, .ctl, .readData] [] s t) ∧
  (∀ (s : State) (k a n pc priv : Nat) (data : List Byte) (d : Bool),
    (k < 4 ∧ priv < 4 ∧ 1 ≤ n ∧ n ≤ 8 ∧ data.length = n) →
    s.chip.ccRuns k = true →
    (dramBase ≤ a ∧ a + n ≤ dramBase + s.chip.dramUsable) →
    (s.chip.ccSecure k = true ∨ s.chip.get R.SEC.DRAM_WMARK.WMARK * 2 ^ 21 ≤ a - dramBase) →
    Completes (.coreMemoryAccess k .store a n data pc priv d) s fun t =>
      CoreSees s.mem.dram dramBase a data s t ∧ t.chip.ctl.core = s.chip.ctl.core ∧ Only [.ctl] [] s t) ∧
  (∀ (s : State) (k a n pc priv : Nat) (data : List Byte) (d : Bool),
    (k < 4 ∧ priv < 4 ∧ 1 ≤ n ∧ n ≤ 8) →
    s.chip.ccRuns k = true →
    (dramBase ≤ a ∧ a + n ≤ dramBase + s.chip.dramUsable) →
    (s.chip.ccSecure k = true ∨ s.chip.get R.SEC.DRAM_WMARK.WMARK * 2 ^ 21 ≤ a - dramBase) →
    (∀ l ∈ linesOf a n, s.chip.eccFlaws Ecc.DRAM (l * lineSize - dramBase) lineSize = []) →
    Completes (.coreMemoryAccess k .load a n data pc priv d) s fun t =>
      t.chip.readData = leNat ((List.range n).map fun i => coreByte s s.mem.dram dramBase (a + i)) ∧ CoreSees s.mem.dram dramBase a [] s t ∧
      t.chip.ctl.core = s.chip.ctl.core ∧ Only [.rf, .ctl, .readData] [] s t) ∧
  (∀ (s : State) (k a n pc priv : Nat) (op : CoreOp) (x : CacheLine) (data : List Byte) (d : Bool),
    (k < 4 ∧ priv < 4 ∧ 1 ≤ n ∧ n ≤ 8) →
    s.chip.ccRuns k = true →
    (sramBase ≤ a ∧ a + n ≤ sramBase + sramSize) →
    (s.chip.ccSecure k = true ∨ s.chip.get R.SEC.SRAM_WMARK.WMARK * 4096 ≤ a - sramBase) →
    (op = .clean ∨ op = .flush ∨ op = .evict) →
    s.chip.ctl.cache.find? (a / lineSize) = some x →
    x.dirty = true →
    Completes (.coreMemoryAccess k op a n data pc priv d) s fun t =>
      t.mem = { s.mem with sram := t.mem.sram } ∧ Stored ((a - sramBase) / lineSize * lineSize) (padTo lineSize x.bytes) s.mem.sram t.mem.sram ∧
      t.chip.ctl.core = s.chip.ctl.core ∧ t.chip.ctl.cache.find? (a / lineSize) = (if op = .clean then some { x with dirty := false } else none) ∧
      PartsBut [.rf, .ctl, .flaws] s t ∧ RegsBut [R.PTB_PERTURB.ECC_INJ.ARM] s t ∧ t.pending = s.pending) ∧
  (∀ (s : State) (k a n pc priv : Nat) (data : List Byte) (d : Bool),
    (k < 4 ∧ priv < 4 ∧ 1 ≤ n ∧ n ≤ 8) →
    s.chip.ccRuns k = true →
    (sramBase ≤ a ∧ a + n ≤ sramBase + sramSize) →
    (s.chip.ccSecure k = true ∨ s.chip.get R.SEC.SRAM_WMARK.WMARK * 4096 ≤ a - sramBase) →
    Completes (.coreMemoryAccess k .inval a n data pc priv d) s fun t =>
      t.chip.ctl = { s.chip.ctl with cache := s.chip.ctl.cache.erase (a / lineSize) } ∧ Only [.ctl] [] s t) ∧
  (∀ (s : State) (k a n pc priv : Nat) (data : List Byte) (op : CoreOp) (d : Bool),
    (k < 4 ∧ priv < 4 ∧ 1 ≤ n ∧ n ≤ 8) →
    s.chip.ccRuns k = true →
    op ≠ .evict →
    (sramBase ≤ a ∧ a + n ≤ sramBase + sramSize) →
    (s.chip.ccSecure k = false ∧ a - sramBase < s.chip.get R.SEC.SRAM_WMARK.WMARK * 4096) →
    Completes (.coreMemoryAccess k op a n data pc priv d) s fun t =>
      t.chip.get R.SEC.WMARK_FAULT.COUNT = min (s.chip.get R.SEC.WMARK_FAULT.COUNT + 1) (2 ^ 32 - 1) ∧ (t.chip.get (H.IRQ_RAW 0x030)).testBit 0 = true ∧
      t.chip.ctl.core = (s.chip.ccTrap k (if op = .load then 5 else 7) a pc priv d).ctl.core ∧ t.chip.ctl.wmLogged = true ∧ t.chip.readData = s.chip.readData ∧
      (s.chip.ctl.wmLogged = false → t.chip.get R.SEC.FAULT_ADDR_LO.ADDR = a % 2 ^ 32 ∧ t.chip.get R.SEC.FAULT_ADDR_HI.ADDR = a / 2 ^ 32 % 256 + 256 * ctlPort) ∧
      OnlyPages [.rf, .ctl, .deliveries] [0x030] s t) ∧
  (∀ (s : State) (a n pc priv : Nat) (data : List Byte) (d : Bool),
    (priv < 4 ∧ 1 ≤ n ∧ n ≤ 8 ∧ data.length = n) →
    (s.chip.islandRuns = true ∧ s.chip.pdOn PD.SAFE = true) →
    a + n ≤ islSize →
    Completes (.coreMemoryAccess 4 .store a n data pc priv d) s fun t =>
      t.mem = { s.mem with isl := t.mem.isl } ∧ Stored a data s.mem.isl t.mem.isl ∧ PartsBut [.rf, .flaws] s t ∧ RegsBut [R.PTB_PERTURB.ECC_INJ.ARM] s t ∧ t.pending = s.pending) ∧
  (∀ (s : State) (a n pc priv : Nat) (data : List Byte) (d : Bool),
    (priv < 4 ∧ 1 ≤ n ∧ n ≤ 8) →
    (s.chip.islandRuns = true ∧ s.chip.pdOn PD.SAFE = true) →
    a + n ≤ islSize →
    s.chip.eccFlaws Ecc.ISL a n = [] →
    Completes (.coreMemoryAccess 4 .load a n data pc priv d) s fun t =>
      t.chip.readData = Memory.readNat s.mem.isl a n ∧ Only [.rf, .flaws, .readData] [] s t) ∧
  (∀ (s : State) (k : Nat),
    k < 4 →
    s.chip.mode = Mode.SERVICE →
    (s.chip.get R.CTL.CC_STAT.RUNNING).testBit k = true →
    Completes (.debugHalt k true) s fun t =>
      (t.chip.get R.CTL.CC_STAT.RUNNING).testBit k = false ∧ (t.chip.get R.CTL.CC_STAT.HALTED).testBit k = true ∧
      Only [.rf, .ptb] [R.CTL.CC_STAT.RUNNING, R.CTL.CC_STAT.HALTED] s t)

/-- A failed authentication is reported as E_KEY (R285). -/
def Obligations.AuthenticationFailureIsReported : Prop :=
  (∀ (s : State) (src : Src),
    isSecure src = true →
    Reaches s.chip src 0x030 →
    Completes (.authFail src) s fun t =>
      t.chip.get R.SYS_MODE.MODE_STAT.LAST_ERR = E.KEY ∧ (t.chip.get (H.IRQ_RAW 0x001)).testBit 1 = true ∧ Recorded 0x0404 s t ∧
      Only [.rf, .deliveries, .csk] [R.SYS_MODE.MODE_STAT.LAST_ERR, R.SYS_MODE.REJECT_CNT.COUNT, H.IRQ_RAW 0x001] s t)

/-- Entries of the touch rings (R293, R295, R296, R298, R300). -/
def Obligations.TouchRingEntries : Prop :=
  (∀ (s : State) (r : Nat) (e : Issued),
    r < 64 →
    s.chip.freshEntry r 5 0 = some e →
    zeroAt e.bytes 0x10 48 = true →
    Completes (.tchNop r) s fun t =>
      EntryEnds r e.seq E.NONE [] s t ∧ Only [.imx] [] s t) ∧
  (∀ (s : State) (r n : Nat) (e : Issued),
    r < 64 →
    s.chip.freshEntry r 5 1 = some e →
    (n = fieldAt e.bytes 0x10 1 ∧ n < 4) →
    (fieldAt e.bytes 0x11 1 = 0 ∧ zeroAt e.bytes 0x12 46 = true) →
    s.chip.tchOwns (s.chip.ringOwn r) n = true →
    s.chip.tchPartner n = false →
    Completes (.subscribe r) s fun t =>
      t.chip.get (R.TCH_ST.SUBSCR.NONE n) = 0 ∧ t.chip.get (R.TCH_ST.SUBSCR.RING n) = r ∧ t.chip.tch1 n = { s.chip.tch1 n with resync := true } ∧
      (∀ k ∈ List.range 4, k ≠ n → t.chip.tch1 k = s.chip.tch1 k) ∧ EntryEnds r e.seq E.NONE [] s t ∧ OnlyPages [.rf, .tch, .imx] [0x1A9 + 2 * n] s t) ∧
  (∀ (s : State) (r n : Nat) (e : Issued),
    r < 64 →
    s.chip.freshEntry r 5 1 = some e →
    (n = fieldAt e.bytes 0x10 1 ∧ n < 4) →
    (fieldAt e.bytes 0x11 1 = 1 ∧ zeroAt e.bytes 0x12 46 = true) →
    s.chip.tchOwns (s.chip.ringOwn r) n = true →
    s.chip.tchPartner n = false →
    Completes (.subscribe r) s fun t =>
      (if s.chip.get (R.TCH_ST.SUBSCR.NONE n) = 0 ∧ s.chip.get (R.TCH_ST.SUBSCR.RING n) = r
        then t.chip.get (R.TCH_ST.SUBSCR.NONE n) = 1 ∧ t.chip.get (R.TCH_ST.SUBSCR.RING n) = 0 else t.chip.rf = s.chip.rf) ∧
      EntryEnds r e.seq E.NONE [] s t ∧ Only [.rf, .imx] [R.TCH_ST.SUBSCR.NONE n, R.TCH_ST.SUBSCR.RING n] s t) ∧
  (∀ (s : State) (r n : Nat) (e : Issued),
    r < 64 →
    s.chip.freshEntry r 5 1 = some e →
    (n = fieldAt e.bytes 0x10 1 ∧ n < 4) →
    (fieldAt e.bytes 0x11 1 < 2 ∧ zeroAt e.bytes 0x12 46 = true) →
    s.chip.tchOwns (s.chip.ringOwn r) n = false →
    Completes (.subscribe r) s fun t =>
      EntryEnds r e.seq E.OWNER [] s t ∧ Only [.imx] [] s t) ∧
  (∀ (s : State) (r n a size : Nat) (e : Issued) (b : TchRef),
    r < 64 →
    s.chip.freshEntry r 5 2 = some e →
    (n = fieldAt e.bytes 0x10 1 ∧ n < 4) →
    (zeroAt e.bytes 0x11 7 = true ∧ zeroAt e.bytes 0x20 32 = true) →
    s.chip.tchOwns (s.chip.ringOwn r) n = true →
    s.chip.tchPartner n = false →
    a = fieldAt e.bytes 0x18 8 →
    size = 16 + s.chip.tchNd n * 72 + (s.chip.tchNd n + 36) * 2 →
    s.chip.dmaSide (s.chip.ringOwn r) 0 a 0 size 1 = true →
    Readable s a size →
    refBlock s.mem.dram a (s.chip.tchNd n) = some b →
    Completes (.loadRef r) s fun t =>
      t.chip.tch1 n = { s.chip.tch1 n with ref := some b } ∧ (∀ k ∈ List.range 4, k ≠ n → t.chip.tch1 k = s.chip.tch1 k) ∧
      (t.chip.get (H.IRQ_RAW (0x1A9 + 2 * n))).testBit 6 = true ∧ EntryEnds r e.seq E.NONE [] s t ∧
      OnlyPages [.rf, .deliveries, .tch, .imx] [0x160, 0x161, 0x1A9 + 2 * n] s t) ∧
  (∀ (s : State) (r n a size : Nat) (e : Issued),
    r < 64 →
    s.chip.freshEntry r 5 2 = some e →
    (n = fieldAt e.bytes 0x10 1 ∧ n < 4) →
    (zeroAt e.bytes 0x11 7 = true ∧ zeroAt e.bytes 0x20 32 = true) →
    s.chip.tchOwns (s.chip.ringOwn r) n = true →
    s.chip.tchPartner n = false →
    a = fieldAt e.bytes 0x18 8 →
    size = 16 + s.chip.tchNd n * 72 + (s.chip.tchNd n + 36) * 2 →
    s.chip.dmaSide (s.chip.ringOwn r) 0 a 0 size 1 = true →
    Readable s a size →
    refBlock s.mem.dram a (s.chip.tchNd n) = none →
    Completes (.loadRef r) s fun t =>
      t.chip.tch = s.chip.tch ∧ EntryEnds r e.seq 0x25 [] s t ∧ OnlyPages [.rf, .deliveries, .imx] [0x160, 0x161] s t) ∧
  (∀ (s : State) (r n : Nat) (e : Issued),
    r < 64 →
    s.chip.freshEntry r 5 3 = some e →
    (n = fieldAt e.bytes 0x10 1 ∧ n < 4) →
    zeroAt e.bytes 0x11 47 = true →
    s.chip.tchOwns (s.chip.ringOwn r) n = true →
    s.chip.tchPartner n = false →
    Completes (.recal r) s fun t =>
      (t.chip.tch1 n).recals = (s.chip.tch1 n).recals ++ [(r, e.seq)] ∧ EntryTaken r e.seq s t ∧
      (if (s.chip.tch1 n).phase = 2 ∨ (s.chip.tch1 n).phase = 3
        then (t.chip.tch1 n).phase = 2 ∧ (t.chip.tch1 n).settled = 0 ∧ (t.chip.tch1 n).contacts = (s.chip.tch1 n).contacts ∧ (t.chip.tch1 n).measuring = false
        else t.chip.tch1 n = { s.chip.tch1 n with recals := (s.chip.tch1 n).recals ++ [(r, e.seq)] }) ∧
      OnlyPages [.rf, .tch, .imx] [0x1A9 + 2 * n] s t) ∧
  (∀ (s : State) (r n : Nat) (e : Issued),
    r < 64 →
    s.chip.freshEntry r 5 4 = some e →
    (n = fieldAt e.bytes 0x10 1 ∧ n < 4) →
    zeroAt e.bytes 0x11 47 = true →
    s.chip.tchOwns (s.chip.ringOwn r) n = true →
    s.chip.tchPartner n = false →
    Completes (.tchSelfTest r) s fun t =>
      (t.chip.tch1 n).tests = (s.chip.tch1 n).tests ++ [(r, e.seq)] ∧ (t.chip.tch1 n).phase = 1 ∧ EntryTaken r e.seq s t ∧
      (if (s.chip.tch1 n).phase = 1 then (t.chip.tch1 n).contacts = (s.chip.tch1 n).contacts else (t.chip.tch1 n).contacts = [] ∧ (t.chip.tch1 n).measuring = false) ∧
      OnlyPages [.rf, .tch, .imx, .lnk] [0x150, 0x1A9 + 2 * n] s t) ∧
  (∀ (s : State) (r n a size : Nat) (e : Issued),
    r < 64 →
    s.chip.freshEntry r 5 5 = some e →
    (n = fieldAt e.bytes 0x10 1 ∧ n < 4) →
    (fieldAt e.bytes 0x11 1 < 3 ∧ zeroAt e.bytes 0x12 6 = true ∧ zeroAt e.bytes 0x20 32 = true) →
    s.chip.tchOwns (s.chip.ringOwn r) n = true →
    s.chip.tchPartner n = false →
    a = fieldAt e.bytes 0x18 8 →
    size = s.chip.tchNd n * 72 + (s.chip.tchNd n + 36) * 2 →
    s.chip.dmaSide (s.chip.ringOwn r) 0 a 0 size 1 = true →
    Completes (.raw r) s fun t =>
      t.chip.tch1 n = { s.chip.tch1 n with raws := (s.chip.tch1 n).raws ++ [{ ring := r, seq := e.seq, kind := fieldAt e.bytes 0x11 1, addr := a }] } ∧
      (∀ k ∈ List.range 4, k ≠ n → t.chip.tch1 k = s.chip.tch1 k) ∧ EntryTaken r e.seq s t ∧ OnlyPages [.rf, .tch, .imx] [0x1A9 + 2 * n] s t)

/-- Scan frames, stuck contacts, current limits and self-tests of the touch front ends (R290, R291, R293, R294, R300, R362). -/
def Obligations.TouchFramesAndSelfTests : Prop :=
  (∀ (s : State) (n : Nat),
    n < 4 →
    s.chip.scanReady n = true →
    Completes (.scanFrameStart n) s fun t =>
      t.chip.tch1 n = { s.chip.tch1 n with measuring := true, startAt := some s.chip.ps, done := 0, runAt := s.chip.ps } ∧ (∀ k ∈ List.range 4, k ≠ n → t.chip.tch1 k = s.chip.tch1 k) ∧
      OnlyPages [.rf, .tch] [0x1A9 + 2 * n] s t) ∧
  (∀ (s : State) (n : Nat) (nodes lines : List Nat),
    n < 4 →
    ((s.chip.tch1 n).measuring = true ∧ (s.chip.tch1 n).phase = 2 ∧ (s.chip.tch1 n).raws = []) →
    s.chip.tchM n * 1000000 ≤ s.chip.tchDone n →
    (s.chip.tch1 n).settled < 3 ∧ ((s.chip.tch1 n).settled = 0 → (s.chip.tch1 n).contacts = []) →
    Completes (.scanFrameEnd n nodes lines) s fun t =>
      t.chip.get (R.TCH_ST.SCAN_FRAME.COUNT n) = (s.chip.get (R.TCH_ST.SCAN_FRAME.COUNT n) + 1) % 2 ^ 32 ∧
      t.chip.get (R.TCH_ST.FRAMES.COUNT n) = min (s.chip.get (R.TCH_ST.FRAMES.COUNT n) + 1) (2 ^ 32 - 1) ∧
      t.chip.tch1 n = { s.chip.tch1 n with measuring := false, settled := (s.chip.tch1 n).settled + 1, sumM := addLists (s.chip.tch1 n).sumM (s.chip.tchRaw n nodes), sumS := addLists (s.chip.tch1 n).sumS (padNat (s.chip.tchNd n + 36) (lines.map fun v => min v 0xFFFF)) } ∧
      OnlyPages [.rf, .tch] [0x1A9 + 2 * n] s t) ∧
  (∀ (s : State) (n : Nat) (nodes lines : List Nat),
    n < 4 →
    ((s.chip.tch1 n).measuring = true ∧ (s.chip.tch1 n).phase = 2 ∧ (s.chip.tch1 n).raws = []) →
    s.chip.tchM n * 1000000 ≤ s.chip.tchDone n →
    (s.chip.tch1 n).settled = 0 →
    Completes (.scanFrameEnd n nodes lines) s fun t =>
      (t.chip.tch1 n).contacts = [] ∧ (t.chip.tch1 n).settled = 1 ∧ (t.chip.tch1 n).measuring = false ∧
      t.chip.get (R.TCH_ST.FRAMES.COUNT n) = min (s.chip.get (R.TCH_ST.FRAMES.COUNT n) + 1) (2 ^ 32 - 1) ∧
      (∀ k ∈ List.range 4, k ≠ n → t.chip.tch1 k = s.chip.tch1 k) ∧ OnlyPages [.rf, .deliveries, .tch, .imx, .lnk] [0x150, 0x1A9 + 2 * n] s t) ∧
  (∀ (s : State) (n : Nat) (nodes lines : List Nat),
    n < 4 →
    ((s.chip.tch1 n).measuring = true ∧ (s.chip.tch1 n).phase = 3 ∧ (s.chip.tch1 n).raws = []) →
    s.chip.tchM n * 1000000 ≤ s.chip.tchDone n →
    s.chip.tchNd n = 56 →
    ((s.chip.tch1 n).contacts = [] ∧ (s.chip.tch1 n).ref = none ∧ (s.chip.tch1 n).resync = false) →
    ((s.chip.tchRaw n nodes).map Int.ofNat = (s.chip.tch1 n).baseM ∧ s.chip.tchSelf n = false) →
    (1 ≤ s.chip.get (R.TCH_CFG.THRESH.RELEASE_TH n) ∧ 1 ≤ s.chip.get (R.TCH_CFG.THRESH2.NEG_TH n) ∧ s.chip.mode = Mode.RUN) →
    s.chip.imx.resync = [] →
    Completes (.scanFrameEnd n nodes lines) s fun t =>
      t.chip.get (R.TCH_ST.SCAN_FRAME.COUNT n) = (s.chip.get (R.TCH_ST.SCAN_FRAME.COUNT n) + 1) % 2 ^ 32 ∧
      t.chip.get (R.TCH_ST.FRAMES.COUNT n) = min (s.chip.get (R.TCH_ST.FRAMES.COUNT n) + 1) (2 ^ 32 - 1) ∧
      (t.chip.tch1 n).measuring = false ∧ (t.chip.tch1 n).contacts = [] ∧ (t.chip.tch1 n).baseM = (s.chip.tch1 n).baseM ∧ t.chip.get (R.TCH_ST.TF_STAT.WATER n) = 0 ∧
      (t.chip.tch1 n).lastEnd = s.chip.ps ∧ t.chip.imx = s.chip.imx ∧ t.chip.lnk = s.chip.lnk ∧ t.mem = s.mem ∧ t.pending = s.pending) ∧
  (∀ (s : State) (n k : Nat) (x : Contact),
    n < 4 →
    (s.chip.tch1 n).contacts.find? k = some x →
    x.stuck = false →
    s.chip.get (R.TCH_CFG.BASE_CFG.HOLD_S n) ≠ 0 →
    s.chip.since x.since (s.chip.get (R.TCH_CFG.BASE_CFG.HOLD_S n) * 1000) = true →
    Completes (.stuckTouch n k) s fun t =>
      (t.chip.tch1 n) = { s.chip.tch1 n with contacts := SMap.insert (s.chip.tch1 n).contacts k { x with stuck := true } } ∧
      t.chip.get (R.TCH_ST.STUCK_CNT.COUNT n) = min (s.chip.get (R.TCH_ST.STUCK_CNT.COUNT n) + 1) (2 ^ 32 - 1) ∧
      (t.chip.get (H.IRQ_RAW (0x1A9 + 2 * n))).testBit 3 = true ∧ Recorded 0x1301 s t ∧
      OnlyPages [.rf, .deliveries, .tch, .imx, .lnk, .csk] [0x150, 0x1A9 + 2 * n] s t) ∧
  (∀ (s : State) (n line m : Nat),
    (n < 4 ∧ line < 56) →
    (m = if s.chip.tchPartner n then n - 1 else n) →
    ((s.chip.tch1 m).phase = 2 ∨ (s.chip.tch1 m).phase = 3) →
    Completes (.touchCurrentLimit n line) s fun t =>
      (t.chip.get (R.TCH_ST.FAULT_MAP.LINES n (line / 32))).testBit (line % 32) = true ∧
      t.chip.get (R.TCH_ST.TEST_RESULT.FOUND n) = (s.chip.get (R.TCH_ST.TEST_RESULT.FOUND n) ||| 1) ∧
      (t.chip.tch1 m).phase = 1 ∧ (t.chip.tch1 m).measuring = false ∧ (t.chip.tch1 m).contacts = [] ∧
      OnlyPages [.rf, .tch, .imx, .lnk] [0x150, 0x1A9 + 2 * n, 0x1A9 + 2 * m] s t) ∧
  (∀ (s : State) (n : Nat) (levels : List Int) (pairs : List (Nat × Nat)) (opn self : List Nat),
    n < 4 →
    (s.chip.tch1 n).phase = 1 →
    s.chip.tchLead n = false →
    Completes (.selfTestDone n levels pairs opn self) s fun t =>
      (t.chip.get (R.TCH_ST.TEST_RESULT.FOUND n)).testBit 0 = ((List.range 92).any fun k => match levels[k]? with | some v => decide (-300 ≤ v) && decide (v < 300) | none => false) ∧
      (t.chip.get (R.TCH_ST.TEST_RESULT.FOUND n)).testBit 1 = ((List.range 92).any fun k => match levels[k]? with | some v => decide (v < -300) || decide (3000 < v) | none => false) ∧
      (t.chip.get (R.TCH_ST.TEST_RESULT.FOUND n)).testBit 2 = ((List.range 92).any fun k => pairs.any fun p => p.1 == k || p.2 == k) ∧
      (t.chip.get (R.TCH_ST.TEST_RESULT.FOUND n)).testBit 5 = !s.chip.tchRefOk n ∧
      (t.chip.get (H.IRQ_RAW (0x1A9 + 2 * n))).testBit 0 = true ∧ (t.chip.tch1 n).tests = [] ∧ t.mem = s.mem ∧ t.pending = s.pending) ∧
  (∀ (s : State) (n r q : Nat) (levels : List Int) (pairs : List (Nat × Nat)) (opn self : List Nat),
    (n < 4 ∧ r < 64) →
    ((s.chip.tch1 n).phase = 1 ∧ (s.chip.tch1 n).tests = [(r, q)] ∧ (s.chip.tch1 n).ref = none) →
    s.chip.tchLead n = false →
    s.chip.get (H.ENABLE (0x1A8 + 2 * n)) = 0 →
    ((levels.all fun v => decide (300 ≤ v) && decide (v ≤ 3000)) = true ∧ pairs = []) →
    Completes (.selfTestDone n levels pairs opn self) s fun t =>
      t.chip.get (R.TCH_ST.TEST_RESULT.FOUND n) = 32 ∧ t.chip.get (R.TCH_ST.TEST_RESULT.LINES n) = 0 ∧ (∀ i ∈ List.range 3, t.chip.get (R.TCH_ST.FAULT_MAP.LINES n i) = 0) ∧
      t.chip.get (R.TCH_ST.TF_STAT.UNCHECKED n) = 1 ∧ t.chip.tch1 n = { s.chip.tch1 n with phase := 0, faulty := [], dead := [], tests := [] } ∧
      EntryEnds r q E.NONE (leBytes 4 32) s t ∧ OnlyPages [.rf, .deliveries, .tch, .imx] [0x1A9 + 2 * n] s t)

/-- Entries of the haptic rings and the island's trigger (R304, R306, R307, R308, R309, R311, R314). -/
def Obligations.HapticRingEntries : Prop :=
  (∀ (s : State) (r : Nat) (e : Issued),
    r < 64 →
    s.chip.freshEntry r 4 0 = some e →
    zeroAt e.bytes 0x10 48 = true →
    Completes (.hapNop r) s fun t =>
      EntryEnds r e.seq E.NONE [] s t ∧ Only [.imx] [] s t) ∧
  (∀ (s : State) (r k eff delay : Nat) (e : Issued) (g : HapTrig) (b : List Byte),
    (r < 64 ∧ k < 8) →
    s.chip.freshEntry r 4 1 = some e →
    s.chip.playCheck r e.bytes = none →
    fieldAt e.bytes 0x12 1 = 1 <<< k →
    (eff = fieldAt e.bytes 0x10 1 ∧ s.chip.hapImage eff = some b) →
    delay = fieldAt e.bytes (0x14 + 2 * k) 1 →
    g = { effect := eff, prio := fieldAt e.bytes 0x11 1 % 4, gain := fieldAt e.bytes (0x15 + 2 * k) 1, ref := some (r, e.seq) } →
    g.gain ≠ 0 →
    s.chip.hapFaulted k = false →
    ((s.chip.hch k).play = none ∧ (s.chip.hch k).testing = false) →
    ((s.chip.hap.tests.all fun y => y.1 != k) = true) →
    ((s.chip.hap.plays.all fun p => p.waiting != 0) = true) →
    s.chip.hapBudget k g b = true →
    Completes (.play r) s fun t =>
      t.chip.hch k = { s.chip.hch k with play := some (if delay = 0 then { trig := g, stage := if Img.od b = 0 then 2 else 1, at_ := s.chip.ps } else { trig := g, stage := 0, due := s.chip.ps + delay * 1000000 }) } ∧
      (∀ j ∈ List.range 8, j ≠ k → t.chip.hch j = s.chip.hch j) ∧ t.chip.hap.plays = s.chip.hap.plays ++ [{ ring := r, seq := e.seq, waiting := 1 <<< k }] ∧
      t.chip.get (R.HAP_CH.CH_STAT.EFFECT k) = eff ∧ EntryTaken r e.seq s t ∧ OnlyPages [.rf, .hap, .imx] [0x1A0, 0x1A1] s t) ∧
  (∀ (s : State) (r code : Nat) (e : Issued),
    r < 64 →
    s.chip.freshEntry r 4 1 = some e →
    s.chip.playCheck r e.bytes = some code →
    Completes (.play r) s fun t =>
      EntryEnds r e.seq code [] s t ∧
      t.chip.get R.HAP.EFF_ERR.COUNT = (if code = 0x26 then min (s.chip.get R.HAP.EFF_ERR.COUNT + 1) (2 ^ 32 - 1) else s.chip.get R.HAP.EFF_ERR.COUNT) ∧
      Only [.rf, .imx] [R.HAP.EFF_ERR.COUNT] s t) ∧
  (∀ (s : State) (r k : Nat) (e : Issued) (p : HapCopy),
    (r < 64 ∧ k < 8) →
    s.chip.freshEntry r 4 2 = some e →
    (fieldAt e.bytes 0x10 1 = 1 <<< k ∧ zeroAt e.bytes 0x11 47 = true) →
    s.chip.hapOwns (s.chip.ringOwn r) (1 <<< k) = true →
    ((s.chip.hch k).play = some p ∧ p.stage ≠ 0) →
    (s.chip.hch k).pend = none →
    Completes (.hapStop r) s fun t =>
      t.chip.hch k = { s.chip.hch k with play := some { p with toBrake := true } } ∧ (∀ j ∈ List.range 8, j ≠ k → t.chip.hch j = s.chip.hch j) ∧
      EntryEnds r e.seq E.NONE [] s t ∧ OnlyPages [.rf, .hap, .imx] [0x1A0, 0x1A1] s t) ∧
  (∀ (s : State) (r slot a n : Nat) (e : Issued) (img : List Byte),
    r < 64 →
    s.chip.freshEntry r 4 3 = some e →
    (zeroAt e.bytes 0x11 7 = true ∧ zeroAt e.bytes 0x20 32 = true) →
    16 ≤ s.chip.ringOwn r →
    (slot = fieldAt e.bytes 0x10 1 ∧ slot < 16) →
    a = fieldAt e.bytes 0x18 8 →
    n = 16 + Img.bodyLen (Memory.readBytes s.mem.dram a 16) →
    img = Memory.readBytes s.mem.dram a n →
    s.chip.dmaSide (s.chip.ringOwn r) 0 a 0 n 1 = true →
    Readable s a n →
    Img.ok img = true →
    Completes (.loadEffect r) s fun t =>
      (t.chip.hap.shadow.find? slot).map (fun x => x.image) = some img ∧ ((t.chip.hap.shadow.find? slot).map fun x => x.refs.getLast?) = some (some (r, e.seq)) ∧
      t.chip.hap = { s.chip.hap with shadow := t.chip.hap.shadow } ∧ EntryTaken r e.seq s t ∧ OnlyPages [.rf, .deliveries, .hap, .imx] [0x160, 0x161] s t) ∧
  (∀ (s : State) (slot r q : Nat) (x : HapShadow),
    (slot < 16 ∧ r < 64) →
    s.chip.hap.shadow.find? slot = some x →
    x.refs = [(r, q)] →
    s.chip.hapInUse (128 + slot) = false →
    Completes (.effectSlotSwap slot) s fun t =>
      t.chip.hapImage (128 + slot) = some x.image ∧ t.chip.hap.shadow.find? slot = none ∧ EntryEnds r q E.NONE [] s t ∧
      t.chip.hap = { s.chip.hap with shadow := t.chip.hap.shadow, ram := t.chip.hap.ram } ∧
      (∀ j ∈ List.range 16, j ≠ slot → t.chip.hap.ram.find? j = s.chip.hap.ram.find? j) ∧ Only [.hap, .imx] [] s t) ∧
  (∀ (s : State) (r k : Nat) (e : Issued),
    (r < 64 ∧ k < 8) →
    s.chip.freshEntry r 4 4 = some e →
    (fieldAt e.bytes 0x10 1 = 1 <<< k ∧ zeroAt e.bytes 0x11 47 = true) →
    s.chip.hapOwns (s.chip.ringOwn r) (1 <<< k) = true →
    s.chip.hap.tests = [] →
    ((s.chip.hch k).play = none ∧ (s.chip.hch k).testing = false ∧ (s.chip.hch k).pend = none) →
    (s.chip.get R.HAP.HAP_STAT.HOLD = 0 ∧ s.chip.blockStarted 0x12 = true) →
    Completes (.hapTest r) s fun t =>
      t.chip.hch k = { s.chip.hch k with testing := true } ∧ (∀ j ∈ List.range 8, j ≠ k → t.chip.hch j = s.chip.hch j) ∧
      t.chip.hap.tests = [(k, some (r, e.seq))] ∧ t.chip.get (R.HAP_CH.CH_STAT.STATE k) = 6 ∧ EntryTaken r e.seq s t ∧
      OnlyPages [.rf, .hap, .imx] [0x1A0, 0x1A1] s t) ∧
  (∀ (s : State) (r eff a : Nat) (e : Issued) (img : List Byte),
    r < 64 →
    s.chip.freshEntry r 4 5 = some e →
    (zeroAt e.bytes 0x11 7 = true ∧ zeroAt e.bytes 0x20 32 = true) →
    (eff = fieldAt e.bytes 0x10 1 ∧ eff < 144 ∧ s.chip.hapImage eff = some img) →
    a = fieldAt e.bytes 0x18 8 →
    s.chip.dmaSide (s.chip.ringOwn r) 0 a 0 img.length 1 = true →
    Completes (.readEffect r) s fun t =>
      t.mem = { s.mem with dram := t.mem.dram } ∧ Stored a img s.mem.dram t.mem.dram ∧ EntryEnds r e.seq E.NONE [] s t ∧ t.pending = s.pending ∧
      PartsBut [.rf, .imx, .flaws] s t ∧ RegsBut [R.PTB_PERTURB.ECC_INJ.ARM] s t) ∧
  (∀ (s : State) (k eff : Nat) (data : Word) (b : List Byte),
    (k < 8 ∧ eff < 144) →
    data.toNat % 2 ^ 31 = eff + 256 * 1 <<< k →
    Reaches s.chip .island 0x1A0 →
    s.chip.hapImage eff = some b →
    s.chip.hapFaulted k = false →
    ((s.chip.hch k).play = none ∧ (s.chip.hch k).testing = false) →
    ((s.chip.hap.tests.all fun y => y.1 != k) = true) →
    (s.chip.get (R.HAP_CH.CH_CFG.EN k) = 1 ∧ s.chip.get R.HAP.HAP_STAT.HOLD = 0) →
    Completes (.islPlay .island data) s fun t =>
      t.chip.get R.HAP.ISL_PLAYS.COUNT = min (s.chip.get R.HAP.ISL_PLAYS.COUNT + 1) (2 ^ 32 - 1) ∧
      t.chip.hch k = { s.chip.hch k with play := some { trig := { effect := eff, prio := 4, gain := 255 }, stage := if Img.od b = 0 then 2 else 1, at_ := s.chip.ps } } ∧
      (∀ j ∈ List.range 8, j ≠ k → t.chip.hch j = s.chip.hch j) ∧ OnlyPages [.rf, .hap] [0x1A0, 0x1A1] s t)

/-- Drive, heat, tests and faults of the haptic channels (R305, R306, R307, R309, R310, R313, R314). -/
def Obligations.HapticDriveTestsAndFaults : Prop :=
  (∀ (s : State) (k : Nat) (p : HapCopy) (b : List Byte),
    k < 8 →
    ((s.chip.hch k).play = some p ∧ p.stage = 0 ∧ p.due ≤ s.chip.ps) →
    s.chip.hapImage p.trig.effect = some b →
    Completes (.actuatorDelayExpiry k) s fun t =>
      t.chip.hch k = { s.chip.hch k with play := some { trig := p.trig, stage := if Img.od b = 0 then 2 else 1, at_ := s.chip.ps } } ∧
      (∀ j ∈ List.range 8, j ≠ k → t.chip.hch j = s.chip.hch j) ∧ OnlyPages [.rf, .hap] [0x1A0, 0x1A1] s t) ∧
  (∀ (s : State) (k : Nat) (p : HapCopy) (b : List Byte),
    k < 8 →
    ((s.chip.hch k).play = some p ∧ p.stage ≠ 0 ∧ p.toTest = false) →
    (s.chip.hapImage p.trig.effect = some b ∧ p.nextAt b ≤ s.chip.ps) →
    (s.chip.hch k).pend = none →
    Completes (.halfCycleBoundary k) s fun t =>
      (t.chip.hch k).play = ((p.next b).map fun q => { q with at_ := p.nextAt b }) ∧ (t.chip.hch k).pend = none ∧ (t.chip.hch k).vtStep = (s.chip.hch k).vtStep + (s.chip.hapSpan k p b).2 ∧
      t.chip.get (R.HAP_CH.PLAYED.COUNT k) = (if p.next b = none then min (s.chip.get (R.HAP_CH.PLAYED.COUNT k) + 1) (2 ^ 32 - 1) else s.chip.get (R.HAP_CH.PLAYED.COUNT k)) ∧
      (∀ j ∈ List.range 8, j ≠ k → t.chip.hch j = s.chip.hch j) ∧ OnlyPages [.rf, .hap, .imx] [0x1A0, 0x1A1] s t) ∧
  (∀ (s : State) (k : Nat) (p : HapCopy) (b b2 : List Byte) (g : HapTrig),
    k < 8 →
    ((s.chip.hch k).play = some p ∧ p.stage ≠ 0 ∧ p.toTest = false ∧ p.trig.prio < 4) →
    (s.chip.hapImage p.trig.effect = some b ∧ (p.next b).isSome = true ∧ p.nextAt b ≤ s.chip.ps) →
    ((s.chip.hch k).pend = some g ∧ g.prio = 4) →
    s.chip.hapImage g.effect = some b2 →
    Completes (.halfCycleBoundary k) s fun t =>
      (t.chip.hch k).play = some { trig := g, stage := if Img.od b2 = 0 then 2 else 1, pol := !p.drove b, at_ := s.chip.ps } ∧ (t.chip.hch k).pend = none ∧
      (t.chip.hch k).vtStep = (s.chip.hch k).vtStep + (s.chip.hapSpan k p b).2 ∧
      t.chip.get (R.HAP_CH.CUT.COUNT k) = min (s.chip.get (R.HAP_CH.CUT.COUNT k) + 1) (2 ^ 32 - 1) ∧
      (∀ j ∈ List.range 8, j ≠ k → t.chip.hch j = s.chip.hch j) ∧ OnlyPages [.rf, .hap, .imx] [0x1A0, 0x1A1] s t) ∧
  (∀ (s : State),
    Completes (.hapThermalStep) s fun t =>
      (∀ k ∈ List.range 8, t.chip.hch k = { s.chip.hch k with vtStep := 0, dT := (s.chip.hch k).dT + s.chip.get R.HAP.THERM.HEAT_K * (s.chip.hch k).vtStep / 1024 - (s.chip.hch k).dT / (100 * s.chip.get R.HAP.THERM.TAU_S) }) ∧
      OnlyPages [.rf, .deliveries, .hap] [0x003, 0x1A0, 0x1A1] s t) ∧
  (∀ (s : State) (v w : Nat),
    (w = ((List.range 8).map fun k => (s.chip.hch k).dT + s.chip.get R.HAP.THERM.HEAT_K * (s.chip.hch k).vtStep / 1024 - (s.chip.hch k).dT / (100 * s.chip.get R.HAP.THERM.TAU_S)).foldl max 0) →
    s.chip.get R.HAP.THERM.TH_LIMIT * 1000000000 < w →
    (v = s.chip.loop 5 ∧ v ≤ 256) →
    (s.chip.get (R.SYS_POLICY.STAT.PROTECT 5) = 0 ∧ s.chip.pow.recover.contains 5 = false) →
    (s.chip.get (R.SYS_POLICY.BOUNDS.FLOOR 5) + 8 ≤ v ∧ v ≤ s.chip.get (R.SYS_POLICY.BOUNDS.CEIL 5)) →
    Completes (.hapThermalStep) s fun t =>
      t.chip.loop 5 = v - 8 ∧ (t.chip.get (H.IRQ_RAW 0x1A0)).testBit 3 = true ∧ OnlyPages [.rf, .deliveries, .hap] [0x003, 0x1A0, 0x1A1] s t) ∧
  (∀ (s : State) (k : Nat) (high : Bool),
    k < 8 →
    (s.chip.hch k).testing = false →
    Completes (.actuatorOvercurrent k high) s fun t =>
      t.chip.get (R.HAP_CH.CH_STAT.FAULT k) = (s.chip.get (R.HAP_CH.CH_STAT.FAULT k) ||| (if high then 1 else 2)) ∧ t.chip.get (R.HAP_CH.CH_STAT.STATE k) = 7 ∧
      t.chip.hch k = { s.chip.hch k with play := none, pend := none } ∧ (∀ j ∈ List.range 8, j ≠ k → t.chip.hch j = s.chip.hch j) ∧
      (t.chip.get (H.IRQ_RAW 0x1A0)).testBit 0 = true ∧ Recorded 0x1202 s t ∧ OnlyPages [.rf, .deliveries, .hap, .imx, .csk] [0x1A0, 0x1A1] s t) ∧
  (∀ (s : State) (volts : Nat),
    (s.chip.get R.HAP.BOOST.EN = 1 ∧ s.chip.hap.railOff = false) →
    (9 * s.chip.hapRail ≤ 10 * volts ∧ 10 * volts ≤ 11 * s.chip.hapRail) →
    volts < 128 →
    Completes (.boostRailCheck volts) s fun t =>
      t.chip.get R.HAP.HAP_STAT.RAIL = volts ∧ Only [.rf] [R.HAP.HAP_STAT.RAIL] s t) ∧
  (∀ (s : State) (volts : Nat),
    (s.chip.get R.HAP.BOOST.EN = 1 ∧ s.chip.hap.railOff = false) →
    (10 * volts < 9 * s.chip.hapRail ∨ 11 * s.chip.hapRail < 10 * volts) →
    Completes (.boostRailCheck volts) s fun t =>
      t.chip.get R.HAP.HAP_STAT.RAIL = 0 ∧ t.chip.hap.railOff = true ∧
      (∀ k ∈ List.range 8, if s.chip.get (R.HAP_CH.CH_CFG.MODE k) = 0 then (t.chip.hch k).play = none ∧ (t.chip.hch k).pend = none ∧ (t.chip.hch k).boostFault = true else t.chip.hch k = s.chip.hch k) ∧
      OnlyPages [.rf, .deliveries, .hap, .imx, .csk] [0x1A0, 0x1A1] s t) ∧
  (∀ (s : State),
    s.chip.get R.HAP.BOOST.EN = 1 →
    Completes (.boostRailOvercurrent) s fun t =>
      t.chip.get R.HAP.HAP_STAT.RAIL = 0 ∧ t.chip.hap.railOff = true ∧
      (∀ k ∈ List.range 8, if s.chip.get (R.HAP_CH.CH_CFG.MODE k) = 0 then (t.chip.hch k).play = none ∧ (t.chip.hch k).pend = none ∧ (t.chip.hch k).boostFault = true else t.chip.hch k = s.chip.hch k) ∧
      OnlyPages [.rf, .deliveries, .hap, .imx, .csk] [0x1A0, 0x1A1] s t) ∧
  (∀ (s : State) (k r f : Nat) (e : Issued) (gnd vin opn lobe : Bool),
    (k < 8 ∧ r < 64) →
    s.chip.hap.tests = [(k, some (r, e.seq))] →
    ((s.chip.hch k).testing = true ∧ (s.chip.hch k).play = none ∧ (s.chip.hch k).pend = none) →
    (((s.chip.ring r).issued.find? fun x => x.seq == e.seq) = some e) →
    fieldAt e.bytes 0x10 1 = 1 <<< k →
    f = b2n gnd + 2 * b2n vin + 8 * b2n opn + 16 * b2n (lobe != (s.chip.flag (R.HAP_CH.CH_CFG.POL_REF k) != s.chip.flag (R.HAP_CH.CH_CFG.INVERT k))) →
    Completes (.hapTestDone gnd vin none opn lobe) s fun t =>
      t.chip.get (R.HAP_CH.CH_STAT.FAULT k) = f ∧ t.chip.hch k = { s.chip.hch k with testing := false, boostFault := false } ∧ t.chip.hap.tests = [] ∧
      t.chip.get (R.HAP_CH.CH_CMD.TEST k) = 0 ∧ EntryEnds r e.seq (if f = 0 then E.NONE else 0x29) [] s t ∧
      (if f = 0 then t.chip.csk = s.chip.csk else Recorded 0x1202 s t) ∧ (∀ j ∈ List.range 8, j ≠ k → t.chip.hch j = s.chip.hch j) ∧
      OnlyPages [.rf, .deliveries, .hap, .imx, .csk] [0x1A0, 0x1A1] s t)

/-- Entries of the audio rings and chimes (R317, R323, R324, R325). -/
def Obligations.AudioRingEntriesAndChimes : Prop :=
  (∀ (s : State) (r : Nat) (e : Issued),
    r < 64 →
    s.chip.freshEntry r 3 0 = some e →
    zeroAt e.bytes 0x10 48 = true →
    Completes (.audNop r) s fun t =>
      EntryEnds r e.seq E.NONE [] s t ∧ Only [.imx] [] s t) ∧
  (∀ (s : State) (r k : Nat) (e : Issued),
    r < 64 →
    s.chip.freshEntry r 3 1 = some e →
    (k = fieldAt e.bytes 0x10 1 ∧ k < 16) →
    s.chip.bufCheck r e.bytes (s.chip.audUsable (s.chip.ringOwn r) k) true 32 1 = none →
    Completes (.buffer r) s fun t =>
      t.chip.stream k = { s.chip.stream k with bufs := (s.chip.stream k).bufs ++ [{ ring := r, seq := e.seq, own := s.chip.ringOwn r, addr := fieldAt e.bytes 0x18 8, host := (fieldAt e.bytes 0x11 1).testBit 0, noSnoop := (fieldAt e.bytes 0x11 1).testBit 1, frames := fieldAt e.bytes 0x14 4 }] } ∧
      (∀ j ∈ List.range 16, j ≠ k → t.chip.stream j = s.chip.stream j) ∧ t.chip.get (R.AUD_STREAM.ST_STAT.OWNER k) = s.chip.ringOwn r % 32 ∧
      EntryTaken r e.seq s t ∧ OnlyPages [.rf, .aud, .imx] [0x19C] s t) ∧
  (∀ (s : State) (r k : Nat) (e : Issued),
    r < 64 →
    s.chip.freshEntry r 3 1 = some e →
    (fieldAt e.bytes 0x10 1 = k + 16 ∧ k < 16 ∧ k % 2 = 0) →
    s.chip.bufCheck r e.bytes (s.chip.audUsable (s.chip.ringOwn r) k && s.chip.audUsable (s.chip.ringOwn r) (k + 1)) true 32 2 = none →
    Completes (.buffer r) s fun t =>
      (t.chip.stream k).bufs = (s.chip.stream k).bufs ++ [{ ring := r, seq := e.seq, own := s.chip.ringOwn r, addr := fieldAt e.bytes 0x18 8, host := (fieldAt e.bytes 0x11 1).testBit 0, noSnoop := (fieldAt e.bytes 0x11 1).testBit 1, frames := fieldAt e.bytes 0x14 4, part := 1 }] ∧
      (t.chip.stream (k + 1)).bufs = (s.chip.stream (k + 1)).bufs ++ [{ ring := r, seq := e.seq, own := s.chip.ringOwn r, addr := fieldAt e.bytes 0x18 8, host := (fieldAt e.bytes 0x11 1).testBit 0, noSnoop := (fieldAt e.bytes 0x11 1).testBit 1, frames := fieldAt e.bytes 0x14 4, part := 2 }] ∧
      (∀ j ∈ List.range 16, j ≠ k ∧ j ≠ k + 1 → t.chip.stream j = s.chip.stream j) ∧ EntryTaken r e.seq s t ∧ OnlyPages [.rf, .aud, .imx] [0x19C] s t) ∧
  (∀ (s : State) (r k code : Nat) (e : Issued),
    r < 64 →
    s.chip.freshEntry r 3 1 = some e →
    (k = fieldAt e.bytes 0x10 1 ∧ k < 16) →
    s.chip.bufCheck r e.bytes (s.chip.audUsable (s.chip.ringOwn r) k) true 32 1 = some code →
    Completes (.buffer r) s fun t =>
      EntryEnds r e.seq code [] s t ∧ Only [.imx] [] s t) ∧
  (∀ (s : State) (r k : Nat) (e : Issued),
    r < 64 →
    s.chip.freshEntry r 3 2 = some e →
    (k = fieldAt e.bytes 0x10 1 ∧ k < 4) →
    s.chip.bufCheck r e.bytes (decide (16 ≤ s.chip.ringOwn r)) true 4 1 = none →
    Completes (.capture r) s fun t =>
      t.chip.cap k = { s.chip.cap k with bufs := (s.chip.cap k).bufs ++ [{ ring := r, seq := e.seq, own := s.chip.ringOwn r, addr := fieldAt e.bytes 0x18 8, host := (fieldAt e.bytes 0x11 1).testBit 0, noSnoop := (fieldAt e.bytes 0x11 1).testBit 1, frames := fieldAt e.bytes 0x14 4 }] } ∧
      (∀ j ∈ List.range 4, j ≠ k → t.chip.cap j = s.chip.cap j) ∧ EntryTaken r e.seq s t ∧ OnlyPages [.rf, .aud, .imx] [0x19C] s t) ∧
  (∀ (s : State) (r k g : Nat) (e : Issued),
    r < 64 →
    s.chip.freshEntry r 3 3 = some e →
    (k = fieldAt e.bytes 0x10 1 ∧ 1 ≤ k ∧ k < 16) →
    (g = fieldAt e.bytes 0x11 1 ∧ g < 4 ∧ zeroAt e.bytes 0x12 46 = true) →
    16 ≤ s.chip.ringOwn r →
    s.chip.chimeSeg k 0 % 4096 ≠ 0 →
    s.chip.aud.tg.find? g = none →
    Completes (.chime r) s fun t =>
      t.chip.aud = { s.chip.aud with tg := SMap.insert s.chip.aud.tg g { chime := k, rank := 0, segs := (List.range 4).map (s.chip.chimeSeg k), ref := some (r, e.seq) } } ∧
      t.chip.get (R.AUD_TONE.TG_STAT.CHIME g) = k ∧ t.chip.get (R.AUD_TONE.TG_STAT.RANK g) = 0 ∧ t.chip.get (R.AUD_TONE.TG_STAT.SEG g) = 0 ∧
      EntryTaken r e.seq s t ∧ Only [.rf, .aud, .imx] [R.AUD_TONE.TG_STAT.CHIME g, R.AUD_TONE.TG_STAT.RANK g, R.AUD_TONE.TG_STAT.SEG g] s t) ∧
  (∀ (s : State) (r k g : Nat) (e : Issued) (o : ToneGen),
    r < 64 →
    s.chip.freshEntry r 3 3 = some e →
    (k = fieldAt e.bytes 0x10 1 ∧ 1 ≤ k ∧ k < 16) →
    (g = fieldAt e.bytes 0x11 1 ∧ g < 4 ∧ zeroAt e.bytes 0x12 46 = true) →
    16 ≤ s.chip.ringOwn r →
    s.chip.chimeSeg k 0 % 4096 ≠ 0 →
    (s.chip.aud.tg.find? g = some o ∧ 0 < o.rank) →
    Completes (.chime r) s fun t =>
      t.chip.aud = s.chip.aud ∧ t.chip.get R.AUD.CHIME_DROP.COUNT = min (s.chip.get R.AUD.CHIME_DROP.COUNT + 1) (2 ^ 32 - 1) ∧
      EntryEnds r e.seq 0x2B [] s t ∧ Only [.rf, .imx] [R.AUD.CHIME_DROP.COUNT] s t) ∧
  (∀ (s : State) (k g : Nat) (data : Word),
    (1 ≤ k ∧ k < 16 ∧ g < 4) →
    data.toNat % 2 ^ 31 = k + 16 * g →
    Reaches s.chip .island 0x19A →
    s.chip.chimeSeg k 0 % 4096 ≠ 0 →
    s.chip.aud.tg.find? g = none →
    Completes (.islChime .island data) s fun t =>
      t.chip.aud = { s.chip.aud with tg := SMap.insert s.chip.aud.tg g { chime := k, rank := 2, segs := (List.range 4).map (s.chip.chimeSeg k) } } ∧
      t.chip.get (R.AUD_TONE.TG_STAT.CHIME g) = k ∧ t.chip.get (R.AUD_TONE.TG_STAT.RANK g) = 2 ∧
      Only [.rf, .aud] [R.AUD_TONE.TG_STAT.CHIME g, R.AUD_TONE.TG_STAT.RANK g, R.AUD_TONE.TG_STAT.SEG g] s t) ∧
  (∀ (s : State) (g : Nat) (x : ToneGen),
    g < 4 →
    s.chip.aud.tg.find? g = some x →
    msSamples (x.word % 4096) ≤ x.phase →
    (x.seg < 3 ∧ x.segs.getD (x.seg + 1) 0 % 4096 ≠ 0) →
    Completes (.chimeSegmentEnd g) s fun t =>
      t.chip.aud = { s.chip.aud with tg := SMap.insert s.chip.aud.tg g { x with seg := x.seg + 1, phase := 0 } } ∧ t.chip.get (R.AUD_TONE.TG_STAT.SEG g) = x.seg + 1 ∧
      OnlyPages [.rf, .aud] [0x19A] s t) ∧
  (∀ (s : State) (g r q : Nat) (x : ToneGen),
    (g < 4 ∧ r < 64) →
    (s.chip.aud.tg.find? g = some x ∧ x.ref = some (r, q)) →
    msSamples (x.word % 4096) ≤ x.phase →
    (x.seg = 3 ∨ x.segs.getD (x.seg + 1) 0 % 4096 = 0) →
    Completes (.chimeSegmentEnd g) s fun t =>
      t.chip.aud.tg.find? g = none ∧ t.chip.audSilent (36 + g) = true ∧ t.chip.get (R.AUD_TONE.TG_STAT.CHIME g) = 0 ∧ EntryEnds r q E.NONE [] s t ∧
      Only [.rf, .aud, .imx] [R.AUD_TONE.TG_STAT.CHIME g, R.AUD_TONE.TG_STAT.RANK g, R.AUD_TONE.TG_STAT.SEG g] s t)

/-- Sample periods, gain steps, ducking, silence, coefficients and amplifiers (R203, R317, R318, R319, R320, R321, R322, R327, R329). -/
def Obligations.AudioSamplesGainsAndAmplifiers : Prop :=
  (∀ (s : State) (tdm mic host : List Nat),
    s.chip.pdOn PD.AUD = true →
    (∀ k ∈ List.range 4, (s.chip.cap k).bufs = []) →
    Completes (.audioSample tdm mic host) s fun t =>
      t.chip.aud.n = s.chip.aud.n + 1 ∧ t.chip.aud.sink = (List.range 38).map t.chip.sinkOf ∧
      (∀ b ∈ List.range 16, -32768 ≤ (t.chip.abus b).out ∧ (t.chip.abus b).out ≤ 32767) ∧
      (∀ a ∈ List.range 2, (t.chip.aamp a).out.natAbs ≤ s.chip.get (R.AUD_AMP.AMP_CFG.CEIL a) * 32767 / 255 ∧ (s.chip.get (R.AUD_AMP.AMP_CFG.EN a) = 0 ∨ s.chip.blockStarted 0x11 = false → (t.chip.aamp a).out = 0)) ∧
      (∀ n ∈ List.range 8, (t.chip.scnOut n).sdp = if s.chip.get (R.SCN_OUT.OUT_CFG.AUDIO_EN n) = 1 ∧ (s.chip.scnOut n).link = LinkSt.SENDING ∧ s.chip.follows n = false then some (t.chip.aud.sink.getD (18 + 2 * n) 0, t.chip.aud.sink.getD (19 + 2 * n) 0) else none) ∧
      OnlyPages [.rf, .free, .deliveries, .aud, .imx, .csk, .scn] [0x003, 0x160, 0x161, 0x190, 0x195, 0x19A, 0x19C, 0x19E] s t) ∧
  (∀ (s : State) (tdm mic host : List Nat),
    s.chip.pdOn PD.AUD = false →
    Completes (.audioSample tdm mic host) s fun t =>
      t = s) ∧
  (∀ (s : State) (i b n : Nat),
    (i < 40 ∧ b < 16) →
    s.chip.aud.gainDue.find? (16 * i + b) = some n →
    n + msSamples (s.chip.get R.AUD.AUD_CFG.ZC_TIMEOUT) ≤ s.chip.aud.n →
    Completes (.zcTimeout i b) s fun t =>
      t.chip.nodeGain i b = s.chip.get (xpReg i b) ∧ t.chip.aud.gainDue.find? (16 * i + b) = none ∧
      t.chip.get R.AUD.ZC_TIMEOUTS.COUNT = min (s.chip.get R.AUD.ZC_TIMEOUTS.COUNT + 1) (2 ^ 32 - 1) ∧
      t.chip.aud = { s.chip.aud with gain := t.chip.aud.gain, gainDue := t.chip.aud.gainDue } ∧ Only [.rf, .aud] [R.AUD.ZC_TIMEOUTS.COUNT] s t) ∧
  (∀ (s : State) (b n : Nat),
    b < 16 →
    (s.chip.abus b).dDue = some n →
    n + msSamples (s.chip.get R.AUD.AUD_CFG.ZC_TIMEOUT) ≤ s.chip.aud.n →
    Completes (.zcTimeout 41 b) s fun t =>
      t.chip.abus b = { s.chip.abus b with dGain := if (s.chip.abus b).ducked then s.chip.get R.AUD.AUD_CFG.DUCK_GAIN else 256, dDue := none } ∧
      (∀ j ∈ List.range 16, j ≠ b → t.chip.abus j = s.chip.abus j) ∧
      t.chip.get R.AUD.ZC_TIMEOUTS.COUNT = min (s.chip.get R.AUD.ZC_TIMEOUTS.COUNT + 1) (2 ^ 32 - 1) ∧ Only [.rf, .aud] [R.AUD.ZC_TIMEOUTS.COUNT] s t) ∧
  (∀ (s : State) (b : Nat),
    (4 ≤ b ∧ b < 16) →
    ((s.chip.abus b).ducked = true ∧ 0 < (s.chip.abus b).hold ∧ msSamples (s.chip.get R.AUD.AUD_CFG.DUCK_HOLD) ≤ (s.chip.abus b).hold) →
    Completes (.duckHoldExpiry b) s fun t =>
      t.chip.abus b = { s.chip.abus b with ducked := false, hold := 0 } ∧ (∀ j ∈ List.range 16, j ≠ b → t.chip.abus j = s.chip.abus j) ∧
      (t.chip.get R.AUD.AUD_STAT.DUCKED).testBit (b - 4) = false ∧ t.chip.get (R.AUD_BUS.BUS_STAT.DUCKED b) = 0 ∧
      Only [.rf, .aud] [R.AUD.AUD_STAT.DUCKED, R.AUD_BUS.BUS_STAT.DUCKED b] s t) ∧
  (∀ (s : State) (i : Nat),
    i < 40 →
    msSamples (s.chip.get R.AUD.SIL_CFG.SIL_MS) ≤ s.chip.aud.quiet.getD i 0 →
    Completes (.silenceDetect i) s fun t =>
      t.chip.audSilent i = true ∧ (i < 16 → t.chip.get (R.AUD_STREAM.ST_STAT.SILENT i) = 1) ∧ (∀ j ∈ List.range 40, j ≠ i → t.chip.audSilent j = s.chip.audSilent j) ∧
      t.chip.aud = { s.chip.aud with loud := t.chip.aud.loud } ∧
      Only [.rf, .aud] [R.AUD_STREAM.ST_STAT.PLAYING i, R.AUD_STREAM.ST_STAT.QUEUED i, R.AUD_STREAM.ST_STAT.SILENT i] s t) ∧
  (∀ (s : State) (a : Nat),
    a < 2 →
    (s.chip.get (R.AUD_AMP.AMP_CFG.HOLD_ON a) = 0 ∧ s.chip.get (R.AUD_AMP.AMP_CFG.EN a) = 1 ∧ s.chip.get (R.AUD_AMP.AMP_STAT.FAULT a) = 0) →
    (0 < (s.chip.aamp a).quiet ∧ msSamples (10 * s.chip.get R.AUD.SIL_CFG.AMP_OFF) ≤ (s.chip.aamp a).quiet) →
    Completes (.ampPowerDown a) s fun t =>
      t.chip.aamp a = { s.chip.aamp a with off := true, out := 0 } ∧ t.chip.get (R.AUD_AMP.AMP_STAT.STATE a) = 1 ∧ t.chip.aamp (1 - a) = s.chip.aamp (1 - a) ∧
      Only [.rf, .aud] [R.AUD_AMP.AMP_STAT.STATE a, R.AUD_AMP.AMP_STAT.MUTED a] s t) ∧
  (∀ (s : State) (src : Src) (b k j : Nat) (data : Word),
    (b < 16 ∧ k < 8 ∧ j < 5) →
    Reaches s.chip src (0x196 + b / 4) →
    s.chip.mgrOrCtl src = true →
    (match src with | .inst _ => false | _ => true) = true →
    bits data.toNat 23 8 ≠ 255 →
    Completes (.eqCoefWrite src b k j data) s fun t =>
      t.chip.eqCoef b k j = data.toNat ∧ Only [.rf] [R.AUD_EQ.COEF.COEF (b / 4) (40 * (b % 4) + 5 * k + j)] s t) ∧
  (∀ (s : State) (src : Src) (b k j : Nat) (data : Word),
    (b < 16 ∧ k < 8 ∧ j < 5) →
    Reaches s.chip src (0x196 + b / 4) →
    s.chip.mgrOrCtl src = true →
    (match src with | .inst _ => false | _ => true) = true →
    bits data.toNat 23 8 = 255 →
    Completes (.eqCoefWrite src b k j data) s fun t =>
      t.chip.get (H.ERR_COUNT (0x196 + b / 4)) = min (s.chip.get (H.ERR_COUNT (0x196 + b / 4)) + 1) 255 ∧
      Only [.rf, .deliveries] [H.ERR_CODE (0x196 + b / 4), H.ERR_OFFSET (0x196 + b / 4), H.ERR_SOURCE (0x196 + b / 4), H.ERR_COUNT (0x196 + b / 4), H.IRQ_RAW (0x196 + b / 4)] s t) ∧
  (∀ (s : State) (src : Src) (a : Nat),
    a < 2 →
    Reaches s.chip src 0x19E →
    s.chip.mgrOrCtl src = true →
    (match src with | .inst _ => false | _ => true) = true →
    (s.chip.aamp a).testing = false →
    Completes (.ampTest src a) s fun t =>
      t.chip.aamp a = { s.chip.aamp a with testing := true } ∧ t.chip.aamp (1 - a) = s.chip.aamp (1 - a) ∧ t.chip.get (R.AUD_AMP.AMP_CMD.TEST a) = 1 ∧ 
      Only [.rf, .aud] [R.AUD_AMP.AMP_CMD.TEST a, R.AUD_AMP.AMP_STAT.STATE a, R.AUD_AMP.AMP_STAT.MUTED a] s t) ∧
  (∀ (s : State) (a f : Nat) (gnd vin opn lobe : Bool),
    a < 2 →
    ((s.chip.aamp a).testing = true ∧ (s.chip.aamp a).held = false) →
    (a = 1 → (s.chip.aamp 0).testing = false) →
    f = b2n gnd + 2 * b2n vin + 8 * b2n opn + 16 * b2n (lobe != (s.chip.flag (R.AUD_AMP.AMP_CFG.POL_REF a) != s.chip.flag (R.AUD_AMP.AMP_CFG.INVERT a))) →
    Completes (.ampTestDone a gnd vin false opn lobe) s fun t =>
      t.chip.get (R.AUD_AMP.AMP_STAT.FAULT a) = f ∧ t.chip.get (R.AUD_AMP.AMP_CMD.TEST a) = 0 ∧ (t.chip.aamp a).testing = false ∧
      (if f = 0 then t.chip.csk = s.chip.csk else Recorded 0x1101 s t ∧ t.chip.get (R.AUD_AMP.AMP_STAT.STATE a) = 3 ∧ (t.chip.aamp a).out = 0) ∧
      t.chip.aamp (1 - a) = s.chip.aamp (1 - a) ∧ OnlyPages [.rf, .deliveries, .aud, .csk] [0x190, 0x19E] s t) ∧
  (∀ (s : State) (a : Nat) (high : Bool),
    a < 2 →
    Completes (.speakerOvercurrent a high) s fun t =>
      t.chip.get (R.AUD_AMP.AMP_STAT.FAULT a) = (s.chip.get (R.AUD_AMP.AMP_STAT.FAULT a) ||| (if high then 1 else 2)) ∧ t.chip.get (R.AUD_AMP.AMP_STAT.STATE a) = 3 ∧
      t.chip.aamp a = { s.chip.aamp a with out := 0 } ∧ t.chip.aamp (1 - a) = s.chip.aamp (1 - a) ∧
      t.chip.get R.AUD.AMP_FAULT_CNT.COUNT = min (s.chip.get R.AUD.AMP_FAULT_CNT.COUNT + 1) (2 ^ 32 - 1) ∧ (t.chip.get (H.IRQ_RAW 0x190)).testBit 0 = true ∧ Recorded 0x1101 s t ∧
      OnlyPages [.rf, .deliveries, .aud, .csk] [0x190, 0x19E] s t)

/-- Cask admits events, commits records and locates its medium (R331, R332, R334, R335, R336, R337). -/
def Obligations.CaskStagesAndCommitsRecords : Prop :=
  (∀ (s : State) (ev : CaskEv) (rest : List CaskEv),
    (s.chip.brg.up = true ∧ s.chip.csk.bridgeLost = 0 ∧ s.chip.csk.bridgeBuf = []) →
    s.chip.csk.waiting = ev :: rest →
    (ev.source < 32 ∧ (rest.all fun e => e.source == ev.source) = true) →
    (s.chip.csk.lost = 0 ∧ s.chip.csk.staging.length < 1024) →
    Completes (.eventAdmit) s fun t =>
      t.chip.csk = { s.chip.csk with waiting := rest, staging := s.chip.csk.staging ++ [{ ev := ev, calTime := s.chip.rtc, rflags := b2n ev.extrap + 2 * s.chip.get R.CSK.CSK_STAT.PFW + 4 * b2n (!s.chip.flag R.CSK_RTC.RTC_CTRL.VALID), ctx := s.chip.mode + 8 * s.chip.get R.SYS_BOOT.STRAPS.DEVID, seq := s.chip.get R.CSK.NEXT_SEQ.VALUE, boots := s.chip.csk.boots, numbered := decide (CSK.LOCATING < s.chip.get R.CSK.CSK_STAT.STATE) }] } ∧
      t.chip.get R.CSK.NEXT_SEQ.VALUE = (s.chip.get R.CSK.NEXT_SEQ.VALUE + 1) % 2 ^ 32 ∧ t.chip.get R.CSK.CSK_STAT.STAGED = s.chip.csk.staging.length + 1 ∧
      (s.chip.get R.CSK.CSK_STAT.STATE = CSK.IDLE ∧ s.chip.get R.CSK.CSK_CTRL.FREEZE = 0 → t.chip.get R.CSK.CSK_STAT.STATE = CSK.COMMITTING) ∧
      Only [.rf, .csk, .fab] [R.CSK.NEXT_SEQ.VALUE, R.CSK.CSK_STAT.STAGED, R.CSK.CSK_STAT.STATE] s t) ∧
  (∀ (s : State) (ev : CaskEv) (rest : List CaskEv),
    (s.chip.brg.up = true ∧ s.chip.csk.bridgeLost = 0 ∧ s.chip.csk.bridgeBuf = []) →
    s.chip.csk.waiting = ev :: rest →
    (ev.source < 32 ∧ (rest.all fun e => e.source == ev.source) = true) →
    1024 ≤ s.chip.csk.staging.length →
    Completes (.eventAdmit) s fun t =>
      t.chip.csk = { s.chip.csk with waiting := rest, lost := s.chip.csk.lost + 1 } ∧ t.chip.get R.CSK.NEXT_SEQ.VALUE = (s.chip.get R.CSK.NEXT_SEQ.VALUE + 1) % 2 ^ 32 ∧
      t.chip.get R.CSK.LOST.COUNT = min (s.chip.get R.CSK.LOST.COUNT + 1) (2 ^ 32 - 1) ∧ (t.chip.get (H.IRQ_RAW 0x1B0)).testBit 0 = true ∧
      Only [.rf, .deliveries, .csk, .fab] [R.CSK.NEXT_SEQ.VALUE, R.CSK.LOST.COUNT, H.IRQ_RAW 0x1B0] s t) ∧
  (∀ (s : State) (ev : CaskEv) (rest : List CaskEv),
    s.chip.brg.up = false →
    s.chip.csk.waiting = ev :: rest →
    (ev.source < 32 ∧ (rest.all fun e => e.source == ev.source) = true) →
    (ev.field = false ∧ s.chip.csk.bridgeBuf.length < 32) →
    Completes (.eventAdmit) s fun t =>
      t.chip.csk = { s.chip.csk with waiting := rest, bridgeBuf := s.chip.csk.bridgeBuf ++ [ev] } ∧ Only [.csk, .fab] [] s t) ∧
  (∀ (s : State) (r : CaskRec) (rest : List CaskRec) (w : Nat) (ok1 ok2 : Bool),
    s.chip.cskMayCommit = true →
    (s.chip.csk.staging = r :: rest ∧ s.chip.csk.lost = 0) →
    (w = s.chip.get R.CSK.WPTR.VALUE ∧ w < s.chip.cskSlots ∧ s.chip.get R.CSK.CSK_CFG.SLOTS_LOG2 ≤ 24) →
    (s.chip.get R.CSK.CSK_CFG.MEDIA = 0 ∨ w % 64 ≠ 0) →
    (ok1 || ok2) = true →
    Completes (.recordCommit ok1 ok2) s fun t =>
      t.mem = { s.mem with cask := t.mem.cask } ∧ Stored (w * 64) r.bytes s.mem.cask t.mem.cask ∧ t.pending = s.pending ∧
      t.chip.get R.CSK.COMMITTED.COUNT = min (s.chip.get R.CSK.COMMITTED.COUNT + 1) (2 ^ 32 - 1) ∧ t.chip.get R.CSK.WPTR.VALUE = (w + 1) % s.chip.cskSlots ∧
      t.chip.csk.staging = rest ∧ t.chip.csk.retained = (if s.chip.csk.retained < s.chip.cskSlots then s.chip.csk.retained + 1 else s.chip.csk.retained) ∧
      t.chip.get R.CSK.OLDEST.VALUE = (if s.chip.csk.retained < s.chip.cskSlots then s.chip.get R.CSK.OLDEST.VALUE else (w + 1) % s.chip.cskSlots) ∧
      t.chip.csk.bad.contains w = false ∧ t.chip.get R.CSK.CSK_STAT.STAGED = rest.length % 2 ^ 11 ∧
      PartsBut [.rf, .csk] s t ∧ RegsBut [R.CSK.COMMITTED.COUNT, R.CSK.WPTR.VALUE, R.CSK.OLDEST.VALUE, R.CSK.CSK_STAT.STAGED, R.CSK.CSK_STAT.STATE] s t) ∧
  (∀ (s : State) (r : CaskRec) (rest : List CaskRec) (w : Nat),
    s.chip.cskMayCommit = true →
    s.chip.csk.staging = r :: rest →
    (w = s.chip.get R.CSK.WPTR.VALUE ∧ w < s.chip.cskSlots ∧ s.chip.get R.CSK.CSK_CFG.SLOTS_LOG2 ≤ 24) →
    (s.chip.get R.CSK.CSK_CFG.MEDIA = 0 ∨ w % 64 ≠ 0) →
    s.chip.get R.CSK.CSK_CFG.VERIFY = 1 →
    Completes (.recordCommit false false) s fun t =>
      t.chip.csk.staging = r :: rest ∧ t.chip.get R.CSK.WPTR.VALUE = (w + 1) % s.chip.cskSlots ∧ t.chip.csk.bad.contains w = true ∧
      t.chip.get R.CSK.MEDIA_ERR.COUNT = min (s.chip.get R.CSK.MEDIA_ERR.COUNT + 1) (2 ^ 32 - 1) ∧ t.chip.get R.CSK.COMMITTED.COUNT = s.chip.get R.CSK.COMMITTED.COUNT ∧
      (t.chip.get (H.IRQ_RAW 0x1B0)).testBit 1 = true ∧ Recorded 0x1402 s t ∧ t.mem = { s.mem with cask := t.mem.cask } ∧ t.pending = s.pending ∧
      PartsBut [.rf, .deliveries, .csk] s t ∧ PagesBut [0x1B0] s t) ∧
  (∀ (s : State),
    s.chip.get R.CSK.CSK_STAT.STATE = CSK.OFF →
    Completes (.caskLocate) s fun t =>
      t.chip.get R.CSK.CSK_STAT.STATE = CSK.LOCATING ∧ t.chip.get R.CSK.NEXT_SEQ.VALUE = s.chip.get R.CSK.NEXT_SEQ.VALUE ∧ Only [.rf] [R.CSK.CSK_STAT.STATE] s t) ∧
  (∀ (s : State) (n : Nat) (gaps : Bool),
    n ≤ 24 →
    s.chip.get R.CSK.CSK_STAT.STATE = CSK.LOCATING →
    Completes (.caskLocateDone false n gaps) s fun t =>
      t.chip.get R.CSK.CSK_STAT.STATE = CSK.MEDIA_FAULT ∧ Recorded 0x1402 s t ∧ OnlyPages [.rf, .csk] [0x1B0] s t) ∧
  (∀ (s : State) (n hi lo : Nat) (good : List Nat),
    n ≤ 24 →
    s.chip.get R.CSK.CSK_STAT.STATE = CSK.LOCATING →
    (good = (usedSlots s.mem.cask).filter fun i => decide (i < 2 ^ n) && slotGood s.mem.cask i) →
    (bestSlot s.mem.cask (fun a b => decide (b < a)) good = some hi) →
    (bestSlot s.mem.cask (fun a b => decide (a < b)) good = some lo) →
    Completes (.caskLocateDone true n false) s fun t =>
      t.chip.get R.CSK.NEXT_SEQ.VALUE = (slotSeq s.mem.cask hi + 1 + s.chip.get R.CSK.NEXT_SEQ.VALUE) % 2 ^ 32 ∧ t.chip.get R.CSK.WPTR.VALUE = (hi + 1) % 2 ^ n ∧
      t.chip.get R.CSK.OLDEST.VALUE = lo ∧ t.chip.get R.CSK.CSK_CFG.SLOTS_LOG2 = n ∧ t.chip.csk.boots = slotBoots s.mem.cask hi + 1 + s.chip.csk.boots ∧ t.chip.csk.retained = good.length ∧
      t.chip.csk.staging = numberRecs (slotSeq s.mem.cask hi + 1) (slotBoots s.mem.cask hi + 1 + s.chip.csk.boots) s.chip.csk.staging ∧ (t.chip.get (H.IRQ_RAW 0x1B0)).testBit 3 = true ∧
      t.chip.get R.CSK.CSK_STAT.STATE = (if s.chip.get R.CSK.CSK_CTRL.FREEZE = 1 then CSK.FROZEN else if s.chip.csk.staging.isEmpty then CSK.IDLE else CSK.COMMITTING) ∧
      OnlyPages [.rf, .deliveries, .csk] [0x1B0] s t)

/-- FREEZE and CLEAR, record reads, software records, the clock and peak temperatures (R11, R331, R340, R341, R364). -/
def Obligations.CaskFreezesReadsAndKeepsTime : Prop :=
  (∀ (s : State) (src : Src) (data : Word),
    Reaches s.chip src 0x1B0 →
    s.chip.mgrOrCtl src = true →
    (match src with | .inst _ => false | _ => true) = true →
    data.toNat < 2 →
    Completes (.caskFreeze src data) s fun t =>
      t.chip.get R.CSK.CSK_CTRL.FREEZE = data.toNat ∧
      t.chip.csk = { s.chip.csk with frozenAt := if data.toNat = 1 ∧ s.chip.get R.CSK.CSK_CTRL.FREEZE = 0 then s.chip.ps else s.chip.csk.frozenAt } ∧
      (data.toNat = 1 ∧ (s.chip.get R.CSK.CSK_STAT.STATE = CSK.IDLE ∨ s.chip.get R.CSK.CSK_STAT.STATE = CSK.COMMITTING) → t.chip.get R.CSK.CSK_STAT.STATE = CSK.FROZEN) ∧
      Only [.rf, .csk] [R.CSK.CSK_CTRL.FREEZE, R.CSK.CSK_STAT.STATE, R.CSK.CSK_STAT.STAGED] s t) ∧
  (∀ (s : State) (src : Src) (data : Word),
    Reaches s.chip src 0x1B0 →
    isSecure src = true →
    s.chip.mode = Mode.SERVICE →
    data.toNat < 4 →
    Completes (.caskClear src data) s fun t =>
      t.chip.get R.CSK.OLDEST.VALUE = s.chip.get R.CSK.WPTR.VALUE ∧ t.chip.csk.retained = 0 ∧ t.chip.get R.CSK.CSK_CTRL.FREEZE = data.toNat % 2 ∧
      t.chip.csk = { s.chip.csk with retained := 0, frozenAt := t.chip.csk.frozenAt } ∧
      Only [.rf, .csk] [R.CSK.OLDEST.VALUE, R.CSK.CSK_CTRL.FREEZE, R.CSK.CSK_STAT.STATE, R.CSK.CSK_STAT.STAGED] s t) ∧
  (∀ (s : State),
    s.chip.get R.CSK.CSK_CTRL.FREEZE = 1 →
    s.chip.csk.frozenAt + s.chip.get R.CSK.FREEZE_MAX.MS * 1000000000 ≤ s.chip.ps →
    Completes (.freezeTimeout) s fun t =>
      t.chip.get R.CSK.CSK_CTRL.FREEZE = 0 ∧ t.chip.get R.CSK.FREEZE_TIMEOUT.COUNT = min (s.chip.get R.CSK.FREEZE_TIMEOUT.COUNT + 1) (2 ^ 32 - 1) ∧
      (t.chip.get (H.IRQ_RAW 0x1B0)).testBit 2 = true ∧
      (s.chip.get R.CSK.CSK_STAT.STATE = CSK.FROZEN → t.chip.get R.CSK.CSK_STAT.STATE = if s.chip.csk.staging.isEmpty then CSK.IDLE else CSK.COMMITTING) ∧
      Only [.rf, .deliveries] [R.CSK.CSK_CTRL.FREEZE, R.CSK.FREEZE_TIMEOUT.COUNT, R.CSK.CSK_STAT.STATE, R.CSK.CSK_STAT.STAGED, H.IRQ_RAW 0x1B0] s t) ∧
  (∀ (s : State) (src : Src) (data : Word) (i : Nat),
    Reaches s.chip src 0x1B1 →
    s.chip.mgrOrCtl src = true →
    (match src with | .inst _ => false | _ => true) = true →
    (data.toNat % 2 ^ 31 = i ∧ i < 2 ^ 24 ∧ i < s.chip.cskSlots) →
    s.chip.get R.CSK.CSK_STAT.STATE = CSK.FROZEN →
    s.chip.csk.bad.contains i = false →
    Completes (.caskRead src data) s fun t =>
      (∀ k ∈ List.range 16, t.chip.get (R.CSK_READ.RD_DATA.DATA k) = Memory.readNat s.mem.cask (64 * i + 4 * k) 4) ∧
      t.chip.get R.CSK_READ.RD_STAT.CRC_OK = b2n (slotGood s.mem.cask i) ∧ t.chip.get R.CSK_READ.RD_CTRL.INDEX = i ∧ t.chip.get R.CSK_READ.RD_CTRL.STAGE = 0 ∧
      OnlyPages [.rf] [0x1B1] s t) ∧
  (∀ (s : State) (src : Src) (data : Word) (i : Nat) (r : CaskRec),
    Reaches s.chip src 0x1B1 →
    s.chip.mgrOrCtl src = true →
    (match src with | .inst _ => false | _ => true) = true →
    (data.toNat % 2 ^ 31 = i + 2 ^ 24 ∧ i < 2 ^ 24) →
    s.chip.get R.CSK.CSK_STAT.STATE = CSK.FROZEN →
    s.chip.csk.staging[i]? = some r →
    Completes (.caskRead src data) s fun t =>
      (∀ k ∈ List.range 16, t.chip.get (R.CSK_READ.RD_DATA.DATA k) = fieldAt r.bytes (4 * k) 4) ∧ t.chip.get R.CSK_READ.RD_STAT.CRC_OK = 1 ∧
      t.chip.get R.CSK_READ.RD_CTRL.INDEX = i ∧ t.chip.get R.CSK_READ.RD_CTRL.STAGE = 1 ∧ OnlyPages [.rf] [0x1B1] s t) ∧
  (∀ (s : State) (src : Src) (data : Word) (ev u : Nat),
    Reaches s.chip src 0x1B2 →
    s.chip.mgrOrCtl src = true →
    (match src with | .inst _ => false | _ => true) = true →
    (data.toNat % 2 ^ 31 = ev + 65536 * u ∧ 0x8000 ≤ ev ∧ ev < 65536 ∧ u < 256) →
    s.chip.logBusy = false →
    Completes (.logEvent src data) s fun t =>
      t.chip.csk = { s.chip.csk with waiting := s.chip.csk.waiting ++ [{ event := ev, unit := u, params := (List.range 7).flatMap (fun j => parBytes 4 (s.chip.get (R.CSK_LOG.LOG_PARAM.DATA j))), ns := s.chip.nsNow, source := if isSecure src then 0x18 else 0x19, extrap := s.chip.extraps }] } ∧
      t.chip.get R.CSK_LOG.LOG_EVENT.EVENT = ev ∧ t.chip.get R.CSK_LOG.LOG_EVENT.UNIT = u ∧ Only [.rf, .csk] [R.CSK_LOG.LOG_EVENT.EVENT, R.CSK_LOG.LOG_EVENT.UNIT] s t) ∧
  (∀ (s : State) (src : Src),
    Reaches s.chip src 0x1B3 →
    isSecure src = true →
    Completes (.rtcSet src) s fun t =>
      t.chip.rtc = (s.chip.csk.heldHi * 2 ^ 32 + s.chip.csk.heldLo) * 1024 + s.chip.csk.heldFrac ∧ t.chip.get R.CSK_RTC.RTC_CTRL.VALID = 1 ∧
      t.chip.csk = { s.chip.csk with rtcBase := t.chip.csk.rtcBase, rtcFrom := t.chip.csk.rtcFrom } ∧ Only [.rf, .csk] [R.CSK_RTC.RTC_CTRL.VALID] s t) ∧
  (∀ (s : State) (src : Src),
    s.chip.brg.up = true →
    Completes (.rtcFracRead src) s fun t =>
      t.chip.readData = s.chip.rtc % 1024 ∧ t.chip.get R.CSK_RTC.RTC_SEC_LO.VALUE = s.chip.rtc / 1024 % 2 ^ 32 ∧ t.chip.get R.CSK_RTC.RTC_SEC_HI.VALUE = s.chip.rtc / 2 ^ 42 % 64 ∧
      Only [.rf, .readData] [R.CSK_RTC.RTC_FRAC.VALUE, R.CSK_RTC.RTC_SEC_LO.VALUE, R.CSK_RTC.RTC_SEC_HI.VALUE] s t) ∧
  (∀ (s : State) (src : Src),
    s.chip.brg.up = false →
    Completes (.rtcFracRead src) s fun t =>
      t.chip.readData = 0 ∧ t.chip.get (H.ERR_COUNT 0) = min (s.chip.get (H.ERR_COUNT 0) + 1) 255 ∧
      Only [.rf, .readData, .deliveries] [H.ERR_CODE 0, H.ERR_OFFSET 0, H.ERR_SOURCE 0, H.ERR_COUNT 0, H.IRQ_RAW 0] s t) ∧
  (∀ (s : State) (src : Src) (i : Nat),
    i < 10 →
    s.chip.brg.up = true →
    Completes (.tempPeakRead src i) s fun t =>
      t.chip.readData = s.chip.readReg 0x022 (0x040 + 4 * i) ∧ t.chip.get (R.PWR_THERM.TEMP.PEAK i) = s.chip.get (R.PWR_THERM.TEMP.TEMP i) ∧
      Only [.rf, .readData] [R.PWR_THERM.TEMP.PEAK i] s t) ∧
  (∀ (s : State),
    Completes (.vbatRise) s fun t =>
      t.chip.rtc = 0 ∧ t.chip.get R.CSK_RTC.RTC_CTRL.VALID = 0 ∧ t.chip.csk = { s.chip.csk with rtcBase := 0, rtcFrom := s.chip.ps } ∧ Only [.rf, .csk] [R.CSK_RTC.RTC_CTRL.VALID] s t)

/-- Ports of the Jenpin link train, come up and are lost (R342, R343, R344, R345, R346, R347, R352). -/
def Obligations.LinkPortsTrainAndFail : Prop :=
  (∀ (s : State) (src : Src) (p : Nat) (data : Word),
    p < 2 →
    Reaches s.chip src (0x151 + p) →
    s.chip.mgrOrCtl src = true →
    (match src with | .inst _ => false | _ => true) = true →
    (data.toNat < 4 ∧ data.toNat % 2 = 1) →
    s.chip.get (R.LNK_PORT.PORT_CFG.EN p) = 0 →
    Completes (.linkPortEnable src p data) s fun t =>
      t.chip.get (R.LNK_PORT.PORT_CFG.EN p) = 1 ∧ t.chip.get (R.LNK_PORT.PORT_CFG.MAX_RATE p) = data.toNat / 2 ∧ t.chip.lnkState p = LnkSt.TRAINING ∧
      t.chip.get (R.LNK_PORT.PORT_STAT.CAUSE p) = 0 ∧ t.chip.lnk.hello.contains p = false ∧ t.chip.lnk.reach.find? p = none ∧
      t.chip.lnk = { s.chip.lnk with hello := t.chip.lnk.hello, reach := t.chip.lnk.reach } ∧
      Only [.rf, .lnk] [R.LNK_PORT.PORT_CFG.EN p, R.LNK_PORT.PORT_CFG.MAX_RATE p, R.LNK_PORT.PORT_STAT.STATE p, R.LNK_PORT.PORT_STAT.CAUSE p] s t) ∧
  (∀ (s : State) (p dev reach hop d0 base size : Nat),
    (p < 2 ∧ dev < 4) →
    s.chip.pdOn PD.LINK = true →
    s.chip.lnkState p = LnkSt.TRAINING →
    dev ≠ s.chip.devId →
    (s.chip.get R.LNK.TOPO.REACH0 = if s.chip.lnkState 0 = LnkSt.UP then s.chip.lnk.reach.getD 0 0 else 0) →
    (s.chip.get R.LNK.TOPO.REACH1 = if s.chip.lnkState 1 = LnkSt.UP then s.chip.lnk.reach.getD 1 0 else 0) →
    Completes (.hello p dev reach hop d0 true false base size) s fun t =>
      t.chip.get (R.LNK_PORT.PORT_STAT.NEIGHBOUR p) = dev ∧ t.chip.get (R.LNK_PORT.PORT_STAT.HOP_LAT p) = hop % 256 ∧ t.chip.lnk.dacc.find? dev = some (base, size) ∧
      t.chip.lnk.hello.contains p = true ∧ t.chip.lnk.d0.find? p = some d0 ∧
      (∀ k ∈ List.range 4, (t.chip.lnk.reach.getD p 0).testBit k = (k != s.chip.devId && (k == dev || reach.testBit k))) ∧
      Only [.rf, .lnk] [R.LNK_PORT.PORT_STAT.NEIGHBOUR p, R.LNK_PORT.PORT_STAT.HOP_LAT p] s t) ∧
  (∀ (s : State) (p dev reach hop d0 base size : Nat) (direct : Bool),
    (p < 2 ∧ dev < 4) →
    s.chip.pdOn PD.LINK = true →
    s.chip.lnkState p = LnkSt.TRAINING →
    dev = s.chip.devId →
    Completes (.hello p dev reach hop d0 direct false base size) s fun t =>
      t.chip.lnkState p = LnkSt.FAULT ∧ t.chip.get (R.LNK_PORT.PORT_STAT.CAUSE p) = 1 ∧ t.chip.lnk.hello.contains p = false ∧ t.chip.lnk.downAt.find? p = some s.chip.ps ∧
      (t.chip.lnk.reqs.all fun q => q.port != p) = true ∧ t.mem = s.mem ∧ t.pending = s.pending) ∧
  (∀ (s : State) (p q lanes rate : Nat),
    (p < 2 ∧ q = 1 - p) →
    (2 ≤ lanes ∧ lanes ≤ 4) →
    s.chip.lnkState p = LnkSt.TRAINING →
    s.chip.lnk.hello.contains p = true →
    (s.chip.get (if p = 0 then R.LNK.TOPO.REACH0 else R.LNK.TOPO.REACH1) = 0) →
    (s.chip.get (if p = 0 then R.LNK.TOPO.REACH1 else R.LNK.TOPO.REACH0) = (if s.chip.lnkState q = LnkSt.UP then s.chip.lnk.reach.getD q 0 else 0)) →
    Completes (.linkPortUp p lanes rate) s fun t =>
      t.chip.lnkState p = LnkSt.UP ∧ t.chip.get (R.LNK_PORT.PORT_STAT.RATE p) = min rate (s.chip.get (R.LNK_PORT.PORT_CFG.MAX_RATE p)) ∧
      t.chip.get (R.LNK_PORT.PORT_STAT.X2 p) = b2n (decide (lanes < 4)) ∧ t.chip.get (R.LNK_PORT.LANE_FAIL.COUNT p) = min (s.chip.get (R.LNK_PORT.LANE_FAIL.COUNT p) + (4 - lanes)) (2 ^ 32 - 1) ∧
      t.chip.get (if p = 0 then R.LNK.TOPO.REACH0 else R.LNK.TOPO.REACH1) = s.chip.lnk.reach.getD p 0 % 16 ∧ (t.chip.get (H.IRQ_RAW 0x150)).testBit 1 = true ∧
      OnlyPages [.rf, .deliveries] [0x014, 0x150, 0x151 + p] s t) ∧
  (∀ (s : State) (p lanes rate : Nat),
    p < 2 →
    lanes < 2 →
    s.chip.lnkState p = LnkSt.TRAINING →
    Completes (.linkPortUp p lanes rate) s fun t =>
      t.chip.lnkState p = LnkSt.FAULT ∧ t.chip.get (R.LNK_PORT.PORT_STAT.CAUSE p) = 2 ∧ t.chip.lnk.hello.contains p = false ∧
      t.chip.get (R.LNK_PORT.LANE_FAIL.COUNT p) = min (s.chip.get (R.LNK_PORT.LANE_FAIL.COUNT p) + (4 - lanes)) (2 ^ 32 - 1) ∧
      (t.chip.lnk.reqs.all fun q => q.port != p) = true ∧ t.mem = s.mem ∧ t.pending = s.pending) ∧
  (∀ (s : State) (p : Nat),
    p < 2 →
    s.chip.pdOn PD.LINK = true →
    s.chip.lnkState p = LnkSt.DOWN →
    s.chip.get (R.LNK_PORT.PORT_CFG.EN p) = 1 →
    s.chip.lnk.downAt.getD p 0 + 100000000000 ≤ s.chip.ps →
    Completes (.linkRetrainTimer p) s fun t =>
      t.chip.lnkState p = LnkSt.TRAINING ∧ t.chip.get (R.LNK_PORT.RETRAIN.COUNT p) = min (s.chip.get (R.LNK_PORT.RETRAIN.COUNT p) + 1) (2 ^ 32 - 1) ∧
      Only [.rf, .lnk] [R.LNK_PORT.PORT_STAT.STATE p, R.LNK_PORT.PORT_STAT.CAUSE p, R.LNK_PORT.RETRAIN.COUNT p] s t) ∧
  (∀ (s : State) (p : Nat),
    p < 2 →
    s.chip.lnkState p = LnkSt.UP →
    Completes (.linkLaneFail p) s fun t =>
      t.chip.get (R.LNK_PORT.PORT_STAT.X2 p) = 1 ∧ t.chip.get (R.LNK_PORT.LANE_FAIL.COUNT p) = min (s.chip.get (R.LNK_PORT.LANE_FAIL.COUNT p) + 1) (2 ^ 32 - 1) ∧
      Only [.rf] [R.LNK_PORT.PORT_STAT.X2 p, R.LNK_PORT.LANE_FAIL.COUNT p] s t) ∧
  (∀ (s : State) (p : Nat) (again : Bool),
    p < 2 →
    s.chip.lnkState p = LnkSt.UP →
    Completes (.linkCrcError p again) s fun t =>
      t.chip.get (R.LNK_PORT.CRC_ERR.COUNT p) = min (s.chip.get (R.LNK_PORT.CRC_ERR.COUNT p) + 1) (2 ^ 32 - 1) ∧
      t.chip.get (R.LNK_PORT.REPLAY.COUNT p) = min (s.chip.get (R.LNK_PORT.REPLAY.COUNT p) + 1) (2 ^ 32 - 1) ∧
      t.chip.lnk = { s.chip.lnk with replays := SMap.insert s.chip.lnk.replays p (if again then s.chip.lnk.replays.getD p 0 + 1 else 0) } ∧
      Only [.rf, .lnk] [R.LNK_PORT.CRC_ERR.COUNT p, R.LNK_PORT.REPLAY.COUNT p] s t) ∧
  (∀ (s : State) (p events : Nat) (silent : Bool),
    p < 2 →
    s.chip.lnkState p = LnkSt.UP →
    (silent = true ∨ 16 ≤ s.chip.lnk.replays.getD p 0) →
    Completes (.linkLoss p silent events) s fun t =>
      t.chip.lnkState p = LnkSt.DOWN ∧ t.chip.get (R.LNK_PORT.PORT_STAT.CAUSE p) = 3 ∧ (t.chip.get (H.IRQ_RAW 0x150)).testBit 0 = true ∧
      t.chip.get R.LNK.EVT_FWD_LOST.COUNT = min (s.chip.get R.LNK.EVT_FWD_LOST.COUNT + events) (2 ^ 32 - 1) ∧ t.chip.lnk.downAt.find? p = some s.chip.ps ∧
      (t.chip.lnk.reqs.all fun q => q.port != p) = true ∧ (t.chip.lnk.layers.all fun q => q.port != p) = true ∧
      t.chip.csk.waiting.getLast?.map (·.event) = some 0x0E00 ∧ t.mem = s.mem ∧ t.pending = s.pending) ∧
  (∀ (s : State),
    s.chip.pdOn PD.LINK = true →
    Completes (.linkMsgReserved) s fun t =>
      t.chip.get R.LNK.RX_BAD.COUNT = min (s.chip.get R.LNK.RX_BAD.COUNT + 1) (2 ^ 32 - 1) ∧ Only [.rf] [R.LNK.RX_BAD.COUNT] s t)

/-- Remote windows, requests of other devices and forwarded events (R346, R348, R349, R350, R351). -/
def Obligations.LinkServesRemoteRequests : Prop :=
  (∀ (s : State) (k a n d o kind addr p pc priv : Nat) (data : List Byte) (del : Bool),
    (k < 4 ∧ priv < 4 ∧ 1 ≤ n ∧ n ≤ 64) →
    s.chip.ccRuns k = true →
    windowOf a = some (d, o) →
    s.chip.windowTo d o n = some (kind, addr) →
    s.chip.linkPath d = some p →
    Completes (.remoteWindowAccess k false a n data pc priv del) s fun t =>
      t.chip.lnk = { s.chip.lnk with tag := (s.chip.lnk.tag + 1) % 65536, reqs := s.chip.lnk.reqs ++ [{ tag := s.chip.lnk.tag, dev := d, port := p, write := false, core := k, addr := a, pc := pc, priv := priv, delegated := del, since := s.chip.ps }], out := s.chip.lnk.out ++ [{ port := p, kind := kind, src := s.chip.devId, dst := d, tag := s.chip.lnk.tag, addr := addr, body := leBytes 4 n }] } ∧ Only [.lnk] [] s t) ∧
  (∀ (s : State) (k a n d o kind addr p pc priv : Nat) (data : List Byte) (del : Bool),
    (k < 4 ∧ priv < 4 ∧ 1 ≤ n ∧ n ≤ 64 ∧ data.length = n) →
    s.chip.ccRuns k = true →
    windowOf a = some (d, o) →
    s.chip.windowTo d o n = some (kind, addr) →
    s.chip.linkPath d = some p →
    Completes (.remoteWindowAccess k true a n data pc priv del) s fun t =>
      t.chip.lnk = { s.chip.lnk with tag := (s.chip.lnk.tag + 1) % 65536, reqs := s.chip.lnk.reqs ++ [{ tag := s.chip.lnk.tag, dev := d, port := p, write := true, core := k, addr := a, pc := pc, priv := priv, delegated := del, since := s.chip.ps }], out := s.chip.lnk.out ++ [{ port := p, kind := kind - 2, src := s.chip.devId, dst := d, tag := s.chip.lnk.tag, addr := addr, body := data }] } ∧ Only [.lnk] [] s t) ∧
  (∀ (s : State) (k a n d o pc priv : Nat) (data : List Byte) (w del : Bool),
    (k < 4 ∧ priv < 4 ∧ 1 ≤ n ∧ n ≤ 64) →
    s.chip.ccRuns k = true →
    windowOf a = some (d, o) →
    s.chip.windowTo d o n = none →
    Completes (.remoteWindowAccess k w a n data pc priv del) s fun t =>
      t.chip.ctl.core = (s.chip.ccTrap k (if w then 7 else 5) a pc priv del).ctl.core ∧ t.chip.lnk = s.chip.lnk ∧ t.mem = s.mem ∧ t.pending = s.pending ∧ t.chip.rf = s.chip.rf) ∧
  (∀ (s : State) (dev tag : Nat) (data : List Byte) (q : LinkReq),
    dev < 4 →
    ((s.chip.lnk.reqs.find? fun q => q.tag == tag && q.dev == dev) = some q) →
    q.write = false →
    Completes (.rsp dev tag true data) s fun t =>
      t.chip.readData = leNat data ∧ t.chip.lnk = { s.chip.lnk with reqs := s.chip.lnk.reqs.filter fun x => !(x.tag == tag && x.dev == dev) } ∧ Only [.lnk, .readData] [] s t) ∧
  (∀ (s : State) (dev tag : Nat) (data : List Byte) (q : LinkReq),
    dev < 4 →
    ((s.chip.lnk.reqs.find? fun q => q.tag == tag && q.dev == dev) = some q) →
    Completes (.rsp dev tag false data) s fun t =>
      t.chip.ctl.core = (if q.write then s.chip.ctl.core else (s.chip.ccTrap q.core 5 q.addr q.pc q.priv q.delegated).ctl.core) ∧
      t.chip.lnk = { s.chip.lnk with reqs := s.chip.lnk.reqs.filter fun x => !(x.tag == tag && x.dev == dev) } ∧ t.chip.readData = s.chip.readData ∧ t.chip.rf = s.chip.rf ∧ MemSame s t) ∧
  (∀ (s : State) (tag : Nat) (q : LinkReq),
    ((s.chip.lnk.reqs.find? fun q => q.tag == tag && !q.write) = some q) →
    q.since + 100000000 ≤ s.chip.ps →
    Completes (.remoteReadTimeout tag) s fun t =>
      t.chip.ctl.core = (s.chip.ccTrap q.core 5 q.addr q.pc q.priv q.delegated).ctl.core ∧
      t.chip.lnk = { s.chip.lnk with reqs := s.chip.lnk.reqs.filter fun x => !(x.tag == tag && !x.write) } ∧
      t.chip.get R.LNK.REMOTE_TIMEOUT.COUNT = min (s.chip.get R.LNK.REMOTE_TIMEOUT.COUNT + 1) (2 ^ 32 - 1) ∧ RegsBut [R.LNK.REMOTE_TIMEOUT.COUNT] s t ∧ MemSame s t) ∧
  (∀ (s : State) (dev tag a n : Nat),
    (dev < 4 ∧ n ≤ 256) →
    s.chip.fabOn = true →
    s.chip.daccOk dev a n = true →
    Readable s a n →
    (s.chip.linkPath dev).isSome = true →
    Completes (.memRd dev tag a n) s fun t =>
      t.chip.lnk = { s.chip.lnk with out := s.chip.lnk.out ++ [{ port := (s.chip.linkPath dev).getD 0, kind := 6, src := s.chip.devId, dst := dev, tag := tag, addr := a, body := Memory.readBytes s.mem.dram a n }] } ∧
      OnlyPages [.rf, .deliveries, .lnk] [0x160, 0x161] s t) ∧
  (∀ (s : State) (dev tag a n : Nat),
    (dev < 4 ∧ n ≤ 256) →
    s.chip.fabOn = true →
    s.chip.daccOk dev a n = false →
    (s.chip.linkPath dev).isSome = true →
    Completes (.memRd dev tag a n) s fun t =>
      t.chip.lnk = { s.chip.lnk with out := s.chip.lnk.out ++ [{ port := (s.chip.linkPath dev).getD 0, kind := 6, src := s.chip.devId, dst := dev, tag := tag, addr := a, body := [] }] } ∧
      t.chip.get R.LNK.REMOTE_REFUSED.COUNT = min (s.chip.get R.LNK.REMOTE_REFUSED.COUNT + 1) (2 ^ 32 - 1) ∧ Only [.rf, .lnk] [R.LNK.REMOTE_REFUSED.COUNT] s t) ∧
  (∀ (s : State) (dev tag a n : Nat),
    (dev < 4 ∧ n ≤ 2048) →
    s.chip.fabOn = true →
    s.chip.daccOk dev a n = true →
    Readable s a n →
    (s.chip.linkPath dev).isSome = true →
    Completes (.layerRd dev tag a n) s fun t =>
      t.chip.lnk = { s.chip.lnk with out := s.chip.lnk.out ++ [{ port := (s.chip.linkPath dev).getD 0, kind := 5, src := s.chip.devId, dst := dev, tag := tag, addr := a, body := Memory.readBytes s.mem.dram a n }] } ∧
      OnlyPages [.rf, .deliveries, .lnk] [0x160, 0x161] s t) ∧
  (∀ (s : State) (dev tag a : Nat) (data : List Byte),
    (dev < 4 ∧ data.length ≤ 256) →
    s.chip.fabOn = true →
    s.chip.daccOk dev a data.length = true →
    (s.chip.linkPath dev).isSome = true →
    Completes (.memWr dev tag a data) s fun t =>
      t.mem = { s.mem with dram := t.mem.dram } ∧ Stored a data s.mem.dram t.mem.dram ∧ t.pending = s.pending ∧
      t.chip.lnk = { s.chip.lnk with out := s.chip.lnk.out ++ [{ port := (s.chip.linkPath dev).getD 0, kind := 6, src := s.chip.devId, dst := dev, tag := tag, addr := a, body := [0] }] } ∧
      PartsBut [.rf, .flaws, .lnk] s t ∧ RegsBut [R.PTB_PERTURB.ECC_INJ.ARM] s t) ∧
  (∀ (s : State) (dev tag a : Nat) (data : List Byte),
    (dev < 4 ∧ data.length ≤ 256) →
    s.chip.fabOn = true →
    s.chip.daccOk dev a data.length = false →
    (s.chip.linkPath dev).isSome = true →
    Completes (.memWr dev tag a data) s fun t =>
      t.chip.lnk = { s.chip.lnk with out := s.chip.lnk.out ++ [{ port := (s.chip.linkPath dev).getD 0, kind := 6, src := s.chip.devId, dst := dev, tag := tag, addr := a, body := [7] }] } ∧
      t.chip.get R.LNK.REMOTE_REFUSED.COUNT = min (s.chip.get R.LNK.REMOTE_REFUSED.COUNT + 1) (2 ^ 32 - 1) ∧ Only [.rf, .lnk] [R.LNK.REMOTE_REFUSED.COUNT] s t) ∧
  (∀ (s : State) (tag : Nat) (data : List Byte) (q : LayerReq),
    ((s.chip.lnk.layers.find? fun q => q.tag == tag) = some q) →
    data.length = q.len →
    Completes (.layerData tag true data) s fun t =>
      t.chip.cmp = { s.chip.cmp with remote := s.chip.cmp.remote ++ [{ unit := q.unit, addr := q.addr, bytes := data }] } ∧
      t.chip.lnk = { s.chip.lnk with layers := s.chip.lnk.layers.filter fun x => x.tag != tag } ∧ Only [.cmp, .lnk] [] s t) ∧
  (∀ (s : State) (dev tag page off : Nat) (data : List Byte),
    (dev < 4 ∧ placeOk (.link dev) page off = true ∧ data.length ≤ 64) →
    (s.chip.fabOn = true ∧ s.chip.pdOn PD.LINK = true) →
    (s.chip.get R.LNK.ACCEPT.REG_FROM).testBit dev = true →
    ((s.chip.busWrite s.mem (.link dev) page off data).1.linkPath dev).isSome = true →
    Completes (.regWr dev tag page off data) s fun t =>
      PartsBut [.lnk] { s with chip := (s.chip.busWrite s.mem (.link dev) page off data).1, mem := (s.chip.busWrite s.mem (.link dev) page off data).2 } t ∧ t.mem = (s.chip.busWrite s.mem (.link dev) page off data).2 ∧ t.pending = s.pending ∧
      t.chip.lnk = { (s.chip.busWrite s.mem (.link dev) page off data).1.lnk with out := (s.chip.busWrite s.mem (.link dev) page off data).1.lnk.out ++ [{ port := ((s.chip.busWrite s.mem (.link dev) page off data).1.linkPath dev).getD 0, kind := 6, src := (s.chip.busWrite s.mem (.link dev) page off data).1.devId, dst := dev, tag := tag, addr := page * 0x1000 + off, body := [BitVec.ofNat 8 (s.chip.linkStatus s.mem dev page off data)] }] }) ∧
  (∀ (s : State) (dev tag page off : Nat) (data : List Byte),
    (dev < 4 ∧ placeOk (.link dev) page off = true ∧ data.length ≤ 64) →
    (s.chip.fabOn = true ∧ s.chip.pdOn PD.LINK = true) →
    (s.chip.get R.LNK.ACCEPT.REG_FROM).testBit dev = false →
    (s.chip.linkPath dev).isSome = true →
    Completes (.regWr dev tag page off data) s fun t =>
      t.chip.lnk = { s.chip.lnk with out := s.chip.lnk.out ++ [{ port := (s.chip.linkPath dev).getD 0, kind := 6, src := s.chip.devId, dst := dev, tag := tag, addr := page * 0x1000 + off, body := [7] }] } ∧
      t.chip.get R.LNK.REMOTE_REFUSED.COUNT = min (s.chip.get R.LNK.REMOTE_REFUSED.COUNT + 1) (2 ^ 32 - 1) ∧ Only [.rf, .lnk] [R.LNK.REMOTE_REFUSED.COUNT] s t) ∧
  (∀ (s : State) (dev tag page off size : Nat),
    (dev < 4 ∧ placeOk (.link dev) page off = true ∧ size ≤ 64) →
    (s.chip.fabOn = true ∧ s.chip.pdOn PD.LINK = true) →
    (s.chip.get R.LNK.ACCEPT.REG_FROM).testBit dev = true →
    ((s.chip.busRead s.mem (.link dev) page off size).linkPath dev).isSome = true →
    Completes (.regRd dev tag page off size) s fun t =>
      PartsBut [.lnk, .readData] { s with chip := (s.chip.busRead s.mem (.link dev) page off size) } t ∧ t.chip.readData = s.chip.readData ∧ MemSame s t ∧
      t.chip.lnk = { (s.chip.busRead s.mem (.link dev) page off size).lnk with out := (s.chip.busRead s.mem (.link dev) page off size).lnk.out ++ [{ port := ((s.chip.busRead s.mem (.link dev) page off size).linkPath dev).getD 0, kind := 6, src := (s.chip.busRead s.mem (.link dev) page off size).devId, dst := dev, tag := tag, addr := page * 0x1000 + off, body := leBytes size (s.chip.busRead s.mem (.link dev) page off size).readData }] }) ∧
  (∀ (s : State) (dev r : Nat) (e : List Byte),
    (dev < 4 ∧ e.length = 32) →
    s.chip.pdOn PD.LINK = true →
    (r = s.chip.get (R.LNK_FWD.RX_RING.RING dev) ∧ s.chip.get (R.LNK_FWD.RX_RING.EN dev) = 1) →
    (s.chip.ringOwner r = 2 ∨ s.chip.ringOwner r = 3) →
    (s.chip.ringClass r = 5 ∧ s.chip.ringLive r = true) →
    Completes (.tchEvt dev e) s fun t =>
      t.chip.imx = { s.chip.imx with events := s.chip.imx.events ++ [{ ring := r, status := fieldAt e 0 1, result := (e.drop 20).take 12, stamp := fieldAt e 8 8, seq := fieldAt e 4 4, stalls := false }] } ∧ Only [.imx] [] s t) ∧
  (∀ (s : State) (dev : Nat) (e : List Byte),
    dev < 4 →
    s.chip.pdOn PD.LINK = true →
    s.chip.get (R.LNK_FWD.RX_RING.EN dev) = 0 →
    Completes (.tchEvt dev e) s fun t =>
      t.chip.get R.LNK.EVT_FWD_LOST.COUNT = min (s.chip.get R.LNK.EVT_FWD_LOST.COUNT + 1) (2 ^ 32 - 1) ∧ Only [.rf] [R.LNK.EVT_FWD_LOST.COUNT] s t) ∧
  (∀ (s : State) (dev tf z eff prio : Nat),
    (dev < 4 ∧ tf < 4 ∧ z < 64 ∧ eff < 256 ∧ prio < 4) →
    s.chip.pdOn PD.LINK = true →
    (s.chip.get R.LNK_FWD.FOCUS_EN.EN).testBit (4 * dev + tf) = false →
    Completes (.hapTrig dev tf z eff prio) s fun t =>
      t.chip.get R.LNK.EVT_FWD_LOST.COUNT = min (s.chip.get R.LNK.EVT_FWD_LOST.COUNT + 1) (2 ^ 32 - 1) ∧ Only [.rf] [R.LNK.EVT_FWD_LOST.COUNT] s t) ∧
  (∀ (s : State) (dev tf z eff prio k n : Nat) (g : HapTrig) (b : List Byte),
    (dev < 4 ∧ tf < 4 ∧ z < 64 ∧ eff < 256 ∧ prio < 4 ∧ k < 8) →
    s.chip.pdOn PD.LINK = true →
    (s.chip.get R.LNK_FWD.FOCUS_EN.EN).testBit (4 * dev + tf) = true →
    n = s.chip.get R.LNK_FWD.FOCUS_MAP.PAGES / 4 ^ (4 * dev + tf) % 4 →
    (((List.range 8).all fun j => (if j % 2 = 0 then s.chip.get (R.HAP_FOCUS.FOCUS.GAIN_A n (4 * z + j / 2)) else s.chip.get (R.HAP_FOCUS.FOCUS.GAIN_B n (4 * z + j / 2))) == if j = k then g.gain else 0) = true) →
    ((if k % 2 = 0 then s.chip.get (R.HAP_FOCUS.FOCUS.DELAY_A n (4 * z + k / 2)) else s.chip.get (R.HAP_FOCUS.FOCUS.DELAY_B n (4 * z + k / 2))) = 0) →
    (g = { effect := eff, prio := prio, gain := g.gain } ∧ g.gain ≠ 0) →
    (s.chip.get (R.HAP_CH.CH_CFG.EN k) = 1 ∧ s.chip.get R.HAP.HAP_STAT.HOLD = 0 ∧ s.chip.hapFaulted k = false) →
    ((s.chip.hch k).play = none ∧ (s.chip.hch k).testing = false) →
    ((s.chip.hap.tests.all fun y => y.1 != k) = true) →
    (s.chip.hapImage eff = some b ∧ s.chip.hapBudget k g b = true) →
    Completes (.hapTrig dev tf z eff prio) s fun t =>
      t.chip.hch k = { s.chip.hch k with play := some { trig := g, stage := if Img.od b = 0 then 2 else 1 } } ∧ (∀ j ∈ List.range 8, j ≠ k → t.chip.hch j = s.chip.hch j) ∧
      OnlyPages [.rf, .hap] [0x1A0, 0x1A1] s t)

/-- Proof tests begin, act and end, and SERVICE_EN ends SERVICE (R46, R365, R366, R367, R368, R369). -/
def Obligations.ProofTestsRunInService : Prop :=
  (∀ (s : State) (src : Src),
    s.chip.islandRuns = true →
    Reaches s.chip src 0x1C0 →
    s.chip.mgrOrCtl src = true →
    (match src with | .inst _ => false | _ => true) = true →
    s.chip.mode = Mode.SERVICE →
    (s.chip.ptb.proof = none ∧ s.chip.ptbShow.get R.PTB.PTB_STAT.ACTIVE = 0) →
    s.chip.proofReady 1 0 = true →
    Completes (.proofLockstep src) s fun t =>
      (t.chip.ptb.proof.map fun p => (p.test, p.arg, p.start)) = some (1, 0, s.chip.ps) ∧ t.chip.get R.PTB.TESTS_RUN.COUNT = min (s.chip.get R.PTB.TESTS_RUN.COUNT + 1) (2 ^ 32 - 1) ∧
      t.chip.get R.PTB.TEST_CTRL.TEST = 1 ∧ t.chip.get R.PTB.TEST_CTRL.ARG = 0 ∧ t.chip.get R.PTB.PTB_STAT.TEST_BUSY = 1 ∧ t.chip.get R.SAF.ISL_STAT.STATE = 0 ∧ t.chip.get R.SAF.ISL_STAT.CAUSE = 1 ∧ t.chip.get R.SAF.LOCKSTEP_ERR.COUNT = min (s.chip.get R.SAF.LOCKSTEP_ERR.COUNT + 1) (2 ^ 32 - 1) ∧ MemSame s t) ∧
  (∀ (s : State) (src : Src),
    s.chip.get R.SAF.WDOG_CFG.ARM = 1 →
    (s.chip.saf.wdKey = 0x5A ∨ s.chip.saf.wdKey = 0xA5) →
    Reaches s.chip src 0x1C0 →
    s.chip.mgrOrCtl src = true →
    (match src with | .inst _ => false | _ => true) = true →
    s.chip.mode = Mode.SERVICE →
    (s.chip.ptb.proof = none ∧ s.chip.ptbShow.get R.PTB.PTB_STAT.ACTIVE = 0) →
    s.chip.proofReady 2 0 = true →
    Completes (.proofWdog src) s fun t =>
      (t.chip.ptb.proof.map fun p => (p.test, p.arg, p.start)) = some (2, 0, s.chip.ps) ∧ t.chip.get R.PTB.TESTS_RUN.COUNT = min (s.chip.get R.PTB.TESTS_RUN.COUNT + 1) (2 ^ 32 - 1) ∧
      t.chip.get R.PTB.TEST_CTRL.TEST = 2 ∧ t.chip.get R.PTB.TEST_CTRL.ARG = 0 ∧ t.chip.get R.PTB.PTB_STAT.TEST_BUSY = 1 ∧ t.chip.get R.SAF.ISL_STAT.STATE = 0 ∧ t.chip.get R.SAF.ISL_STAT.CAUSE = 3 ∧ t.chip.get R.SAF.WDOG_FAULT.COUNT = min (s.chip.get R.SAF.WDOG_FAULT.COUNT + 1) (2 ^ 32 - 1) ∧ MemSame s t) ∧
  (∀ (s : State) (src : Src) (arg : Nat),
    arg < 128 →
    Reaches s.chip src 0x1C0 →
    s.chip.mgrOrCtl src = true →
    (match src with | .inst _ => false | _ => true) = true →
    s.chip.mode = Mode.SERVICE →
    (s.chip.ptb.proof = none ∧ s.chip.ptbShow.get R.PTB.PTB_STAT.ACTIVE = 0) →
    s.chip.proofReady 3 arg = true →
    Completes (.proofSigPath src arg) s fun t =>
      (t.chip.ptb.proof.map fun p => (p.test, p.arg, p.start)) = some (3, arg, s.chip.ps) ∧ t.chip.get R.PTB.TESTS_RUN.COUNT = min (s.chip.get R.PTB.TESTS_RUN.COUNT + 1) (2 ^ 32 - 1) ∧
      t.chip.get R.PTB.TEST_CTRL.TEST = 3 ∧ t.chip.get R.PTB.TEST_CTRL.ARG = arg ∧ t.chip.get R.PTB.PTB_STAT.TEST_BUSY = 1 ∧ t.chip.ptb.sigWait = true ∧ t.chip.ptb.sigLeft = s.chip.proofThresh arg ∧ t.chip.ptb.sigOut = arg / 16 ∧ t.chip.ptb.sigReg = arg % 16 ∧ OnlyPages [.rf, .ptb] [0x1C0] s t) ∧
  (∀ (s : State) (src : Src),
    Reaches s.chip src 0x1C0 →
    s.chip.mgrOrCtl src = true →
    (match src with | .inst _ => false | _ => true) = true →
    s.chip.mode = Mode.SERVICE →
    (s.chip.ptb.proof = none ∧ s.chip.ptbShow.get R.PTB.PTB_STAT.ACTIVE = 0) →
    s.chip.proofReady 4 0 = true →
    Completes (.proofSafeOk src) s fun t =>
      (t.chip.ptb.proof.map fun p => (p.test, p.arg, p.start)) = some (4, 0, s.chip.ps) ∧ t.chip.get R.PTB.TESTS_RUN.COUNT = min (s.chip.get R.PTB.TESTS_RUN.COUNT + 1) (2 ^ 32 - 1) ∧
      t.chip.get R.PTB.TEST_CTRL.TEST = 4 ∧ t.chip.get R.PTB.TEST_CTRL.ARG = 0 ∧ t.chip.get R.PTB.PTB_STAT.TEST_BUSY = 1 ∧ t.chip.get R.SAF.SAFE_OK.EN_A = 0 ∧ t.chip.get R.SAF.SAFE_OK.EN_B = 0 ∧ OnlyPages [.rf, .ptb] [0x130, 0x1C0] s t) ∧
  (∀ (s : State) (src : Src),
    Reaches s.chip src 0x1C0 →
    s.chip.mgrOrCtl src = true →
    (match src with | .inst _ => false | _ => true) = true →
    s.chip.mode = Mode.SERVICE →
    (s.chip.ptb.proof = none ∧ s.chip.ptbShow.get R.PTB.PTB_STAT.ACTIVE = 0) →
    s.chip.proofReady 5 0 = true →
    Completes (.proofClkmon src) s fun t =>
      (t.chip.ptb.proof.map fun p => (p.test, p.arg, p.start)) = some (5, 0, s.chip.ps) ∧ t.chip.get R.PTB.TESTS_RUN.COUNT = min (s.chip.get R.PTB.TESTS_RUN.COUNT + 1) (2 ^ 32 - 1) ∧
      t.chip.get R.PTB.TEST_CTRL.TEST = 5 ∧ t.chip.get R.PTB.TEST_CTRL.ARG = 0 ∧ t.chip.get R.PTB.PTB_STAT.TEST_BUSY = 1 ∧ OnlyPages [.rf, .ptb] [0x1C0] s t) ∧
  (∀ (s : State) (src : Src),
    Reaches s.chip src 0x1C0 →
    s.chip.mgrOrCtl src = true →
    (match src with | .inst _ => false | _ => true) = true →
    s.chip.mode = Mode.SERVICE →
    (s.chip.ptb.proof = none ∧ s.chip.ptbShow.get R.PTB.PTB_STAT.ACTIVE = 0) →
    s.chip.proofReady 6 0 = true →
    Completes (.proofEccIsl src) s fun t =>
      (t.chip.ptb.proof.map fun p => (p.test, p.arg, p.start)) = some (6, 0, s.chip.ps) ∧ t.chip.get R.PTB.TESTS_RUN.COUNT = min (s.chip.get R.PTB.TESTS_RUN.COUNT + 1) (2 ^ 32 - 1) ∧
      t.chip.get R.PTB.TEST_CTRL.TEST = 6 ∧ t.chip.get R.PTB.TEST_CTRL.ARG = 0 ∧ t.chip.get R.PTB.PTB_STAT.TEST_BUSY = 1 ∧ t.chip.flaws = SMap.insert s.chip.flaws (Ecc.key Ecc.ISL Config.reservedWord.toNat) 2 ∧ OnlyPages [.rf, .flaws, .ptb] [0x1C0] s t) ∧
  (∀ (s : State) (src : Src) (k : Nat),
    k < 8 →
    Reaches s.chip src 0x1C0 →
    s.chip.mgrOrCtl src = true →
    (match src with | .inst _ => false | _ => true) = true →
    s.chip.mode = Mode.SERVICE →
    (s.chip.ptb.proof = none ∧ s.chip.ptbShow.get R.PTB.PTB_STAT.ACTIVE = 0) →
    s.chip.proofReady 7 k = true →
    Completes (.proofEccDram src k) s fun t =>
      (t.chip.ptb.proof.map fun p => (p.test, p.arg, p.start)) = some (7, k, s.chip.ps) ∧ t.chip.get R.PTB.TESTS_RUN.COUNT = min (s.chip.get R.PTB.TESTS_RUN.COUNT + 1) (2 ^ 32 - 1) ∧
      t.chip.get R.PTB.TEST_CTRL.TEST = 7 ∧ t.chip.get R.PTB.TEST_CTRL.ARG = k ∧ t.chip.get R.PTB.PTB_STAT.TEST_BUSY = 1 ∧ t.chip.get R.DRC.UE_CNT.COUNT = min (s.chip.get R.DRC.UE_CNT.COUNT + 1) (2 ^ 32 - 1) ∧ (t.chip.get (H.IRQ_RAW 0x160)).testBit 1 = true ∧ Recorded 0x0F02 s t ∧
      (s.chip.get R.DRC_ECC.ERR_INFO.VALID = 0 → t.chip.get R.DRC_ECC.ERR_INFO.VALID = 1 ∧ t.chip.get R.DRC_ECC.ERR_INFO.UNCORR = 1 ∧ t.chip.get R.DRC_ECC.ERR_ADDR_LO.ADDR = s.chip.get (R.DRC_ECC.REG_BASE.ADDR k) * 2 ^ 21 % 2 ^ 32) ∧
      OnlyPages [.rf, .free, .deliveries, .csk, .ptb] [0x160, 0x161, 0x1C0] s t) ∧
  (∀ (s : State) (src : Src),
    Reaches s.chip src 0x1C0 →
    s.chip.mgrOrCtl src = true →
    (match src with | .inst _ => false | _ => true) = true →
    s.chip.mode = Mode.SERVICE →
    (s.chip.ptb.proof = none ∧ s.chip.ptbShow.get R.PTB.PTB_STAT.ACTIVE = 0) →
    s.chip.proofReady 8 0 = true →
    Completes (.proofLanes src) s fun t =>
      (t.chip.ptb.proof.map fun p => (p.test, p.arg, p.start)) = some (8, 0, s.chip.ps) ∧ t.chip.get R.PTB.TESTS_RUN.COUNT = min (s.chip.get R.PTB.TESTS_RUN.COUNT + 1) (2 ^ 32 - 1) ∧
      t.chip.get R.PTB.TEST_CTRL.TEST = 8 ∧ t.chip.get R.PTB.TEST_CTRL.ARG = 0 ∧ t.chip.get R.PTB.PTB_STAT.TEST_BUSY = 1 ∧ (∀ n ∈ List.range 8, s.chip.get (R.SCN_OUT.OUT_CFG.ENABLE n) = 1 ∧ ((s.chip.scnOut (s.chip.phyOut n)).link = LinkSt.OFF ∨ (s.chip.scnOut (s.chip.phyOut n)).link = LinkSt.IDLE) → t.chip.get (R.SCN_PHY.LANE_TEST.BUSY n) = 1) ∧ PartsBut [.rf, .scn, .ptb] s t ∧ MemSame s t) ∧
  (∀ (s : State) (src : Src) (mask : Nat),
    mask < 16 →
    Reaches s.chip src 0x1C0 →
    s.chip.mgrOrCtl src = true →
    (match src with | .inst _ => false | _ => true) = true →
    s.chip.mode = Mode.SERVICE →
    (s.chip.ptb.proof = none ∧ s.chip.ptbShow.get R.PTB.PTB_STAT.ACTIVE = 0) →
    s.chip.proofReady 9 mask = true →
    Completes (.proofTouch src mask) s fun t =>
      (t.chip.ptb.proof.map fun p => (p.test, p.arg, p.start)) = some (9, mask, s.chip.ps) ∧ t.chip.get R.PTB.TESTS_RUN.COUNT = min (s.chip.get R.PTB.TESTS_RUN.COUNT + 1) (2 ^ 32 - 1) ∧
      t.chip.get R.PTB.TEST_CTRL.TEST = 9 ∧ t.chip.get R.PTB.TEST_CTRL.ARG = mask ∧ t.chip.get R.PTB.PTB_STAT.TEST_BUSY = 1 ∧ (∀ n ∈ List.range 4, mask.testBit n = true ∧ s.chip.tchPartner n = false → (t.chip.tch1 n).phase = 1 ∧ (t.chip.tch1 n).measuring = (if (s.chip.tch1 n).phase = 1 then (s.chip.tch1 n).measuring else false)) ∧ PartsBut [.rf, .tch, .imx, .lnk, .ptb] s t ∧ MemSame s t) ∧
  (∀ (s : State) (src : Src),
    Reaches s.chip src 0x1C0 →
    s.chip.mgrOrCtl src = true →
    (match src with | .inst _ => false | _ => true) = true →
    s.chip.mode = Mode.SERVICE →
    (s.chip.ptb.proof = none ∧ s.chip.ptbShow.get R.PTB.PTB_STAT.ACTIVE = 0) →
    s.chip.proofReady 10 0 = true →
    Completes (.proofOutputs src) s fun t =>
      (t.chip.ptb.proof.map fun p => (p.test, p.arg, p.start)) = some (10, 0, s.chip.ps) ∧ t.chip.get R.PTB.TESTS_RUN.COUNT = min (s.chip.get R.PTB.TESTS_RUN.COUNT + 1) (2 ^ 32 - 1) ∧
      t.chip.get R.PTB.TEST_CTRL.TEST = 10 ∧ t.chip.get R.PTB.TEST_CTRL.ARG = 0 ∧ t.chip.get R.PTB.PTB_STAT.TEST_BUSY = 1 ∧ (∀ k ∈ List.range 8, s.chip.get (R.HAP_CH.CH_CFG.EN k) = 1 → (t.chip.hap.tests.any fun x => x.1 == k) = true) ∧ (∀ a ∈ List.range 2, s.chip.get (R.AUD_AMP.AMP_CFG.EN a) = 1 → (t.chip.aamp a).testing = true ∧ t.chip.get (R.AUD_AMP.AMP_CMD.TEST a) = 1) ∧ PartsBut [.rf, .hap, .aud, .imx, .ptb] s t ∧ MemSame s t) ∧
  (∀ (s : State) (src : Src),
    Reaches s.chip src 0x1C0 →
    s.chip.mgrOrCtl src = true →
    (match src with | .inst _ => false | _ => true) = true →
    s.chip.mode = Mode.SERVICE →
    (s.chip.ptb.proof = none ∧ s.chip.ptbShow.get R.PTB.PTB_STAT.ACTIVE = 0) →
    s.chip.proofReady 11 0 = true →
    Completes (.proofSupply src) s fun t =>
      (t.chip.ptb.proof.map fun p => (p.test, p.arg, p.start)) = some (11, 0, s.chip.ps) ∧ t.chip.get R.PTB.TESTS_RUN.COUNT = min (s.chip.get R.PTB.TESTS_RUN.COUNT + 1) (2 ^ 32 - 1) ∧
      t.chip.get R.PTB.TEST_CTRL.TEST = 11 ∧ t.chip.get R.PTB.TEST_CTRL.ARG = 0 ∧ t.chip.get R.PTB.PTB_STAT.TEST_BUSY = 1 ∧ OnlyPages [.rf, .ptb] [0x1C0] s t) ∧
  (∀ (s : State) (src : Src),
    Reaches s.chip src 0x1C0 →
    s.chip.mgrOrCtl src = true →
    (match src with | .inst _ => false | _ => true) = true →
    s.chip.mode ≠ Mode.SERVICE →
    Completes (.proofClkmon src) s fun t =>
      t.chip.get (H.ERR_COUNT 0x1C0) = min (s.chip.get (H.ERR_COUNT 0x1C0) + 1) 255 ∧ (s.chip.get (H.ERR_CODE 0x1C0) = 0 → t.chip.get (H.ERR_CODE 0x1C0) = E.MODE) ∧
      Only [.rf, .deliveries] [H.ERR_CODE 0x1C0, H.ERR_OFFSET 0x1C0, H.ERR_SOURCE 0x1C0, H.ERR_COUNT 0x1C0, H.IRQ_RAW 0x1C0] s t) ∧
  (∀ (s : State) (m : Nat) (p : Proof),
    s.chip.ptb.proof = some p →
    s.chip.proofState p m = some none →
    Completes (.proofTestEnd m) s fun t =>
      t.chip.ptb.proof = none ∧ t.chip.get R.PTB.TEST_RESULT.TEST = p.test % 256 ∧ t.chip.get R.PTB.TEST_RESULT.OUTCOME = 1 ∧ t.chip.get R.PTB.TEST_RESULT.DETAIL = 0 ∧
      t.chip.get R.PTB.TEST_MS.COUNT = (s.chip.ps - p.start) / 1000000000 % 2 ^ 32 ∧ t.chip.get R.PTB.TESTS_FAILED.COUNT = s.chip.get R.PTB.TESTS_FAILED.COUNT ∧
      t.chip.get R.PTB.PTB_STAT.TEST_BUSY = 0 ∧ (t.chip.get (H.IRQ_RAW 0x1C0)).testBit 0 = true ∧ Recorded 0x1501 s t ∧ OnlyPages [.rf, .deliveries, .flaws, .ptb, .csk] [0x1C0] s t) ∧
  (∀ (s : State) (m d : Nat) (p : Proof),
    s.chip.ptb.proof = some p →
    (s.chip.proofState p m = some (some d) ∨ (s.chip.proofState p m = none ∧ s.chip.proofLate p = true ∧ d = s.chip.proofLateDetail p)) →
    Completes (.proofTestEnd m) s fun t =>
      t.chip.ptb.proof = none ∧ t.chip.get R.PTB.TEST_RESULT.TEST = p.test % 256 ∧ t.chip.get R.PTB.TEST_RESULT.OUTCOME = 2 ∧ t.chip.get R.PTB.TEST_RESULT.DETAIL = d % 65536 ∧
      t.chip.get R.PTB.TEST_MS.COUNT = (s.chip.ps - p.start) / 1000000000 % 2 ^ 32 ∧ t.chip.get R.PTB.TESTS_FAILED.COUNT = min (s.chip.get R.PTB.TESTS_FAILED.COUNT + 1) (2 ^ 32 - 1) ∧
      (t.chip.get (H.IRQ_RAW 0x1C0)).testBit 1 = true ∧ Recorded 0x1501 s t ∧ OnlyPages [.rf, .deliveries, .flaws, .ptb, .csk] [0x1C0] s t) ∧
  (∀ (s : State),
    s.chip.mode = Mode.SERVICE →
    s.chip.pow.islandHeld = false →
    Completes (.serviceEnFall) s fun t =>
      t.chip.mode = Mode.RUN ∧ t.chip.get R.SYS_BOOT.STRAPS.SERVICE_EN = 0 ∧ t.chip.ptb.proof = none ∧ t.chip.get R.CTL.CC_STAT.HALTED = 0 ∧
      t.chip.get R.CTL.CC_STAT.RUNNING = (s.chip.get R.CTL.CC_STAT.RUNNING ||| s.chip.get R.CTL.CC_STAT.HALTED) ∧ t.chip.get R.PTB.PTB_STAT.ACTIVE = 0 ∧
      (t.chip.csk.waiting.any fun x => x.event == 0x1503) = true ∧ MemSame s t) ∧
  (∀ (s : State),
    s.chip.mode ≠ Mode.SERVICE →
    (s.chip.get R.SYS_MODE.MODE_STAT.BUSY = 0 ∨ s.chip.get R.SYS_MODE.MODE_STAT.TARGET ≠ Mode.SERVICE) →
    Completes (.serviceEnFall) s fun t =>
      t.chip.get R.SYS_BOOT.STRAPS.SERVICE_EN = 0 ∧ Only [.rf] [R.SYS_BOOT.STRAPS.SERVICE_EN] s t) ∧
  (∀ (s : State),
    s.chip.mode ≠ Mode.SERVICE →
    (s.chip.get R.SYS_MODE.MODE_STAT.BUSY = 1 ∧ s.chip.get R.SYS_MODE.MODE_STAT.TARGET = Mode.SERVICE) →
    Completes (.serviceEnFall) s fun t =>
      t.chip.get R.SYS_BOOT.STRAPS.SERVICE_EN = 0 ∧ t.chip.mode = s.chip.mode ∧ t.chip.get R.SYS_MODE.MODE_STAT.BUSY = 0 ∧ t.chip.get R.SYS_MODE.MODE_STAT.TARGET = 0 ∧
      t.chip.get R.SYS_MODE.MODE_STAT.LAST_ERR = E.MODE ∧ t.chip.get R.SYS_MODE.REJECT_CNT.COUNT = min (s.chip.get R.SYS_MODE.REJECT_CNT.COUNT + 1) (2 ^ R.SYS_MODE.REJECT_CNT.COUNT.w - 1) ∧
      (t.chip.get (H.IRQ_RAW 0x001)).testBit 1 = true ∧ OnlyPages [.rf, .deliveries, .cmp] [0x001, 0x004] s t)

/-- Perturbations are set in SERVICE, counted and recorded (R370, R371, R372). -/
def Obligations.PerturbationsActInService : Prop :=
  (∀ (s : State) (src : Src) (data : Word),
    Reaches s.chip src 0x1C1 →
    s.chip.mgrOrCtl src = true →
    (match src with | .inst _ => false | _ => true) = true →
    s.chip.mode = Mode.SERVICE →
    s.chip.ptb.proof = none →
    (data.toNat < 2 ^ 20 ∧ data.toNat ≠ 0) →
    Completes (.fabStall src data) s fun t =>
      t.chip.get R.PTB.PERTURB_SETS.COUNT = min (s.chip.get R.PTB.PERTURB_SETS.COUNT + 1) (2 ^ 32 - 1) ∧ Recorded 0x1502 s t ∧ (t.chip.get R.PTB.PTB_STAT.ACTIVE).testBit 0 = true ∧
      t.chip.get R.PTB_PERTURB.FAB_STALL.PORTS = data.toNat ∧ t.chip.fab = { s.chip.fab with stallAt := s.chip.ps } ∧ OnlyPages [.rf, .csk, .fab] [0x1C0, 0x1C1] s t) ∧
  (∀ (s : State) (src : Src) (data : Word),
    Reaches s.chip src 0x1C1 →
    s.chip.mgrOrCtl src = true →
    (match src with | .inst _ => false | _ => true) = true →
    s.chip.mode = Mode.SERVICE →
    s.chip.ptb.proof = none →
    (data.toNat < 2 ^ 24 ∧ data.toNat % 4096 ≠ 0) →
    Completes (.dramDelay src data) s fun t =>
      t.chip.get R.PTB.PERTURB_SETS.COUNT = min (s.chip.get R.PTB.PERTURB_SETS.COUNT + 1) (2 ^ 32 - 1) ∧ Recorded 0x1502 s t ∧ (t.chip.get R.PTB.PTB_STAT.ACTIVE).testBit 1 = true ∧
      t.chip.get R.PTB_PERTURB.DRAM_DELAY.CHANNELS = data.toNat % 4096 ∧ t.chip.get R.PTB_PERTURB.DRAM_DELAY.NS = data.toNat / 4096 ∧ OnlyPages [.rf, .csk] [0x1C0, 0x1C1] s t) ∧
  (∀ (s : State) (src : Src) (data : Word) (cls len : Nat),
    Reaches s.chip src 0x1C1 →
    s.chip.mgrOrCtl src = true →
    (match src with | .inst _ => false | _ => true) = true →
    s.chip.mode = Mode.SERVICE →
    s.chip.ptb.proof = none →
    (data.toNat % 2 ^ 31 = cls + 65536 * len ∧ 0 < cls ∧ cls < 16 ∧ 0 < len ∧ len < 2 ^ 15) →
    s.chip.fab.pressed = 0 →
    Completes (.backpress src data) s fun t =>
      t.chip.get R.PTB.PERTURB_SETS.COUNT = min (s.chip.get R.PTB.PERTURB_SETS.COUNT + 1) (2 ^ 32 - 1) ∧ Recorded 0x1502 s t ∧ (t.chip.get R.PTB.PTB_STAT.ACTIVE).testBit 2 = true ∧
      t.chip.get R.PTB_PERTURB.BACKPRESS.CLASSES = cls ∧ t.chip.get R.PTB_PERTURB.BACKPRESS.LEN = len ∧ t.chip.fab = { s.chip.fab with pressed := cls, pressedUntil := s.chip.ps + len * 1024 * 2500 / 3, pressedFrom := s.chip.ps } ∧
      t.chip.get R.FAB.CREDIT_STAT.FULL = cls ∧ OnlyPages [.rf, .csk, .fab] [R.FAB.CREDIT_STAT.FULL.pageOf, 0x1C0, 0x1C1] s t) ∧
  (∀ (s : State) (src : Src) (data : Word),
    Reaches s.chip src 0x1C1 →
    s.chip.mgrOrCtl src = true →
    (match src with | .inst _ => false | _ => true) = true →
    s.chip.mode = Mode.SERVICE →
    s.chip.ptb.proof = none →
    (data.toNat < 2 ^ 10 ∧ data.toNat % 256 ≠ 0) →
    Completes (.wmForce src data) s fun t =>
      t.chip.get R.PTB.PERTURB_SETS.COUNT = min (s.chip.get R.PTB.PERTURB_SETS.COUNT + 1) (2 ^ 32 - 1) ∧ Recorded 0x1502 s t ∧ (t.chip.get R.PTB.PTB_STAT.ACTIVE).testBit 3 = true ∧
      t.chip.get R.PTB_PERTURB.WM_FORCE.PIPES = data.toNat % 256 ∧ t.chip.get R.PTB_PERTURB.WM_FORCE.CLASS = data.toNat / 256 ∧ OnlyPages [.rf, .csk] [0x1C0, 0x1C1] s t) ∧
  (∀ (s : State) (src : Src) (data : Word) (o g k : Nat),
    Reaches s.chip src 0x1C1 →
    s.chip.mgrOrCtl src = true →
    (match src with | .inst _ => false | _ => true) = true →
    s.chip.mode = Mode.SERVICE →
    s.chip.ptb.proof = none →
    (data.toNat % 2 ^ 31 = o + 8 * g + 256 * k ∧ o < 8 ∧ g < 16 ∧ 1 ≤ k ∧ k < 16) →
    s.chip.get R.PTB_PERTURB.SIG_INJ.GO = 0 →
    Completes (.sigInj src data) s fun t =>
      t.chip.get R.PTB.PERTURB_SETS.COUNT = min (s.chip.get R.PTB.PERTURB_SETS.COUNT + 1) (2 ^ 32 - 1) ∧ Recorded 0x1502 s t ∧ (t.chip.get R.PTB.PTB_STAT.ACTIVE).testBit 4 = true ∧
      t.chip.ptb = { s.chip.ptb with sigWait := true, sigLeft := k, sigOut := o, sigReg := g } ∧ t.chip.get R.PTB_PERTURB.SIG_INJ.OUT = o ∧ t.chip.get R.PTB_PERTURB.SIG_INJ.REGION = g ∧ t.chip.get R.PTB_PERTURB.SIG_INJ.FRAMES = k ∧ OnlyPages [.rf, .csk, .ptb] [0x1C0, 0x1C1] s t) ∧
  (∀ (s : State) (src : Src) (data : Word) (g b : Nat),
    Reaches s.chip src 0x1C1 →
    s.chip.mgrOrCtl src = true →
    (match src with | .inst _ => false | _ => true) = true →
    s.chip.mode = Mode.SERVICE →
    s.chip.ptb.proof = none →
    (data.toNat % 2 ^ 31 = g + 8 * b ∧ g < 4 ∧ b < 2) →
    Completes (.eccInj src data) s fun t =>
      t.chip.get R.PTB.PERTURB_SETS.COUNT = min (s.chip.get R.PTB.PERTURB_SETS.COUNT + 1) (2 ^ 32 - 1) ∧ Recorded 0x1502 s t ∧ (t.chip.get R.PTB.PTB_STAT.ACTIVE).testBit 5 = true ∧
      t.chip.get R.PTB_PERTURB.ECC_INJ.ARM = 1 ∧ t.chip.get R.PTB_PERTURB.ECC_INJ.TARGET = g ∧ t.chip.get R.PTB_PERTURB.ECC_INJ.DOUBLE = b ∧ OnlyPages [.rf, .csk] [0x1C0, 0x1C1] s t) ∧
  (∀ (s : State) (src : Src) (data : Word) (f d e x : Nat),
    Reaches s.chip src 0x1C1 →
    s.chip.mgrOrCtl src = true →
    (match src with | .inst _ => false | _ => true) = true →
    s.chip.mode = Mode.SERVICE →
    s.chip.ptb.proof = none →
    (data.toNat = f + 4 * d + 512 * e + 65536 * x + 2 ^ 31 ∧ f < 4 ∧ d < s.chip.tchNd f ∧ e < 36 ∧ x < 4096) →
    Completes (.tchInj src data) s fun t =>
      t.chip.get R.PTB.PERTURB_SETS.COUNT = min (s.chip.get R.PTB.PERTURB_SETS.COUNT + 1) (2 ^ 32 - 1) ∧ Recorded 0x1502 s t ∧ (t.chip.get R.PTB.PTB_STAT.ACTIVE).testBit 6 = true ∧
      t.chip.get R.PTB_PERTURB.TCH_INJ.EN = 1 ∧ t.chip.get R.PTB_PERTURB.TCH_INJ.TF = f ∧ t.chip.get R.PTB_PERTURB.TCH_INJ.DRIVE = d ∧ t.chip.get R.PTB_PERTURB.TCH_INJ.SENSE = e ∧ t.chip.get R.PTB_PERTURB.TCH_INJ.DELTA = x ∧ OnlyPages [.rf, .csk] [0x1C0, 0x1C1] s t) ∧
  (∀ (s : State) (src : Src) (data : Word),
    Reaches s.chip src 0x1C1 →
    s.chip.mgrOrCtl src = true →
    (match src with | .inst _ => false | _ => true) = true →
    s.chip.mode ≠ Mode.SERVICE →
    Completes (.fabStall src data) s fun t =>
      t.chip.get (H.ERR_COUNT 0x1C1) = min (s.chip.get (H.ERR_COUNT 0x1C1) + 1) 255 ∧ (s.chip.get (H.ERR_CODE 0x1C1) = 0 → t.chip.get (H.ERR_CODE 0x1C1) = E.MODE) ∧
      Only [.rf, .deliveries] [H.ERR_CODE 0x1C1, H.ERR_OFFSET 0x1C1, H.ERR_SOURCE 0x1C1, H.ERR_COUNT 0x1C1, H.IRQ_RAW 0x1C1] s t)

/-- Writes and reads on the register bus (R33, R34, R35, R36, R38, R41, R43, R45, R55, R73, R390). -/
def Obligations.RegisterBusWritesAndReads : Prop :=
  (∀ (s : State) (src : Src) (p : Nat) (data : List Byte),
    (p < 512 ∧ data.length = 4 ∧ placeOk src p 0x018 = true) →
    s.chip.recoveryAt src p 0x018 = none →
    (match src with | .inst _ => false | _ => true) = true →
    Reaches s.chip src p →
    s.chip.pageWriter src p = true →
    Completes (.regWrite src p 0x018 data) s fun t =>
      t.chip.get (H.IRQ_EN p) = leNat data ∧ t.chip.get (H.IRQ_RAW p) = s.chip.get (H.IRQ_RAW p) ∧ Only [.rf, .deliveries] [H.IRQ_EN p, H.IRQ_RAW p] s t) ∧
  (∀ (s : State) (src : Src) (i lo hi : Nat) (data : List Byte),
    (i < 7 ∧ data.length = 4 ∧ leNat data = lo + 65536 * hi ∧ lo < 65536) →
    placeOk src 0x003 (0x040 + 16 * i) = true →
    s.chip.recoveryAt src 0x003 (0x040 + 16 * i) = none →
    (match src with | .inst _ => false | _ => true) = true →
    Reaches s.chip src 0x003 →
    s.chip.mgrOrCtl src = true →
    (R.loopMin i ≤ lo ∧ lo ≤ hi ∧ hi ≤ R.loopMax i ∧ (i = 0 → 750 ≤ hi)) →
    Completes (.regWrite src 0x003 (0x040 + 16 * i) data) s fun t =>
      t.chip.get (R.SYS_POLICY.BOUNDS.FLOOR i) = lo ∧ t.chip.get (R.SYS_POLICY.BOUNDS.CEIL i) = hi ∧ Only [.rf] [R.SYS_POLICY.BOUNDS.FLOOR i, R.SYS_POLICY.BOUNDS.CEIL i] s t) ∧
  (∀ (s : State) (src : Src) (i lo hi : Nat) (data : List Byte),
    (i < 7 ∧ data.length = 4 ∧ leNat data = lo + 65536 * hi ∧ lo < 65536) →
    placeOk src 0x003 (0x040 + 16 * i) = true →
    s.chip.recoveryAt src 0x003 (0x040 + 16 * i) = none →
    (match src with | .inst _ => false | _ => true) = true →
    Reaches s.chip src 0x003 →
    s.chip.mgrOrCtl src = true →
    (hi < lo ∨ lo < R.loopMin i ∨ R.loopMax i < hi) →
    Completes (.regWrite src 0x003 (0x040 + 16 * i) data) s fun t =>
      t.chip.get (H.ERR_COUNT 0x003) = min (s.chip.get (H.ERR_COUNT 0x003) + 1) 255 ∧
      (if s.chip.get (H.ERR_CODE 0x003) = 0 then t.chip.get (H.ERR_CODE 0x003) = E.VALUE ∧ t.chip.get (H.ERR_OFFSET 0x003) = 0x010 + 4 * i ∧ t.chip.get (H.ERR_SOURCE 0x003) = srcCode src
        else t.chip.get (H.ERR_CODE 0x003) = s.chip.get (H.ERR_CODE 0x003) ∧ t.chip.get (H.ERR_OFFSET 0x003) = s.chip.get (H.ERR_OFFSET 0x003)) ∧
      (t.chip.get (H.IRQ_RAW 0x003)).testBit 31 = true ∧ Only [.rf, .deliveries] [H.ERR_CODE 0x003, H.ERR_OFFSET 0x003, H.ERR_SOURCE 0x003, H.ERR_COUNT 0x003, H.IRQ_RAW 0x003] s t) ∧
  (∀ (s : State) (src : Src) (p off : Nat) (data : List Byte),
    (data.length = 4 ∧ placeOk src p off = true ∧ off % 4 = 0) →
    (match src with | .ccn _ => true | .ccs _ => true | .island => true | _ => false) = true →
    s.chip.fabOn = true →
    pageExists p = false →
    (off = 0x018 ∨ (0x040 ≤ off ∧ off < 0xC00 ∧ leNat data = 0)) →
    Completes (.regWrite src p off data) s fun t =>
      t.chip.get (H.ERR_COUNT 0) = min (s.chip.get (H.ERR_COUNT 0) + 1) 255 ∧ (s.chip.get (H.ERR_CODE 0) = 0 → t.chip.get (H.ERR_CODE 0) = E.RANGE ∧ t.chip.get (H.ERR_OFFSET 0) = off / 4) ∧
      Only [.rf, .deliveries] [H.ERR_CODE 0, H.ERR_OFFSET 0, H.ERR_SOURCE 0, H.ERR_COUNT 0, H.IRQ_RAW 0] s t) ∧
  (∀ (s : State) (src : Src) (p off : Nat) (data : List Byte),
    (data.length ≤ 64 ∧ placeOk src p off = true) →
    (match src with | .ccn _ => true | .ccs _ => true | .island => true | _ => false) = true →
    Reaches s.chip src p →
    (off % 4 ≠ 0 ∨ data.length ≠ 4) →
    Completes (.regWrite src p off data) s fun t =>
      t.chip.get (H.ERR_COUNT p) = min (s.chip.get (H.ERR_COUNT p) + 1) 255 ∧ (s.chip.get (H.ERR_CODE p) = 0 → t.chip.get (H.ERR_CODE p) = E.ALIGN) ∧
      Only [.rf, .deliveries] [H.ERR_CODE p, H.ERR_OFFSET p, H.ERR_SOURCE p, H.ERR_COUNT p, H.IRQ_RAW p] s t) ∧
  (∀ (s : State) (port p : Nat) (data : List Byte),
    (data.length = 4 ∧ port < 4 ∧ p < 0x010) →
    s.chip.recoveryAt (.pf port) p 0x018 = none →
    (s.chip.fabOn = true ∧ s.chip.beforeRun = false) →
    s.chip.get R.IMX.MANAGER.MGR ≠ port →
    Completes (.regWrite (.pf port) p 0x018 data) s fun t =>
      t.chip.get (H.ERR_COUNT 0) = min (s.chip.get (H.ERR_COUNT 0) + 1) 255 ∧ (s.chip.get (H.ERR_CODE 0) = 0 → t.chip.get (H.ERR_CODE 0) = E.OWNER ∧ t.chip.get (H.ERR_SOURCE 0) = 1) ∧
      Only [.rf, .deliveries] [H.ERR_CODE 0, H.ERR_OFFSET 0, H.ERR_SOURCE 0, H.ERR_COUNT 0, H.IRQ_RAW 0] s t) ∧
  (∀ (s : State) (vi w off : Nat) (data : List Byte) (u : Nat × Nat),
    (data.length = 4 ∧ vi < 16 ∧ off < 0x1000 ∧ off % 4 = 0 ∧ 0x040 ≤ off) →
    (w = 0 ∨ (10 ≤ w ∧ w < 16)) →
    s.chip.instOn vi = true →
    u = s.chip.winUnder vi w off →
    Completes (.regWrite (.inst vi) w off data) s fun t =>
      (t.chip.get (H.ERR_COUNT (copyPage vi w))) = min (s.chip.get (H.ERR_COUNT (copyPage vi w)) + 1) 255 ∧
      (s.chip.get (H.ERR_CODE (copyPage vi w)) = 0 → t.chip.get (H.ERR_CODE (copyPage vi w)) = E.OWNER ∧ t.chip.get (H.ERR_OFFSET (copyPage vi w)) = off / 4 ∧ t.chip.get (H.ERR_SOURCE (copyPage vi w)) = 2) ∧
      (t.chip.get (H.ERR_COUNT u.1)) = min (s.chip.get (H.ERR_COUNT u.1) + 1) 255 ∧ (t.chip.get (H.IRQ_RAW (0x060 + vi))).testBit 3 = true ∧
      OnlyPages [.rf, .deliveries] [copyPage vi w, u.1, 0x060 + vi] s t) ∧
  (∀ (s : State) (src : Src) (p : Nat) (data : Word),
    placeOk src p 0x010 = true →
    s.chip.recoveryAt src p 0x010 = none →
    (match src with | .inst _ => false | _ => true) = true →
    Reaches s.chip src p →
    s.chip.pageWriter src p = true →
    Completes (.pageErrClear src p data) s fun t =>
      t.chip.get (H.ERR_CODE p) = (if bits data.toNat 0 8 ≠ 0 then 0 else s.chip.get (H.ERR_CODE p)) ∧ t.chip.get (H.ERR_OFFSET p) = (if bits data.toNat 8 12 ≠ 0 then 0 else s.chip.get (H.ERR_OFFSET p)) ∧
      t.chip.get (H.ERR_SOURCE p) = (if bits data.toNat 20 4 ≠ 0 then 0 else s.chip.get (H.ERR_SOURCE p)) ∧ t.chip.get (H.ERR_COUNT p) = (if bits data.toNat 24 8 ≠ 0 then 0 else s.chip.get (H.ERR_COUNT p)) ∧
      Only [.rf] [H.ERR_CODE p, H.ERR_OFFSET p, H.ERR_SOURCE p, H.ERR_COUNT p] s t) ∧
  (∀ (s : State) (src : Src) (p : Nat) (data : Word),
    placeOk src p 0x01C = true →
    s.chip.recoveryAt src p 0x01C = none →
    (match src with | .inst _ => false | _ => true) = true →
    Reaches s.chip src p →
    s.chip.pageWriter src p = true →
    Completes (.irqStatClear src p data) s fun t =>
      (∀ b ∈ List.range 32, (t.chip.get (H.IRQ_RAW p)).testBit b = ((s.chip.get (H.IRQ_RAW p)).testBit b && !data.toNat.testBit b)) ∧ t.chip.get (H.IRQ_EN p) = s.chip.get (H.IRQ_EN p) ∧
      Only [.rf, .deliveries] [H.IRQ_RAW p, H.IRQ_EN p] s t) ∧
  (∀ (s : State) (src : Src) (p : Nat) (en : Bool),
    placeOk src p 0x008 = true →
    s.chip.recoveryAt src p 0x008 = none →
    (match src with | .inst _ => false | _ => true) = true →
    Reaches s.chip src p →
    s.chip.pageWriter src p = true →
    (s.chip.get (H.CLAIMED p) = 0 ∨ isSecure src = true ∨ s.chip.get (H.ENABLE p) = b2n en) →
    (p < 0x1A8 ∨ 0x1B0 ≤ p ∨ p % 2 = 1) →
    s.chip.brg.hold.contains p = false →
    Completes (.ctrlEnable src p en) s fun t =>
      t.chip.get (H.ENABLE p) = b2n en ∧ (en = true → t.chip.blockStarted (blockOf p) = true) ∧ t.chip.pow = { s.chip.pow with started := t.chip.pow.started } ∧
      Only [.rf, .pow] [H.ENABLE p] s t) ∧
  (∀ (s : State) (src : Src) (p : Nat) (en : Bool),
    placeOk src p 0x008 = true →
    s.chip.recoveryAt src p 0x008 = none →
    (match src with | .inst _ => false | _ => true) = true →
    Reaches s.chip src p →
    s.chip.pageWriter src p = true →
    (s.chip.get (H.CLAIMED p) = 1 ∧ isSecure src = false ∧ s.chip.get (H.ENABLE p) ≠ b2n en) →
    Completes (.ctrlEnable src p en) s fun t =>
      t.chip.get (H.ENABLE p) = s.chip.get (H.ENABLE p) ∧ t.chip.get (H.ERR_COUNT p) = min (s.chip.get (H.ERR_COUNT p) + 1) 255 ∧ (s.chip.get (H.ERR_CODE p) = 0 → t.chip.get (H.ERR_CODE p) = E.CLAIMED) ∧
      t.chip.get R.SEC.CLAIM_REJECT.COUNT = min (s.chip.get R.SEC.CLAIM_REJECT.COUNT + 1) (2 ^ R.SEC.CLAIM_REJECT.COUNT.w - 1) ∧ (t.chip.get (H.IRQ_RAW 0x030)).testBit 2 = true ∧ Recorded 0x0401 s t ∧
      Only [.rf, .deliveries, .csk] [H.ERR_CODE p, H.ERR_OFFSET p, H.ERR_SOURCE p, H.ERR_COUNT p, H.IRQ_RAW p, R.SEC.CLAIM_REJECT.COUNT, H.IRQ_RAW 0x030] s t) ∧
  (∀ (s : State) (src : Src) (n : Nat),
    (n < 4 ∧ placeOk src (0x1A8 + 2 * n) 0x008 = true) →
    s.chip.recoveryAt src (0x1A8 + 2 * n) 0x008 = none →
    (match src with | .inst _ => false | _ => true) = true →
    Reaches s.chip src (0x1A8 + 2 * n) →
    s.chip.mgrOrCtl src = true →
    (s.chip.get (H.CLAIMED (0x1A8 + 2 * n)) = 0 ∨ isSecure src = true) →
    s.chip.get (H.ENABLE (0x1A8 + 2 * n)) = 1 →
    s.chip.tchPartner n = false →
    Completes (.ctrlReset src (0x1A8 + 2 * n)) s fun t =>
      (t.chip.tch1 n).phase = (if s.chip.get (R.TCH_CFG.TF_CFG.TEST_AT_EN n) = 1 then 1 else 2) ∧ (t.chip.tch1 n).contacts = [] ∧ (t.chip.tch1 n).baseM = [] ∧
      (t.chip.tch1 n).measuring = false ∧ (t.chip.tch1 n).ref = (s.chip.tch1 n).ref ∧ t.chip.get (H.ENABLE (0x1A8 + 2 * n)) = 1 ∧ t.chip.brg.hold.contains (0x1A8 + 2 * n) = false ∧
      (isCommitPage (0x1A8 + 2 * n) = true → t.chip.get (H.BUSY (0x1A8 + 2 * n)) = 0 ∧ t.chip.get (H.PENDING (0x1A8 + 2 * n)) = 0 ∧ (t.chip.stage (stageHome (0x1A8 + 2 * n))).shadow = []) ∧
      OnlyPages [.rf, .brg, .tch, .stg, .pow] [0x1A8 + 2 * n, 0x1A9 + 2 * n] s t) ∧
  (∀ (s : State) (src : Src) (p : Nat) (data : Word),
    Reaches s.chip src p →
    isSecure src = true →
    data.toNat < 2 →
    Completes (.claimWrite src p data) s fun t =>
      t.chip.get (H.CLAIMED p) = data.toNat ∧ Only [.rf] [H.CLAIMED p] s t) ∧
  (∀ (s : State) (src : Src) (p off : Nat),
    (placeOk src p off = true ∧ off % 4 = 0 ∧ 0x040 ≤ off) →
    s.chip.recoveryAt src p off = none →
    (match src with | .ccn _ => true | .ccs _ => true | .island => true | _ => false) = true →
    (s.chip.fabOn = true ∧ pageExists p = true ∧ (onField p = true → s.chip.brg.up = true)) →
    (p ≠ 0x012 ∧ p ≠ 0x014 ∧ p ≠ 0x020 ∧ p ≠ 0x022 ∧ p ≠ 0x140 ∧ p ≠ 0x1B3 ∧ p ≠ 0x1C0) →
    Completes (.registerRead src p off 4) s fun t =>
      t.chip.readData = s.chip.readReg p off ∧ Only [.readData] [] s t) ∧
  (∀ (s : State) (src : Src) (p off : Nat),
    (placeOk src p off = true ∧ off % 4 = 0 ∧ off < 0x040 ∧ off ≠ 0x00C) →
    s.chip.recoveryAt src p off = none →
    (match src with | .ccn _ => true | .ccs _ => true | .island => true | _ => false) = true →
    (s.chip.fabOn = true ∧ pageExists p = true ∧ (onField p = true → s.chip.brg.up = true)) →
    Completes (.registerRead src p off 4) s fun t =>
      t.chip.readData = s.chip.readHeader p off ∧ Only [.readData] [] s t) ∧
  (∀ (s : State) (src : Src) (p off : Nat),
    (placeOk src p off = true ∧ off % 4 = 0) →
    (match src with | .ccn _ => true | .ccs _ => true | .island => true | _ => false) = true →
    (s.chip.fabOn = true ∧ pageExists p = false) →
    Completes (.registerRead src p off 4) s fun t =>
      t.chip.readData = 0 ∧ Only [.readData] [] s t)

/-- GO, DISCARD, the end of validation and the latch of staged sets (R38, R39, R40, R315, R330). -/
def Obligations.StagedSetsCommitAndLatchWhole : Prop :=
  (∀ (s : State) (src : Src) (p : Nat) (l : List Nat),
    (placeOk src p 0x024 = true ∧ isCommitPage p = true) →
    s.chip.recoveryAt src p 0x024 = none →
    (match src with | .inst _ => false | _ => true) = true →
    Reaches s.chip src p →
    s.chip.mgrOrCtl src = true →
    s.chip.commitPages p = some l →
    ((l.all fun q => !s.chip.shadowTaken src q && !s.chip.shadowBusy q) = true) →
    (isCmpPage p = false ∨ (s.chip.mode ≠ Mode.DEGRADED ∧ s.chip.pow.cmpRising = false)) →
    (s.chip.get (H.BUSY p) = 0 ∧ s.chip.get (H.PENDING p) = 0) →
    Completes (.commitGo src p) s fun t =>
      t.chip.get (H.BUSY p) = 1 ∧ (l.all fun q => (t.chip.stage q).busyBy == some p && (t.chip.stage q).shadow == (s.chip.stage q).shadow) = true ∧ (t.chip.stage p).goBy = some src ∧ Only [.rf, .stg] [H.BUSY p] s t) ∧
  (∀ (s : State) (src : Src) (p : Nat),
    (placeOk src p 0x024 = true ∧ isCommitPage p = true) →
    s.chip.recoveryAt src p 0x024 = none →
    (match src with | .inst _ => false | _ => true) = true →
    Reaches s.chip src p →
    s.chip.mgrOrCtl src = true →
    s.chip.get (H.BUSY p) = 0 →
    ((((s.chip.commitPages p).getD [stageHome p]).all fun q => !s.chip.shadowBusy q) = true) →
    (s.chip.stg.map (·.page)).Nodup →
    Completes (.commitDiscard src p) s fun t =>
      t.chip.get (H.PENDING p) = 0 ∧ (((s.chip.commitPages p).getD [stageHome p]).all fun q => (t.chip.stage q).shadow == [] && (t.chip.stage q).owner == none) = true ∧
      (t.chip.stg.all fun x => x.pendBy != some p) = true ∧ Only [.rf, .stg] [H.PENDING p] s t) ∧
  (∀ (s : State) (p code : Nat),
    (p = 0x190 ∨ p = 0x1A0) →
    s.chip.get (H.BUSY p) = 1 →
    ((s.chip.stg.filter fun x => x.busyBy == some p).map (·.page) = [p]) →
    (s.chip.stg.map (·.page)).Nodup →
    ((if p = 0x190 then s.chip.audCheck else s.chip.hapCheck) = some code ∧ code ≠ 0 ∧ code < 256) →
    Completes (.commitValidationEnd p) s fun t =>
      t.chip.get (H.BUSY p) = 0 ∧ t.chip.get (H.RESULT p) = code ∧ t.chip.get (H.PENDING p) = s.chip.get (H.PENDING p) ∧ (t.chip.stage p).shadow = [] ∧ (t.chip.stage p).pending = (s.chip.stage p).pending ∧
      (s.chip.get (H.ERR_CODE p) = 0 → t.chip.get (H.ERR_CODE p) = code) ∧
      Only [.rf, .stg, .deliveries] [H.BUSY p, H.RESULT p, H.ERR_CODE p, H.ERR_OFFSET p, H.ERR_SOURCE p, H.ERR_COUNT p, H.IRQ_RAW p] s t) ∧
  (∀ (s : State) (p : Nat),
    (p = 0x190 ∨ p = 0x1A0) →
    s.chip.get (H.BUSY p) = 1 →
    ((s.chip.stg.filter fun x => x.busyBy == some p).map (·.page) = [p]) →
    (s.chip.stg.map (·.page)).Nodup →
    ((if p = 0x190 then s.chip.audCheck else s.chip.hapCheck) = none) →
    ((s.chip.stage p).pending = [] ∧ (s.chip.stage p).shadow ≠ []) →
    Completes (.commitValidationEnd p) s fun t =>
      t.chip.get (H.BUSY p) = 0 ∧ t.chip.get (H.RESULT p) = 0 ∧ t.chip.get (H.PENDING p) = 1 ∧ (t.chip.stage p).shadow = [] ∧ (t.chip.stage p).pending = (s.chip.stage p).shadow ∧
      (t.chip.stage p).pendBy = some p ∧ t.chip.blockStarted (blockOf p) = true ∧ t.chip.pow = { s.chip.pow with started := t.chip.pow.started } ∧
      Only [.rf, .stg, .pow] [H.BUSY p, H.RESULT p, H.PENDING p] s t) ∧
  (∀ (s : State) (x : StageSet) (f : Fld) (v : Nat),
    s.chip.pdOn PD.AUD = true →
    s.chip.get (H.PENDING 0x190) = 1 →
    ((s.chip.stg.filter fun y => y.pendBy == some 0x190) = [x]) →
    x.pending = [(f, v)] →
    (f.key ≠ (H.PENDING 0x190).key ∧ f.key ≠ (H.SEQ 0x190).key) →
    Completes (.commitLatch 0x190) s fun t =>
      t.chip.get f = v % 2 ^ f.w ∧ t.chip.get (H.PENDING 0x190) = 0 ∧ t.chip.get (H.SEQ 0x190) = (s.chip.get (H.SEQ 0x190) + 1) % 2 ^ 16 ∧
      (t.chip.stage x.page).pending = [] ∧ (t.chip.stage x.page).shadow = x.shadow ∧ Only [.rf, .stg] [f, H.PENDING 0x190, H.SEQ 0x190] s t) ∧
  (∀ (s : State) (p : Nat),
    p < 512 →
    s.chip.latchDue p = false →
    Completes (.commitLatch p) s fun t =>
      t = s)

/-- A step runs the command at the front of the queue on the queue's rest (03_register_model.md). -/
def Obligations.StepRunsTheFrontCommand : Prop :=
  ∀ (c : Instr) (rest : List Instr) (s : State), step { s with pending := c :: rest } = exec c { s with pending := rest }

/-- On an empty queue a nanosecond passes (the model's choice, log entry 2) (R19). -/
def Obligations.AnEmptyQueueLetsANanosecondPass : Prop :=
  ∀ s : State, s.pending = [] →
    ∃ t, step s = .next t ∧ t.chip.ps = s.chip.ps + 1000 ∧ t.mem = s.mem ∧ t.pending = [] ∧
      (s.chip.pdOn PD.DISP = true → s.chip.led.nsRem < 1000 → s.chip.led.slow = 0 ∧ s.chip.led.slew = 0 → t.chip.led.ns = (s.chip.led.ns + 1) % 2 ^ 64)

/-- What reset leaves, where the spec gives the value (R33, R36, R226, 02_raster_time.md, 03_register_model.md, 04_modes_and_power_domains.md, 17_control_cluster_and_worlds.md). -/
def Obligations.ResetValues : Prop :=
  let c := State.reset.chip
  State.reset.mem.wf = true ∧
    c.mode = Mode.BOOT ∧ c.get R.SYS_MODE.MODE_STAT.BUSY = 0 ∧ c.get R.SYS_MODE.AGREE.WINDOW = 0x3C ∧ c.get R.SYS_MODE.VIGIL_CFG.WK_PIN = 1 ∧ c.get R.SYS_POWER.PD_ON.ON = 0x1FC000F ∧
    c.get R.LDG.IDLE_TIMING.V_TOTAL = 0x08CA ∧ c.get R.LDG.IDLE_TIMING.LINE_PERIOD = 0x0B93 ∧ c.get R.LDG.IDLE_ACTIVE.V_ACTIVE = 0x0870 ∧
    (∀ i < 3, c.get (R.LDG.SLOT_POOL.POOL i) = 0xFFFFFFFF) ∧ (∀ k < 64, ∀ n < 2, c.get (R.LDG_SLOTS.SS_TGT.PERIOD n k) = 1) ∧
    c.get R.FAB.ISO_CFG.RESERVE = 16 ∧ c.get R.SEC_WDOG.WD_CFG.ARMED = 0 ∧
    (∀ p < 512, c.get (H.ERR_CODE p) = 0 ∧ c.get (H.ERR_COUNT p) = 0 ∧ c.get (H.IRQ_RAW p) = 0 ∧ c.get (H.IRQ_EN p) = 0)

/-- Every command that names what the part has answers a next state and leaves the queue to the step (01_architecture.md, 03_register_model.md). -/
def Obligations.WellFormedCommandsComplete : Prop :=
  ∀ (c : Instr) (s : State),
    (c.wellFormed = true → ∃ t, exec c s = .next t) ∧ (∀ t, exec c s = .next t → t.pending = s.pending) ∧
      (∀ f, exec c s = .fault f → f = .noSuchUnit) ∧ ∀ r, exec c s ≠ .refused r

/-- Every step keeps the addressed memories in canonical form (01_architecture.md, 15_dram_controller.md, 17_control_cluster_and_worlds.md, 21_cask_event_recorder.md). -/
def Obligations.EveryStepKeepsTheMemoriesCanonical : Prop :=
  ∀ s t : State, s.mem.wf = true → step s = .next t → t.mem.wf = true
end

