-- ==== Sys2Proof/Laws/Memories.lean ====
section
/-! SUPPORT. The operations that store to the addressed memories keep them in canonical form, and the outcomes a meaning can have. -/

namespace Sys2Proof.Machine

/-! ### Canonical form -/

theorem Mems.wf_dram {m : Mems} (a : Nat) (bs : List Byte) (h : m.wf = true) :
    Mems.wf { m with dram := Memory.writeBytes m.dram a bs } = true := by
  simp_all [Mems.wf, Memory.wf_writeBytes]

theorem Mems.wf_sram {m : Mems} (a : Nat) (bs : List Byte) (h : m.wf = true) :
    Mems.wf { m with sram := Memory.writeBytes m.sram a bs } = true := by
  simp_all [Mems.wf, Memory.wf_writeBytes]

theorem Mems.wf_isl {m : Mems} (a : Nat) (bs : List Byte) (h : m.wf = true) :
    Mems.wf { m with isl := Memory.writeBytes m.isl a bs } = true := by
  simp_all [Mems.wf, Memory.wf_writeBytes]

theorem Mems.wf_host {m : Mems} (a : Nat) (bs : List Byte) (h : m.wf = true) :
    Mems.wf { m with host := Memory.writeBytes m.host a bs } = true := by
  simp_all [Mems.wf, Memory.wf_writeBytes]

theorem Mems.wf_cask {m : Mems} (a : Nat) (bs : List Byte) (h : m.wf = true) :
    Mems.wf { m with cask := Memory.writeBytes m.cask a bs } = true := by
  simp_all [Mems.wf, Memory.wf_writeBytes]

/-- A choice of results has canonical memories where each has. -/
theorem Mems.wf_ite {p : Prop} [Decidable p] {x y : Chip × Mems} (hx : x.2.wf = true) (hy : y.2.wf = true) : (if p then x else y).2.wf = true := by
  by_cases h : p
  · rwa [if_pos h]
  · rwa [if_neg h]

/-- What is lost with the supply leaves the other memories in canonical form. -/
theorem Mems.wf_lost {m : Mems} (h : m.wf = true) : m.lost.wf = true := by
  have none : Memory.wf [] = true := rfl
  simp_all [Mems.wf, Mems.lost]

/-- A store to DRAM changes its bytes alone. -/
theorem Chip.dramPut_mem (c : Chip) (m : Mems) (a : Nat) (bs : List Byte) :
    (c.dramPut m a bs).2 = { m with dram := Memory.writeBytes m.dram a bs } := rfl

theorem Chip.wf_dramPut (c : Chip) {m : Mems} (a : Nat) (bs : List Byte) (h : m.wf = true) : (c.dramPut m a bs).2.wf = true :=
  Mems.wf_dram a bs h

theorem Chip.wf_putAll (l : List (Nat × List Byte)) (c : Chip) {m : Mems} (h : m.wf = true) : (c.putAll m l).2.wf = true := by
  unfold Chip.putAll
  induction l generalizing c m with
  | nil => exact h
  | cons x l ih => exact ih ((c.linesPut x.1 x.2).dramPut m x.1 x.2).1 (Chip.wf_dramPut (c.linesPut x.1 x.2) x.1 x.2 h)

theorem Chip.wf_dmaStore (c : Chip) {m : Mems} (space own : Nat) (noSnoop : Bool) (a : Nat) (bs : List Byte) (h : m.wf = true) :
    (c.dmaStore m space own noSnoop a bs).2.wf = true := Mems.wf_ite (Chip.wf_dramPut _ _ _ h) (Mems.wf_host _ _ h)

/-- An entry goes to DRAM or to host memory. -/
theorem Chip.wf_cqWrite (c : Chip) {m : Mems} (r : Nat) (e : List Byte) (h : m.wf = true) : (c.cqWrite m r e).2.wf = true :=
  Mems.wf_ite (Chip.wf_dramPut _ _ _ h) (Mems.wf_host _ _ h)

theorem Chip.wf_cqPut (c : Chip) {m : Mems} (r : Nat) (e : List Byte) (h : m.wf = true) : (c.cqPut m r e).2.wf = true :=
  Mems.wf_ite (Chip.wf_cqWrite _ _ _ h) (Mems.wf_ite h h)

theorem Chip.wf_cqDrain (n : Nat) (c : Chip) {m : Mems} (r : Nat) (h : m.wf = true) : (c.cqDrain m r n).2.wf = true := by
  induction n generalizing c m with
  | zero => exact h
  | succ n ih =>
    rw [Chip.cqDrain]
    cases (c.ring r).ovf with
    | nil => exact h
    | cons e rest => exact Mems.wf_ite h (ih _ (Chip.wf_cqWrite _ _ _ h))

theorem Chip.wf_chunkFill (c : Chip) {m : Mems} (a : Nat) (h : m.wf = true) : (c.chunkFill m a).2.wf = true := by
  unfold Chip.chunkFill
  exact Chip.wf_dramPut _ _ _ h

/-- Reset lists nothing in any memory. -/
theorem Mems.wf_reset : State.reset.mem.wf = true := rfl

/-! ### Outcomes -/

/-- A meaning over the chip alone leaves memories and queue as they are. -/
theorem State.on_keeps {s t : State} {b : Bool} {f : Chip → Chip} (h : s.on b f = .next t) : t.mem = s.mem ∧ t.pending = s.pending := by
  cases b
  · cases h
  · cases h; exact ⟨rfl, rfl⟩

/-- A meaning over chip and memories leaves the queue as it is, and its memories canonical where its effect does. -/
theorem State.onMem_wf {s t : State} {b : Bool} {f : Chip → Mems → Chip × Mems} (h : s.onMem b f = .next t)
    (hf : (f s.chip s.mem).2.wf = true) : t.mem.wf = true ∧ t.pending = s.pending := by
  cases b
  · cases h
  · cases h; exact ⟨hf, rfl⟩

/-- A meaning over the chip can only stop with `noSuchUnit`. -/
theorem State.on_fault {s : State} {b : Bool} {f : Chip → Chip} {e : Fault} (h : s.on b f = .fault e) : e = .noSuchUnit ∧ b = false := by
  cases b
  · cases h; exact ⟨rfl, rfl⟩
  · cases h

theorem State.onMem_fault {s : State} {b : Bool} {f : Chip → Mems → Chip × Mems} {e : Fault} (h : s.onMem b f = .fault e) :
    e = .noSuchUnit ∧ b = false := by
  cases b
  · cases h; exact ⟨rfl, rfl⟩
  · cases h

end Sys2Proof.Machine
end

