-- ==== Sys2Proof/Laws/Units.lean ====
section
/-! SUPPORT. The state of one unit after the state of a unit has been put: an output, a pipe, a control core, a DRAM channel, a shader core. -/

namespace Sys2Proof.Machine

/-! ### The block that software starts -/

/-- Starting a block changes at most the list of started blocks. -/
theorem Chip.startBlock_eq (c : Chip) (b : Nat) : c.startBlock b = { c with pow := { c.pow with started := (c.startBlock b).pow.started } } := by
  unfold Chip.startBlock
  split <;> rfl

@[simp] theorem Chip.startBlock_rf (c : Chip) (b : Nat) : (c.startBlock b).rf = c.rf := by rw [Chip.startBlock_eq]
@[simp] theorem Chip.startBlock_get (c : Chip) (b : Nat) (f : Fld) : (c.startBlock b).get f = c.get f := by rw [Chip.startBlock_eq]; rfl

@[simp] theorem Chip.blockStarted_startBlock (c : Chip) (b : Nat) : (c.startBlock b).blockStarted b = true := by
  unfold Chip.startBlock
  split
  · assumption
  · simp [Chip.blockStarted]

/-! ### Units that are looked up by number -/

@[simp] theorem Chip.scnOut_setScn_self (c : Chip) (n : Nat) (x : ScnOut) : (c.setScn n x).scnOut n = x := SMap.getD_put_self c.scn _ n x
theorem Chip.scnOut_setScn_of_ne (c : Chip) {n k : Nat} (x : ScnOut) (h : k ≠ n) : (c.setScn n x).scnOut k = c.scnOut k := SMap.getD_put_of_ne c.scn _ _ x h
@[simp] theorem Chip.setScn_rf (c : Chip) (n : Nat) (x : ScnOut) : (c.setScn n x).rf = c.rf := rfl
@[simp] theorem Chip.setScn_get (c : Chip) (n : Nat) (x : ScnOut) (f : Fld) : (c.setScn n x).get f = c.get f := rfl

@[simp] theorem Chip.cpipe_setPipe_self (c : Chip) (n : Nat) (x : CmpPipe) : (c.setPipe n x).cpipe n = x := SMap.getD_put_self c.cmp.pipe _ n x
theorem Chip.cpipe_setPipe_of_ne (c : Chip) {n k : Nat} (x : CmpPipe) (h : k ≠ n) : (c.setPipe n x).cpipe k = c.cpipe k := SMap.getD_put_of_ne c.cmp.pipe _ _ x h
@[simp] theorem Chip.setPipe_rf (c : Chip) (n : Nat) (x : CmpPipe) : (c.setPipe n x).rf = c.rf := rfl
@[simp] theorem Chip.setPipe_get (c : Chip) (n : Nat) (x : CmpPipe) (f : Fld) : (c.setPipe n x).get f = c.get f := rfl

@[simp] theorem Chip.cc_setCc_self (c : Chip) (n : Nat) (x : CoreSt) : (c.setCc n x).cc n = x := SMap.getD_put_self c.ctl.core _ n x
theorem Chip.cc_setCc_of_ne (c : Chip) {n k : Nat} (x : CoreSt) (h : k ≠ n) : (c.setCc n x).cc k = c.cc k := SMap.getD_put_of_ne c.ctl.core _ _ x h
@[simp] theorem Chip.setCc_rf (c : Chip) (n : Nat) (x : CoreSt) : (c.setCc n x).rf = c.rf := rfl
@[simp] theorem Chip.setCc_get (c : Chip) (n : Nat) (x : CoreSt) (f : Fld) : (c.setCc n x).get f = c.get f := rfl

@[simp] theorem Chip.dch1_setDch1_self (c : Chip) (n : Nat) (x : DramChan) : (c.setDch1 n x).dch1 n = x := SMap.getD_put_self c.drc.ch _ n x
theorem Chip.dch1_setDch1_of_ne (c : Chip) {n k : Nat} (x : DramChan) (h : k ≠ n) : (c.setDch1 n x).dch1 k = c.dch1 k := SMap.getD_put_of_ne c.drc.ch _ _ x h
@[simp] theorem Chip.setDch1_rf (c : Chip) (n : Nat) (x : DramChan) : (c.setDch1 n x).rf = c.rf := rfl
@[simp] theorem Chip.setDch1_get (c : Chip) (n : Nat) (x : DramChan) (f : Fld) : (c.setDch1 n x).get f = c.get f := rfl

@[simp] theorem Chip.gcore_setCore_self (c : Chip) (k : Nat) (g : GCore) : (c.setCore k g).gcore k = some g := SMap.find?_insert_self c.gfx.cores k g
theorem Chip.gcore_setCore_of_ne (c : Chip) {k j : Nat} (g : GCore) (h : j ≠ k) : (c.setCore k g).gcore j = c.gcore j :=
  SMap.find?_insert_of_ne c.gfx.cores g h
@[simp] theorem Chip.setCore_rf (c : Chip) (k : Nat) (g : GCore) : (c.setCore k g).rf = c.rf := rfl
@[simp] theorem Chip.setCore_get (c : Chip) (k : Nat) (g : GCore) (f : Fld) : (c.setCore k g).get f = c.get f := rfl

end Sys2Proof.Machine
end

