-- ==== Sys2Proof/Tests/Slice0.lean ====
section
/-! SUPPORT. The model's own tests: well-formed and ill-formed commands, small steps with results worked out from the spec by hand, and for
every statement states and operands that meet its hypotheses. -/

namespace Sys2Proof.Tests

set_option Elab.async false

open Sys2Proof Sys2Proof.Machine

/-- The state after reset with the listed fields given values. -/
def regs (l : List (Fld × Nat)) : State := { chip := l.foldl (fun c x => c.set x.1 x.2) {} }

/-- The same in RUN. -/
def run (l : List (Fld × Nat)) : State := regs ((R.SYS_MODE.MODE_STAT.MODE, 3) :: l)

/-- A state with its chip changed. -/
def on (s : State) (f : Chip → Chip) : State := { s with chip := f s.chip }

/-- A descriptor of 2 rows of 128 bytes from 4096 to 8192, with pitch 256. -/
def cpBytes (op : Nat) : List Byte :=
  leBytes 16 op ++ leBytes 4 0 ++ leBytes 4 128 ++ leBytes 8 (if op = 2 then 0xABCD else 4096) ++ leBytes 8 8192 ++ leBytes 4 (if op = 2 then 0 else 256)
    ++ leBytes 4 256 ++ leBytes 4 2 ++ leBytes 12 0

/-- Wave 191 stands before `ins` in RUN. -/
def wv (frag : Bool) (ins : Nat) : GWave :=
  { core := 0, home := 0, ctx := 0, frag := frag, st := 0, code := [ins], nreg := 64, active := 15, lanes := [], regs := [(4, 7), (8, 9), (68, 1)] }

def atWave (frag : Bool) (ins : Nat) : State := on (run []) fun c => { c with gfx := { waves := [(191, wv frag ins)] } }

/-- An instruction word: opcode, destination, sources r2, r4 and r6. -/
def insOf (op dst : Nat) : Nat := op + dst * 2 ^ 12 + 2 * 2 ^ 18 + 4 * 2 ^ 25 + 6 * 2 ^ 32

/-- A job of pair 0 with a draw state set, and with a draw in progress. -/
def aJobSt (st : GState) : GJob := { ring := 0, seq := 7, own := 0, no := 3, entry := [], target := [], code := (8192, 64, 0), wideAt := 16, states := [st] }
def aJob : GJob := { aJobSt {} with draw := some { st := 0, shade := [], items := [], perInst := 0 } }

/-- Wave 191 of that job before an instruction with this opcode. -/
def atJobWave (op : Nat) (st : GState) : State :=
  on (atWave true (insOf op 31)) fun c => { c with gfx := { c.gfx with jobs := [(0, aJobSt st)] } }

/-- A descriptor of a linear 4 × 4 texture of format 0 at 4096. -/
def aTexture : List Byte := leBytes 8 4096 ++ leBytes 2 3 ++ leBytes 2 3 ++ leBytes 4 65536 ++ leBytes 16 0

/-- A triangle, and wave 191 shading fragments of it. -/
def aPrim : GPrim :=
  { idx := 0, st := 0, kind := 0, poly := [], verts := [{ vary := [(0, 0x3C00)] }], front := true, rect := (0, 0, 0, 0), wide := false }
def atPrimWave (ins : Nat) : State :=
  on (atWave true ins) fun c => { c with gfx := { c.gfx with jobs := [(0, aJobSt {})], cores := [(0, { ctx := 0, list := [aPrim] })] } }

/-- The job whose command buffer at 8192 holds one packet: code and payload words. -/
def pktJob (code : Nat) (ws : List Nat) (st : GState) : GJob := { aJobSt st with st := st, code := (8192, 4 + 4 * ws.length + 4, 0), pkt := 9 + 0 * code }
def pktMem (code : Nat) (ws : List Nat) : Memory :=
  Memory.writeBytes [] 8192 (leBytes 4 (code + 65536 * ws.length) ++ ws.flatMap (leBytes 4) ++ leBytes 4 1)
def atPkt (code : Nat) (ws : List Nat) (st : GState) (l : List (Nat × List Byte)) : State :=
  { run [(R.DRC.CAPACITY.USABLE_2M, 6144)] with
    mem := { dram := l.foldl (fun m x => Memory.writeBytes m x.1 x.2) (pktMem code ws) },
    chip := { (run [(R.DRC.CAPACITY.USABLE_2M, 6144)]).chip with gfx := { jobs := [(15, { pktJob code ws st with own := 17 })] } } }

/-- A program image of `stage` that holds END alone. -/
def mkProg (stage : Nat) : List Byte :=
  let h := leBytes 2 0x5A57 ++ leBytes 1 stage ++ leBytes 1 0 ++ leBytes 1 2 ++ leBytes 7 0
  h ++ leBytes 4 (crc32 (h ++ leBytes 8 0x7F)) ++ leBytes 8 0x7F

/-- A GFX entry waits at pair 63; a target set lies at 16384. -/
def aTarget : List Byte := leBytes 4 1 ++ leBytes 2 63 ++ leBytes 2 63 ++ leBytes 4 256 ++ leBytes 4 66560 ++ leBytes 48 0
def jobBytes : List Byte :=
  leBytes 16 1 ++ leBytes 8 8192 ++ leBytes 4 64 ++ leBytes 4 0 ++ leBytes 8 65536 ++ leBytes 4 0 ++ leBytes 4 0 ++ leBytes 8 16384 ++ leBytes 4 1024 ++ leBytes 4 0
def atEntry (b : List Byte) : State :=
  { run [(R.DRC.CAPACITY.USABLE_2M, 6144), (R.SYS_POWER.PD_ON.ON, 0x1FFFFFF), (R.RNG.RING_BIND.OWNER 31 1, 2)] with
    mem := { dram := Memory.writeBytes [] 16384 aTarget },
    chip := { (run [(R.DRC.CAPACITY.USABLE_2M, 6144), (R.SYS_POWER.PD_ON.ON, 0x1FFFFFF), (R.RNG.RING_BIND.OWNER 31 1, 2)]).chip with
      imx := { rings := [(63, { issued := [⟨9, b, true, none⟩] })] } } }

/-- The manager's job over a target of two tiles, rendering. -/
def rJob : GJob := { aJobSt {} with own := 16, target := aTarget, entry := jobBytes, phase := 1 }

/-- A LAYER record for unit 47 that gives nothing but its address. -/
def layerBytes : List Byte := leBytes 16 1 ++ leBytes 1 47 ++ leBytes 1 1 ++ leBytes 46 0

/-- Four running cores in the normal world, and a GMARK at the start of SRAM, which the entry table holds. -/
def gateState : State :=
  { run [(R.CTL.CC_STAT.RUNNING, 15), (R.SEC.ENTRY_SIZE.SIZE, 1)] with mem := { sram := Memory.writeBytes [] 0 (leBytes 4 0x5EC0300B) } }

/-- A touch entry waits at pair 63 of the manager; its fields at 0x10, 0x11 and 0x18. -/
def tchBytes (op n k : Nat) (a : Nat := 0) : List Byte := leBytes 16 op ++ leBytes 1 n ++ leBytes 7 k ++ leBytes 8 a ++ leBytes 32 0
def atEntry5 (b : List Byte) : State :=
  on (run [(R.RNG.RING_BIND.CLASS 31 1, 5), (R.RNG.RING_BIND.OWNER 31 1, 2)]) fun c => { c with imx := { rings := [(63, { issued := [⟨9, b, true, none⟩] })] } }

/-- A reference block of zeros at 8192. -/
def refHead : List Byte := leBytes 2 0x5246 ++ leBytes 1 56 ++ leBytes 1 36 ++ leBytes 1 10 ++ leBytes 1 50 ++ leBytes 2 1000 ++ leBytes 4 0
def refCrc : Nat := crc32 (refHead ++ List.replicate 4216 0)
def refMem : Memory := Memory.writeBytes [] 8192 (refHead ++ leBytes 4 refCrc)
def aRef : TchRef := { nd := 56, swing := 10, stepUs := 50, selfUs := 1000, nodes := List.replicate 2016 0, self := List.replicate 92 0 }

theorem refMem_head (k o : Nat) (h : o + k ≤ 16) : Memory.readBytes refMem (8192 + o) k = ((refHead ++ leBytes 4 refCrc).drop o).take k := by
  have hl : (refHead ++ leBytes 4 refCrc).length = 16 := rfl
  apply List.ext_getElem
  · simp [Memory.readBytes, hl]; omega
  · intro i h1 h2
    simp only [Memory.readBytes, List.length_map, List.length_range] at h1
    simp only [Memory.readBytes, List.getElem_map, List.getElem_range, List.getElem_take, List.getElem_drop]
    rw [show 8192 + o + i = 8192 + (o + i) by omega, refMem, Memory.read_writeBytes_inside _ _ _ (by omega)]

theorem refMem_tail (a n : Nat) (h : 8208 ≤ a) : Memory.readBytes refMem a n = List.replicate n 0 := by
  apply List.ext_getElem
  · simp [Memory.readBytes]
  · intro i h1 h2
    simp only [Memory.readBytes, List.getElem_map, List.getElem_range, List.getElem_replicate]
    rw [refMem, Memory.read_writeBytes_outside _ _ _ (Or.inr (by show 8192 + 16 ≤ _; omega))]
    rfl

theorem refMem_words (a k : Nat) (h : 8208 ≤ a) : readWords refMem a k = List.replicate k 0 := by
  apply List.ext_getElem
  · simp [readWords]
  · intro i h1 h2
    simp only [readWords, List.getElem_map, List.getElem_range, List.getElem_replicate, Memory.readNat]
    rw [refMem_tail _ _ (by omega)]
    rfl

theorem crc32_lt (bs : List Byte) : crc32 bs < 2 ^ 32 := BitVec.isLt _

theorem refHead_crc (k : Nat) (h : k < 2 ^ 32) : leNat (((refHead ++ leBytes 4 k).drop 12).take 4) = k := by
  have h2 : ((refHead ++ leBytes 4 k).drop 12).take 4 = leBytes 4 k := rfl
  rw [h2]
  simp [leBytes, leNat]
  omega

theorem refCrc_lt : refCrc < 2 ^ 32 := by rw [refCrc]; exact crc32_lt _

theorem refMem_crc : Memory.readNat refMem (8192 + 12) 4 = refCrc := by
  rw [Memory.readNat, refMem_head 4 12 (by decide), refHead_crc _ refCrc_lt]

theorem ref_ok : refBlock refMem 8192 56 = some aRef := by
  have f : ∀ o k, o + k ≤ 12 → Memory.readNat refMem (8192 + o) k = leNat ((refHead.drop o).take k) := by
    intro o k h
    rw [Memory.readNat, refMem_head k o (by omega), List.drop_append_of_le_length (by show o ≤ 12; omega), List.take_append_of_le_length]
    simp only [List.length_drop]
    show k ≤ 12 - o
    omega
  have hb : crc32 (Memory.readBytes refMem 8192 12 ++ Memory.readBytes refMem (8192 + 16) (16 + 56 * 72 + (56 + 36) * 2 - 16)) = refCrc := by
    have h := refMem_head 12 0 (by decide)
    rw [show 8192 = 8192 + 0 from rfl, h, refMem_tail _ _ (by decide)]
    rfl
  unfold refBlock
  simp only [hb, refMem_crc, f 0 2 (by decide), f 2 1 (by decide), f 3 1 (by decide), f 4 1 (by decide), f 5 1 (by decide), f 6 2 (by decide), f 8 4 (by decide),
    refMem_words _ _ (show 8208 ≤ 8192 + 16 by decide), refMem_words _ _ (show 8208 ≤ 8192 + 16 + 56 * 72 by decide)]
  rfl

def refState : State :=
  { on (atEntry5 (tchBytes 2 3 0 8192)) (fun c => c.set R.DRC.CAPACITY.GIB 12) with mem := { dram := refMem } }

theorem refState_ok : refBlock refState.mem.dram 8192 (refState.chip.tchNd 3) = some aRef := by
  rw [show refState.chip.tchNd 3 = 56 by decide +kernel, show refState.mem.dram = refMem by simp only [refState]]
  exact ref_ok

/-- A haptic entry waits at pair 63 of the manager; slot 7 holds an image of two samples, and every channel is enabled. -/
def atEntry4 (b : List Byte) : State :=
  on (run [(R.RNG.RING_BIND.CLASS 31 1, 4), (R.RNG.RING_BIND.OWNER 31 1, 2)]) fun c => { c with imx := { rings := [(63, { issued := [⟨9, b, true, none⟩] })] } }
def imageHead : List Byte := leBytes 2 0x4846 ++ leBytes 1 1 ++ leBytes 1 0 ++ leBytes 1 2 ++ leBytes 1 255 ++ leBytes 2 175 ++ leBytes 1 1 ++ leBytes 1 255 ++ leBytes 1 255 ++ leBytes 1 0
def anImage : List Byte := imageHead ++ leBytes 4 (crc32 (imageHead ++ leBytes 2 0x817F)) ++ leBytes 2 0x817F
def playBytes (eff prio mask delay : Nat) : List Byte :=
  leBytes 16 1 ++ leBytes 1 eff ++ leBytes 1 prio ++ leBytes 1 mask ++ leBytes 1 0 ++ leBytes 14 0 ++ leBytes 1 delay ++ leBytes 1 255 ++ leBytes 28 0
def hapReady (b : List Byte) : State :=
  on (atEntry4 b) fun c =>
    (List.range 8).foldl (fun c k => c.set (R.HAP_CH.CH_CFG.EN k) 1) { c with hap := { ram := [(7, anImage)] }, pow := { started := [0x12] } }

/-- An audio entry waits at pair 63 of the manager. -/
def bufBytes (op k flags frames : Nat) : List Byte := leBytes 16 op ++ leBytes 1 k ++ leBytes 1 flags ++ leBytes 2 0 ++ leBytes 4 frames ++ leBytes 8 8192 ++ leBytes 32 0
def atEntry3 (b : List Byte) : State :=
  on (run [(R.RNG.RING_BIND.CLASS 31 1, 3), (R.RNG.RING_BIND.OWNER 31 1, 2), (R.DRC.CAPACITY.GIB, 12)]) fun c =>
    { c with imx := { rings := [(63, { issued := [⟨9, b, true, none⟩] })] } }

/-- Device 3 is reachable on JL1 and may read and write the first 2 MiB of DRAM; the same with registers. -/
def daccState : State :=
  run [(R.SYS_POWER.PD_ON.ON, 0x1FFFFFF), (R.LNK.ACCEPT.DRAM_FROM, 8), (R.LNK.DACC_SIZE.UNITS, 1), (R.LNK.TOPO.REACH0, 4), (R.LNK.TOPO.REACH1, 8), (R.DRC.CAPACITY.GIB, 12), (R.DRC.CAPACITY.USABLE_2M, 6144), (R.SEC.DRAM_WMARK.WMARK, 0)]
def regAcc : State := on daccState fun c => c.set R.LNK.ACCEPT.REG_FROM 8

/-- VIGIL with the resume at its last step: the island runs, and the digest of the resume region is to be checked. -/
def resumeEnd : State :=
  regs [(R.SYS_MODE.MODE_STAT.MODE, 1), (R.SYS_MODE.MODE_STAT.BUSY, 1), (R.SYS_BOOT.BOOT_STAT.STAGE, 7), (R.SAF.ISL_STAT.STATE, 1)]

/-- A partition table whose island image has copies of 3 bytes, and a first stage with a second copy of 2 bytes. -/
def flashPart : List (List Byte) :=
  [1, 2, 3, 4].map fun k => leBytes 4 k ++ leBytes 4 0 ++ leBytes 4 (if k < 3 then 3 else k - 2) ++ leBytes 4 0
def flashTable : FlashTable := { crcOk := true, entries := flashPart ++ [[0xFF]] }

/-- An island image whose one early entry has a mode that does not exist. -/
def badEarly : FlashImage := { bytes := [1, 2, 3], crcOk := true, early := [[7, 4]], earlyCrc := BitVec.ofNat 32 (crc32 (padTo 32 [7, 4])) }

/-- BOOT before the first stage, with that table read. -/
def ccStage : State := on (regs [(R.SYS_BOOT.BOOT_STAT.STAGE, 3)]) fun c => { c with pow := { part := flashPart } }

/-- Every host port's link has been up for 250 ms. -/
def portUp (c : Chip) : Chip := { c with ps := 250000000000, imx := { c.imx with ready := [0, 1, 2, 3] } }

theorem portUp_config (c : Chip) (p : Nat) (hp : p < 4) (h : c.pdOn PD.HOST = true) (ht : c.pow.t0 = 0) (ha : c.imx.perstAt = []) :
    (portUp c).configOn p = true := by
  have h1 : (portUp c).pdOn PD.HOST = true := h
  have h2 : (portUp c).imx.ready.contains p = true := by
    show ([0, 1, 2, 3] : List Nat).contains p = true
    have : ∀ p < 4, ([0, 1, 2, 3] : List Nat).contains p = true := by decide
    exact this p hp
  have h3 : (portUp c).portFrom p = 0 := by
    show max c.pow.t0 (SMap.getD c.imx.perstAt p 0) = 0
    rw [ht, ha]
    rfl
  rw [Chip.configOn, h1, h2, h3]
  simp [portUp, Nat.min_le_right]

/-! ### Small steps -/

/-- The state after one step with `c` at the front of the queue, if there is one. -/
def after (s : State) (c : Instr) : Option State :=
  match step { s with pending := [c] } with
  | .next t => some t
  | _ => none

/-- After reset the part is in BOOT (register table of MODE_STAT). -/
theorem test_reset_boot : State.reset.chip.get R.SYS_MODE.MODE_STAT.MODE = 2 := by decide

/-- No row has bits. -/
theorem test_no_word : decodeTableWord 32 0x80000009 = none := rfl

/-- An empty queue: one nanosecond (log entry 2). -/
theorem test_idle_tick : (match step (run []) with | .next t => t.chip.ps | _ => 0) = 1000 := by decide +kernel

/-- The example of 03_register_model.md: arming SS40 with the reserved action 0x09 through the manager's port leaves PAGE_ERR at 0x0110B201 and
IRQ_RAW bit 31 set. -/
theorem test_slot_arm_reserved_action :
    (after (run [(R.SYS_POWER.PD_ON.ON, 0x1FFFFFF), (R.LDG.SLOT_POOL.POOL 0, 0xFFFFFEFF)]) (.slotArm (.pf 0) 40 0x80000009)).map
      (fun t => (t.chip.readHeader 0x012 0x010, (t.chip.get (H.IRQ_RAW 0x012)).testBit 31, t.chip.get (R.LDG_SLOTS.SS_STAT.STATE 0 40), t.chip.get (R.LDG_SLOTS.SS_STAT.ERR 0 40)))
      = some (0x0110B201, true, 0, E.VALUE) := by decide +kernel

/-- The example of 17_control_cluster_and_worlds.md: SRAM_WMARK 0x080, table of 4 KiB at 0x1000, GMARK at 0x1000, 0x1008 and 0x1030. -/
def gateTable : State :=
  { run [(R.CTL.CC_STAT.RUNNING, 15), (R.CTL.CC_STAT.SECURE, 0), (R.SEC.SRAM_WMARK.WMARK, 0x080), (R.SEC.ENTRY_BASE.OFFSET, 0x200), (R.SEC.ENTRY_SIZE.SIZE, 16)] with
    mem := { sram := [0x1000, 0x1008, 0x1030].foldl (fun m a => Memory.writeBytes m a (leBytes 4 0x5EC0300B)) [] } }

/-- GATE x1 to 0x0100_1030 enters the secure world there and leaves the return address in x1. -/
theorem test_gate_enters : (after gateTable (.gate 0 1 0 0x1001030 0x40 1 false)).map
    (fun t => (t.chip.ccSecure 0, (t.chip.cc 0).pc, (t.chip.cc 0).x.getD 1 0)) = some (true, 0x1001030, 0x44) := by decide +kernel

/-- GATE to 0x0100_1034, 0x0100_1010 and 0x0100_3000: gate faults. -/
theorem test_gate_faults : [0x1001034, 0x1001010, 0x1003000].map (fun a => (after gateTable (.gate 0 1 0 a 0x40 1 false)).map
    fun t => (t.chip.ccSecure 0, t.chip.get R.SEC.GATE_FAULT.COUNT)) = [some (false, 1), some (false, 1), some (false, 1)] := by decide +kernel

/-- R237: core 0 holds LK5, core 1 holds LK9 and waits for LK5; core 0's blocking acquire of LK9 would close the chain and is rejected. -/
theorem test_lock_cycle :
    (after (run []) (.lkAcq (.ccn 0) 17 (0x100 + 5)) >>= fun t => after t (.lkAcq (.ccn 1) 18 (0x100 + 9)) >>= fun t =>
      after t (.lkAcq (.ccn 1) 18 (0x100 + 5)) >>= fun t => after t (.lkAcq (.ccn 0) 17 (0x100 + 9))).map
      (fun t => (t.chip.get (R.LCK_PORTS.LK_RESULT.CODE 17), t.chip.get (R.LCK_TABLE.LK_STATE.OWNER 5), t.chip.lkWait 17)) = some (E.CYCLE, 17, none) := by
  decide +kernel

/-- R146's check sum is the usual CRC-32: its check value over "123456789" is 0xCBF43926. -/
theorem test_crc : crc32 [0x31, 0x32, 0x33, 0x34, 0x35, 0x36, 0x37, 0x38, 0x39] = 0xCBF43926 := by decide +kernel

/-- IADD in 32 bits: r4 = 7 and r8 = 9 give 16 in the destination, and the wave goes on. -/
theorem test_iadd : (after (atWave true (insOf 0x40 31)) (.iadd 191)).map
    (fun t => (t.chip.gfx.waves.find? 191).map fun q => (q.pc, q.h 0 62)) = some (some (1, 16)) := by decide +kernel

/-- IEEE 754 binary16 (R154): 1 + 2 = 3, 2048 + 1 rounds to even, the largest number twice is infinite. -/
theorem test_fp16_add : (fp16.add 0x3C00 0x4000, fp16.add 0x6800 0x3C00, fp16.add 0x7BFF 0x7BFF) = (0x4200, 0x6800, 0x7C00) := by decide +kernel

/-- The output curve's default entry 128 is round(1023 × 128 / 256) = 512 (R162). -/
theorem test_gamma_default : State.reset.chip.get (R.CMP_P.GAMMA.R 0 128) = 512 := by decide

/-- A write that gives a byte the value unlisted bytes have removes its entry. -/
theorem test_memory_canonical : Memory.write (Memory.write [] 5 7) 5 0 = [] := by decide

/-- A port of a width or speed that it cannot train to, and a request that no bank queue takes. -/
theorem test_ill_formed_ports : (([.pciePortReady 0 3 1, .pciePortReady 0 1 0, .pciePortReady 0 1 5, .linkTraining ⟨8, []⟩,
    .dramRequestAdmit 0 (.other 16 2) false 0 32 { others := [{ port := 20, who := .other 16 2, write := false, off := 0, len := 32 }] }] :
    List Instr).all fun c => !c.wellFormed) = true := by decide +kernel

/-! ### Ill-formed commands are refused -/

theorem test_ill_formed_1 : (([
    .regWrite (.ccs 4) 0 0 [], .regWrite .island 0x200 0 [], .regWrite .island 0 0x1000 [], .regWrite .island 0 0 (List.replicate 65 0),
    .pageErrClear (.ccs 4) 0 0, .pageErrClear .island 0x200 0, .irqStatClear (.ccs 4) 0 0, .irqStatClear .island 0x200 0,
    .ctrlEnable (.ccs 4) 0 false, .ctrlEnable .island 0x200 false, .ctrlReset (.ccs 4) 0, .ctrlReset .island 0x200, .claimWrite (.pf 4) 0 0,
    .claimWrite .island 512 0, .commitGo (.ccs 4) 0, .commitGo .island 0x200, .commitDiscard (.ccs 4) 0, .commitDiscard .island 0x200,
    .commitValidationEnd 512, .commitLatch 512, .modeReqVigil (.pf 4), .modeReqDegraded (.pf 4), .modeReqRun (.pf 4),
    .modeReqService (.pf 4) false, .modeReqOther (.pf 4) 0, .modeReqOther .island 8, .islandDegradeReq (.pf 4), .islandAgreeRun (.pf 4),
    .powerUpSequence 8 0 false false, .powerUpSequence 0 4 false false, .railStepTimeout 0 0, .railStepTimeout 7 0, .earlyRetry 8,
    .bootReady (.pf 4), .recoveryLoad (.pf 4), .perstnDeassert 4, .perstnAssert 4, .thermalShutdown 10 0, .thermalThrottle 10 0,
    .thermalRelease false [0], .policyLoopStep 7 0, .pdPowerOn (.pf 4) 0, .pdPowerOn .island 32, .pdPowerOff (.pf 4) 0, .pdPowerOff .island 32,
    .pdPowerOnDone 25, .lockLost 8, .lockAcquired 8, .snapTake (.pf 4), .slotArm (.pf 4) 0 0] : List Instr).all fun c => !c.wellFormed) = true := by decide +kernel

theorem test_ill_formed_2 : (([
    .slotArm .island 128 0, .slotDisarm (.pf 4) 0 0, .slotDisarm .island 128 0, .slotFire 128, .touchWindowClose 4, .retrainStepDone 12 false,
    .viBind (.pf 4) 0 0, .viBind .island 16 0, .vfEnableSet 4 0, .flr 4 0, .flr 0 9, .hostLinkDown 4, .instanceReset (.pf 4) 0,
    .instanceReset .island 16, .instanceResetDone 16, .shareWrite (.pf 4) 0 0 0, .shareWrite .island 16 0 0, .shareWrite .island 0 0x1000 0,
    .shareApply 16 0, .shareApply 0 7, .windowWrite (.pf 4) 0 0 0, .windowWrite .island 16 0 0, .windowWrite .island 0 0x1000 0,
    .routeWrite (.pf 4) 0 0 0, .routeWrite .island 3 0 0, .routeWrite .island 0 256 0, .ringBind (.pf 4) 0 0, .ringBind .island 64 0,
    .ringRemove (.pf 4) 0, .ringRemove .island 64, .ringEnable (.pf 4) 0, .ringEnable .island 64, .ringDisable (.pf 4) 0, .ringDisable .island 64,
    .sqDb (.pf 4) 0 0, .sqDb .island 64 0, .cqDb (.pf 4) 0 0, .cqDb .island 64 0, .selWrite (.pf 4) 0 0, .selWrite .island 64 0,
    .ringFetch 64 [] false, .entryIssue 7, .fenceTimeout 64, .completionRetire 64, .eventPost 64, .cqStallExpiry 64, .gfxNop 64, .gfxJob 64,
    .binChunks 64, .poolFlush (.pf 4) 0] : List Instr).all fun c => !c.wellFormed) = true := by decide +kernel

theorem test_ill_formed_3 : (([
    .poolFlush .island 17, .binGrowWaitExpiry 16, .partialRenderDone 16, .tileBoundary 12, .fragmentRetire 12, .jobComplete 16, .pktNop 16,
    .pktEnd 16, .pktCall 16, .pktVprog 16, .pktFprog 16, .pktConsts 16, .pktVbuf 16, .pktVattr 16, .pktIbuf 16, .pktPrim 16, .pktViewport 16,
    .pktScissor 16, .pktDepth 16, .pktStencil 16, .pktBlend 16, .pktBlendConst 16, .pktClearColor 16, .pktClearDs 16, .pktTexture 16,
    .pktSampler 16, .pktSampleMask 16, .pktDraw 16, .pktDrawIndexed 16, .programLoad 12 0 0 0, .programLoad 0 16 0 0, .shaderNop 192, .mov 192,
    .sel 192, .fadd 192, .fmul 192, .ffma 192, .fmin 192, .fmax 192, .ffloor 192, .ffract 192, .frcp 192, .frsq 192, .fsqrt 192, .fexp2 192,
    .flog2 192, .fsin 192, .fcos 192, .iadd 192, .isub 192] : List Instr).all fun c => !c.wellFormed) = true := by decide +kernel

theorem test_ill_formed_4 : (([
    .imul 192, .imad 192, .imin 192, .imax 192, .umin 192, .umax 192, .and 192, .or 192, .xor 192, .not 192, .shl 192, .shr 192, .asr 192,
    .f16tof32 192, .f32tof16 192, .i16tof16 192, .u16tof16 192, .f16toi16 192, .f16tou16 192, .i32tof32 192, .f32toi32 192, .i16toi32 192,
    .i32toi16 192, .fcmp 192, .icmp 192, .ddx 192, .ddy 192, .plop 192, .br 192, .ldc 192, .attr 192, .vary 192, .tex 192, .texf 192,
    .shaderOut 192, .kill 192, .shaderEnd 192, .cmpNop 64, .layer 64, .cmpCommit 64, .sliceStart 8, .lineCompose 8, .layerFetchError 48 0,
    .timingGenStop 8, .outputLineStart 8, .wmEffAdjust 8, .urRearm (.pf 4) 0, .urRearm .island 8, .linkTrainingEnd 8 0 0 0 ({}), .hpdConnect 8] : List Instr).all fun c => !c.wellFormed) = true := by decide +kernel

theorem test_ill_formed_5 : (([
    .irqHpd 8 false, .hpdLoss 8, .laneShort 8 0, .lvdsOpenCheck 8 0, .laneTest (.pf 4) 0, .laneTest .island 8, .laneTestDone 8 0 0,
    .auxNativeWrite (.pf 4) 0 0, .auxNativeWrite .island 8 0, .auxNativeRead (.pf 4) 0 0, .auxNativeRead .island 8 0,
    .auxI2cWrite (.pf 4) 0 false 0, .auxI2cWrite .island 8 false 0, .auxI2cRead (.pf 4) 0 false 0, .auxI2cRead .island 8 false 0,
    .auxReply 8 0 [], .auxTimeout 8, .backlightEnable 8, .islandFaultReset (.pf 4) 1, .islandFaultReset .island 0, .islandFaultReset .island 7,
    .planeSwap (.pf 4) 0, .planeSwap .island 8, .planeCancel (.pf 4) 0, .planeCancel .island 8, .pipeDegrWrite (.pf 4) 0, .wdogArm (.pf 4) 0,
    .wdogKick (.pf 4) 0, .safeOkEnable (.pf 4) 0, .lkAcq (.pf 4) 0 0, .lkAcq .island 27 0, .lkRel (.pf 4) 0 0, .lkRel .island 27 0,
    .lkCancel (.pf 4) 0 0, .lkCancel .island 27 0, .holdExpired 64, .progressStall 4, .arbSnap (.pf 4) 0, .arbClear (.pf 4) 0,
    .dramRequestAdmit 20 (.other 16 2) false 0 1 ({}), .dramRequestAdmit 0 (.other 16 2) false 0 0 ({}),
    .dramRequestAdmit 0 (.other 16 2) false 255 2 ({}), .dramColumnIssue 12 false [] 0, .refreshDebtTick 12, .mr4Poll 12 0 0, .mr4Poll 0 3 0,
    .srIdleExpiry 12, .trainGo (.pf 4), .trainDone 4096 0, .eccRegionEnable (.pf 4) 0 0] : List Instr).all fun c => !c.wellFormed) = true := by decide +kernel

theorem test_ill_formed_6 : (([
    .eccRegionEnable .island 8 0, .eccInitDone 8, .dmaNop 64, .copy 64, .fill 64, .compare 64, .dmaStop 64, .chStop (.pf 4) 0, .chStop .island 32,
    .descriptorStart 32, .descriptorComplete 32, .gate 4 0 0 0 0 0 false, .gate 0 32 0 0 0 0 false, .gate 0 0 0 0 0 4 false,
    .gret 4 0 0 0 0 0 false, .gret 0 32 0 0 0 0 false, .gret 0 0 0 0 0 4 false, .wstat 4 0 0 0 0 0 false, .wstat 0 32 0 0 0 0 false,
    .wstat 0 0 0 0 0 4 false, .gmark 4 0 0 0 0 0 false, .gmark 0 32 0 0 0 0 false, .gmark 0 0 0 0 0 4 false, .secureInterrupt 4 0 0 false,
    .secureInterrupt 0 0 4 false, .claimBlockSet (.pf 4) 0, .claimBlockSet .island 32, .claimBlockClear (.pf 4) 0, .claimBlockClear .island 32,
    .authFail (.pf 4), .wdKick (.pf 4) 0, .ccRelease (.pf 4) 0, .ccRelease .island 16, .ccReset (.pf 4) 0, .ccReset .island 16,
    .rollbackAdvance (.pf 4) false, .tchNop 64, .subscribe 64, .loadRef 64, .recal 64, .tchSelfTest 64, .selfTestDone 4 [] [] [] [], .raw 64,
    .scanFrameStart 4, .scanFrameEnd 4 [] [], .stuckTouch 4 0, .touchCurrentLimit 4 0, .touchCurrentLimit 0 56, .hapNop 64, .play 64] : List Instr).all fun c => !c.wellFormed) = true := by decide +kernel

theorem test_ill_formed_7 : (([
    .hapStop 64, .loadEffect 64, .effectSlotSwap 16, .hapTest 64, .readEffect 64, .islPlay (.pf 4) 0, .actuatorDelayExpiry 8,
    .halfCycleBoundary 8, .actuatorOvercurrent 8 false, .audNop 64, .buffer 64, .capture 64, .chime 64, .islChime (.pf 4) 0, .chimeSegmentEnd 4,
    .zcTimeout 42 0, .zcTimeout 0 16, .duckHoldExpiry 3, .duckHoldExpiry 16, .silenceDetect 40, .ampPowerDown 2, .eqCoefWrite (.pf 4) 0 0 0 0,
    .eqCoefWrite .island 16 0 0 0, .eqCoefWrite .island 0 8 0 0, .eqCoefWrite .island 0 0 5 0, .ampTest (.pf 4) 0, .ampTest .island 2,
    .speakerOvercurrent 2 false, .caskLocateDone false 25 false, .caskFreeze (.pf 4) 0, .caskRead (.pf 4) 0, .caskClear (.pf 4) 0,
    .logEvent (.pf 4) 0, .rtcSet (.pf 4), .rtcFracRead (.pf 4), .tempPeakRead (.pf 4) 0, .tempPeakRead .island 10, .linkPortEnable (.pf 4) 0 0,
    .linkPortEnable .island 2 0, .linkPortUp 2 0 0, .linkPortUp 0 5 0, .linkRetrainTimer 2, .hello 2 0 0 0 0 false false 0 0,
    .hello 0 4 0 0 0 false false 0 0, .hapTrig 4 0 0 0 0, .hapTrig 0 4 0 0 0, .hapTrig 0 0 64 0 0, .hapTrig 0 0 0 256 0, .hapTrig 0 0 0 0 4,
    .tchEvt 4 []] : List Instr).all fun c => !c.wellFormed) = true := by decide +kernel

theorem test_ill_formed_8 : (([
    .layerRd 4 0 0 0, .layerRd 0 0 0 2049, .rsp 4 0 false [], .regWr 4 0 0 0 [], .regWr 0 0 0x200 0 [], .regWr 0 0 0 0x1000 [],
    .regWr 0 0 0 0 (List.replicate 65 0), .memWr 4 0 0 [], .memWr 0 0 0 (List.replicate 257 0), .regRd 4 0 0 0 0, .regRd 0 0 0x200 0 0,
    .regRd 0 0 0 0x1000 0, .regRd 0 0 0 0 65, .memRd 4 0 0 0, .memRd 0 0 0 257, .remoteWindowAccess 4 false 0 1 [] 0 0 false,
    .remoteWindowAccess 0 false 0 1 [] 0 4 false, .remoteWindowAccess 0 false 0 0 [] 0 0 false, .remoteWindowAccess 0 false 0 65 [] 0 0 false,
    .linkLoss 2 false 0, .railFault 8 0, .railWarn 8, .proofLockstep (.pf 4), .proofWdog (.pf 4), .proofSigPath (.pf 4) 0,
    .proofSigPath .island 256, .proofSafeOk (.pf 4), .proofClkmon (.pf 4), .proofEccIsl (.pf 4), .proofEccDram (.pf 4) 0,
    .proofEccDram .island 256, .proofLanes (.pf 4), .proofTouch (.pf 4) 0, .proofTouch .island 256, .proofOutputs (.pf 4), .proofSupply (.pf 4),
    .fabStall (.pf 4) 0, .dramDelay (.pf 4) 0, .backpress (.pf 4) 0, .wmForce (.pf 4) 0, .sigInj (.pf 4) 0, .eccInj (.pf 4) 0, .tchInj (.pf 4) 0,
    .vfEnableClear 4, .coreMemoryAccess 5 .load 0 1 [] 0 0 false, .coreMemoryAccess 0 .load 0 1 [] 0 4 false,
    .coreMemoryAccess 0 .load 0 0 [] 0 0 false, .coreMemoryAccess 0 .load 0 9 [] 0 0 false, .registerRead (.ccs 4) 0 0 0,
    .registerRead .island 0x200 0 0] : List Instr).all fun c => !c.wellFormed) = true := by decide +kernel

theorem test_ill_formed_9 : (([
    .registerRead .island 0 0x1000 0, .registerRead .island 0 0 65, .ampTestDone 2 false false false false false, .debugHalt 4 false,
    .linkLaneFail 2, .linkCrcError 2 false, .dmaReadCompletion 32 [] false, .regWrite (.inst 16) 0 0 [], .regWrite (.ccn 4) 0 0 [],
    .regWrite (.link 4) 0 0 [], .regWrite (.inst 0) 16 0 []] : List Instr).all fun c => !c.wellFormed) = true := by decide +kernel

/-! ### Hypotheses that hold together -/

theorem wit_ModeRequestsTakeEffect_1 : (fun (s : State) (src : Src) => (Reaches s.chip src 1) ∧ (s.chip.isMgr src = true) ∧ (s.chip.mode = Mode.RUN) ∧ (s.chip.modeBusy = false) ∧ (s.chip.pow.islandHeld = false) ∧ (s.chip.computeClaimed = false ∨ isSecure src = true) ∧ (s.chip.flag R.SYS_POWER.PD_RESULT.BUSY = false) ∧ (s.chip.get R.SYS_MODE.VIGIL_CFG.WK_PIN ≠ 0 ∨ s.chip.get R.SYS_MODE.VIGIL_CFG.WK_TOUCH ≠ 0 ∨ s.chip.get R.SYS_MODE.VIGIL_CFG.WK_RTC ≠ 0
      ∨ s.chip.get R.SYS_MODE.VIGIL_CFG.WK_GPIO ≠ 0 ∨ s.chip.get R.SYS_MODE.VIGIL_CFG.TIMEOUT ≠ 0)) (run [(R.SYS_MODE.VIGIL_CFG.TIMEOUT, 1)]) (.pf 0) := by decide +kernel
theorem wit_ModeRequestsTakeEffect_2 : (fun (s : State) (src : Src) => (Reaches s.chip src 1) ∧ (s.chip.isMgr src = true) ∧ (s.chip.mode = Mode.RUN) ∧ (s.chip.modeBusy = false) ∧ (s.chip.pow.islandHeld = false) ∧ (s.chip.activeOuts ≠ [])) (run [(R.LDG_OUTS.LINE.RUNNING 7, 1)]) (.pf 0) := by decide +kernel
theorem wit_ModeRequestsTakeEffect_3 : (fun (s : State) (src : Src) => (Reaches s.chip src 1) ∧ (s.chip.isMgr src = true) ∧ (s.chip.mode = Mode.DEGRADED) ∧ (s.chip.modeBusy = false) ∧ (s.chip.pow.islandHeld = false) ∧ (s.chip.flag R.SYS_MODE.AGREE.MGR = false) ∧ (s.chip.flag R.SYS_MODE.AGREE.SAF = true → DomainsAsInRun s.chip s.chip.pow.savedPd)) (on (regs [(R.SYS_MODE.MODE_STAT.MODE, 4), (R.SYS_MODE.AGREE.SAF, 1), (R.SYS_POWER.PD_ON.ON, 0x1FFFFFF)]) fun c => { c with pow := { savedPd := 0x1FFFFFF } }) (.pf 0) := by decide +kernel
theorem wit_ModeRequestsTakeEffect_4 : (fun (s : State) (src : Src) => (Reaches s.chip src 1) ∧ (s.chip.isMgr src = true) ∧ (s.chip.mode = Mode.DEGRADED) ∧ (s.chip.modeBusy = false) ∧ (s.chip.pow.islandHeld = false) ∧ (s.chip.flag R.SYS_MODE.AGREE.SAF = true)) (regs [(R.SYS_MODE.MODE_STAT.MODE, 4), (R.SYS_MODE.AGREE.SAF, 1), (R.SYS_POWER.PD_ON.ON, 0x1FFFFDF)]) (.pf 0) := by decide +kernel
theorem wit_ModeRequestsTakeEffect_5 : (fun (s : State) (src : Src) => (Reaches s.chip src 1) ∧ (isSecure src = true) ∧ (s.chip.mode = Mode.RUN) ∧ (s.chip.modeBusy = false) ∧ (s.chip.pow.islandHeld = false) ∧ (s.chip.activeOuts = [])) (run []) (.ccs 0) := by decide +kernel
theorem wit_ModeRequestsTakeEffect_6 : (fun (s : State) (src : Src) => (Reaches s.chip src 1) ∧ (isSecure src = true) ∧ (s.chip.mode = Mode.RUN) ∧ (s.chip.modeBusy = false) ∧ (s.chip.pow.islandHeld = false) ∧ (s.chip.activeOuts ≠ [])) (run [(R.LDG_OUTS.LINE.RUNNING 7, 1)]) (.ccs 0) := by decide +kernel
theorem wit_ModeRequestsTakeEffect_7 : (fun (s : State) (src : Src) (target : Nat) => (Reaches s.chip src 1) ∧ (s.chip.mgrOrCtl src = true) ∧ (target = Mode.DORMANT ∨ target = Mode.BOOT ∨ target = 6 ∨ target = 7)) (run []) (.pf 0) (7) := by decide +kernel

theorem wit_IslandRequestsAndAgreements_1 : (fun (s : State) => (Reaches s.chip .island 0x130) ∧ (s.chip.mode = Mode.RUN) ∧ (s.chip.modeBusy = false) ∧ (s.chip.activeOuts ≠ [])) (run [(R.LDG_OUTS.LINE.RUNNING 0, 1)]) := by decide +kernel
theorem wit_IslandRequestsAndAgreements_2 : (fun (s : State) => (Reaches s.chip .island 0x130) ∧ (s.chip.mode = Mode.BOOT)) (regs []) := by decide +kernel
theorem wit_IslandRequestsAndAgreements_3 : (fun (s : State) => (Reaches s.chip .island 0x130) ∧ (s.chip.mode = Mode.DEGRADED) ∧ (s.chip.flag R.SYS_MODE.AGREE.SAF = false) ∧ (s.chip.flag R.SYS_MODE.AGREE.MGR = true → DomainsAsInRun s.chip s.chip.pow.savedPd)) (on (regs [(R.SYS_MODE.MODE_STAT.MODE, 4), (R.SYS_MODE.AGREE.MGR, 1), (R.SYS_POWER.PD_ON.ON, 0x1FFFFFF)]) fun c => { c with pow := { savedPd := 0x1FFFFFF } }) := by decide +kernel
theorem wit_IslandRequestsAndAgreements_4 : (fun (s : State) => (s.chip.agreePending = true) ∧ (s.chip.get R.SYS_MODE.AGREE.WINDOW ≠ 0) ∧ (s.chip.pow.agreeLeft = 0)) (regs [(R.SYS_MODE.MODE_STAT.MODE, 4), (R.SYS_MODE.AGREE.SAF, 1), (R.SYS_MODE.AGREE.WINDOW, 1)]) := by decide +kernel

theorem wit_PowerRequestsSwitchDomains_1 : (fun (s : State) (src : Src) (d : Nat) => (Reaches s.chip src 2) ∧ (s.chip.mgrOrCtl src = true) ∧ (d ≤ 24) ∧ (s.chip.flag R.SYS_POWER.PD_RESULT.BUSY = false) ∧ (s.chip.modeBusy = false) ∧ (s.chip.anyResetting = false) ∧ (s.chip.pow.cmpRising = false) ∧ (requestable s.chip.mode d = true) ∧ (s.chip.prereqOk d true = true)) (run [(R.SYS_POWER.PD_ON.ON, 0x1FFFFFF)]) (.pf 0) (16) := by decide +kernel
theorem wit_PowerRequestsSwitchDomains_2 : (fun (s : State) (src : Src) (d : Nat) => (Reaches s.chip src 2) ∧ (s.chip.mgrOrCtl src = true) ∧ (d ≤ 24) ∧ (s.chip.domainClaimed d = false ∨ isSecure src = true) ∧ (s.chip.flag R.SYS_POWER.PD_RESULT.BUSY = false) ∧ (s.chip.modeBusy = false) ∧ (s.chip.anyResetting = false) ∧ (s.chip.pow.cmpRising = false) ∧ (requestable s.chip.mode d = true) ∧ (s.chip.prereqOk d false = true)) (run []) (.ccs 0) (23) := by decide +kernel
theorem wit_PowerRequestsSwitchDomains_3 : (fun (s : State) (d : Nat) => (d < 25) ∧ (s.chip.pow.req = some (d, true))) (on (run []) fun c => { c with pow := { req := some (24, true) } }) (24) := by decide +kernel
theorem wit_PowerRequestsSwitchDomains_4 : (fun (s : State) (d : Nat) => (s.chip.pow.req = some (d, false)) ∧ (s.chip.allQuiet = true) ∧ (s.chip.ps ≤ s.chip.pow.quFrom + 520000000)) (on (run []) fun c => { c with pow := { req := some (16, false), quiesce := [16] } }) (16) := by decide +kernel
theorem wit_PowerRequestsSwitchDomains_5 : (fun (s : State) (d : Nat) => (s.chip.pow.req = some (d, false)) ∧ (500 ≤ s.chip.quiesceUs) ∧ (s.chip.allQuiet = false ∨ s.chip.pow.quFrom + 520000000 < s.chip.ps)) (on (run []) fun c => { c with ps := 500000000, lnk := { reqs := [⟨0, 1, 0, true, 0, 0, 0, 0, false, 0⟩] }, pow := { req := some (PD.LINK, false), quiesce := [PD.LINK] } }) (PD.LINK) := by decide +kernel
theorem wit_PowerRequestsSwitchDomains_6 : (fun (s : State) => (s.chip.pow.req = none) ∧ (s.chip.modeBusy = true) ∧ (s.chip.modeTarget = Mode.VIGIL) ∧ (500 ≤ s.chip.quiesceUs) ∧ (s.chip.allQuiet = false ∨ s.chip.vigilInTime = false)) (on (run [(R.SYS_MODE.MODE_STAT.BUSY, 1), (R.SYS_MODE.MODE_STAT.TARGET, 1)]) fun c => { c with ps := 500000000, lnk := { reqs := [⟨0, 1, 0, true, 0, 0, 0, 0, false, 0⟩] }, pow := { quiesce := [PD.LINK] } }) := by decide +kernel

theorem wit_VigilEntryAndResume_1 : (fun (s : State) => (s.chip.modeBusy = true) ∧ (s.chip.modeTarget = Mode.VIGIL) ∧ (s.chip.allQuiet = true) ∧ (s.chip.vigilInTime = true)) (run [(R.SYS_MODE.MODE_STAT.BUSY, 1), (R.SYS_MODE.MODE_STAT.TARGET, 1), (R.LDG.LIVE_FRAME.FRAME, 77)]) := by decide +kernel
theorem wit_VigilEntryAndResume_2 : (fun (s : State) (_digest : Nat) (_vector : Nat) => (s.chip.mode = Mode.VIGIL) ∧ (s.chip.modeBusy = false) ∧ (s.chip.pow.wake.isSome = true)) (on (regs [(R.SYS_MODE.MODE_STAT.MODE, 1), (R.SYS_POWER.PD_ON.ON, 3)]) fun c => { c with pow := { wake := some 5 } }) (0) (0) := by decide +kernel
theorem wit_VigilEntryAndResume_3 : (fun (s : State) (digest : Nat) (_vector : Nat) => (s.chip.mode = Mode.VIGIL) ∧ (s.chip.modeBusy = true) ∧ (s.chip.get R.SYS_BOOT.BOOT_STAT.STAGE = 7) ∧ (s.chip.get R.SAF.ISL_STAT.STATE ≠ 0) ∧ (s.chip.flag R.SEC_WDOG.WD_CFG.ARMED = false) ∧ (s.chip.resumeDigest s.mem.dram = digest)) (resumeEnd) (resumeEnd.chip.resumeDigest resumeEnd.mem.dram) (0x1000040) := ⟨by decide +kernel, by decide +kernel, by decide +kernel, by decide +kernel, by decide +kernel, rfl⟩
theorem wit_VigilEntryAndResume_4 : (fun (s : State) (digest : Nat) (_vector : Nat) => (s.chip.mode = Mode.VIGIL) ∧ (s.chip.modeBusy = true) ∧ (s.chip.get R.SYS_BOOT.BOOT_STAT.STAGE = 7) ∧ (s.chip.get R.SAF.ISL_STAT.STATE ≠ 0) ∧ (s.chip.flag R.SEC_WDOG.WD_CFG.ARMED = false) ∧ (s.chip.resumeDigest s.mem.dram ≠ digest)) (resumeEnd) (resumeEnd.chip.resumeDigest resumeEnd.mem.dram + 1) (4) := ⟨by decide +kernel, by decide +kernel, by decide +kernel, by decide +kernel, by decide +kernel, by omega⟩
theorem wit_VigilEntryAndResume_5 : (fun (s : State) => (s.chip.mode = Mode.VIGIL) ∧ (s.chip.modeBusy = false) ∧ (s.chip.get R.SYS_MODE.VIGIL_CFG.TIMEOUT ≠ 0) ∧ (s.chip.pow.vigilAt + s.chip.get R.SYS_MODE.VIGIL_CFG.TIMEOUT * 60000000000000 ≤ s.chip.ps)) (on (regs [(R.SYS_MODE.MODE_STAT.MODE, 1), (R.SYS_MODE.VIGIL_CFG.TIMEOUT, 1)]) fun c => { c with ps := 60000000000000 }) := by decide +kernel

theorem wit_ThermalProtectionAndLoops_1 : (fun (s : State) (i : Nat) (tj : Int) => (i < 10) ∧ (125 ≤ tj) ∧ (s.chip.pdOn PD.DISP = true)) (run []) (9) (125) := by decide +kernel
theorem wit_ThermalProtectionAndLoops_2 : (fun (s : State) (i : Nat) (deg : Int) => (i < 8) ∧ (105 ≤ deg ∧ deg < 110) ∧ (s.chip.pdOn PD.DISP = true) ∧ (s.chip.pow.gpuHot = false)) (run [(R.SYS_POLICY.BOUNDS.FLOOR 1, 1060)]) (7) (105) := by decide +kernel
theorem wit_ThermalProtectionAndLoops_3 : (fun (s : State) (i : Nat) (deg : Int) => (i = 8 ∨ i = 9) ∧ (105 ≤ deg) ∧ (s.chip.pdOn PD.DISP = true)) (run [(R.HAP.BOOST.EN, 1), (R.HAP.BOOST.VBOOST, 60)]) (8) (105) := by decide +kernel
theorem wit_ThermalProtectionAndLoops_4 : (fun (s : State) (deg : Int) => (105 ≤ deg ∧ deg < 110) ∧ (s.chip.pow.gpuHot = true) ∧ (s.chip.pow.stepAt + 1000000000 ≤ s.chip.ps)) (on (run []) fun c => { c with ps := 1000000000, pow := { gpuHot := true } }) (109) := by decide +kernel
theorem wit_ThermalProtectionAndLoops_5 : (fun (s : State) (l : List Int) => (l.length = 8) ∧ ((l.all fun x => decide (x < 102)) = true) ∧ (s.chip.pow.gpuHot = true)) (on (run []) fun c => { c with pow := { gpuHot := true } }) ([101, 1, 2, 3, 4, 5, 6, 7]) := by decide +kernel
theorem wit_ThermalProtectionAndLoops_6 : (fun (s : State) (n : Nat) (want : Int) (w : Int) => (w = if n = 1 then s.chip.thermalWant want else want) ∧ (n < 2) ∧ (s.chip.pdOn PD.DISP = true) ∧ (s.chip.flag (R.SYS_POLICY.STAT.PROTECT n) = false) ∧ (n ∉ s.chip.pow.recover) ∧ ((s.chip.get (R.SYS_POLICY.BOUNDS.FLOOR n) : Int) ≤ w ∧ w ≤ (s.chip.get (R.SYS_POLICY.BOUNDS.CEIL n) : Int))) (run []) (0) (800) (800) := by decide +kernel
theorem wit_ThermalProtectionAndLoops_7 : (fun (s : State) (n : Nat) (want : Int) (w : Int) => (w = if n = 1 then s.chip.thermalWant want else want) ∧ (n < 2) ∧ (s.chip.pdOn PD.DISP = true) ∧ (s.chip.flag (R.SYS_POLICY.STAT.PROTECT n) = false) ∧ (n ∉ s.chip.pow.recover) ∧ (s.chip.get (R.SYS_POLICY.BOUNDS.FLOOR n) ≤ s.chip.get (R.SYS_POLICY.BOUNDS.CEIL n)) ∧ ((s.chip.get (R.SYS_POLICY.BOUNDS.CEIL n) : Int) < w)) (run []) (1) (1600) (1600) := by decide +kernel

theorem wit_FieldBridgeFollowsItsFrames_1 : (fun (s : State) (_ok : Bool) => (s.chip.brg.up = true) ∧ (s.chip.pdOn PD.DISP = true)) (run []) (false) := by decide +kernel
theorem wit_FieldBridgeFollowsItsFrames_2 : (fun (s : State) => (s.chip.brg.up = true) ∧ (s.chip.pdOn PD.DISP = true) ∧ (17 ≤ s.chip.brg.retries ∨ s.chip.brg.lastFrame + 10000000 ≤ s.chip.ps)) (on (run []) fun c => { c with ps := 10000000 }) := by decide +kernel
theorem wit_FieldBridgeFollowsItsFrames_3 : (fun (s : State) => (s.chip.brg.up = false) ∧ (s.chip.pdOn PD.DISP = true)) (on (run []) fun c => { c with brg := { up := false, hold := holdPages } }) := by decide +kernel

theorem wit_WakeSourcesLeaveDormant_1 : (fun (s : State) => (s.chip.mode = Mode.DORMANT) ∧ (s.chip.pow.hot = false)) (regs [(R.SYS_MODE.MODE_STAT.MODE, 0), (R.SYS_POWER.PD_ON.ON, 0)]) := by decide +kernel
theorem wit_WakeSourcesLeaveDormant_2 : (fun (s : State) (_v : Bool) => (s.chip.mode = Mode.VIGIL) ∧ (s.chip.modeBusy = false) ∧ (s.chip.flag R.SYS_MODE.VIGIL_CFG.WK_PIN = true) ∧ (s.chip.pow.wake = none)) (regs [(R.SYS_MODE.MODE_STAT.MODE, 1), (R.SYS_MODE.VIGIL_CFG.WK_PIN, 1)]) (false) := by decide +kernel
theorem wit_WakeSourcesLeaveDormant_3 : (fun (s : State) => (s.chip.mode = Mode.VIGIL) ∧ (s.chip.modeBusy = false) ∧ (s.chip.flag R.SYS_MODE.VIGIL_CFG.WK_GPIO = true) ∧ (s.chip.pow.wake = none)) (regs [(R.SYS_MODE.MODE_STAT.MODE, 1), (R.SYS_MODE.VIGIL_CFG.WK_GPIO, 1)]) := by decide +kernel
theorem wit_WakeSourcesLeaveDormant_4 : (fun (s : State) => (s.chip.mode = Mode.VIGIL) ∧ (s.chip.modeBusy = false) ∧ (s.chip.flag R.SYS_MODE.VIGIL_CFG.WK_RTC = true) ∧ (s.chip.rtc / 1024 % 2 ^ 32 = s.chip.get R.CSK_RTC.RTC_ALARM.SEC) ∧ (s.chip.pow.wake = none)) (regs [(R.SYS_MODE.MODE_STAT.MODE, 1), (R.SYS_MODE.VIGIL_CFG.WK_RTC, 1)]) := by decide +kernel
theorem wit_WakeSourcesLeaveDormant_5 : (fun (s : State) (fell : Bool) => (s.chip.mode = Mode.DORMANT) ∧ (fell = true ∨ s.chip.pow.railsOff.isSome = true) ∧ (s.chip.holdoffOver = true) ∧ (s.chip.pow.hot = false)) (on (regs [(R.SYS_MODE.MODE_STAT.MODE, 0)]) fun c => { c with ps := 50000000000, pow := { railsOff := some 0 } }) (false) := by decide +kernel
theorem wit_WakeSourcesLeaveDormant_6 : (fun (s : State) (vin : Nat) => (s.chip.mode = Mode.DORMANT) ∧ (s.chip.pow.railsOff.isSome = true) ∧ (s.chip.holdoffOver = true) ∧ (8600 < vin) ∧ (s.chip.pow.hot = true) ∧ (s.chip.pow.bootHeld = none)) (on (regs [(R.SYS_MODE.MODE_STAT.MODE, 0)]) fun c => { c with ps := 50000000001, pow := { railsOff := some 0, hot := true } }) (8601) := by decide +kernel
theorem wit_WakeSourcesLeaveDormant_7 : (fun (s : State) (tj : Int) (cause : Nat) => (s.chip.mode = Mode.DORMANT) ∧ (s.chip.pow.hot = true) ∧ (tj ≤ 100) ∧ (s.chip.pow.bootHeld = some cause) ∧ (cause < 8)) (on (regs [(R.SYS_MODE.MODE_STAT.MODE, 0)]) fun c => { c with pow := { hot := true, bootHeld := some 1 } }) (100) (1) := by decide +kernel

theorem wit_StartUpStages_1 : (fun (s : State) (bootsel : Nat) (devid : Nat) (_sv : Bool) (_ovg : Bool) => (bootsel < 6) ∧ (devid < 4) ∧ (s.chip.mode = Mode.BOOT) ∧ (s.chip.get R.SYS_BOOT.BOOT_STAT.STAGE = 0)) (regs []) (5) (3) (true) (true) := by decide +kernel
theorem wit_StartUpStages_2 : (fun (s : State) (bootsel : Nat) (devid : Nat) (_sv : Bool) (_ovg : Bool) => (bootsel = 6 ∨ bootsel = 7) ∧ (devid < 4) ∧ (s.chip.mode = Mode.BOOT) ∧ (s.chip.get R.SYS_BOOT.BOOT_STAT.STAGE = 0)) (regs []) (7) (0) (true) (true) := by decide +kernel
theorem wit_StartUpStages_3 : (fun (s : State) (n : Nat) (_rail : Nat) => (1 ≤ n ∧ n ≤ 6) ∧ (s.chip.mode = Mode.BOOT) ∧ (s.chip.get R.SYS_BOOT.BOOT_STAT.STAGE = 0)) (regs []) (6) (7) := by decide +kernel
theorem wit_StartUpStages_4 : (fun (s : State) (ta : FlashTable) (tb : FlashTable) (ca : FlashImage) (cb : FlashImage) (part : List (List Byte)) (b : Bool) (x : FlashImage) => (s.chip.mode = Mode.BOOT) ∧ (s.chip.get R.SYS_BOOT.BOOT_STAT.STAGE = 1) ∧ (partTable [ta, tb] = some part) ∧ (pickCopy part 0x01 islSize (s.chip.get R.SEC_FUSE.ISL_ROLLBACK.COUNT) (fun _ => true) [ca, cb] = some (b, x)) ∧ (earlyCrcOk x = false)) (regs [(R.SYS_BOOT.BOOT_STAT.STAGE, 1)]) (⟨false, []⟩) (flashTable) (⟨[], false, true, 0, 0, [], 1⟩) (⟨[1, 2, 3], true, true, 0, 0, [], 1⟩) (flashPart) (true) (⟨[1, 2, 3], true, true, 0, 0, [], 1⟩) := by decide +kernel
theorem wit_StartUpStages_5 : (fun (s : State) (found : Bool) (ta : FlashTable) (tb : FlashTable) (_ca : FlashImage) (_cb : FlashImage) => (s.chip.mode = Mode.BOOT) ∧ (s.chip.get R.SYS_BOOT.BOOT_STAT.STAGE = 1) ∧ (found = false ∨ partTable [ta, tb] = none)) (regs [(R.SYS_BOOT.BOOT_STAT.STAGE, 1)]) (true) (⟨false, []⟩) (⟨false, []⟩) (badEarly) (badEarly) := by decide +kernel
theorem wit_StartUpStages_6 : (fun (s : State) (ta : FlashTable) (tb : FlashTable) (ca : FlashImage) (cb : FlashImage) (part : List (List Byte)) => (s.chip.mode = Mode.BOOT) ∧ (s.chip.get R.SYS_BOOT.BOOT_STAT.STAGE = 1) ∧ (partTable [ta, tb] = some part) ∧ (pickCopy part 0x01 islSize (s.chip.get R.SEC_FUSE.ISL_ROLLBACK.COUNT) (fun _ => true) [ca, cb] = none)) (regs [(R.SYS_BOOT.BOOT_STAT.STAGE, 1)]) (flashTable) (flashTable) (⟨[1, 2, 3], false, true, 0, 0, [], 0⟩) (⟨[1, 2, 3, 4], true, true, 0, 0, [], 0⟩) (flashPart) := by decide +kernel
theorem wit_StartUpStages_7 : (fun (s : State) (ta : FlashTable) (tb : FlashTable) (ca : FlashImage) (cb : FlashImage) (part : List (List Byte)) (b : Bool) (x : FlashImage) (e : List Byte) => (s.chip.mode = Mode.BOOT) ∧ (s.chip.get R.SYS_BOOT.BOOT_STAT.STAGE = 1) ∧ (partTable [ta, tb] = some part) ∧ (pickCopy part 0x01 islSize (s.chip.get R.SEC_FUSE.ISL_ROLLBACK.COUNT) (fun _ => true) [ca, cb] = some (b, x)) ∧ (earlyCrcOk x = true) ∧ (x.early = [e]) ∧ (Early.out (padTo 32 e) < 8) ∧ (Early.valuesOk (padTo 32 e) = false)) (regs [(R.SYS_BOOT.BOOT_STAT.STAGE, 1)]) (flashTable) (flashTable) (badEarly) (badEarly) (flashPart) (false) (badEarly) ([7, 4]) := by decide +kernel
theorem wit_StartUpStages_8 : (fun (s : State) (ca : FlashImage) (cb : FlashImage) (_sr : FlashImage) (b : Bool) (x : FlashImage) => (s.chip.mode = Mode.BOOT) ∧ (s.chip.get R.SYS_BOOT.BOOT_STAT.STAGE = 3) ∧ (s.chip.get R.SYS_BOOT.STRAPS.BOOTSEL ≠ 5) ∧ (pickCopy s.chip.pow.part 0x03 ccSize (s.chip.get R.SEC_FUSE.CC_ROLLBACK.COUNT) s.chip.authentic [ca, cb] = some (b, x))) (ccStage) (⟨[0x13], true, false, 0, 0, [], 0⟩) (⟨[0x17, 5], true, true, 0, 0, [], 0⟩) (badEarly) (true) (⟨[0x17, 5], true, true, 0, 0, [], 0⟩) := by decide +kernel
theorem wit_StartUpStages_9 : (fun (s : State) (ca : FlashImage) (cb : FlashImage) (_sr : FlashImage) => (s.chip.mode = Mode.BOOT) ∧ (s.chip.get R.SYS_BOOT.BOOT_STAT.STAGE = 3) ∧ (s.chip.get R.SYS_BOOT.STRAPS.BOOTSEL ≠ 5) ∧ (pickCopy s.chip.pow.part 0x03 ccSize (s.chip.get R.SEC_FUSE.CC_ROLLBACK.COUNT) s.chip.authentic [ca, cb] = none)) (ccStage) (⟨[0x13], true, true, 1, 0, [], 0⟩) (badEarly) (badEarly) := by decide +kernel
theorem wit_StartUpStages_10 : (fun (s : State) (_ca : FlashImage) (_cb : FlashImage) (x : FlashImage) => (s.chip.mode = Mode.BOOT) ∧ (s.chip.get R.SYS_BOOT.BOOT_STAT.STAGE = 3) ∧ (s.chip.get R.SYS_BOOT.STRAPS.BOOTSEL = 5) ∧ (s.chip.pow.loaded = true) ∧ (Memory.readBytes s.mem.sram 0 x.bytes.length = x.bytes ∧ x.bytes.length ≤ ccSize) ∧ (x.crcOk = true ∧ s.chip.get R.SEC_FUSE.CC_ROLLBACK.COUNT ≤ x.version ∧ s.chip.authentic x = true)) ({ on (regs [(R.SYS_BOOT.BOOT_STAT.STAGE, 3), (R.SYS_BOOT.STRAPS.BOOTSEL, 5)]) (fun c => { c with pow := { loaded := true } }) with mem := { sram := [(0, 0x13)] } }) (badEarly) (badEarly) (⟨[0x13], true, true, 0, 0, [], 0⟩) := by decide +kernel
theorem wit_StartUpStages_11 : (fun (s : State) (src : Src) => (Reaches s.chip src 4) ∧ (isSecure src = true) ∧ (s.chip.mode = Mode.BOOT) ∧ (s.chip.get R.SYS_BOOT.BOOT_STAT.STAGE = 4)) (regs [(R.SYS_BOOT.BOOT_STAT.STAGE, 4)]) (.ccs 0) := by decide +kernel
theorem wit_StartUpStages_12 : (fun (s : State) => (Reaches s.chip (.pf 0) 4) ∧ (s.chip.get R.SYS_BOOT.STRAPS.BOOTSEL = 5)) (regs [(R.SYS_BOOT.STRAPS.BOOTSEL, 5)]) := by decide +kernel
theorem wit_StartUpStages_13 : (fun (s : State) => (s.chip.mode ≠ Mode.DORMANT)) (run []) := by decide +kernel

theorem wit_EarlyPictureAndHostPorts_1 : (fun (s : State) (n : Nat) (e : List Byte) => (n < 8) ∧ (s.chip.pow.early.find? n = some e) ∧ ((s.chip.get R.SYS_BOOT.EARLY.SKIPPED).testBit n = true) ∧ (s.chip.flag (R.SCN_OUT.OUT_STAT.HPD n) = true) ∧ (Early.mode e < 2) ∧ (s.chip.flag (R.SCN_OUT.OUT_CFG.ENABLE n) = true) ∧ ((s.chip.scnOut n).link = LinkSt.IDLE) ∧ (s.chip.lvds n = false)) (on (regs [(R.SYS_BOOT.EARLY.SKIPPED, 128), (R.SCN_OUT.OUT_STAT.HPD 7, 1), (R.SCN_OUT.OUT_CFG.ENABLE 7, 1)]) fun c => { c with pow := { early := [(7, [7, 1])] }, scn := [(7, { link := LinkSt.IDLE })] }) (7) ([7, 1]) := by decide +kernel
theorem wit_EarlyPictureAndHostPorts_2 : (fun (s : State) (p : Nat) => (p < 4) ∧ (p ∈ s.chip.imx.perst)) (on (regs []) fun c => { c with imx := { perst := [3] } }) (3) := by decide +kernel
theorem wit_EarlyPictureAndHostPorts_3 : (fun (s : State) (p : Nat) (width : Nat) (speed : Nat) => (p < 4) ∧ (s.chip.pdOn PD.HOST = true) ∧ (width = 1 ∨ width = 2 ∨ width = 4) ∧ (1 ≤ speed ∧ speed ≤ 4) ∧ (p ∉ s.chip.imx.perst) ∧ (s.chip.pow.t0 + 90000000000 ≤ s.chip.ps) ∧ (s.chip.imx.perstAt.getD p 0 + 90000000000 ≤ s.chip.ps)) (on (regs []) fun c => { c with ps := 90000000000 }) (3) (2) (3) := by decide +kernel

theorem wit_SupplyEntryEvents_1 : (fun (s : State) (vin : Nat) => (s.chip.kilnFree = true) ∧ (s.chip.flag R.PWR_ENTRY.ENTRY_STAT.OVG_FITTED = true) ∧ (s.chip.pow.clampAt = none) ∧ (62000 < vin)) (run [(R.PWR_ENTRY.ENTRY_STAT.OVG_FITTED, 1)]) (62001) := by decide +kernel
theorem wit_SupplyEntryEvents_2 : (fun (s : State) (vin : Nat) (at_ : Nat) => (s.chip.pow.clampAt = some at_) ∧ (vin ≤ 62000)) (on (run []) fun c => { c with ps := 100, pow := { clampAt := some 7 } }) (62000) (7) := by decide +kernel
theorem wit_SupplyEntryEvents_3 : (fun (s : State) (vin : Nat) => (s.chip.kilnFree = true) ∧ (s.chip.flag R.PWR_ENTRY.ENTRY_STAT.OVG_FITTED = true) ∧ (74000 < vin)) (run [(R.PWR_ENTRY.ENTRY_STAT.OVG_FITTED, 1)]) (74001) := by decide +kernel
theorem wit_SupplyEntryEvents_4 : (fun (s : State) (_vin : Nat) (_vsys : Nat) => (s.chip.kilnFree = true)) (run []) (12000) (12001) := by decide +kernel
theorem wit_SupplyEntryEvents_5 : (fun (s : State) (vin : Nat) (vsys : Nat) => (s.chip.kilnFree = true) ∧ (s.chip.pow.lossAt = none) ∧ (vin + 1000 ≤ vsys)) (run []) (11000) (12000) := by decide +kernel
theorem wit_SupplyEntryEvents_6 : (fun (s : State) (vin : Nat) (vsys : Nat) (at_ : Nat) => (s.chip.kilnFree = true) ∧ (s.chip.pow.lossAt = some at_) ∧ (vsys < vin + 1000 ∨ at_ + s.chip.get R.PWR_ENTRY.PFW_CFG.PFW_DELAY * 10000000 ≤ s.chip.ps)) (on (run []) fun c => { c with ps := 10000000000, pow := { lossAt := some 0 } }) (0) (1000) (0) := by decide +kernel
theorem wit_SupplyEntryEvents_7 : (fun (s : State) (_vin : Nat) (vsys : Nat) => (s.chip.kilnFree = true) ∧ (vsys < s.chip.get R.PWR_ENTRY.PFW_CFG.PFW_TH * 100)) (run []) (9000) (6000) := by decide +kernel
theorem wit_SupplyEntryEvents_8 : (fun (s : State) (_vin : Nat) => (s.chip.kilnFree = true) ∧ (s.chip.flag R.PWR_ENTRY.PFW_CFG.EXT_EN = true)) (run [(R.PWR_ENTRY.PFW_CFG.EXT_EN, 1)]) (9000) := by decide +kernel
theorem wit_SupplyEntryEvents_9 : (fun (s : State) (_written : Nat) => (s.chip.mode ≠ Mode.DORMANT) ∧ (s.chip.flag R.PWR_ENTRY.ENTRY_STAT.PFW = true)) (run [(R.PWR_ENTRY.ENTRY_STAT.PFW, 1), (R.PWR_ENTRY.ENTRY_STAT.PFW_SRC, 4)]) (3) := by decide +kernel

theorem wit_RailAndReadbackEvents_1 : (fun (s : State) (rail : Nat) (_vin : Nat) => (rail < 8) ∧ (s.chip.kilnFree = true) ∧ (s.chip.railOn rail = true) ∧ (s.chip.mode ≠ Mode.BOOT)) (run [(R.PWR_RAILS.RAIL_STAT.ON, 0xFF)]) (7) (12000) := by decide +kernel
theorem wit_RailAndReadbackEvents_2 : (fun (s : State) (rail : Nat) (_vin : Nat) => (rail < 8) ∧ (s.chip.kilnFree = true) ∧ (s.chip.railOn rail = true) ∧ (s.chip.mode = Mode.BOOT)) (regs [(R.PWR_RAILS.RAIL_STAT.ON, 0xFF)]) (0) (12000) := by decide +kernel
theorem wit_RailAndReadbackEvents_3 : (fun (s : State) (rail : Nat) => (rail < 8) ∧ (s.chip.mode ≠ Mode.DORMANT) ∧ (s.chip.railOn rail = true)) (run [(R.PWR_RAILS.RAIL_STAT.ON, 0xFF)]) (7) := by decide +kernel
theorem wit_RailAndReadbackEvents_4 : (fun (s : State) (_ma : Nat) => (s.chip.mode ≠ Mode.DORMANT) ∧ (s.chip.railOn 0 = true)) (run [(R.PWR_RAILS.RAIL_STAT.ON, 0xFF)]) (2999) := by decide +kernel
theorem wit_RailAndReadbackEvents_5 : (fun (s : State) (_b : Bool) => (s.chip.mode ≠ Mode.DORMANT)) (run []) (true) := by decide +kernel

theorem wit_InstancesBindAndUnbind_1 : (fun (s : State) (src : Src) (vi : Nat) (port : Nat) (vf : Nat) (data : Word) => (vi < 16) ∧ (port < 4) ∧ (1 ≤ vf ∧ vf ≤ 8) ∧ (data.toNat = port + 4 * vf + 64) ∧ (Reaches s.chip src (0x060 + vi)) ∧ (s.chip.shareWriter src = true) ∧ (s.chip.viState vi = VS.UNBOUND) ∧ (∀ k ∈ List.range 16, k ≠ vi → s.chip.boundTo port k = true → s.chip.get (R.IMX_VI.VI_BIND.VF k) ≠ vf) ∧ (s.chip.bwSum vi + s.chip.get (R.IMX_VI.SH_BW.WEIGHT vi) ≤ 256)) (run []) (.pf 0) (15) (3) (8) (99) := by decide +kernel
theorem wit_InstancesBindAndUnbind_2 : (fun (s : State) (src : Src) (vi : Nat) => (vi < 16) ∧ (Reaches s.chip src (0x060 + vi)) ∧ (s.chip.shareWriter src = true) ∧ (s.chip.viState vi = VS.BOUND)) (run [(R.IMX_VI.VI_STAT.STATE 0, 1)]) (.pf 0) (0) := by decide +kernel
theorem wit_InstancesBindAndUnbind_3 : (fun (s : State) (port : Nat) (_n : Nat) => (port < 4) ∧ (s.chip.configOn port = true)) (on (run []) portUp) (3) (8) := ⟨by decide, portUp_config _ _ (by decide) (by decide +kernel) rfl rfl⟩
theorem wit_InstancesBindAndUnbind_4 : (fun (s : State) (port : Nat) => (port < 4) ∧ (s.chip.configOn port = true)) (on (run [(R.IMX_VI.VI_STAT.STATE 3, 2), (R.IMX_VI.VI_BIND.PORT 3, 3)]) fun c => portUp { c with imx := { vfEn := [(3, 1)] } }) (3) := ⟨by decide, portUp_config _ _ (by decide) (by decide +kernel) rfl rfl⟩
theorem wit_InstancesBindAndUnbind_5 : (fun (s : State) (port : Nat) (vi : Nat) (func : Nat) => (port < 4) ∧ (vi < 16) ∧ (1 ≤ func ∧ func ≤ 8) ∧ (s.chip.configOn port = true) ∧ (s.chip.boundTo port vi = true) ∧ (s.chip.get (R.IMX_VI.VI_BIND.VF vi) = func) ∧ (∀ k ∈ List.range vi, s.chip.boundTo port k = true → s.chip.get (R.IMX_VI.VI_BIND.VF k) ≠ func) ∧ (s.chip.viState vi ≠ VS.RESETTING)) (on (run [(R.IMX_VI.VI_STAT.STATE 3, 2), (R.IMX_VI.VI_BIND.VF 3, 8)]) portUp) (0) (3) (8) := ⟨by decide, by decide, by decide, portUp_config _ _ (by decide) (by decide +kernel) rfl rfl, by decide +kernel, by decide +kernel, by decide +kernel, by decide +kernel⟩
theorem wit_InstancesBindAndUnbind_6 : (fun (s : State) (port : Nat) => (port < 4) ∧ (s.chip.pdOn PD.HOST = true)) (run [(R.IMX_VI.VI_STAT.STATE 3, 2), (R.IMX_VI.VI_BIND.PORT 3, 3)]) (3) := by decide +kernel
theorem wit_InstancesBindAndUnbind_7 : (fun (s : State) (port : Nat) => (port < 4) ∧ (s.chip.pdOn PD.HOST = true)) (run [(R.IMX_VI.VI_STAT.STATE 3, 2), (R.IMX_VI.VI_BIND.PORT 3, 3)]) (3) := by decide +kernel

theorem wit_InstanceResetsAndShares_1 : (fun (s : State) (src : Src) (vi : Nat) => (vi < 16) ∧ ((match src with | .inst _ => false | _ => true) = true) ∧ (Reaches s.chip src (0x060 + vi)) ∧ (s.chip.mgrOrCtl src = true) ∧ (s.chip.claimed (0x060 + vi) = false ∨ isSecure src = true) ∧ (s.chip.viState vi = VS.BOUND ∨ s.chip.viState vi = VS.ACTIVE ∨ s.chip.viState vi = VS.FAULTED)) (run [(R.IMX_VI.VI_STAT.STATE 15, 4)]) (.pf 0) (15) := by decide +kernel
theorem wit_InstanceResetsAndShares_2 : (fun (s : State) (vi : Nat) (x : VReset) => (vi < 16) ∧ (s.chip.imx.resets.find? vi = some x) ∧ (s.chip.gfxHolds vi = false) ∧ (s.chip.viState vi = VS.RESETTING) ∧ (x.cause < 8)) (on (run [(R.IMX_VI.VI_STAT.STATE 15, 3)]) fun c => { c with imx := { resets := [(15, ⟨3, 0, 5000, 5000⟩)] } }) (15) (⟨3, 0, 5000, 5000⟩) := by decide +kernel
theorem wit_InstanceResetsAndShares_3 : (fun (s : State) (src : Src) (vi : Nat) (off : Nat) (data : Word) => (vi < 16) ∧ (Reaches s.chip src (0x060 + vi)) ∧ (s.chip.shareWriter src = true) ∧ (s.chip.viState vi ≠ VS.RESETTING) ∧ ((off = 0x050 ∧ bits data.toNat 13 3 = 0 ∧ bits data.toNat 25 7 = 0 ∧ bits data.toNat 16 9 ≤ 256) ∨
      (off = 0x054 ∧ data.toNat ≤ 256 ∧ (s.chip.viState vi = VS.UNBOUND ∨ s.chip.bwSum vi + data.toNat ≤ 256)) ∨
      off = 0x058 ∨ (off = 0x05C ∧ data.toNat < 2 ^ 16) ∨ off = 0x060 ∨ (off = 0x064 ∧ data.toNat < 2 ^ 28)) ∧ (∀ k ∈ List.range 16, k ≠ vi → data.toNat &&& (s.chip.shareReg k off ||| (s.chip.share k).bitsAt off) = 0)) (run []) (.pf 0) (15) (0x064) (0xFFFFFFF) := by decide +kernel
theorem wit_InstanceResetsAndShares_4 : (fun (s : State) (vi : Nat) => (vi < 16) ∧ ((s.chip.get (R.IMX_VI.VI_STAT.PEND vi)).testBit 1 = true) ∧ (s.chip.shareSince vi 1 ≤ s.chip.led.lineNo) ∧ ((s.chip.share vi).bw ≠ s.chip.get (R.IMX_VI.SH_BW.WEIGHT vi))) (on (run [(R.IMX_VI.VI_STAT.PEND 15, 2), (R.IMX_VI.SH_BW.WEIGHT 15, 256)]) fun c => { c with led := { lineNo := 9 }, imx := { shareAt := [(241, 9)] } }) (15) := by decide +kernel
theorem wit_InstanceResetsAndShares_5 : (fun (s : State) (vi : Nat) => (vi < 16) ∧ ((s.chip.get (R.IMX_VI.VI_STAT.PEND vi)).testBit 6 = true)) (run [(R.IMX_VI.VI_STAT.PEND 0, 64), (R.IMX_VI.SH_IO.HAP 0, 255)]) (0) := by decide +kernel

theorem wit_WindowsRoutesAndPairBinding_1 : (fun (s : State) (src : Src) (vi : Nat) (k : Nat) (data : Word) => (vi < 16) ∧ (k < 4) ∧ (Reaches s.chip src (0x060 + vi)) ∧ (s.chip.shareWriter src = true) ∧ (data.toNat < 2 ^ 16) ∧ ((bits data.toNat 1 15 + s.chip.get (R.IMX_VI.WIN_SIZE.ADDR vi k)) * 2 ^ 21 ≤ s.chip.dramSize) ∧ (data.toNat.testBit 0 = false ∨ s.chip.get R.SEC.DRAM_WMARK.WMARK ≤ bits data.toNat 1 15) ∧ (s.chip.viState vi = VS.UNBOUND ∨ s.chip.viState vi = VS.BOUND ∨ s.chip.viState vi = VS.FAULTED)) (run [(R.DRC.CAPACITY.GIB, 16)]) (.pf 0) (15) (3) (0x3FFF) := by decide +kernel
theorem wit_WindowsRoutesAndPairBinding_2 : (fun (s : State) (src : Src) (vi : Nat) (k : Nat) (data : Word) => (vi < 16) ∧ (k < 4) ∧ (Reaches s.chip src (0x060 + vi)) ∧ (s.chip.shareWriter src = true) ∧ (data.toNat < 2 ^ 16) ∧ (data.toNat.testBit 0 = false) ∧ ((s.chip.get (R.IMX_VI.WIN_BASE.ADDR vi k) + bits data.toNat 1 15) * 2 ^ 21 ≤ s.chip.dramSize) ∧ (s.chip.flag (R.IMX_VI.WIN_BASE.EN vi k) = false) ∧ (s.chip.viState vi = VS.UNBOUND ∨ s.chip.viState vi = VS.BOUND ∨ s.chip.viState vi = VS.FAULTED)) (run [(R.DRC.CAPACITY.GIB, 16)]) (.ccn 0) (0) (0) (0x4000) := by decide +kernel
theorem wit_WindowsRoutesAndPairBinding_3 : (fun (s : State) (src : Src) (n : Nat) (i : Nat) (data : Word) => (n < 2) ∧ (i < 256) ∧ (¬ (n = 0 ∧ 0x070 ≤ i ∧ i < 0x090)) ∧ (Reaches s.chip src (0x051 + n)) ∧ (s.chip.shareWriter src = true ∨ isSecure src = true) ∧ (data.toNat < 2 ^ 15) ∧ (bits data.toNat 4 4 ≤ 8) ∧ (isSecure src = true ∨ (secDest data.toNat = false ∧ secDest (s.chip.readReg (0x051 + n) (0x040 + 4 * i)) = false)) ∧ (s.chip.routeVf n i data.toNat = true)) (run []) (.ccs 0) (1) (255) (0x7F0D) := by decide +kernel
theorem wit_WindowsRoutesAndPairBinding_4 : (fun (s : State) (src : Src) (r : Nat) (vi : Nat) (cl : Nat) (data : Word) => (r < 64) ∧ (vi < 16) ∧ (cl < 7) ∧ (data.toNat = 1 + 4 * vi + 64 * cl) ∧ (Reaches s.chip src (ringPage r)) ∧ (s.chip.shareWriter src = true) ∧ (s.chip.ringState r = RS.FREE) ∧ (s.chip.viState vi ≠ VS.UNBOUND ∧ s.chip.viState vi ≠ VS.RESETTING) ∧ ((s.chip.viRings vi).length < 16) ∧ (s.chip.get (R.RNG.SEL.CQ_STALL_MAX (r / 2) (r % 2)) ≠ 0)) (run [(R.IMX_VI.VI_STAT.STATE 15, 2)]) (.pf 0) (63) (15) (6) (445) := by decide +kernel
theorem wit_WindowsRoutesAndPairBinding_5 : (fun (s : State) (src : Src) (r : Nat) => (r < 64) ∧ (Reaches s.chip src (ringPage r)) ∧ (s.chip.shareWriter src = true) ∧ (s.chip.ringState r = RS.BOUND) ∧ (s.chip.ringOwner r = 1 → s.chip.viState (s.chip.ringVi r) ≠ VS.RESETTING)) (run [(R.RNG.RING_STAT.STATE 31 1, 1), (R.RNG.RING_BIND.OWNER 31 1, 1), (R.RNG.RING_BIND.VI 31 1, 2), (R.IMX_VI.RING.RINGS 2 1, 0x80000000)]) (.pf 0) (63) := by decide +kernel
theorem wit_WindowsRoutesAndPairBinding_6 : (fun (s : State) (src : Src) (r : Nat) => (r < 64) ∧ ((match src with | .inst _ => false | _ => true) = true) ∧ (Reaches s.chip src (ringPage r)) ∧ (s.chip.ownsRing src r = true ∨ s.chip.isMgr src = true) ∧ (s.chip.ringState r = RS.BOUND) ∧ (s.chip.ownerStopped r = false) ∧ (s.chip.ringsInWindow r = true)) (run [(R.RNG.RING_STAT.STATE 31 1, 1)]) (.pf 0) (63) := by decide +kernel
theorem wit_WindowsRoutesAndPairBinding_7 : (fun (s : State) (src : Src) (r : Nat) => (r < 64) ∧ ((match src with | .inst _ => false | _ => true) = true) ∧ (Reaches s.chip src (ringPage r)) ∧ (s.chip.ownsRing src r = true ∨ s.chip.isMgr src = true) ∧ (s.chip.flag (R.RNG.RING_CTRL.ENABLE (r / 2) (r % 2)) = true) ∧ (s.chip.ringIdle r = true)) (run [(R.RNG.RING_STAT.STATE 31 1, 2), (R.RNG.RING_CTRL.ENABLE 31 1, 1), (R.RNG.DONE_SEQ.INDEX 31 1, 0xFFFFFFFF)]) (.pf 0) (63) := by decide +kernel

theorem wit_DoorbellsFetchIssueAndRetire_1 : (fun (s : State) (src : Src) (r : Nat) (n : Word) => (r < 64) ∧ ((match src with | .inst _ => false | _ => true) = true) ∧ (Reaches s.chip src (ringPage r)) ∧ (s.chip.ownsRing src r = true) ∧ (s.chip.ringState r = RS.RUNNING ∨ s.chip.ringState r = RS.STALLED) ∧ (s.chip.ownerStopped r = false) ∧ (sub32 n.toNat (s.chip.sqTail r) ≤ s.chip.sqSize r - sub32 (s.chip.sqTail r) (s.chip.sqHead r))) (run [(R.RNG.RING_STAT.STATE 31 1, 2), (R.RNG.RING_BIND.OWNER 31 1, 2)]) (.pf 0) (63) (1) := by decide +kernel
theorem wit_DoorbellsFetchIssueAndRetire_2 : (fun (s : State) (src : Src) (r : Nat) (n : Word) => (r < 64) ∧ ((match src with | .inst _ => false | _ => true) = true) ∧ (Reaches s.chip src (ringPage r)) ∧ (s.chip.ownsRing src r = true) ∧ (s.chip.ringState r = RS.RUNNING) ∧ (s.chip.ownerStopped r = false) ∧ (sub32 n.toNat (s.chip.cqHead r) ≤ sub32 (s.chip.cqTail r) (s.chip.cqHead r)) ∧ ((s.chip.ring r).ovf = [])) (run [(R.RNG.RING_STAT.STATE 31 1, 2), (R.RNG.RING_BIND.OWNER 31 1, 2), (R.RNG.CQ_TAIL.INDEX 31 1, 5)]) (.pf 0) (63) (5) := by decide +kernel
theorem wit_DoorbellsFetchIssueAndRetire_3 : (fun (s : State) (src : Src) (r : Nat) (data : Word) => (r < 64) ∧ (Reaches s.chip src (ringPage r)) ∧ (s.chip.shareWriter src = true) ∧ (bits data.toNat 6 10 = 0) ∧ (bits data.toNat 0 4 ≠ 0) ∧ (bits data.toNat 16 16 ≠ 0 ∨ s.chip.ringOwner r ≠ 1)) (run []) (.pf 0) (63) (0xFFFF003F) := by decide +kernel
theorem wit_DoorbellsFetchIssueAndRetire_4 : (fun (s : State) (r : Nat) (_data : List Byte) => (r < 64) ∧ (s.chip.canFetch r = true) ∧ (s.chip.ringLoc r = 0)) (run [(R.RNG.RING_STAT.STATE 31 1, 2), (R.RNG.RING_BIND.OWNER 31 1, 2), (R.RNG.SQ_TAIL.INDEX 31 1, 1)]) (63) ([1, 2]) := by decide +kernel
theorem wit_DoorbellsFetchIssueAndRetire_5 : (fun (s : State) (cls : Nat) (r : Nat) (e : RingEnt) => (cls = 4 ∨ cls = 5) ∧ (s.chip.pdFree PD.HOST = true) ∧ (r < 64) ∧ (s.chip.failingHead cls = none) ∧ (s.chip.ofClass cls r = true) ∧ (s.chip.issuable r = true) ∧ ((s.chip.ring r).fetched = [e]) ∧ (∀ k ∈ List.range 64, k ≠ r → s.chip.ofClass cls k = false) ∧ ((s.chip.ring r).credit ≠ 0)) (on (run [(R.RNG.RING_STAT.STATE 31 1, 2), (R.RNG.RING_BIND.OWNER 31 1, 2), (R.RNG.RING_BIND.CLASS 31 1, 4)]) fun c => { c with imx := { rings := [(63, { fetched := [⟨0, []⟩], credit := 1 })] } }) (4) (63) (⟨0, []⟩) := by decide +kernel
theorem wit_DoorbellsFetchIssueAndRetire_6 : (fun (s : State) (r : Nat) (e : RingEnt) => (r < 64) ∧ (s.chip.fenceExpired r = true) ∧ ((s.chip.ring r).fetched = [e])) (on (run [(R.RNG.RING_STAT.STATE 31 1, 2), (R.RNG.RING_BIND.OWNER 31 1, 2), (R.RNG.RING_BIND.CLASS 31 1, 4)]) fun c => { c with imx := { rings := [(63, { fetched := [⟨0, [0, 8, 63, 0, 1]⟩] })] } }) (63) (⟨0, [0, 8, 63, 0, 1]⟩) := by decide +kernel
theorem wit_DoorbellsFetchIssueAndRetire_7 : (fun (s : State) (r : Nat) (e : Issued) (d : Ending) => (r < 64) ∧ (s.chip.ringState r = RS.RUNNING) ∧ ((s.chip.ring r).issued = [e]) ∧ ((s.chip.ring r).ovf = []) ∧ (e.done = some d) ∧ (e.flags % 4 = 1) ∧ (d.status = 0) ∧ (s.chip.ringLoc r = 0) ∧ (0 < s.chip.cqFree r)) (on (run [(R.RNG.RING_STAT.STATE 31 1, 2), (R.RNG.RING_BIND.OWNER 31 1, 2)]) fun c => { c with imx := { rings := [(63, { issued := [⟨0, [0, 1], false, some ⟨0, [], 7⟩⟩] })] } }) (63) (⟨0, [0, 1], false, some ⟨0, [], 7⟩⟩) (⟨0, [], 7⟩) := by decide +kernel
theorem wit_DoorbellsFetchIssueAndRetire_8 : (fun (s : State) (r : Nat) (e : RingEvent) => (r < 64) ∧ (s.chip.ringLive r = true) ∧ (s.chip.ringState r ≠ RS.RETIRING) ∧ (s.chip.imx.events = [e]) ∧ (e.ring = r) ∧ (r ∉ s.chip.imx.dropped) ∧ ((s.chip.ring r).issued.length < s.chip.cqSpace r) ∧ ((s.chip.ring r).ovf = []) ∧ (0 < s.chip.cqFree r) ∧ (s.chip.ringLoc r = 0)) (on (run [(R.RNG.RING_STAT.STATE 31 1, 2), (R.RNG.RING_BIND.OWNER 31 1, 2)]) fun c => { c with imx := { events := [⟨63, 0, [], 0, 5, true⟩] } }) (63) (⟨63, 0, [], 0, 5, true⟩) := by decide +kernel
theorem wit_DoorbellsFetchIssueAndRetire_9 : (fun (s : State) (r : Nat) => (r < 64) ∧ (s.chip.stallOver r = true) ∧ (s.chip.ringOwner r = 1) ∧ (s.chip.viState (s.chip.ringVi r) = VS.ACTIVE)) (on (run [(R.RNG.RING_STAT.STATE 31 1, 3), (R.RNG.RING_BIND.OWNER 31 1, 1), (R.RNG.RING_BIND.VI 31 1, 15), (R.IMX_VI.VI_STAT.STATE 15, 2), (R.RNG.SEL.CQ_STALL_MAX 31 1, 1)]) fun c => { c with imx := { rings := [(63, { ovf := [[]], stall := 1 })] } }) (63) := by decide +kernel

theorem wit_LockUnitAndArbiters_1 : (fun (s : State) (src : Src) (r : Nat) (k : Nat) (data : Word) => (16 ≤ r ∧ r < 27) ∧ (k < 64) ∧ (data.toNat = k ∨ data.toNat = k + 256) ∧ ((match src with | .inst _ => false | _ => true) = true) ∧ (Reaches s.chip src 0x092) ∧ (lkId src = r) ∧ (s.chip.get (R.LCK_TABLE.LK_STATE.STATE k) = LK.FREE) ∧ (s.chip.lkCount r ≠ 8) ∧ (s.chip.lkWait r = none)) (run []) (.ccn 0) (17) (63) (319) := by decide +kernel
theorem wit_LockUnitAndArbiters_2 : (fun (s : State) (src : Src) (r : Nat) (k : Nat) (data : Word) => (16 ≤ r ∧ r < 27) ∧ (k < 64) ∧ (data.toNat = k + 256) ∧ ((match src with | .inst _ => false | _ => true) = true) ∧ (Reaches s.chip src 0x092) ∧ (lkId src = r) ∧ (s.chip.get (R.LCK_TABLE.LK_STATE.STATE k) = LK.HELD) ∧ (s.chip.get (R.LCK_TABLE.LK_STATE.OWNER k) ≠ r) ∧ (s.chip.lkCount r ≠ 8) ∧ (s.chip.lkWait r = none) ∧ (s.chip.lkCycle r (s.chip.get (R.LCK_TABLE.LK_STATE.OWNER k)) 28 = false)) (run [(R.LCK_TABLE.LK_STATE.STATE 0, 1), (R.LCK_TABLE.LK_STATE.OWNER 0, 3)]) (.pf 0) (16) (0) (256) := by decide +kernel
theorem wit_LockUnitAndArbiters_3 : (fun (s : State) (src : Src) (r : Nat) (k : Nat) (data : Word) => (16 ≤ r ∧ r < 27) ∧ (k < 64) ∧ (data.toNat = k) ∧ ((match src with | .inst _ => false | _ => true) = true) ∧ (Reaches s.chip src 0x092) ∧ (lkId src = r) ∧ (s.chip.lkHolds r k = true) ∧ (s.chip.lkNext k = none)) (run [(R.LCK_TABLE.LK_STATE.STATE 63, 1), (R.LCK_PORTS.LK_HELD_HI.LOCKS 16, 0x80000000)]) (.pf 0) (16) (63) (63) := by decide +kernel
theorem wit_LockUnitAndArbiters_4 : (fun (s : State) (src : Src) (r : Nat) (k : Nat) (w : Nat) (data : Word) => (16 ≤ r ∧ r < 27) ∧ (k < 64) ∧ (data.toNat = k) ∧ ((match src with | .inst _ => false | _ => true) = true) ∧ (Reaches s.chip src 0x092) ∧ (lkId src = r) ∧ (s.chip.lkHolds r k = true) ∧ (s.chip.lkNext k = some w) ∧ (w ≠ r)) (on (run [(R.LCK_TABLE.LK_STATE.STATE 63, 1), (R.LCK_PORTS.LK_HELD_HI.LOCKS 16, 0x80000000), (R.LCK_TABLE.LK_STATE.OWNER 63, 16)]) fun c => { c with fab := { waiting := [(26, 63)] } }) (.pf 0) (16) (63) (26) (63) := by decide +kernel
theorem wit_LockUnitAndArbiters_5 : (fun (s : State) (src : Src) (r : Nat) => (16 ≤ r ∧ r < 27) ∧ ((match src with | .inst _ => false | _ => true) = true) ∧ (Reaches s.chip src 0x092) ∧ (lkId src = r)) (on (run []) fun c => { c with fab := { waiting := [(16, 63)] } }) (.pf 0) (16) := by decide +kernel
theorem wit_LockUnitAndArbiters_6 : (fun (s : State) (k : Nat) => (k < 64) ∧ (s.chip.lkOverdue k = true)) (run [(R.LCK_TABLE.LK_STATE.STATE 63, 1), (R.LCK_TABLE.LK_STATE.HELD_LINES 63, 5), (R.LCK.HOLD_MAX.LINES, 5)]) (63) := by decide +kernel
theorem wit_LockUnitAndArbiters_7 : (fun (s : State) (src : Src) (a : Nat) (r : Nat) (n : Nat) (data : Word) => (Reaches s.chip src 0x141) ∧ (s.chip.mgrOrCtl src = true) ∧ (data.toNat = a + 256 * r) ∧ (a < 256 ∧ r < 256) ∧ (arbSize a = some n) ∧ (r < n)) (on (run []) fun c => { c with fab := { cnt := [(arbKey 0x40 26 0, 7)] } }) (.pf 0) (0x40) (26) (27) (0x1A40) := by decide +kernel
theorem wit_LockUnitAndArbiters_8 : (fun (s : State) (src : Src) (a : Nat) (r : Nat) (n : Nat) (data : Word) => (Reaches s.chip src 0x141) ∧ (s.chip.mgrOrCtl src = true) ∧ (data.toNat = a + 256 * r) ∧ (a < 256 ∧ r < 256) ∧ (arbSize a = some n) ∧ (r < n)) (on (run []) fun c => { c with fab := { cnt := [(arbKey 0x40 26 0, 7)] } }) (.ccs 0) (0x40) (26) (27) (0x1A40) := by decide +kernel

theorem wit_FabricProgressStall_1 : (fun (_s : State) (cls : Nat) => (cls < 4)) (run []) (3) := by decide +kernel

theorem wit_DramTrainingAndRegions_1 : (fun (s : State) (src : Src) => (Reaches s.chip src 0x160) ∧ (isSecure src = true) ∧ (s.chip.mode = Mode.BOOT) ∧ (s.chip.flag R.DRC.TRAIN.BUSY = false)) (regs []) (.ccs 0) := by decide +kernel
theorem wit_DramTrainingAndRegions_2 : (fun (s : State) (_unitPs : Nat) => (s.chip.flag R.DRC.TRAIN.BUSY = true)) (regs [(R.DRC.TRAIN.BUSY, 1)]) (250000) := by decide +kernel
theorem wit_DramTrainingAndRegions_3 : (fun (s : State) (failed : Nat) (_unitPs : Nat) => (s.chip.flag R.DRC.TRAIN.BUSY = true) ∧ (0 < failed ∧ failed < 4096)) (regs [(R.DRC.TRAIN.BUSY, 1)]) (4095) (0) := by decide +kernel
theorem wit_DramTrainingAndRegions_4 : (fun (s : State) (src : Src) (k : Nat) (data : Word) => (k < 8) ∧ (Reaches s.chip src 0x161) ∧ (isSecure src = true) ∧ (s.chip.mode = Mode.BOOT) ∧ (s.chip.flag R.DRC_ECC.ECC_CARVE.ECC_LOCK = false) ∧ (data.toNat < 2 ^ 18) ∧ (s.chip.regionOk (bits data.toNat 3 15) (s.chip.get (R.DRC_ECC.REG_SIZE.ADDR k)) (s.chip.get R.DRC_ECC.ECC_CARVE.SIZE) (s.chip.otherRegions k) = true)) (regs [(R.DRC.CAPACITY.GIB, 12), (R.DRC_ECC.REG_SIZE.ADDR 7, 8), (R.DRC_ECC.ECC_CARVE.SIZE, 1)]) (.ccs 0) (7) (2) := by decide +kernel
theorem wit_DramTrainingAndRegions_5 : (fun (s : State) (k : Nat) => (k < 8) ∧ (s.chip.flag (R.DRC_ECC.REG_BASE.INIT_BUSY k) = true)) ({ regs [(R.DRC_ECC.REG_BASE.INIT_BUSY 7, 1), (R.DRC_ECC.REG_SIZE.ADDR 7, 1)] with mem := { dram := [(0, 1), (2097151, 2), (2097152, 3)] } }) (7) := by decide +kernel
theorem wit_DramTrainingAndRegions_6 : (fun (s : State) (k : Nat) (_ok : Bool) => (k < 12) ∧ (s.chip.flag (R.DRC_DC.DC_STAT.RETRAINING k) = true)) (run [(R.DRC_DC.DC_STAT.RETRAINING 11, 1)]) (11) (false) := by decide +kernel
theorem wit_DramTrainingAndRegions_7 : (fun (s : State) (k : Nat) (rate : Nat) (_temp : Nat) => (k < 12) ∧ (rate < 3) ∧ (s.chip.drcReady = true) ∧ (rate ≠ s.chip.get (R.DRC_DC.DC_STAT.RATE k))) (run [(R.DRC.TRAIN.DONE, 1), (R.SYS_POWER.PD_ON.ON, 0x1FFFFFF)]) (11) (2) (90) := by decide +kernel

theorem wit_DramQueuesServeRequests_1 : (fun (s : State) (k : Nat) (a : DramAsk) => (a.fits = true) ∧ (k = dramChan a.off) ∧ (s.chip.drcReady = true) ∧ (a.off + a.len ≤ s.chip.dramUsable) ∧ (s.chip.get (R.DRC_DC.DC_STAT.SR k) = 0) ∧ (s.chip.govTime.askFits k a = true)) (run [(R.DRC.TRAIN.DONE, 1), (R.SYS_POWER.PD_ON.ON, 0x1FFFFFF), (R.DRC.CAPACITY.USABLE_2M, 1)]) (dramChan 2097088) (⟨19, .other 16 3, false, true, 2097088, 64, [1]⟩) := by decide +kernel
theorem wit_DramQueuesServeRequests_2 : (fun (s : State) (k : Nat) (a : DramAsk) (b : DramAsk) => (a.fits = true ∧ b.fits = true ∧ a.port ≠ b.port) ∧ (k = dramChan a.off ∧ dramChan b.off = k) ∧ (s.chip.drcReady = true) ∧ (a.off + a.len ≤ s.chip.dramUsable ∧ b.off + b.len ≤ s.chip.dramUsable) ∧ (s.chip.get (R.DRC_DC.DC_STAT.SR k) = 0) ∧ (s.chip.govTime.askFits k a = true ∧ s.chip.govTime.askFits k b = true) ∧ (s.chip.askClass a = 2 ∧ s.chip.askClass b = 2) ∧ (s.chip.askWeight (s.chip.askOwner a) = 0 ∧ s.chip.askWeight (s.chip.askOwner b) ≠ 0)) (run [(R.DRC.TRAIN.DONE, 1), (R.SYS_POWER.PD_ON.ON, 0x1FFFFFF), (R.DRC.CAPACITY.USABLE_2M, 1)]) (0) (⟨2, .other 3 2, false, false, 0, 64, []⟩) (⟨3, .other 16 2, false, false, 64, 64, []⟩) := by decide +kernel
theorem wit_DramQueuesServeRequests_3 : (fun (s : State) (k : Nat) (_iso : Bool) (busy : List Nat) (e : DramEnt) => (k < 12) ∧ (s.chip.drcReady = true) ∧ (s.chip.flag (R.DRC_DC.DC_STAT.RETRAINING k) = false) ∧ ((s.chip.dch1 k).ents = [e]) ∧ (s.chip.dramBank e.off ∉ busy) ∧ (e.write = true) ∧ (e.cls < 4) ∧ (e.sent < e.len ∧ e.len - e.sent ≤ 32 - (e.off + e.sent) % 32)) (on (run [(R.DRC.TRAIN.DONE, 1), (R.SYS_POWER.PD_ON.ON, 0x1FFFFFF)]) fun c => { c with drc := { ch := [(11, { ents := [⟨true, 2, 4, 2816, 32, 0, [7, 8], 0, false, false⟩] })] } }) (11) (true) ([1]) (⟨true, 2, 4, 2816, 32, 0, [7, 8], 0, false, false⟩) := by decide +kernel
theorem wit_DramQueuesServeRequests_4 : (fun (s : State) (k : Nat) (_iso : Bool) (busy : List Nat) (e : DramEnt) => (k < 12) ∧ (s.chip.drcReady = true) ∧ (s.chip.flag (R.DRC_DC.DC_STAT.RETRAINING k) = false) ∧ ((s.chip.dch1 k).ents = [e]) ∧ (s.chip.dramBank e.off ∉ busy) ∧ (e.write = false) ∧ (e.cls < 4) ∧ (e.sent < e.len ∧ e.len - e.sent ≤ 32 - (e.off + e.sent) % 32) ∧ (s.chip.flaws = []) ∧ ((s.chip.get R.PTB_PERTURB.DRAM_DELAY.CHANNELS).testBit k = false) ∧ (s.chip.fab.pressed = 0)) ({ on (run [(R.DRC.TRAIN.DONE, 1), (R.SYS_POWER.PD_ON.ON, 0x1FFFFFF)]) (fun c => { c with drc := { ch := [(11, { ents := [⟨false, 0, 4, 2816, 32, 0, [], 0, false, true⟩] })] } }) with mem := { dram := [(2816, 9)] } }) (11) (true) ([]) (⟨false, 0, 4, 2816, 32, 0, [], 0, false, true⟩) := by decide +kernel
theorem wit_DramQueuesServeRequests_5 : (fun (s : State) (k : Nat) (n : Nat) => (k < 12) ∧ (s.chip.drcReady = true) ∧ (s.chip.get (R.DRC_DC.DC_STAT.SR k) < 2) ∧ (s.chip.drc.blank = false) ∧ (n = (s.chip.ps - (s.chip.dch1 k).upTo) * 256 * s.chip.dcRate k + (s.chip.dch1 k).rem) ∧ ((s.chip.debt k + n / trefi) / 256 ≤ s.chip.get (R.DRC_DC.DEBT.LIMIT k)) ∧ (s.chip.debt k + n / trefi < 4096)) (on (run [(R.DRC.TRAIN.DONE, 1), (R.SYS_POWER.PD_ON.ON, 0x1FFFFFF)]) fun c => { c with ps := 3906000 }) (11) (999936000) := by decide +kernel
theorem wit_DramQueuesServeRequests_6 : (fun (s : State) (k : Nat) => (k < 12) ∧ (s.chip.drcReady = true) ∧ (s.chip.flag R.DRC.LP_CFG.SR_EN = true) ∧ (s.chip.mode = Mode.RUN) ∧ (s.chip.get (R.DRC_DC.DC_STAT.SR k) = 0) ∧ ((s.chip.dch1 k).ents = []) ∧ (s.chip.fetchRaised = false) ∧ ((s.chip.dch1 k).idleAt + s.chip.get R.DRC.LP_CFG.SR_IDLE * 1000000 ≤ s.chip.ps)) (on (run [(R.DRC.TRAIN.DONE, 1), (R.SYS_POWER.PD_ON.ON, 0x1FFFFFF), (R.DRC.LP_CFG.SR_EN, 1)]) fun c => { c with ps := 1000000000000 }) (11) := by decide +kernel

theorem wit_SpargeTakesUpDescriptors_1 : (fun (s : State) (r : Nat) (e : Issued) => (r < 64) ∧ (s.chip.freshEntry r 2 0 = some e) ∧ (zeroAt e.bytes 0x10 48 = true)) (on (run [(R.RNG.RING_BIND.CLASS 31 1, 2)]) fun c => { c with imx := { rings := [(63, { issued := [⟨0, [0], true, none⟩] })] } }) (63) (⟨0, [0], true, none⟩) := by decide +kernel
theorem wit_SpargeTakesUpDescriptors_2 : (fun (s : State) (r : Nat) (e : Issued) (d : DmaDesc) => (r < 64) ∧ (s.chip.freshEntry r 2 1 = some e) ∧ (d = { ring := r, seq := e.seq, own := s.chip.ringOwn r, bytes := e.bytes }) ∧ (s.chip.dmaCheck d = none)) (on (run [(R.RNG.RING_BIND.CLASS 31 1, 2), (R.DRC.CAPACITY.GIB, 12)]) fun c => { c with imx := { rings := [(63, { issued := [⟨0, cpBytes 1, true, none⟩] })] } }) (63) (⟨0, cpBytes 1, true, none⟩) (⟨63, 0, 16, cpBytes 1⟩) := by decide +kernel
theorem wit_SpargeTakesUpDescriptors_3 : (fun (s : State) (r : Nat) (e : Issued) (d : DmaDesc) => (r < 64) ∧ (s.chip.freshEntry r 2 2 = some e) ∧ (d = { ring := r, seq := e.seq, own := s.chip.ringOwn r, bytes := e.bytes }) ∧ (s.chip.dmaCheck d = none)) (on (run [(R.RNG.RING_BIND.CLASS 31 1, 2), (R.DRC.CAPACITY.GIB, 12)]) fun c => { c with imx := { rings := [(63, { issued := [⟨0, cpBytes 2, true, none⟩] })] } }) (63) (⟨0, cpBytes 2, true, none⟩) (⟨63, 0, 16, cpBytes 2⟩) := by decide +kernel
theorem wit_SpargeTakesUpDescriptors_4 : (fun (s : State) (r : Nat) (e : Issued) (d : DmaDesc) => (r < 64) ∧ (s.chip.freshEntry r 2 3 = some e) ∧ (d = { ring := r, seq := e.seq, own := s.chip.ringOwn r, bytes := e.bytes }) ∧ (s.chip.dmaCheck d = none)) (on (run [(R.RNG.RING_BIND.CLASS 31 1, 2), (R.DRC.CAPACITY.GIB, 12)]) fun c => { c with imx := { rings := [(63, { issued := [⟨0, cpBytes 3, true, none⟩] })] } }) (63) (⟨0, cpBytes 3, true, none⟩) (⟨63, 0, 16, cpBytes 3⟩) := by decide +kernel
theorem wit_SpargeTakesUpDescriptors_5 : (fun (s : State) (r : Nat) (k : Nat) (e : Issued) => (r < 64) ∧ (s.chip.freshEntry r 2 4 = some e) ∧ (k < 32 ∧ fieldAt e.bytes 0x10 1 = k) ∧ (zeroAt e.bytes 0x11 47 = true) ∧ (s.chip.dmaUsable (s.chip.ringOwn r) k = true) ∧ ((s.chip.dch k).run.isSome = true) ∧ ((s.chip.dch k).stopping = false)) (on (run [(R.RNG.RING_BIND.CLASS 31 1, 2)]) fun c => { c with imx := { rings := [(63, { issued := [⟨9, [4], true, none⟩] })] }, dma := { ch := [(0, { queue := [⟨1, 1, 16, []⟩, ⟨1, 2, 16, []⟩], run := some {} })] } }) (63) (0) (⟨9, [4], true, none⟩) := by decide +kernel
theorem wit_SpargeTakesUpDescriptors_6 : (fun (s : State) (src : Src) (k : Nat) => (k < 32) ∧ (Reaches s.chip src 0x181) ∧ (s.chip.mgrOrCtl src = true) ∧ ((s.chip.dch k).run.isSome = true) ∧ ((s.chip.dch k).stopping = false)) (on (run []) fun c => { c with dma := { ch := [(31, { queue := [⟨1, 1, 16, []⟩], run := some {} })] } }) (.pf 0) (31) := by decide +kernel
theorem wit_SpargeTakesUpDescriptors_7 : (fun (s : State) (k : Nat) (d : DmaDesc) => (k < 32) ∧ ((s.chip.dch k).queue.head? = some d) ∧ ((s.chip.dch k).run = none) ∧ ((s.chip.dch k).stopping = false) ∧ ((s.chip.dch k).waiting = false) ∧ (s.chip.pdFree PD.DMA = true) ∧ (s.chip.dmaLeaving k = false) ∧ (d.start = 0)) (on (run []) fun c => { c with dma := { ch := [(31, { queue := [⟨1, 77, 16, []⟩] })] } }) (31) (⟨1, 77, 16, []⟩) := by decide +kernel
theorem wit_SpargeTakesUpDescriptors_8 : (fun (s : State) (k : Nat) (_beats : Nat) (d : DmaDesc) (x : DmaRun) => (k < 32) ∧ (s.chip.pdOn PD.DMA = true) ∧ (s.chip.dmaRunning k = some (d, x)) ∧ (d.op = 2) ∧ (d.dstSpace = 0) ∧ (x.done < d.total) ∧ (x.stopped = none) ∧ (∀ i ∈ List.range 32, i ≠ k → (s.chip.dch i).run = none) ∧ (s.chip.flag R.DMA.DMA_CFG.MODE = false)) (on (run [(R.SYS_POWER.PD_ON.ON, 0x1FFFFFF)]) fun c => { c with dma := { ch := [(31, { queue := [⟨1, 77, 16, cpBytes 2⟩], run := some {} })] } }) (31) (2) (⟨1, 77, 16, cpBytes 2⟩) ({}) := by decide +kernel
theorem wit_SpargeTakesUpDescriptors_9 : (fun (s : State) (k : Nat) (beats : Nat) (n : Nat) (d : DmaDesc) (x : DmaRun) => (k < 32) ∧ (s.chip.pdOn PD.DMA = true) ∧ (s.chip.dmaRunning k = some (d, x)) ∧ (d.op = 1) ∧ (x.srcNext < d.total) ∧ (x.stopped = none) ∧ (x.cutSrc = true ∨ (x.slots < s.chip.get (R.DMA_CH.CH_CFG.BUF_MAX k) ∧ s.chip.dmaSlots < 256)) ∧ (∀ i ∈ List.range 32, i ≠ k → (s.chip.dch i).run = none) ∧ (n = s.chip.beatCut beats (d.srcAt x.srcNext) (burstLen d x.srcNext (d.srcAt x.srcNext)))) (on (run [(R.SYS_POWER.PD_ON.ON, 0x1FFFFFF), (R.DMA.DMA_CFG.MODE, 1)]) fun c => { c with dma := { ch := [(31, { queue := [⟨1, 77, 16, cpBytes 1⟩], run := some {} })] } }) (31) (1) (32) (⟨1, 77, 16, cpBytes 1⟩) ({}) := by decide +kernel
theorem wit_SpargeTakesUpDescriptors_10 : (fun (s : State) (k : Nat) (_data : List Byte) (d : DmaDesc) (x : DmaRun) (rd : DmaRead) (rest : List DmaRead) => (k < 32) ∧ (s.chip.dmaRunning k = some (d, x)) ∧ (d.op = 1) ∧ (x.reads = rd :: rest) ∧ (rd.dst = false) ∧ (d.srcSpace = 0) ∧ (s.chip.flaws = [])) (on (run []) fun c => { c with dma := { ch := [(31, { queue := [⟨1, 77, 16, cpBytes 1⟩], run := some { reads := [⟨false, 0, 4, false⟩] } })] } }) (31) ([]) (⟨1, 77, 16, cpBytes 1⟩) ({ reads := [⟨false, 0, 4, false⟩] }) (⟨false, 0, 4, false⟩) ([]) := by decide +kernel
theorem wit_SpargeTakesUpDescriptors_11 : (fun (s : State) (k : Nat) (d : DmaDesc) (x : DmaRun) => (k < 32) ∧ (s.chip.dmaRunning k = some (d, x)) ∧ (x.stopped = none) ∧ (x.done = d.total) ∧ ((s.chip.dch k).stopping = false)) (on (run []) fun c => { c with imx := { rings := [(1, { issued := [⟨77, [1], false, none⟩] })] }, dma := { ch := [(31, { queue := [⟨1, 77, 16, cpBytes 1⟩], run := some { done := 256 } })] } }) (31) (⟨1, 77, 16, cpBytes 1⟩) ({ done := 256 }) := by decide +kernel

theorem wit_ShaderIntegerArithmetic_1 : (fun (s : State) (w : Nat) (q : GWave) (ins : Nat) (wide : Bool) => (AtIns s w q ins) ∧ (Ins.op ins = if wide then 0x40 else 0x30) ∧ (wide = true → Ins.dst ins < 32) ∧ (Ins.sat ins = false)) (atWave true (insOf 0x40 31)) (191) (wv true (insOf 0x40 31)) (insOf 0x40 31) (true) := by decide +kernel
theorem wit_ShaderIntegerArithmetic_2 : (fun (s : State) (w : Nat) (q : GWave) (ins : Nat) (wide : Bool) => (AtIns s w q ins) ∧ (Ins.op ins = if wide then 0x41 else 0x31) ∧ (wide = true → Ins.dst ins < 32) ∧ (Ins.sat ins = false)) (atWave true (insOf 0x41 31)) (191) (wv true (insOf 0x41 31)) (insOf 0x41 31) (true) := by decide +kernel
theorem wit_ShaderIntegerArithmetic_3 : (fun (s : State) (w : Nat) (q : GWave) (ins : Nat) (wide : Bool) => (AtIns s w q ins) ∧ (Ins.op ins = if wide then 0x42 else 0x32) ∧ (wide = true → Ins.dst ins < 32) ∧ (Ins.sat ins = false)) (atWave true (insOf 0x42 31)) (191) (wv true (insOf 0x42 31)) (insOf 0x42 31) (true) := by decide +kernel
theorem wit_ShaderIntegerArithmetic_4 : (fun (s : State) (w : Nat) (q : GWave) (ins : Nat) (wide : Bool) => (AtIns s w q ins) ∧ (Ins.op ins = if wide then 0x43 else 0x33) ∧ (wide = true → Ins.dst ins < 32) ∧ (Ins.sat ins = false)) (atWave true (insOf 0x43 31)) (191) (wv true (insOf 0x43 31)) (insOf 0x43 31) (true) := by decide +kernel
theorem wit_ShaderIntegerArithmetic_5 : (fun (s : State) (w : Nat) (q : GWave) (ins : Nat) (wide : Bool) => (AtIns s w q ins) ∧ (Ins.op ins = if wide then 0x44 else 0x34) ∧ (wide = true → Ins.dst ins < 32) ∧ (Ins.sat ins = false)) (atWave true (insOf 0x44 31)) (191) (wv true (insOf 0x44 31)) (insOf 0x44 31) (true) := by decide +kernel
theorem wit_ShaderIntegerArithmetic_6 : (fun (s : State) (w : Nat) (q : GWave) (ins : Nat) (wide : Bool) => (AtIns s w q ins) ∧ (Ins.op ins = if wide then 0x45 else 0x35) ∧ (wide = true → Ins.dst ins < 32) ∧ (Ins.sat ins = false)) (atWave true (insOf 0x45 31)) (191) (wv true (insOf 0x45 31)) (insOf 0x45 31) (true) := by decide +kernel
theorem wit_ShaderIntegerArithmetic_7 : (fun (s : State) (w : Nat) (q : GWave) (ins : Nat) (wide : Bool) => (AtIns s w q ins) ∧ (Ins.op ins = if wide then 0x46 else 0x36) ∧ (wide = true → Ins.dst ins < 32) ∧ (Ins.sat ins = false)) (atWave true (insOf 0x46 31)) (191) (wv true (insOf 0x46 31)) (insOf 0x46 31) (true) := by decide +kernel
theorem wit_ShaderIntegerArithmetic_8 : (fun (s : State) (w : Nat) (q : GWave) (ins : Nat) (wide : Bool) => (AtIns s w q ins) ∧ (Ins.op ins = if wide then 0x47 else 0x37) ∧ (wide = true → Ins.dst ins < 32) ∧ (Ins.sat ins = false)) (atWave true (insOf 0x47 31)) (191) (wv true (insOf 0x47 31)) (insOf 0x47 31) (true) := by decide +kernel

theorem wit_ShaderLogicMovesAndShifts_1 : (fun (s : State) (w : Nat) (q : GWave) (ins : Nat) (wide : Bool) => (AtIns s w q ins) ∧ (Ins.op ins = if wide then 0x48 else 0x38) ∧ (wide = true → Ins.dst ins < 32) ∧ (Ins.sat ins = false)) (atWave true (insOf 0x48 31)) (191) (wv true (insOf 0x48 31)) (insOf 0x48 31) (true) := by decide +kernel
theorem wit_ShaderLogicMovesAndShifts_2 : (fun (s : State) (w : Nat) (q : GWave) (ins : Nat) (wide : Bool) => (AtIns s w q ins) ∧ (Ins.op ins = if wide then 0x49 else 0x39) ∧ (wide = true → Ins.dst ins < 32) ∧ (Ins.sat ins = false)) (atWave true (insOf 0x49 31)) (191) (wv true (insOf 0x49 31)) (insOf 0x49 31) (true) := by decide +kernel
theorem wit_ShaderLogicMovesAndShifts_3 : (fun (s : State) (w : Nat) (q : GWave) (ins : Nat) (wide : Bool) => (AtIns s w q ins) ∧ (Ins.op ins = if wide then 0x4a else 0x3a) ∧ (wide = true → Ins.dst ins < 32) ∧ (Ins.sat ins = false)) (atWave true (insOf 0x4a 31)) (191) (wv true (insOf 0x4a 31)) (insOf 0x4a 31) (true) := by decide +kernel
theorem wit_ShaderLogicMovesAndShifts_4 : (fun (s : State) (w : Nat) (q : GWave) (ins : Nat) (wide : Bool) => (AtIns s w q ins) ∧ (Ins.op ins = if wide then 0x4b else 0x3b) ∧ (wide = true → Ins.dst ins < 32) ∧ (Ins.sat ins = false)) (atWave true (insOf 0x4b 31)) (191) (wv true (insOf 0x4b 31)) (insOf 0x4b 31) (true) := by decide +kernel
theorem wit_ShaderLogicMovesAndShifts_5 : (fun (s : State) (w : Nat) (q : GWave) (ins : Nat) (wide : Bool) => (AtIns s w q ins) ∧ (Ins.op ins = if wide then 0x4c else 0x3c) ∧ (wide = true → Ins.dst ins < 32) ∧ (Ins.sat ins = false)) (atWave true (insOf 0x4c 31)) (191) (wv true (insOf 0x4c 31)) (insOf 0x4c 31) (true) := by decide +kernel
theorem wit_ShaderLogicMovesAndShifts_6 : (fun (s : State) (w : Nat) (q : GWave) (ins : Nat) (wide : Bool) => (AtIns s w q ins) ∧ (Ins.op ins = if wide then 0x4d else 0x3d) ∧ (wide = true → Ins.dst ins < 32) ∧ (Ins.sat ins = false)) (atWave true (insOf 0x4d 31)) (191) (wv true (insOf 0x4d 31)) (insOf 0x4d 31) (true) := by decide +kernel
theorem wit_ShaderLogicMovesAndShifts_7 : (fun (s : State) (w : Nat) (q : GWave) (ins : Nat) (wide : Bool) => (AtIns s w q ins) ∧ (Ins.op ins = if wide then 0x4e else 0x3e) ∧ (wide = true → Ins.dst ins < 32) ∧ (Ins.sat ins = false)) (atWave true (insOf 0x4e 31)) (191) (wv true (insOf 0x4e 31)) (insOf 0x4e 31) (true) := by decide +kernel
theorem wit_ShaderLogicMovesAndShifts_8 : (fun (s : State) (w : Nat) (q : GWave) (ins : Nat) (wide : Bool) => (AtIns s w q ins) ∧ (Ins.op ins = if wide then 0x2 else 0x1) ∧ (wide = true → Ins.dst ins < 32) ∧ (Ins.sat ins = false)) (atWave true (insOf 0x2 31)) (191) (wv true (insOf 0x2 31)) (insOf 0x2 31) (true) := by decide +kernel
theorem wit_ShaderLogicMovesAndShifts_9 : (fun (s : State) (w : Nat) (q : GWave) (ins : Nat) (wide : Bool) => (AtIns s w q ins) ∧ (Ins.op ins = if wide then 0x4 else 0x3) ∧ (wide = true → Ins.dst ins < 32) ∧ (Ins.sat ins = false)) (atWave true (insOf 0x4 31)) (191) (wv true (insOf 0x4 31)) (insOf 0x4 31) (true) := by decide +kernel
theorem wit_ShaderLogicMovesAndShifts_10 : (fun (s : State) (w : Nat) (q : GWave) (ins : Nat) => (AtIns s w q ins) ∧ (Ins.op ins = 0)) (atWave true 0) (191) (wv true 0) (0) := by decide +kernel

theorem wit_ShaderFloatArithmetic_1 : (fun (s : State) (w : Nat) (q : GWave) (ins : Nat) (wide : Bool) => (AtIns s w q ins) ∧ (Ins.op ins = if wide then 0x20 else 0x10) ∧ (wide = true → Ins.dst ins < 32)) (atWave true (insOf 0x20 31)) (191) (wv true (insOf 0x20 31)) (insOf 0x20 31) (true) := by decide +kernel
theorem wit_ShaderFloatArithmetic_2 : (fun (s : State) (w : Nat) (q : GWave) (ins : Nat) (wide : Bool) => (AtIns s w q ins) ∧ (Ins.op ins = if wide then 0x21 else 0x11) ∧ (wide = true → Ins.dst ins < 32)) (atWave true (insOf 0x21 31)) (191) (wv true (insOf 0x21 31)) (insOf 0x21 31) (true) := by decide +kernel
theorem wit_ShaderFloatArithmetic_3 : (fun (s : State) (w : Nat) (q : GWave) (ins : Nat) (wide : Bool) => (AtIns s w q ins) ∧ (Ins.op ins = if wide then 0x22 else 0x12) ∧ (wide = true → Ins.dst ins < 32)) (atWave true (insOf 0x22 31)) (191) (wv true (insOf 0x22 31)) (insOf 0x22 31) (true) := by decide +kernel
theorem wit_ShaderFloatArithmetic_4 : (fun (s : State) (w : Nat) (q : GWave) (ins : Nat) (wide : Bool) => (AtIns s w q ins) ∧ (Ins.op ins = if wide then 0x23 else 0x13) ∧ (wide = true → Ins.dst ins < 32)) (atWave true (insOf 0x23 31)) (191) (wv true (insOf 0x23 31)) (insOf 0x23 31) (true) := by decide +kernel
theorem wit_ShaderFloatArithmetic_5 : (fun (s : State) (w : Nat) (q : GWave) (ins : Nat) (wide : Bool) => (AtIns s w q ins) ∧ (Ins.op ins = if wide then 0x24 else 0x14) ∧ (wide = true → Ins.dst ins < 32)) (atWave true (insOf 0x24 31)) (191) (wv true (insOf 0x24 31)) (insOf 0x24 31) (true) := by decide +kernel
theorem wit_ShaderFloatArithmetic_6 : (fun (s : State) (w : Nat) (q : GWave) (ins : Nat) (wide : Bool) => (AtIns s w q ins) ∧ (Ins.op ins = if wide then 0x25 else 0x15) ∧ (wide = true → Ins.dst ins < 32)) (atWave true (insOf 0x25 31)) (191) (wv true (insOf 0x25 31)) (insOf 0x25 31) (true) := by decide +kernel
theorem wit_ShaderFloatArithmetic_7 : (fun (s : State) (w : Nat) (q : GWave) (ins : Nat) (wide : Bool) => (AtIns s w q ins) ∧ (Ins.op ins = if wide then 0x26 else 0x16) ∧ (wide = true → Ins.dst ins < 32)) (atWave true (insOf 0x26 31)) (191) (wv true (insOf 0x26 31)) (insOf 0x26 31) (true) := by decide +kernel

theorem wit_ShaderFloatFunctions_1 : (fun (s : State) (w : Nat) (q : GWave) (ins : Nat) (wide : Bool) => (AtIns s w q ins) ∧ (Ins.op ins = if wide then 0x27 else 0x17) ∧ (wide = true → Ins.dst ins < 32)) (atWave true (insOf 0x27 31)) (191) (wv true (insOf 0x27 31)) (insOf 0x27 31) (true) := by decide +kernel
theorem wit_ShaderFloatFunctions_2 : (fun (s : State) (w : Nat) (q : GWave) (ins : Nat) (wide : Bool) => (AtIns s w q ins) ∧ (Ins.op ins = if wide then 0x28 else 0x18) ∧ (wide = true → Ins.dst ins < 32)) (atWave true (insOf 0x28 31)) (191) (wv true (insOf 0x28 31)) (insOf 0x28 31) (true) := by decide +kernel
theorem wit_ShaderFloatFunctions_3 : (fun (s : State) (w : Nat) (q : GWave) (ins : Nat) (wide : Bool) => (AtIns s w q ins) ∧ (Ins.op ins = if wide then 0x29 else 0x19) ∧ (wide = true → Ins.dst ins < 32)) (atWave true (insOf 0x29 31)) (191) (wv true (insOf 0x29 31)) (insOf 0x29 31) (true) := by decide +kernel
theorem wit_ShaderFloatFunctions_4 : (fun (s : State) (w : Nat) (q : GWave) (ins : Nat) (wide : Bool) => (AtIns s w q ins) ∧ (Ins.op ins = if wide then 0x2a else 0x1a) ∧ (wide = true → Ins.dst ins < 32)) (atWave true (insOf 0x2a 31)) (191) (wv true (insOf 0x2a 31)) (insOf 0x2a 31) (true) := by decide +kernel
theorem wit_ShaderFloatFunctions_5 : (fun (s : State) (w : Nat) (q : GWave) (ins : Nat) (wide : Bool) => (AtIns s w q ins) ∧ (Ins.op ins = if wide then 0x2b else 0x1b) ∧ (wide = true → Ins.dst ins < 32)) (atWave true (insOf 0x2b 31)) (191) (wv true (insOf 0x2b 31)) (insOf 0x2b 31) (true) := by decide +kernel
theorem wit_ShaderFloatFunctions_6 : (fun (s : State) (w : Nat) (q : GWave) (ins : Nat) (wide : Bool) => (AtIns s w q ins) ∧ (Ins.op ins = if wide then 0x2c else 0x1c) ∧ (wide = true → Ins.dst ins < 32)) (atWave true (insOf 0x2c 31)) (191) (wv true (insOf 0x2c 31)) (insOf 0x2c 31) (true) := by decide +kernel
theorem wit_ShaderFloatFunctions_7 : (fun (s : State) (w : Nat) (q : GWave) (ins : Nat) (wide : Bool) => (AtIns s w q ins) ∧ (Ins.op ins = if wide then 0x2d else 0x1d) ∧ (wide = true → Ins.dst ins < 32)) (atWave true (insOf 0x2d 31)) (191) (wv true (insOf 0x2d 31)) (insOf 0x2d 31) (true) := by decide +kernel

theorem wit_ShaderConversions_1 : (fun (s : State) (w : Nat) (q : GWave) (ins : Nat) => (AtIns s w q ins) ∧ (Ins.op ins = 0x50) ∧ (Ins.dst ins < 32)) (atWave true (insOf 0x50 31)) (191) (wv true (insOf 0x50 31)) (insOf 0x50 31) := by decide +kernel
theorem wit_ShaderConversions_2 : (fun (s : State) (w : Nat) (q : GWave) (ins : Nat) => (AtIns s w q ins) ∧ (Ins.op ins = 0x51)) (atWave true (insOf 0x51 31)) (191) (wv true (insOf 0x51 31)) (insOf 0x51 31) := by decide +kernel
theorem wit_ShaderConversions_3 : (fun (s : State) (w : Nat) (q : GWave) (ins : Nat) => (AtIns s w q ins) ∧ (Ins.op ins = 0x52)) (atWave true (insOf 0x52 31)) (191) (wv true (insOf 0x52 31)) (insOf 0x52 31) := by decide +kernel
theorem wit_ShaderConversions_4 : (fun (s : State) (w : Nat) (q : GWave) (ins : Nat) => (AtIns s w q ins) ∧ (Ins.op ins = 0x53)) (atWave true (insOf 0x53 31)) (191) (wv true (insOf 0x53 31)) (insOf 0x53 31) := by decide +kernel
theorem wit_ShaderConversions_5 : (fun (s : State) (w : Nat) (q : GWave) (ins : Nat) => (AtIns s w q ins) ∧ (Ins.op ins = 0x54) ∧ (Ins.sat ins = false)) (atWave true (insOf 0x54 31)) (191) (wv true (insOf 0x54 31)) (insOf 0x54 31) := by decide +kernel
theorem wit_ShaderConversions_6 : (fun (s : State) (w : Nat) (q : GWave) (ins : Nat) => (AtIns s w q ins) ∧ (Ins.op ins = 0x55) ∧ (Ins.sat ins = false)) (atWave true (insOf 0x55 31)) (191) (wv true (insOf 0x55 31)) (insOf 0x55 31) := by decide +kernel
theorem wit_ShaderConversions_7 : (fun (s : State) (w : Nat) (q : GWave) (ins : Nat) => (AtIns s w q ins) ∧ (Ins.op ins = 0x56) ∧ (Ins.dst ins < 32)) (atWave true (insOf 0x56 31)) (191) (wv true (insOf 0x56 31)) (insOf 0x56 31) := by decide +kernel
theorem wit_ShaderConversions_8 : (fun (s : State) (w : Nat) (q : GWave) (ins : Nat) => (AtIns s w q ins) ∧ (Ins.op ins = 0x57) ∧ (Ins.dst ins < 32) ∧ (Ins.sat ins = false)) (atWave true (insOf 0x57 31)) (191) (wv true (insOf 0x57 31)) (insOf 0x57 31) := by decide +kernel
theorem wit_ShaderConversions_9 : (fun (s : State) (w : Nat) (q : GWave) (ins : Nat) => (AtIns s w q ins) ∧ (Ins.op ins = 0x58) ∧ (Ins.dst ins < 32) ∧ (Ins.sat ins = false)) (atWave true (insOf 0x58 31)) (191) (wv true (insOf 0x58 31)) (insOf 0x58 31) := by decide +kernel
theorem wit_ShaderConversions_10 : (fun (s : State) (w : Nat) (q : GWave) (ins : Nat) => (AtIns s w q ins) ∧ (Ins.op ins = 0x59) ∧ (Ins.sat ins = false)) (atWave true (insOf 0x59 31)) (191) (wv true (insOf 0x59 31)) (insOf 0x59 31) := by decide +kernel

theorem wit_ShaderPredicatesAndFlow_1 : (fun (s : State) (w : Nat) (q : GWave) (ins : Nat) (wide : Bool) => (AtIns s w q ins) ∧ (Ins.op ins = if wide then 0x5B else 0x5A) ∧ (Ins.cond ins < 7)) (atWave true (insOf 0x5B 3)) (191) (wv true (insOf 0x5B 3)) (insOf 0x5B 3) (true) := by decide +kernel
theorem wit_ShaderPredicatesAndFlow_2 : (fun (s : State) (w : Nat) (q : GWave) (ins : Nat) (wide : Bool) (sg : Bool) => (AtIns s w q ins) ∧ (Ins.op ins = if wide then (if sg then 0x5E else 0x5F) else (if sg then 0x5C else 0x5D)) ∧ (Ins.cond ins < 6)) (atWave true (insOf 0x5C 40)) (191) (wv true (insOf 0x5C 40)) (insOf 0x5C 40) (false) (true) := by decide +kernel
theorem wit_ShaderPredicatesAndFlow_3 : (fun (s : State) (w : Nat) (q : GWave) (ins : Nat) => (AtIns s w q ins) ∧ (Ins.op ins = 0x62)) (atWave true (insOf 0x62 3)) (191) (wv true (insOf 0x62 3)) (insOf 0x62 3) := by decide +kernel
theorem wit_ShaderPredicatesAndFlow_4 : (fun (s : State) (w : Nat) (q : GWave) (ins : Nat) => (AtIns s w q ins) ∧ (Ins.op ins = 0x68) ∧ (Ins.imm ins < 256)) (atWave true (insOf 0x68 0)) (191) (wv true (insOf 0x68 0)) (insOf 0x68 0) := by decide +kernel
theorem wit_ShaderPredicatesAndFlow_5 : (fun (s : State) (w : Nat) (q : GWave) (ins : Nat) => (AtIns s w q ins) ∧ (Ins.op ins = 0x79)) (atWave true (insOf 0x79 0)) (191) (wv true (insOf 0x79 0)) (insOf 0x79 0) := by decide +kernel
theorem wit_ShaderPredicatesAndFlow_6 : (fun (s : State) (w : Nat) (q : GWave) (ins : Nat) (g : GCore) => (AtIns s w q ins) ∧ (Ins.op ins = 0x7F) ∧ (q.frag = true) ∧ (q.core < 12 ∧ q.home < 12) ∧ (s.chip.gcore q.home = some g) ∧ (g.queue = [] ∧ g.list.length ≤ 32 * g.pos)) (on (atWave true 0x7F) fun c => { c with gfx := { c.gfx with cores := [(0, { ctx := 0 })] } }) (191) (wv true 0x7F) (0x7F) ({ ctx := 0 }) := by decide +kernel
theorem wit_ShaderPredicatesAndFlow_7 : (fun (s : State) (w : Nat) (q : GWave) (ins : Nat) (j : GJob) (d : GDraw) => (AtIns s w q ins) ∧ (Ins.op ins = 0x7F) ∧ (q.frag = false) ∧ (s.chip.job q.ctx = some j) ∧ (j.draw = some d) ∧ (d.left = none) ∧ ((s.chip.gfx.waves.any fun x => decide (x.1 ≠ w) && x.2.ctx == q.ctx && !x.2.frag) = true) ∧ ((SMap.sorted s.chip.gfx.waves) = true)) (on (run []) fun c => { c with gfx := { waves := [(190, wv false 0x7F), (191, wv false 0x7F)], jobs := [(0, aJob)] } }) (191) (wv false 0x7F) (0x7F) (aJob) ({ st := 0, shade := [], items := [], perInst := 0 }) := by decide +kernel

theorem wit_ShaderLoadsOutputsAndDerivatives_1 : (fun (s : State) (w : Nat) (q : GWave) (ins : Nat) => (AtIns s w q ins) ∧ (Ins.op ins = 0x60)) (atWave true (insOf 0x60 31)) (191) (wv true (insOf 0x60 31)) (insOf 0x60 31) := by decide +kernel
theorem wit_ShaderLoadsOutputsAndDerivatives_2 : (fun (s : State) (w : Nat) (q : GWave) (ins : Nat) => (AtIns s w q ins) ∧ (Ins.op ins = 0x61)) (atWave true (insOf 0x61 31)) (191) (wv true (insOf 0x61 31)) (insOf 0x61 31) := by decide +kernel
theorem wit_ShaderLoadsOutputsAndDerivatives_3 : (fun (s : State) (w : Nat) (q : GWave) (ins : Nat) (j : GJob) (a : Nat) (size : Nat) => (AtIns s w q ins) ∧ (Ins.op ins = 0x70) ∧ (Ins.dst ins + (bits (Ins.md ins) 2 3 + 1) ≤ 64) ∧ (s.chip.job q.ctx = some j) ∧ ((j.state q.st).consts.find? (4 * b2n q.frag + bits (Ins.md ins) 0 2) = some (a, size)) ∧ (Readable s a size)) (atJobWave 0x70 { consts := [(4, (4096, 7))] }) (191) (wv true (insOf 0x70 31)) (insOf 0x70 31) (aJobSt { consts := [(4, (4096, 7))] }) (4096) (7) := by decide +kernel
theorem wit_ShaderLoadsOutputsAndDerivatives_4 : (fun (s : State) (w : Nat) (q : GWave) (ins : Nat) => (AtIns s w q ins) ∧ (Ins.op ins = 0x70) ∧ (Ins.dst ins + (bits (Ins.md ins) 2 3 + 1) ≤ 64) ∧ ((s.chip.waveState q).consts.find? (4 * b2n q.frag + bits (Ins.md ins) 0 2) = none)) (atWave true (insOf 0x70 31)) (191) (wv true (insOf 0x70 31)) (insOf 0x70 31) := by decide +kernel
theorem wit_ShaderLoadsOutputsAndDerivatives_5 : (fun (s : State) (w : Nat) (q : GWave) (ins : Nat) (wide : Bool) => (AtIns s w q ins) ∧ (Ins.op ins = 0x71) ∧ ((Ins.imm ins).testBit 4 = wide) ∧ (Ins.dst ins + 4 ≤ if wide then 32 else 64) ∧ (∀ l ∈ List.range 64, ∀ x ∈ attrSpans s q ins l, Readable s x.1 x.2)) (atJobWave 0x71 { vattr := [(0, 0x21)], vbufs := [(0, (4096, 64, 8))] }) (191) (wv true (insOf 0x71 31)) (insOf 0x71 31) (false) := by decide +kernel
theorem wit_ShaderLoadsOutputsAndDerivatives_6 : (fun (s : State) (w : Nat) (q : GWave) (ins : Nat) (wide : Bool) (j : GJob) (g : GCore) => (AtIns s w q ins) ∧ (Ins.op ins = 0x72) ∧ (Ins.wide ins = wide) ∧ (Ins.dst ins + 4 ≤ if wide then 32 else 64) ∧ (s.chip.job q.ctx = some j) ∧ (s.chip.gcore q.home = some g) ∧ (∀ l ∈ List.range 64, (q.lane? l).i < g.list.length)) (atPrimWave (insOf 0x72 28)) (191) (wv true (insOf 0x72 28)) (insOf 0x72 28) (false) (aJobSt {}) ({ ctx := 0, list := [aPrim] }) := by decide +kernel
theorem wit_ShaderLoadsOutputsAndDerivatives_7 : (fun (s : State) (w : Nat) (q : GWave) (ins : Nat) => (AtIns s w q ins) ∧ (Ins.op ins = 0x73) ∧ (Ins.dst ins + 4 ≤ 64) ∧ ((s.chip.waveState q).textures.find? (16 * b2n q.frag + Ins.imm ins % 16) = none)) (atWave true (insOf 0x73 31)) (191) (wv true (insOf 0x73 31)) (insOf 0x73 31) := by decide +kernel
theorem wit_ShaderLoadsOutputsAndDerivatives_8 : (fun (s : State) (w : Nat) (q : GWave) (ins : Nat) (d : List Byte) => (AtIns s w q ins) ∧ (Ins.op ins = 0x73) ∧ (Ins.dst ins + 4 ≤ 64) ∧ ((s.chip.waveState q).textures.find? (16 * b2n q.frag + Ins.imm ins % 16) = some d) ∧ (∀ l ∈ List.range 64, ∀ x ∈ tapSpans d (texTaps s q ins d l), Readable s x.1 x.2)) (atJobWave 0x0400000000000073 { textures := [(16, aTexture)] }) (191) (wv true (insOf 0x0400000000000073 31)) (insOf 0x0400000000000073 31) (aTexture) := by decide +kernel
theorem wit_ShaderLoadsOutputsAndDerivatives_9 : (fun (s : State) (w : Nat) (q : GWave) (ins : Nat) (d : List Byte) => (AtIns s w q ins) ∧ (Ins.op ins = 0x74) ∧ (Ins.dst ins + 4 ≤ 64) ∧ ((s.chip.waveState q).textures.find? (16 * b2n q.frag + Ins.imm ins % 16) = some d) ∧ (∀ l ∈ List.range 64, ∀ x ∈ tapSpans d (texelAsked s q ins d l).toList, Readable s x.1 x.2)) (atJobWave 0x74 { textures := [(16, aTexture)] }) (191) (wv true (insOf 0x74 31)) (insOf 0x74 31) (aTexture) := by decide +kernel
theorem wit_ShaderLoadsOutputsAndDerivatives_10 : (fun (s : State) (w : Nat) (q : GWave) (ins : Nat) (n : Nat) (base : Nat) => (AtIns s w q ins) ∧ (Ins.op ins = 0x78) ∧ (q.frag = true) ∧ (Ins.imm ins % 32 < 5) ∧ (n = if Ins.imm ins % 32 = 4 ∨ Ins.wide ins = true then 2 else 4) ∧ (base = if Ins.wide ins then 2 * Ins.src ins 0 else Ins.src ins 0)) (atWave true (insOf 0x78 0)) (191) (wv true (insOf 0x78 0)) (insOf 0x78 0) (4) (2) := by decide +kernel
theorem wit_ShaderLoadsOutputsAndDerivatives_11 : (fun (s : State) (w : Nat) (q : GWave) (ins : Nat) (n : Nat) (base : Nat) (at_ : Nat) => (AtIns s w q ins) ∧ (Ins.op ins = 0x78) ∧ (q.frag = false) ∧ (Ins.imm ins % 32 < 2 ∨ (16 ≤ Ins.imm ins % 32 ∧ Ins.imm ins % 32 < 31)) ∧ (n = if Ins.imm ins % 32 = 1 then 1 else if Ins.wide ins then 8 else 4) ∧ (base = if Ins.wide ins then 2 * Ins.src ins 0 else Ins.src ins 0) ∧ (at_ = if 16 ≤ Ins.imm ins % 32 then 128 + 4 * (Ins.imm ins % 32 - 16) else 8 * (Ins.imm ins % 32))) (atWave false (insOf 0x001E000000000078 0)) (191) (wv false (insOf 0x001E000000000078 0)) (insOf 0x001E000000000078 0) (4) (2) (184) := by decide +kernel

theorem wit_PacketsSetDrawState_1 : (fun (s : State) (k : Nat) (j : GJob) (ws : List Nat) => (AtPkt s k j 0x12 ws) ∧ (pw ws 3 ≤ 65536) ∧ (s.chip.dramOk j.own (pAddr ws 1) (pw ws 3) = true)) (atPkt 0x12 [0x7, 0x1000, 0x0, 0x10000] {} []) (15) ({ pktJob 0x12 [0x7, 0x1000, 0x0, 0x10000] {} with own := 17 }) ([0x7, 0x1000, 0x0, 0x10000]) := by decide +kernel
theorem wit_PacketsSetDrawState_2 : (fun (s : State) (k : Nat) (j : GJob) (ws : List Nat) => (AtPkt s k j 0x20 ws) ∧ (bits (pw ws 4) 0 16 ≤ 2048 ∧ pw ws 4 < 2 ^ 17) ∧ (s.chip.dramOk j.own (pAddr ws 1) (pw ws 3) = true)) (atPkt 0x20 [0xf, 0x1000, 0x0, 0x40, 0x10800] {} []) (15) ({ pktJob 0x20 [0xf, 0x1000, 0x0, 0x40, 0x10800] {} with own := 17 }) ([0xf, 0x1000, 0x0, 0x40, 0x10800]) := by decide +kernel
theorem wit_PacketsSetDrawState_3 : (fun (s : State) (k : Nat) (j : GJob) (ws : List Nat) => (AtPkt s k j 0x21 ws) ∧ (VAttr.fmt (pw ws 0) < 10 ∨ (VAttr.fmt (pw ws 0) = 10 ∧ VAttr.comps (pw ws 0) = 4))) (atPkt 0x21 [0x3a0f] {} []) (15) ({ pktJob 0x21 [0x3a0f] {} with own := 17 }) ([0x3a0f]) := by decide +kernel
theorem wit_PacketsSetDrawState_4 : (fun (s : State) (k : Nat) (j : GJob) (ws : List Nat) => (AtPkt s k j 0x22 ws) ∧ (bits (pw ws 2) 0 2 < 2) ∧ (s.chip.dramOk j.own (pAddr ws 0) (pw ws 2 / 4 * 4) = true)) (atPkt 0x22 [0x1000, 0x0, 0x41] {} []) (15) ({ pktJob 0x22 [0x1000, 0x0, 0x41] {} with own := 17 }) ([0x1000, 0x0, 0x41]) := by decide +kernel
theorem wit_PacketsSetDrawState_5 : (fun (s : State) (k : Nat) (j : GJob) (ws : List Nat) => (AtPkt s k j 0x30 ws) ∧ (Prim.cull (pw ws 0) ≠ 3)) (atPkt 0x30 [0x3] {} []) (15) ({ pktJob 0x30 [0x3] {} with own := 17 }) ([0x3]) := by decide +kernel
theorem wit_PacketsSetDrawState_6 : (fun (s : State) (k : Nat) (j : GJob) (ws : List Nat) => (AtPkt s k j 0x31 ws)) (atPkt 0x31 [0x0, 0x0, 0x0, 0x0, 0x0, 0x3f800000] {} []) (15) ({ pktJob 0x31 [0x0, 0x0, 0x0, 0x0, 0x0, 0x3f800000] {} with own := 17 }) ([0x0, 0x0, 0x0, 0x0, 0x0, 0x3f800000]) := by decide +kernel
theorem wit_PacketsSetDrawState_7 : (fun (s : State) (k : Nat) (j : GJob) (ws : List Nat) => (AtPkt s k j 0x32 ws)) (atPkt 0x32 [0x0, 0x200020] {} []) (15) ({ pktJob 0x32 [0x0, 0x200020] {} with own := 17 }) ([0x0, 0x200020]) := by decide +kernel
theorem wit_PacketsSetDrawState_8 : (fun (s : State) (k : Nat) (j : GJob) (ws : List Nat) => (AtPkt s k j 0x40 ws)) (atPkt 0x40 [0x7] {} []) (15) ({ pktJob 0x40 [0x7] {} with own := 17 }) ([0x7]) := by decide +kernel
theorem wit_PacketsSetDrawState_9 : (fun (s : State) (k : Nat) (j : GJob) (ws : List Nat) => (AtPkt s k j 0x41 ws) ∧ ((pw ws 2).testBit 0 = false)) (atPkt 0x41 [0x1, 0x2, 0xfffffffe, 0x4] {} []) (15) ({ pktJob 0x41 [0x1, 0x2, 0xfffffffe, 0x4] {} with own := 17 }) ([0x1, 0x2, 0xfffffffe, 0x4]) := by decide +kernel
theorem wit_PacketsSetDrawState_10 : (fun (s : State) (k : Nat) (j : GJob) (ws : List Nat) => (AtPkt s k j 0x42 ws) ∧ (([3, 7, 14, 18].all fun i => bits (pw ws 0) i 4 != 15) = true) ∧ (bits (pw ws 0) 11 3 < 5 ∧ bits (pw ws 0) 22 3 < 5)) (atPkt 0x42 [0x777] {} []) (15) ({ pktJob 0x42 [0x777] {} with own := 17 }) ([0x777]) := by decide +kernel
theorem wit_PacketsSetDrawState_11 : (fun (s : State) (k : Nat) (j : GJob) (ws : List Nat) => (AtPkt s k j 0x43 ws)) (atPkt 0x43 [0x3c000001, 0xffff0000] {} []) (15) ({ pktJob 0x43 [0x3c000001, 0xffff0000] {} with own := 17 }) ([0x3c000001, 0xffff0000]) := by decide +kernel
theorem wit_PacketsSetDrawState_12 : (fun (s : State) (k : Nat) (j : GJob) (ws : List Nat) => (AtPkt s k j 0x44 ws)) (atPkt 0x44 [0x3, 0x3c003c00, 0x3c000000] {} []) (15) ({ pktJob 0x44 [0x3, 0x3c003c00, 0x3c000000] {} with own := 17 }) ([0x3, 0x3c003c00, 0x3c000000]) := by decide +kernel
theorem wit_PacketsSetDrawState_13 : (fun (s : State) (k : Nat) (j : GJob) (ws : List Nat) => (AtPkt s k j 0x45 ws)) (atPkt 0x45 [0x3f000000, 0xff] {} []) (15) ({ pktJob 0x45 [0x3f000000, 0xff] {} with own := 17 }) ([0x3f000000, 0xff]) := by decide +kernel
theorem wit_PacketsSetDrawState_14 : (fun (s : State) (k : Nat) (j : GJob) (ws : List Nat) (d : List Byte) => (AtPkt s k j 0x46 ws) ∧ (pAddr ws 1 % 32 = 0) ∧ (s.chip.dramOk j.own (pAddr ws 1) 32 = true) ∧ (d = Memory.readBytes (jobSees s j) (pAddr ws 1) 32) ∧ (Readable s (pAddr ws 1) 32) ∧ (Tex.valid d = true) ∧ (s.chip.dramOk j.own (Tex.addr d) (Tex.extent d) = true)) (atPkt 0x46 [0x1f, 0x3000, 0x0] {} [(12288, (leBytes 8 4096 ++ leBytes 2 3 ++ leBytes 2 3 ++ leBytes 4 65536 ++ leBytes 4 0x688 ++ leBytes 12 0))]) (15) ({ pktJob 0x46 [0x1f, 0x3000, 0x0] {} with own := 17 }) ([0x1f, 0x3000, 0x0]) ((leBytes 8 4096 ++ leBytes 2 3 ++ leBytes 2 3 ++ leBytes 4 65536 ++ leBytes 4 0x688 ++ leBytes 12 0)) := by decide +kernel
theorem wit_PacketsSetDrawState_15 : (fun (s : State) (k : Nat) (j : GJob) (ws : List Nat) => (AtPkt s k j 0x47 ws) ∧ (samplerOk (pw ws 1) = true)) (atPkt 0x47 [0x1f, 0x0] {} []) (15) ({ pktJob 0x47 [0x1f, 0x0] {} with own := 17 }) ([0x1f, 0x0]) := by decide +kernel
theorem wit_PacketsSetDrawState_16 : (fun (s : State) (k : Nat) (j : GJob) (ws : List Nat) => (AtPkt s k j 0x48 ws)) (atPkt 0x48 [0xff] {} []) (15) ({ pktJob 0x48 [0xff] {} with own := 17 }) ([0xff]) := by decide +kernel

theorem wit_PacketsControlBindAndDraw_1 : (fun (s : State) (k : Nat) (j : GJob) (ws : List Nat) => (AtPkt s k j 0x00 ws)) (atPkt 0x00 [0x1, 0x2, 0x3] {} []) (15) ({ pktJob 0x00 [0x1, 0x2, 0x3] {} with own := 17 }) ([0x1, 0x2, 0x3]) := by decide +kernel
theorem wit_PacketsControlBindAndDraw_2 : (fun (s : State) (k : Nat) (j : GJob) (ws : List Nat) => (AtPkt s k j 0x01 ws)) (atPkt 0x01 [] {} []) (15) ({ pktJob 0x01 [] {} with own := 17 }) ([]) := by decide +kernel
theorem wit_PacketsControlBindAndDraw_3 : (fun (s : State) (k : Nat) (j : GJob) (ws : List Nat) => (AtPkt s k j 0x02 ws) ∧ (j.here.ret = none) ∧ (s.chip.dramOk j.own (pAddr ws 0) (pw ws 2) = true)) (atPkt 0x02 [0x1000, 0x0, 0x40] {} []) (15) ({ pktJob 0x02 [0x1000, 0x0, 0x40] {} with own := 17 }) ([0x1000, 0x0, 0x40]) := by decide +kernel
theorem wit_PacketsControlBindAndDraw_4 : (fun (s : State) (k : Nat) (j : GJob) (ws : List Nat) (b : List Byte) => (AtPkt s k j 0x10 ws) ∧ (pAddr ws 0 % 16 = 0) ∧ (b = Memory.readBytes (jobSees s j) (pAddr ws 0) (Prog.size (Memory.readBytes (jobSees s j) (pAddr ws 0) 16))) ∧ (s.chip.dramOk j.own (pAddr ws 0) 16 = true ∧ s.chip.dramOk j.own (pAddr ws 0) b.length = true) ∧ (Readable s (pAddr ws 0) b.length) ∧ (progOk false b = true)) (atPkt 0x10 [0x3000, 0x0] {} [(12288, mkProg 0)]) (15) ({ pktJob 0x10 [0x3000, 0x0] {} with own := 17 }) ([0x3000, 0x0]) (mkProg 0) := by decide +kernel
theorem wit_PacketsControlBindAndDraw_5 : (fun (s : State) (k : Nat) (j : GJob) (ws : List Nat) (b : List Byte) => (AtPkt s k j 0x11 ws) ∧ (pAddr ws 0 % 16 = 0) ∧ (b = Memory.readBytes (jobSees s j) (pAddr ws 0) (Prog.size (Memory.readBytes (jobSees s j) (pAddr ws 0) 16))) ∧ (s.chip.dramOk j.own (pAddr ws 0) 16 = true ∧ s.chip.dramOk j.own (pAddr ws 0) b.length = true) ∧ (Readable s (pAddr ws 0) b.length) ∧ (progOk true b = true)) (atPkt 0x11 [0x3000, 0x0] {} [(12288, mkProg 1)]) (15) ({ pktJob 0x11 [0x3000, 0x0] {} with own := 17 }) ([0x3000, 0x0]) (mkProg 1) := by decide +kernel
theorem wit_PacketsControlBindAndDraw_6 : (fun (s : State) (k : Nat) (j : GJob) (ws : List Nat) => (AtPkt s k j 0x50 ws) ∧ (j.st.vprog.isSome = true ∧ j.st.fprog.isSome = true) ∧ (0 < pw ws 1 ∧ 0 < pw ws 2)) (atPkt 0x50 [0xffffffff, 0x3, 0x2, 0x5] { vprog := some { addr := 0, image := [], pkt := 0 }, fprog := some { addr := 0, image := [], pkt := 0 } } []) (15) ({ pktJob 0x50 [0xffffffff, 0x3, 0x2, 0x5] { vprog := some { addr := 0, image := [], pkt := 0 }, fprog := some { addr := 0, image := [], pkt := 0 } } with own := 17 }) ([0xffffffff, 0x3, 0x2, 0x5]) := by decide +kernel
theorem wit_PacketsControlBindAndDraw_7 : (fun (s : State) (k : Nat) (j : GJob) (ws : List Nat) (ib : Nat × Nat) (w : Nat) => (AtPkt s k j 0x51 ws) ∧ (j.st.vprog.isSome = true ∧ j.st.fprog.isSome = true) ∧ (j.st.ibuf = some ib) ∧ (w = if bits ib.2 0 2 = 1 then 4 else 2) ∧ ((pw ws 0 + pw ws 1) * w ≤ ib.2 / 4 * 4) ∧ (Readable s (ib.1 + pw ws 0 * w) (pw ws 1 * w))) (atPkt 0x51 [0x1, 0x3, 0xffffffff, 0x2, 0x5] { ibuf := some (4096, 8), vprog := some { addr := 0, image := [], pkt := 0 }, fprog := some { addr := 0, image := [], pkt := 0 } } []) (15) ({ pktJob 0x51 [0x1, 0x3, 0xffffffff, 0x2, 0x5] { ibuf := some (4096, 8), vprog := some { addr := 0, image := [], pkt := 0 }, fprog := some { addr := 0, image := [], pkt := 0 } } with own := 17 }) ([0x1, 0x3, 0xffffffff, 0x2, 0x5]) ((4096, 8)) (2) := by decide +kernel
theorem wit_PacketsControlBindAndDraw_8 : (fun (s : State) (k : Nat) (j : GJob) => (k < 16 ∧ s.chip.job k = some j) ∧ (j.parsing = true ∧ s.chip.gristTurn k j = true) ∧ (j.here.next (jobSees s j) = .malformed)) (atPkt 0x99 [] {} []) (15) ({ pktJob 0x99 [] {} with own := 17 }) := by decide +kernel
theorem wit_PacketsControlBindAndDraw_9 : (fun (s : State) (k : Nat) (j : GJob) => (k < 16 ∧ s.chip.job k = some j) ∧ (j.parsing = true ∧ s.chip.gristTurn k j = true) ∧ (j.here.code.2.1 ≤ j.here.code.2.2)) (on (atPkt 0 [] {} []) fun c => { c with gfx := { jobs := [(15, { aJobSt {} with code := (0, 64, 64) })] } }) (15) ({ aJobSt {} with code := (0, 64, 64) }) := by decide +kernel
theorem wit_PacketsControlBindAndDraw_10 : (fun (s : State) (k : Nat) (j : GJob) (ws : List Nat) (b : List Byte) => (AtPkt s k j 0x10 ws) ∧ (pAddr ws 0 % 16 = 0) ∧ (b = Memory.readBytes (jobSees s j) (pAddr ws 0) (Prog.size (Memory.readBytes (jobSees s j) (pAddr ws 0) 16))) ∧ (s.chip.dramOk j.own (pAddr ws 0) 16 = true ∧ s.chip.dramOk j.own (pAddr ws 0) b.length = true) ∧ (Readable s (pAddr ws 0) b.length) ∧ (progOk false b = false)) (atPkt 0x10 [12288, 0] {} []) (15) ({ pktJob 0x10 [12288, 0] {} with own := 17 }) ([12288, 0]) (List.replicate 24 0) := by decide +kernel
theorem wit_PacketsControlBindAndDraw_11 : (fun (s : State) (core : Nat) (k : Nat) (st : Nat) (j : GJob) (p : GProg) => (core < 12 ∧ k < 16) ∧ (s.chip.job k = some j ∧ j.failed = none) ∧ (st < j.states.length) ∧ ((j.state st).fprog = some p) ∧ (Readable s p.addr p.image.length) ∧ (Prog.crcOk (Memory.readBytes (jobSees s j) p.addr p.image.length) = true)) ({ on (atPkt 0 [] {} [(12288, mkProg 1)]) (fun c => { c with gfx := { jobs := [(15, aJobSt { fprog := some { addr := 12288, image := mkProg 1, pkt := 0 } })] } }) with pending := [] }) (11) (15) (0) (aJobSt { fprog := some { addr := 12288, image := mkProg 1, pkt := 0 } }) ({ addr := 12288, image := mkProg 1, pkt := 0 }) := by decide +kernel
theorem wit_PacketsControlBindAndDraw_12 : (fun (s : State) (core : Nat) (k : Nat) (st : Nat) (j : GJob) (p : GProg) => (core < 12 ∧ k < 16) ∧ (s.chip.job k = some j ∧ j.failed = none) ∧ (j.states.length ≤ st) ∧ (j.st.vprog = some p) ∧ (Readable s p.addr p.image.length) ∧ (Prog.crcOk (Memory.readBytes (jobSees s j) p.addr p.image.length) = false)) (on (atPkt 0 [] {} []) (fun c => { c with gfx := { jobs := [(15, { aJobSt {} with st := { vprog := some { addr := 12288, image := mkProg 1, pkt := 0 } } })] } })) (11) (15) (1) ({ aJobSt {} with st := { vprog := some { addr := 12288, image := mkProg 1, pkt := 0 } } }) ({ addr := 12288, image := mkProg 1, pkt := 0 }) := by decide +kernel

theorem wit_JobsPoolsAndPartialRenders_1 : (fun (s : State) (r : Nat) (e : Issued) => (r < 64) ∧ (s.chip.freshEntry r 0 0 = some e)) (on (run [(R.RNG.RING_BIND.CLASS 31 1, 0)]) fun c => { c with imx := { rings := [(63, { issued := [⟨9, [0], true, none⟩] })] } }) (63) (⟨9, [0], true, none⟩) := by decide +kernel
theorem wit_JobsPoolsAndPartialRenders_2 : (fun (s : State) (r : Nat) (k : Nat) (e : Issued) (ts : List Byte) => (r < 64) ∧ (s.chip.freshEntry r 0 1 = some e) ∧ (s.chip.freeCtx = some k ∧ s.chip.ctxFree (s.chip.gfxOwner r) = true) ∧ (s.chip.pdOn PD.GFXC = true) ∧ (ts = Memory.readBytes s.mem.dram (fieldAt e.bytes 0x30 8) 64) ∧ (s.chip.jobCheck (s.chip.gfxOwner r) e.bytes ts = none) ∧ (Readable s (fieldAt e.bytes 0x30 8) 64)) (atEntry jobBytes) (63) (0) (⟨9, jobBytes, true, none⟩) (aTarget) := by decide +kernel
theorem wit_JobsPoolsAndPartialRenders_3 : (fun (s : State) (r : Nat) (k : Nat) (code : Nat) (e : Issued) => (r < 64) ∧ (s.chip.freshEntry r 0 1 = some e) ∧ (s.chip.freeCtx = some k ∧ s.chip.ctxFree (s.chip.gfxOwner r) = true) ∧ (s.chip.pdOn PD.GFXC = true) ∧ (s.chip.jobCheck (s.chip.gfxOwner r) e.bytes (Memory.readBytes s.mem.dram (fieldAt e.bytes 0x30 8) 64) = some code)) (atEntry (leBytes 64 1)) (63) (0) (E.VALUE) (⟨9, leBytes 64 1, true, none⟩) := by decide +kernel
theorem wit_JobsPoolsAndPartialRenders_4 : (fun (s : State) (r : Nat) (e : Issued) (l : List Nat) => (r < 64) ∧ (s.chip.freshEntry r 0 2 = some e) ∧ (s.chip.chunkCheck (s.chip.gfxOwner r) e.bytes = none) ∧ (l = (List.range (fieldAt e.bytes 0x10 1)).map fun i => fieldAt e.bytes (0x18 + 8 * i) 8) ∧ ((s.chip.gfx.jobs.all fun x => x.2.parked == none) = true)) (atEntry (leBytes 16 2 ++ leBytes 8 5 ++ leBytes 8 65536 ++ leBytes 8 131072 ++ leBytes 8 65536 ++ leBytes 8 131072 ++ leBytes 8 196608)) (63) (⟨9, leBytes 16 2 ++ leBytes 8 5 ++ leBytes 8 65536 ++ leBytes 8 131072 ++ leBytes 8 65536 ++ leBytes 8 131072 ++ leBytes 8 196608, true, none⟩) ([65536, 131072, 65536, 131072, 196608]) := by decide +kernel
theorem wit_JobsPoolsAndPartialRenders_5 : (fun (s : State) (r : Nat) (code : Nat) (e : Issued) => (r < 64) ∧ (s.chip.freshEntry r 0 2 = some e) ∧ (s.chip.chunkCheck (s.chip.gfxOwner r) e.bytes = some code)) (atEntry (leBytes 16 2 ++ leBytes 48 6)) (63) (E.VALUE) (⟨9, leBytes 16 2 ++ leBytes 48 6, true, none⟩) := by decide +kernel
theorem wit_JobsPoolsAndPartialRenders_6 : (fun (s : State) (src : Src) (p : Nat) => (p < 17) ∧ (Reaches s.chip src 0x0A2) ∧ (s.chip.mgrOrCtl src = true) ∧ ((match src with | .inst _ => false | _ => true) = true) ∧ (s.chip.get (R.POOL.POOL_CFG.LOW p) ≤ 1024)) (on (run [(R.POOL.POOL_STAT.FREE 16, 1)]) fun c => { c with gfx := { pools := [(3, [65536]), (16, [131072])] } }) (.ccn 0) (16) := by decide +kernel
theorem wit_JobsPoolsAndPartialRenders_7 : (fun (s : State) (k : Nat) (w : Nat) (j : GJob) => (k < 16) ∧ (s.chip.job k = some j) ∧ (j.parked = some w) ∧ (w + j.growWait ≤ s.chip.led.lineNo)) (on (run []) fun c => { c with led := { lineNo := 12 }, gfx := { jobs := [(15, { aJobSt {} with parked := some 4, growWait := 8 })] } }) (15) (4) ({ aJobSt {} with parked := some 4, growWait := 8 }) := by decide +kernel
theorem wit_JobsPoolsAndPartialRenders_8 : (fun (s : State) (k : Nat) (j : GJob) => (k < 16) ∧ (s.chip.job k = some j) ∧ (j.phase = 2 ∧ j.tiles = [] ∧ j.failed = none ∧ s.chip.coresOf k = []) ∧ (j.draw = none)) (on (run []) fun c => { c with gfx := { jobs := [(15, { aJobSt {} with phase := 2, held := [65536], nextIdx := lastIndex })] } }) (15) ({ aJobSt {} with phase := 2, held := [65536], nextIdx := lastIndex }) := by decide +kernel
theorem wit_JobsPoolsAndPartialRenders_9 : (fun (s : State) (k : Nat) (j : GJob) => (k < 16) ∧ (s.chip.job k = some j) ∧ (j.phase = 1 ∧ j.tiles = [] ∧ s.chip.coresOf k = []) ∧ ((s.chip.gfx.jobs.all fun x => x.2.parked == none) = true) ∧ ((SMap.sorted s.chip.gfx.jobs) = true)) (on (run []) fun c => { c with gfx := { jobs := [(15, { aJobSt {} with phase := 1, held := [65536], partials := 2 })] }, imx := { rings := [(0, { issued := [⟨7, [1], false, none⟩] })] } }) (15) ({ aJobSt {} with phase := 1, held := [65536], partials := 2 }) := by decide +kernel

theorem wit_TilesStartRetireAndStore_1 : (fun (s : State) (k : Nat) (n : Nat) (tl : Nat) (j : GJob) (rest : List Nat) => (k < 12) ∧ (s.chip.gcore k = none) ∧ (s.chip.pdFree (PD.GFX k) = true) ∧ (s.chip.gfx.jobs = [(n, j)] ∧ n < 16) ∧ (j.tiles = tl :: rest) ∧ (j.failed = none ∧ j.escalated = none) ∧ (j.own < 18) ∧ (s.chip.mayUse j.own k = true) ∧ (∀ x ∈ loadSpans j tl, Readable s x.1 x.2)) (on (run [(R.SYS_POWER.PD_ON.ON, 0x1FFFFFF)]) fun c => { c with gfx := { jobs := [(15, { rJob with tiles := [0, 1] })] } }) (11) (15) (0) ({ rJob with tiles := [0, 1] }) ([1]) := by decide +kernel
theorem wit_TilesStartRetireAndStore_2 : (fun (s : State) (k : Nat) (g : GCore) (j : GJob) (f : GFrag) => (k < 12) ∧ (s.chip.gcore k = some g) ∧ (s.chip.job g.ctx = some j) ∧ (g.queue = [] ∧ g.list.length ≤ 32 * g.pos) ∧ (g.frags.find? (fun x => g.board.getD (pixelOf x.x x.y) 0 == x.ord) = some f)) (on (run []) fun c => { c with gfx := { jobs := [(15, rJob)], cores := [(11, { ctx := 15, frags := [⟨0, 0, 0, 1, 0, true, 0, false, []⟩, ⟨0, 0, 0, 0, 0, true, 0, false, []⟩] })] } }) (11) ({ ctx := 15, frags := [⟨0, 0, 0, 1, 0, true, 0, false, []⟩, ⟨0, 0, 0, 0, 0, true, 0, false, []⟩] }) (rJob) (⟨0, 0, 0, 0, 0, true, 0, false, []⟩) := by decide +kernel
theorem wit_TilesStartRetireAndStore_3 : (fun (s : State) (k : Nat) (n : Nat) (tl : Nat) (g : GCore) (j : GJob) => (k < 12) ∧ (s.chip.gfx.cores = [(k, g)]) ∧ (g.helps = none ∧ g.tile = some tl ∧ g.helper = none ∧ g.ctx = n) ∧ (s.chip.tileDone k g = true) ∧ (s.chip.gfx.jobs = [(n, j)]) ∧ (j.phase = 1 ∧ j.failed = none ∧ j.tiles = [] ∧ j.draw = none)) (on (run []) fun c => { c with gfx := { jobs := [(15, { rJob with phase := 1 })], cores := [(11, { ctx := 15, tile := some 0 })] } }) (11) (15) (0) ({ ctx := 15, tile := some 0 }) ({ rJob with phase := 1 }) := by decide +kernel

theorem wit_LedgerLinesAndLocks_1 : (fun (s : State) => (s.chip.pdOn PD.DISP = true) ∧ (s.chip.ledIdle = true) ∧ (s.chip.get R.LDG.LIVE_LINE.LINE + 1 < s.chip.get R.LDG.IDLE_TIMING.V_TOTAL) ∧ (s.chip.get R.LDG.LIVE_LINE.LINE + 1 < 65536)) (run []) := by decide +kernel
theorem wit_LedgerLinesAndLocks_2 : (fun (s : State) => (s.chip.pdOn PD.DISP = true) ∧ (s.chip.ledIdle = true) ∧ (s.chip.get R.LDG.IDLE_TIMING.V_TOTAL ≤ s.chip.get R.LDG.LIVE_LINE.LINE + 1) ∧ (s.chip.led.adopt = none) ∧ (s.chip.get (H.PENDING 0x010) = 0)) (run [(R.LDG.IDLE_TIMING.V_TOTAL, 1125), (R.LDG.LIVE_LINE.LINE, 1124), (R.LDG.LIVE_FRAME.FRAME, 0xFFFFFFFF)]) := by decide +kernel
theorem wit_LedgerLinesAndLocks_3 : (fun (s : State) (n : Nat) => (n < 8) ∧ (s.chip.get (R.LDG_OUTS.LINE.LOCK_STATE n) = 2) ∧ (s.chip.follows n = false) ∧ (2 ≤ s.chip.led.phaseBad.getD n 0)) (on (run [(R.LDG_OUTS.LINE.LOCK_STATE 7, 2)]) fun c => { c with led := { c.led with phaseBad := [(7, 2)] } }) (7) := by decide +kernel
theorem wit_LedgerLinesAndLocks_4 : (fun (s : State) (n : Nat) (e : Nat) => (n < 8) ∧ (s.chip.led.acquiring.find? n = some e) ∧ (e ≤ (s.chip.scnOut n).lineAt + s.chip.lineTime n (s.chip.get (R.LDG_OUTS.LINE.LINE n))) ∧ (s.chip.outRunning n = true) ∧ (s.chip.follows n = false) ∧ ((s.chip.scnOut n).startAt = none ∧ (s.chip.scnOut n).offLeft = none) ∧ (s.chip.led.lockNext = []) ∧ (s.chip.get (H.PENDING (outPage n)) = 0) ∧ (s.chip.leadOf s.chip.anchor ≠ n ∧ s.chip.anchorComing = none)) (on (run [(R.LDG_OUTS.LINE.LOCK_STATE 6, 1), (R.LDG_OUTS.LINE.RUNNING 6, 1)]) fun c => { c with led := { c.led with acquiring := [(6, 5)] } }) (6) (5) := by decide +kernel
theorem wit_LedgerLinesAndLocks_5 : (fun (s : State) (src : Src) => (Reaches s.chip src 0x010) ∧ ((match src with | .inst _ => false | _ => true) = true) ∧ (s.chip.pdOn PD.DISP = true)) (on (run [(R.LDG.LIVE_FRAME.FRAME, 7)]) fun c => { c with ps := 17000, led := { c.led with ns := 2 ^ 40 + 5 } }) (.ccn 0) := by decide +kernel
theorem wit_LedgerLinesAndLocks_6 : (fun (s : State) (_frame : Nat) (_ns : Nat) (err : Int) => (s.chip.get R.LDG_SYNC.SYNC_STATE.DEVID ≠ 0) ∧ (-32768 ≤ err ∧ err < 32768)) (run [(R.LDG_SYNC.SYNC_STATE.DEVID, 3)]) (1) (2) (-32768) := by decide +kernel
theorem wit_LedgerLinesAndLocks_7 : (fun (s : State) (_frame : Nat) (ns : Nat) (_err : Int) => (s.chip.get R.LDG_SYNC.SYNC_STATE.DEVID ≠ 0) ∧ (s.chip.get R.LDG_SYNC.SYNC_STATE.STATE = 0 ∨ s.chip.get R.LDG_SYNC.SYNC_STATE.STATE = 1) ∧ (s.chip.ledIdle = false) ∧ (s.chip.led.ns < ns)) (run [(R.LDG_SYNC.SYNC_STATE.DEVID, 3), (R.LDG_SYNC.SYNC_STATE.STATE, 1), (R.LDG.ANCHOR.SOURCE, 1)]) (1) (2) (0) := by decide +kernel
theorem wit_LedgerLinesAndLocks_8 : (fun (s : State) (_frame : Nat) (ns : Nat) (_err : Int) => (s.chip.get R.LDG_SYNC.SYNC_STATE.DEVID ≠ 0) ∧ (s.chip.get R.LDG_SYNC.SYNC_STATE.STATE = 0 ∨ s.chip.get R.LDG_SYNC.SYNC_STATE.STATE = 1) ∧ (s.chip.ledIdle = false) ∧ (ns ≤ s.chip.led.ns)) (on (run [(R.LDG_SYNC.SYNC_STATE.DEVID, 3), (R.LDG_SYNC.SYNC_STATE.STATE, 1), (R.LDG.ANCHOR.SOURCE, 1)]) fun c => { c with led := { c.led with ns := 9 } }) (1) (2) (0) := by decide +kernel
theorem wit_LedgerLinesAndLocks_9 : (fun (s : State) (_frame : Nat) (_ns : Nat) (err : Int) => (s.chip.get R.LDG_SYNC.SYNC_STATE.DEVID ≠ 0) ∧ (s.chip.get R.LDG_SYNC.SYNC_STATE.STATE = 2 ∨ s.chip.get R.LDG_SYNC.SYNC_STATE.STATE = 3) ∧ (s.chip.ledIdle = false) ∧ (s.chip.led.slow = 0) ∧ (1 < err.natAbs)) (run [(R.LDG_SYNC.SYNC_STATE.DEVID, 3), (R.LDG_SYNC.SYNC_STATE.STATE, 3), (R.LDG.ANCHOR.SOURCE, 1)]) (1) (2) (-2) := by decide +kernel
theorem wit_LedgerLinesAndLocks_10 : (fun (s : State) => (s.chip.get R.LDG_SYNC.SYNC_STATE.STATE = 2 ∨ s.chip.get R.LDG_SYNC.SYNC_STATE.STATE = 3) ∧ (3 ≤ s.chip.led.sinceSync ∨ 4 ≤ s.chip.led.badPhase)) (on (run [(R.LDG_SYNC.SYNC_STATE.STATE, 3)]) fun c => { c with led := { c.led with badPhase := 4 } }) := by decide +kernel

theorem wit_ScheduleSlotsArmAndFire_1 : (fun (s : State) (src : Src) (k : Nat) (data : Word) => (32 ≤ k ∧ k < 128) ∧ (Reaches s.chip src (0x012 + k / 64)) ∧ (s.chip.mgrOrCtl src = true ∧ s.chip.ssPool k = false) ∧ ((match src with | .inst _ => false | _ => true) = true) ∧ (bits data.toNat 24 6 = 0) ∧ (bits data.toNat 0 8 = 0 ∨ bits data.toNat 0 8 = 3 ∨ bits data.toNat 0 8 = 7) ∧ (s.chip.ssState k ≠ SS.ARMED) ∧ ((s.chip.baseNow (s.chip.ssBase k)).2.2.2 = true) ∧ (s.chip.ssLine k < (s.chip.baseNow (s.chip.ssBase k)).2.2.1) ∧ (later (s.chip.ssFrame k) (s.chip.ssLine k) (s.chip.baseNow (s.chip.ssBase k)).1 (s.chip.baseNow (s.chip.ssBase k)).2.1 = true)) (run [(R.LDG.SLOT_POOL.POOL 2, 0), (R.LDG_SLOTS.SS_TGT.LINE 1 63, 5)]) (.ccn 0) (127) (7) := by decide +kernel
theorem wit_ScheduleSlotsArmAndFire_2 : (fun (s : State) (src : Src) (k : Nat) (data : Word) => (32 ≤ k ∧ k < 128) ∧ (Reaches s.chip src (0x012 + k / 64)) ∧ (s.chip.mgrOrCtl src = true ∧ s.chip.ssPool k = false) ∧ ((match src with | .inst _ => false | _ => true) = true) ∧ (bits data.toNat 24 6 = 0) ∧ (bits data.toNat 0 8 = 0 ∨ bits data.toNat 0 8 = 3 ∨ bits data.toNat 0 8 = 7) ∧ (s.chip.ssState k ≠ SS.ARMED) ∧ ((s.chip.baseNow (s.chip.ssBase k)).2.2.2 = true) ∧ (s.chip.ssLine k < (s.chip.baseNow (s.chip.ssBase k)).2.2.1) ∧ (later (s.chip.ssFrame k) (s.chip.ssLine k) (s.chip.baseNow (s.chip.ssBase k)).1 (s.chip.baseNow (s.chip.ssBase k)).2.1 = false)) (run [(R.LDG.SLOT_POOL.POOL 2, 0)]) (.ccs 0) (127) (3) := by decide +kernel
theorem wit_ScheduleSlotsArmAndFire_3 : (fun (s : State) (src : Src) (k : Nat) (data : Word) => (32 ≤ k ∧ k < 128) ∧ (Reaches s.chip src (0x012 + k / 64)) ∧ (s.chip.mgrOrCtl src = true ∧ s.chip.ssPool k = false) ∧ ((match src with | .inst _ => false | _ => true) = true) ∧ (bits data.toNat 24 6 = 0) ∧ (s.chip.ssState k = SS.ARMED) ∧ (bits data.toNat 0 8 = s.chip.ssAction k ∧ bits data.toNat 8 16 = s.chip.ssArg k)) (run [(R.LDG.SLOT_POOL.POOL 2, 0), (R.LDG_SLOTS.SS_STAT.STATE 1 63, 1)]) (.ccn 0) (127) (0) := by decide +kernel
theorem wit_ScheduleSlotsArmAndFire_4 : (fun (s : State) (src : Src) (k : Nat) (data : Word) => (32 ≤ k ∧ k < 128) ∧ (Reaches s.chip src (0x012 + k / 64)) ∧ (s.chip.mgrOrCtl src = true ∧ s.chip.ssPool k = false) ∧ ((match src with | .inst _ => false | _ => true) = true) ∧ (bits data.toNat 24 6 = 0) ∧ (s.chip.ssState k = SS.ARMED) ∧ (bits data.toNat 0 8 ≠ s.chip.ssAction k ∨ bits data.toNat 8 16 ≠ s.chip.ssArg k)) (run [(R.LDG.SLOT_POOL.POOL 2, 0), (R.LDG_SLOTS.SS_STAT.STATE 1 63, 1)]) (.ccn 0) (127) (7) := by decide +kernel
theorem wit_ScheduleSlotsArmAndFire_5 : (fun (s : State) (src : Src) (k : Nat) (_data : Word) => (32 ≤ k ∧ k < 128) ∧ (Reaches s.chip src (0x012 + k / 64)) ∧ (s.chip.mgrOrCtl src = false ∨ s.chip.ssPool k = true) ∧ ((match src with | .inst _ => false | _ => true) = true)) (run []) (.ccn 0) (127) (0) := by decide +kernel
theorem wit_ScheduleSlotsArmAndFire_6 : (fun (s : State) (k : Nat) => (k < 128) ∧ (s.chip.ssDue k = true) ∧ (((List.range k).all fun j => !s.chip.ssDue j) = true) ∧ (s.chip.ssAction k = 7)) (run [(R.LDG_SLOTS.SS_STAT.STATE 1 63, 1), (R.LDG_SLOTS.SS_ACT.ACTION 1 63, 7), (R.LDG_SLOTS.SS_ACT.ARG 1 63, 31)]) (127) := by decide +kernel
theorem wit_ScheduleSlotsArmAndFire_7 : (fun (s : State) (n : Nat) => (n < 4) ∧ ((s.chip.tch1 n).window = true) ∧ ((s.chip.tch1 n).winEnd ≤ s.chip.baseCount (s.chip.get (R.TCH_CFG.WINDOW.BASE n)) ∨ (s.chip.baseNow (s.chip.get (R.TCH_CFG.WINDOW.BASE n))).2.2.2 = false)) (on (run []) fun c => c.setTch 3 { c.tch1 3 with window := true, winEnd := 0, phase := 3 }) (3) := by decide +kernel

theorem wit_ComposerRingEntries_1 : (fun (s : State) (r : Nat) (e : Issued) => (r < 64) ∧ (s.chip.freshEntry r 1 0 = some e)) (on (run [(R.RNG.RING_BIND.CLASS 31 1, 1)]) fun c => { c with imx := { rings := [(63, { issued := [⟨9, [0], true, none⟩] })] } }) (63) (⟨9, [0], true, none⟩) := by decide +kernel
theorem wit_ComposerRingEntries_2 : (fun (s : State) (r : Nat) (u : Nat) (e : Issued) => (r < 64) ∧ (s.chip.freshEntry r 1 1 = some e) ∧ ((s.chip.copen r).failed = false) ∧ (s.chip.layerCheck e.bytes = none) ∧ (u = fieldAt e.bytes 0x10 1) ∧ (((s.chip.copen r).recs.filter fun y => y.1 != u).length < 12)) (on (run [(R.RNG.RING_BIND.CLASS 31 1, 1)]) fun c => { c with imx := { rings := [(63, { issued := [⟨9, layerBytes, true, none⟩] })] } }) (63) (47) (⟨9, layerBytes, true, none⟩) := by decide +kernel
theorem wit_ComposerRingEntries_3 : (fun (s : State) (r : Nat) (code : Nat) (e : Issued) => (r < 64) ∧ (s.chip.freshEntry r 1 1 = some e) ∧ ((s.chip.copen r).failed = false) ∧ (s.chip.layerCheck e.bytes = some code)) (on (run [(R.RNG.RING_BIND.CLASS 31 1, 1)]) fun c => { c with imx := { rings := [(63, { issued := [⟨9, leBytes 16 1 ++ leBytes 48 64, true, none⟩] })] } }) (63) (E.RESERVED) (⟨9, leBytes 16 1 ++ leBytes 48 64, true, none⟩) := by decide +kernel
theorem wit_ComposerRingEntries_4 : (fun (s : State) (r : Nat) (e : Issued) => (r < 64) ∧ (s.chip.freshEntry r 1 1 = some e) ∧ ((s.chip.copen r).failed = true)) (on (run [(R.RNG.RING_BIND.CLASS 31 1, 1)]) fun c => { c with imx := { rings := [(63, { issued := [⟨9, layerBytes, true, none⟩] })] }, cmp := { opens := [(63, { recs := [], failed := true })] } }) (63) (⟨9, layerBytes, true, none⟩) := by decide +kernel
theorem wit_ComposerRingEntries_5 : (fun (s : State) (r : Nat) (p : Nat) (e : Issued) => (r < 64) ∧ (s.chip.freshEntry r 1 2 = some e) ∧ ((s.chip.copen r).failed = false) ∧ (p = fieldAt e.bytes 0x10 1 ∧ p < 8) ∧ (fieldAt e.bytes 0x11 1 < 2 ∧ zeroAt e.bytes 0x12 2 = true ∧ zeroAt e.bytes 0x18 40 = true) ∧ (s.chip.mode ≠ Mode.DEGRADED) ∧ (s.chip.ringCommitCheck (s.chip.ringOwn r) p (s.chip.copen r).recs false = none)) (on (run [(R.RNG.RING_BIND.CLASS 31 1, 1), (R.RNG.RING_BIND.OWNER 31 1, 2), (R.CMP_L.LAYER_MGR.PIPE 5, 7)]) fun c => { c with imx := { rings := [(63, { issued := [⟨9, leBytes 16 2 ++ leBytes 48 7, true, none⟩] })] } }) (63) (7) (⟨9, leBytes 16 2 ++ leBytes 48 7, true, none⟩) := by decide +kernel
theorem wit_ComposerRingEntries_6 : (fun (s : State) (r : Nat) (e : Issued) => (r < 64) ∧ (s.chip.freshEntry r 1 2 = some e) ∧ ((s.chip.copen r).failed = false) ∧ (fieldAt e.bytes 0x10 1 < 8) ∧ (fieldAt e.bytes 0x11 1 < 2 ∧ zeroAt e.bytes 0x12 2 = true ∧ zeroAt e.bytes 0x18 40 = true) ∧ (s.chip.mode = Mode.DEGRADED)) (on (regs [(R.SYS_MODE.MODE_STAT.MODE, 4), (R.RNG.RING_BIND.CLASS 31 1, 1)]) fun c => { c with imx := { rings := [(63, { issued := [⟨9, leBytes 16 2 ++ leBytes 48 7, true, none⟩] })] } }) (63) (⟨9, leBytes 16 2 ++ leBytes 48 7, true, none⟩) := by decide +kernel

theorem wit_SlicesLinesAndWatermarks_1 : (fun (s : State) (n : Nat) => (n < 8) ∧ ((s.chip.cpipe n).on = true) ∧ (16 * (s.chip.cpipe n).slices < (s.chip.cmpSize n).2) ∧ ((s.chip.cpipe n).next = 16 * (s.chip.cpipe n).slices) ∧ (((16 * (s.chip.cpipe n).slices : Nat) : Int) - (s.chip.leadNow n : Int) ≤ s.chip.beam n)) (on (run []) fun c => c.setPipe 7 { on := true }) (7) := by decide +kernel
theorem wit_SlicesLinesAndWatermarks_2 : (fun (s : State) (n : Nat) => (n < 8) ∧ ((s.chip.cpipe n).on = true) ∧ ((s.chip.cpipe n).next < min (16 * (s.chip.cpipe n).slices) (s.chip.cmpSize n).2) ∧ (((s.chip.cpipe n).next : Int) ≤ s.chip.beam n)) (on (run []) fun c => c.setPipe 7 { on := true, slices := 1 }) (7) := by decide +kernel
theorem wit_SlicesLinesAndWatermarks_3 : (fun (s : State) (n : Nat) => (n < 8) ∧ ((s.chip.cpipe n).on = true) ∧ ((s.chip.cpipe n).next < min (16 * (s.chip.cpipe n).slices) (s.chip.cmpSize n).2) ∧ (s.chip.beam n < ((s.chip.cpipe n).next : Int)) ∧ (((s.chip.cpipe n).next : Int) - s.chip.beam n < (bufLines (s.chip.cmpSize n).1 : Int)) ∧ (((s.chip.lineUnits n (s.chip.cpipe n).next).all fun q => s.chip.remoteReady q (s.chip.cpipe n).next) = true)) (on (run [(R.SCN_OUT.H_TIMING.ACTIVE 7, 2)]) fun c => c.setPipe 7 { on := true, slices := 1, next := 1, degraded := true }) (7) := by decide +kernel
theorem wit_SlicesLinesAndWatermarks_4 : (fun (s : State) (u : Nat) (_row : Nat) (n : Nat) => (u < 48) ∧ (s.chip.get (R.CMP_L.LAYER_MGR.PIPE u) = n ∧ n < 8) ∧ ((s.chip.cpipe n).on = true ∧ s.chip.bare n = false) ∧ (s.chip.get (R.CMP_L.LAYER_CTRL.ENABLE u) = 1)) (on (run [(R.CMP_L.LAYER_MGR.PIPE 47, 0), (R.CMP_L.LAYER_CTRL.ENABLE 47, 1)]) fun c => c.setPipe 0 { on := true }) (47) (9) (0) := by decide +kernel
theorem wit_SlicesLinesAndWatermarks_5 : (fun (s : State) (n : Nat) => (n < 8) ∧ (s.chip.follows n = false ∧ s.chip.outRunning n = true) ∧ ((s.chip.scnOut n).startAt = none ∧ s.chip.led.acquiring.find? n = none) ∧ (s.chip.get (R.LDG_OUTS.LINE.LINE n) + 1 < s.chip.vTotal n) ∧ (s.chip.leadOf s.chip.anchor ≠ n)) (run [(R.LDG_OUTS.LINE.RUNNING 7, 1), (R.SCN_OUT.H_TIMING.ACTIVE 7, 2), (R.SCN_OUT.V_TIMING.TOTAL 7, 9)]) (7) := by decide +kernel
theorem wit_SlicesLinesAndWatermarks_6 : (fun (s : State) (n : Nat) => (n < 8) ∧ (s.chip.follows n = false ∧ s.chip.outRunning n = true) ∧ ((s.chip.scnOut n).offLeft = some 0 ∧ (s.chip.scnOut n).startAt = none ∧ s.chip.led.acquiring.find? n = none) ∧ (s.chip.vTotal n ≤ s.chip.get (R.LDG_OUTS.LINE.LINE n) + 1) ∧ (s.chip.get (H.PENDING (outPage n)) = 0) ∧ (s.chip.leadOf s.chip.anchor ≠ n)) (on (run [(R.LDG_OUTS.LINE.RUNNING 7, 1), (R.SCN_OUT.V_TIMING.TOTAL 7, 9), (R.LDG_OUTS.LINE.LINE 7, 8)]) fun c => c.setScn 7 { offLeft := some 0, link := 2 }) (7) := by decide +kernel
theorem wit_SlicesLinesAndWatermarks_7 : (fun (s : State) (n : Nat) => (n < 8) ∧ ((s.chip.scnOut n).judged = false ∧ (s.chip.scnOut n).lastIso = true) ∧ (s.chip.get (R.SCN_OUT.WATERMARK.WM_ADAPT (s.chip.leadOf n)) = 1) ∧ (s.chip.get (R.SYS_POLICY.BOUNDS.FLOOR 3) ≤ s.chip.get (R.SCN_OUT.OUT_STAT.WM_EFF n) + 2) ∧ (s.chip.get (R.SCN_OUT.OUT_STAT.WM_EFF n) + 2 ≤ s.chip.get (R.SYS_POLICY.BOUNDS.CEIL 3)) ∧ (s.chip.get (R.SCN_OUT.OUT_STAT.WM_EFF n) + 2 < 256)) (on (run [(R.SCN_OUT.OUT_STAT.WM_EFF 7, 5), (R.SCN_OUT.WATERMARK.WM_ADAPT 7, 1), (R.SYS_POLICY.BOUNDS.CEIL 3, 9), (R.SYS_POLICY.BOUNDS.FLOOR 3, 1)]) fun c => c.setScn 7 { judged := false, lastIso := true }) (7) := by decide +kernel
theorem wit_SlicesLinesAndWatermarks_8 : (fun (s : State) (n : Nat) => (n < 8) ∧ ((s.chip.scnOut n).judged = false) ∧ (s.chip.get (R.SCN_OUT.WATERMARK.WM_ADAPT (s.chip.leadOf n)) = 0)) (on (run [(R.SCN_OUT.WATERMARK.WM_ADAPT 7, 0)]) fun c => c.setScn 7 { judged := false }) (7) := by decide +kernel
theorem wit_SlicesLinesAndWatermarks_9 : (fun (s : State) (src : Src) (n : Nat) => (n < 8) ∧ (Reaches s.chip src (outPage n)) ∧ (s.chip.mgrOrCtl src = true) ∧ ((match src with | .inst _ => false | _ => true) = true)) (on (run [(R.SCN_OUT.UR_FIRST_LO.STAMP 7, 5)]) fun c => c.setScn 7 { captured := true }) (.ccn 0) (7) := by decide +kernel

theorem wit_DisplayLinksTrainAndFail_1 : (fun (s : State) (n : Nat) (caps : List Byte) => (n < 8 ∧ caps.length ≤ 16) ∧ ((s.chip.scnOut n).link = LinkSt.TRAINING ∧ (s.chip.scnOut n).training = false) ∧ (s.chip.sinkOk n caps = true)) (on (run [(R.SCN_OUT.OUT_CFG.MODE 7, 1), (R.SCN_OUT.OUT_CFG.ASSR 7, 1), (R.SCN_OUT.OUT_CFG.RATE 7, 3), (R.SCN_OUT.OUT_CFG.LANES 7, 4)]) fun c => c.setScn 7 { link := 1 }) (7) (leBytes 4 0x80041E14) := by decide +kernel
theorem wit_DisplayLinksTrainAndFail_2 : (fun (s : State) (n : Nat) (caps : List Byte) => (n < 8 ∧ caps.length ≤ 16) ∧ ((s.chip.scnOut n).link = LinkSt.TRAINING ∧ (s.chip.scnOut n).training = false) ∧ (s.chip.sinkOk n caps = false) ∧ (s.chip.pow.early.find? n = none)) (on (run [(R.SCN_OUT.OUT_CFG.LANES 7, 4)]) fun c => c.setScn 7 { link := 1 }) (7) (leBytes 4 0x80020614) := by decide +kernel
theorem wit_DisplayLinksTrainAndFail_3 : (fun (s : State) (n : Nat) (cr : Nat) (eq : Nat) (a : Nat) (_sw : Nat) (_pre : Nat) (p : Nat) => (n < 8 ∧ cr < 16 ∧ eq < 16 ∧ a ≤ 10) ∧ ((s.chip.scnOut n).training = true) ∧ (s.chip.pow.early.find? n = none) ∧ (p = if s.chip.splits (s.chip.leadOf n) then s.chip.leadOf n else n)) (on (run [(R.SCN_PHY.PHY_CFG.MAX_SWING 7, 2)]) fun c => c.setScn 7 { link := 1, training := true }) (7) (15) (15) (10) (3) (1) (7) := by decide +kernel
theorem wit_DisplayLinksTrainAndFail_4 : (fun (s : State) (n : Nat) (err : Nat) (cr : Nat) (eq : Nat) (a : Nat) (_sw : Nat) (_pre : Nat) => (n < 8 ∧ cr < 16 ∧ eq < 16 ∧ a ≤ 10) ∧ (err = 2 ∨ err = 3) ∧ ((s.chip.scnOut n).training = true) ∧ (s.chip.pow.early.find? n = none)) (on (run []) fun c => c.setScn 7 { link := 1, training := true }) (7) (3) (15) (15) (10) (0) (0) := by decide +kernel
theorem wit_DisplayLinksTrainAndFail_5 : (fun (s : State) (n : Nat) => (n < 8) ∧ (s.chip.lvds n = false) ∧ ((s.chip.scnOut n).link ≠ LinkSt.IDLE)) (run []) (7) := by decide +kernel
theorem wit_DisplayLinksTrainAndFail_6 : (fun (s : State) (n : Nat) => (n < 8) ∧ (s.chip.lvds n = false) ∧ ((s.chip.scnOut n).link = LinkSt.IDLE ∧ s.chip.get (R.SCN_OUT.OUT_STAT.IDLE_CAUSE n) = 1) ∧ (s.chip.get (R.SCN_OUT.OUT_CFG.AUTO_RETRAIN (s.chip.leadOf n)) = 1)) (on (run [(R.SCN_OUT.OUT_STAT.IDLE_CAUSE 7, 1), (R.SCN_OUT.OUT_CFG.AUTO_RETRAIN 7, 1)]) fun c => c.setScn 7 { link := 3 }) (7) := by decide +kernel
theorem wit_DisplayLinksTrainAndFail_7 : (fun (s : State) (n : Nat) => (n < 8) ∧ (s.chip.lvds n = false ∧ s.chip.get (R.SCN_OUT.OUT_STAT.HPD n) = 1)) (run [(R.SCN_OUT.OUT_STAT.HPD 7, 1)]) (7) := by decide +kernel
theorem wit_DisplayLinksTrainAndFail_8 : (fun (s : State) (n : Nat) => (n < 8) ∧ (s.chip.lvds n = false ∧ s.chip.get (R.SCN_OUT.OUT_STAT.HPD n) = 1) ∧ ((s.chip.scnOut n).link = LinkSt.SENDING)) (on (run [(R.SCN_OUT.OUT_STAT.HPD 7, 1)]) fun c => c.setScn 7 { link := 2, blEn := true }) (7) := by decide +kernel
theorem wit_DisplayLinksTrainAndFail_9 : (fun (s : State) (n : Nat) => (n < 8) ∧ (s.chip.lvds n = false ∧ s.chip.get (R.SCN_OUT.OUT_STAT.HPD n) = 1) ∧ ((s.chip.scnOut n).link ≠ LinkSt.OFF)) (on (run [(R.SCN_OUT.OUT_STAT.HPD 7, 1)]) fun c => c.setScn 7 { link := 2 }) (7) := by decide +kernel
theorem wit_DisplayLinksTrainAndFail_10 : (fun (s : State) (n : Nat) (lane : Nat) => (n < 8 ∧ lane < 5) ∧ (s.chip.driving n = true ∧ s.chip.drivenLane n lane = true)) (on (run []) fun c => c.setScn 7 { link := 2 }) (7) (4) := by decide +kernel
theorem wit_DisplayLinksTrainAndFail_11 : (fun (s : State) (n : Nat) (opens : Nat) => (n < 8 ∧ opens < 32) ∧ (s.chip.lvds n = true ∧ (s.chip.scnOut (s.chip.phyOut n)).link = LinkSt.SENDING) ∧ (((List.range 5).any fun i => opens.testBit i && s.chip.drivenLane n i) = true)) (on (run [(R.SCN_OUT.OUT_CFG.MODE 7, 2)]) fun c => c.setScn 7 { link := 2 }) (7) (31) := by decide +kernel
theorem wit_DisplayLinksTrainAndFail_12 : (fun (s : State) (src : Src) (n : Nat) => (n < 8) ∧ (Reaches s.chip src (phyPage n)) ∧ (s.chip.mgrOrCtl src = true) ∧ ((match src with | .inst _ => false | _ => true) = true) ∧ ((s.chip.scnOut (s.chip.phyOut n)).link = LinkSt.OFF ∨ (s.chip.scnOut (s.chip.phyOut n)).link = LinkSt.IDLE) ∧ (s.chip.get (R.SCN_PHY.LANE_TEST.BUSY n) = 0)) (on (run []) fun c => c.setScn 7 { link := 3 }) (.ccs 1) (7) := by decide +kernel
theorem wit_DisplayLinksTrainAndFail_13 : (fun (s : State) (n : Nat) (a : Nat) (b : Nat) => (n < 8 ∧ a < 32 ∧ b < 32) ∧ (s.chip.get (R.SCN_PHY.LANE_TEST.BUSY n) = 1) ∧ (s.chip.lvds n = false) ∧ (a ≠ 0 ∨ b ≠ 0)) (run [(R.SCN_PHY.LANE_TEST.BUSY 7, 1)]) (7) (31) (0) := by decide +kernel
theorem wit_DisplayLinksTrainAndFail_14 : (fun (s : State) (n : Nat) (a : Nat) (b : Nat) => (n < 8 ∧ a < 32 ∧ b < 32) ∧ (((List.range 5).all fun i => !(a ||| b).testBit i || s.chip.drivenLane n i) = true) ∧ (s.chip.get (R.SCN_PHY.LANE_TEST.BUSY n) = 1) ∧ (s.chip.lvds n = true ∧ (s.chip.scnOut (s.chip.phyOut n)).link ≠ LinkSt.OFF) ∧ (b ≠ 0)) (on (run [(R.SCN_PHY.LANE_TEST.BUSY 7, 1), (R.SCN_OUT.OUT_CFG.MODE 7, 2)]) fun c => c.setScn 7 { link := 3 }) (7) (0) (4) := by decide +kernel
theorem wit_DisplayLinksTrainAndFail_15 : (fun (s : State) (src : Src) (n : Nat) (data : Word) => (n < 8) ∧ (Reaches s.chip src (phyPage n)) ∧ (s.chip.mgrOrCtl src = true) ∧ ((match src with | .inst _ => false | _ => true) = true) ∧ (bits data.toNat 28 3 = 0) ∧ (s.chip.lvds n = false) ∧ (s.chip.get (R.SCN_PHY.AUX_STAT.BUSY n) = 0)) (run []) (.ccn 1) (7) (0x8ABCDEF1) := by decide +kernel
theorem wit_DisplayLinksTrainAndFail_16 : (fun (s : State) (src : Src) (n : Nat) (data : Word) => (n < 8) ∧ (Reaches s.chip src (phyPage n)) ∧ (s.chip.mgrOrCtl src = true) ∧ ((match src with | .inst _ => false | _ => true) = true) ∧ (bits data.toNat 28 3 = 0) ∧ (s.chip.lvds n = false) ∧ (s.chip.get (R.SCN_PHY.AUX_STAT.BUSY n) = 0)) (run []) (.ccn 1) (7) (0x8ABCDEF1) := by decide +kernel
theorem wit_DisplayLinksTrainAndFail_17 : (fun (s : State) (src : Src) (n : Nat) (_mot : Bool) (data : Word) => (n < 8) ∧ (Reaches s.chip src (phyPage n)) ∧ (s.chip.mgrOrCtl src = true) ∧ ((match src with | .inst _ => false | _ => true) = true) ∧ (bits data.toNat 28 3 = 0) ∧ (s.chip.lvds n = false) ∧ (s.chip.get (R.SCN_PHY.AUX_STAT.BUSY n) = 0)) (run []) (.ccn 1) (7) (true) (0x8ABCDEF1) := by decide +kernel
theorem wit_DisplayLinksTrainAndFail_18 : (fun (s : State) (src : Src) (n : Nat) (_mot : Bool) (data : Word) => (n < 8) ∧ (Reaches s.chip src (phyPage n)) ∧ (s.chip.mgrOrCtl src = true) ∧ ((match src with | .inst _ => false | _ => true) = true) ∧ (bits data.toNat 28 3 = 0) ∧ (s.chip.lvds n = false) ∧ (s.chip.get (R.SCN_PHY.AUX_STAT.BUSY n) = 0)) (run []) (.ccn 1) (7) (true) (0x8ABCDEF1) := by decide +kernel
theorem wit_DisplayLinksTrainAndFail_19 : (fun (s : State) (n : Nat) (q : AuxReq) (data : List Byte) => (n < 8) ∧ (s.chip.auxAsked n = some q) ∧ (q.cmd % 2 = 1) ∧ (1 ≤ q.len ∧ q.len ≤ 16 ∧ q.len ≤ data.length)) (on (run [(R.SCN_PHY.AUX_STAT.BUSY 7, 1)]) fun c => c.setScn 7 { aux := some { cmd := 9, len := 5, addr := 0, since := 0 } }) (7) ({ cmd := 9, len := 5, addr := 0, since := 0 }) (leBytes 6 0x060504030201) := by decide +kernel
theorem wit_DisplayLinksTrainAndFail_20 : (fun (s : State) (n : Nat) (q : AuxReq) (_data : List Byte) => (n < 8) ∧ (s.chip.auxAsked n = some q)) (on (run [(R.SCN_PHY.AUX_STAT.BUSY 7, 1)]) fun c => c.setScn 7 { aux := some { cmd := 9, len := 5, addr := 0, since := 0 } }) (7) ({ cmd := 9, len := 5, addr := 0, since := 0 }) ([]) := by decide +kernel
theorem wit_DisplayLinksTrainAndFail_21 : (fun (s : State) (n : Nat) (q : AuxReq) (_data : List Byte) => (n < 8) ∧ (s.chip.auxAsked n = some q) ∧ (q.defers < 7)) (on (run [(R.SCN_PHY.AUX_STAT.BUSY 7, 1)]) fun c => c.setScn 7 { aux := some { cmd := 9, len := 5, addr := 0, since := 0, defers := 6 } }) (7) ({ cmd := 9, len := 5, addr := 0, since := 0, defers := 6 }) ([]) := by decide +kernel
theorem wit_DisplayLinksTrainAndFail_22 : (fun (s : State) (n : Nat) (q : AuxReq) => (n < 8) ∧ (s.chip.auxAsked n = some q) ∧ (q.since + 400000000 ≤ s.chip.ps)) (on (run [(R.SCN_PHY.AUX_STAT.BUSY 7, 1)]) fun c => { c with ps := 400000000 }.setScn 7 { aux := some { cmd := 9, len := 5, addr := 0, since := 0 } }) (7) ({ cmd := 9, len := 5, addr := 0, since := 0 }) := by decide +kernel
theorem wit_DisplayLinksTrainAndFail_23 : (fun (s : State) (n : Nat) (l : Nat) => (n < 8) ∧ (l = s.chip.leadOf n) ∧ ((s.chip.scnOut l).link = LinkSt.SENDING ∧ (s.chip.scnOut l).offLeft = none) ∧ (s.chip.get (R.SCN_OUT.BL.ON l) = 1 ∧ s.chip.get (R.SCN_OUT.BL.ON_DELAY l) ≤ (s.chip.scnOut l).sending)) (on (run [(R.SCN_OUT.BL.ON 7, 1), (R.SCN_OUT.BL.ON_DELAY 7, 2)]) fun c => c.setScn 7 { link := 2, sending := 2 }) (7) (7) := by decide +kernel

theorem wit_IslandFaultsAndWatchdog_1 : (fun (s : State) (_src : Src) (cause : Nat) => (1 ≤ cause ∧ cause ≤ 5) ∧ (s.chip.get R.SAF.ISL_STAT.STATE = 1)) (run [(R.SAF.ISL_STAT.STATE, 1), (R.SAF.SAFE_OK.EN_A, 1), (R.SAF_P.RG_STAT.RUN 7 15, 1)]) (.island) (5) := by decide +kernel
theorem wit_IslandFaultsAndWatchdog_2 : (fun (s : State) => (Reaches s.chip .island 0x130)) (run [(R.SAF.SAFE_OK.EN_A, 1)]) := by decide +kernel
theorem wit_IslandFaultsAndWatchdog_3 : (fun (s : State) (images : List FlashImage) (b : Bool) (x : FlashImage) => (s.chip.get R.SAF.ISL_STAT.STATE = 0 ∧ s.chip.get R.SAF.ISL_STAT.CAUSE ≠ 0) ∧ (s.chip.pdOn PD.SAFE = true) ∧ (pickCopy s.chip.pow.part 0x01 islSize (s.chip.get R.SEC_FUSE.ISL_ROLLBACK.COUNT) (fun _ => true) images = some (b, x))) (on (run [(R.SAF.ISL_STAT.STATE, 0), (R.SAF.ISL_STAT.CAUSE, 2)]) fun c => { c with saf := { c.saf with resets := [0, 0] }, pow := { c.pow with part := flashPart } }) ([⟨[], false, true, 0, 0, [], 1⟩, ⟨[1, 2, 3], true, true, 0, 0, [], 1⟩]) (true) (⟨[1, 2, 3], true, true, 0, 0, [], 1⟩) := by decide +kernel
theorem wit_IslandFaultsAndWatchdog_4 : (fun (s : State) (images : List FlashImage) => (s.chip.get R.SAF.ISL_STAT.STATE = 0 ∧ s.chip.get R.SAF.ISL_STAT.CAUSE ≠ 0) ∧ (s.chip.pdOn PD.SAFE = true) ∧ (pickCopy s.chip.pow.part 0x01 islSize (s.chip.get R.SEC_FUSE.ISL_ROLLBACK.COUNT) (fun _ => true) images = none)) (on (run [(R.SAF.ISL_STAT.STATE, 0), (R.SAF.ISL_STAT.CAUSE, 2)]) fun c => { c with pow := { c.pow with part := flashPart } }) ([⟨[1, 2, 3], false, true, 0, 0, [], 0⟩]) := by decide +kernel
theorem wit_IslandFaultsAndWatchdog_5 : (fun (s : State) (_a : Nat) (b : Nat) => (s.chip.pdOn PD.SAFE = true) ∧ (b + (s.chip.flawed 0 2).length = 0)) (on (run []) fun c => { c with flaws := [(0, 1)] }) (2) (0) := by decide +kernel
theorem wit_IslandFaultsAndWatchdog_6 : (fun (s : State) (_a : Nat) (b : Nat) => (s.chip.pdOn PD.SAFE = true) ∧ (0 < b + (s.chip.flawed 0 2).length)) (on (run [(R.SAF.SAFE_OK.EN_A, 1)]) fun c => { c with flaws := [(0, 2)] }) (2) (0) := by decide +kernel
theorem wit_IslandFaultsAndWatchdog_7 : (fun (s : State) (data : Word) => (Reaches s.chip .island 0x130) ∧ (s.chip.get R.SAF.WDOG_CFG.ARM = 0) ∧ (bits data.toNat 0 16 < bits data.toNat 16 15)) (run []) (0x7FFF7FFE) := by decide +kernel
theorem wit_IslandFaultsAndWatchdog_8 : (fun (s : State) => (s.chip.get R.SAF.ISL_STAT.STATE = 1) ∧ (s.chip.get R.SAF.WDOG_CFG.ARM = 0) ∧ (s.chip.saf.startedAt + 150000000000 ≤ s.chip.ps)) (on (run [(R.SAF.ISL_STAT.STATE, 1)]) fun c => { c with ps := 150000000000 }) := by decide +kernel
theorem wit_IslandFaultsAndWatchdog_9 : (fun (s : State) (data : Word) => (Reaches s.chip .island 0x130) ∧ (s.chip.get R.SAF.WDOG_CFG.ARM = 1) ∧ (data.toNat = s.chip.saf.wdKey ∧ data.toNat < 256) ∧ (s.chip.saf.wdBase + s.chip.get R.SAF.WDOG_CFG.WIN_MIN * 10000000 ≤ s.chip.ps)) (on (run [(R.SAF.WDOG_CFG.ARM, 1)]) fun c => { c with ps := 150000000000 }) (0x5A) := by decide +kernel
theorem wit_IslandFaultsAndWatchdog_10 : (fun (s : State) (data : Word) => (Reaches s.chip .island 0x130) ∧ (s.chip.get R.SAF.WDOG_CFG.ARM = 1) ∧ (data.toNat < 256) ∧ (data.toNat ≠ s.chip.saf.wdKey ∨ s.chip.ps < s.chip.saf.wdBase + s.chip.get R.SAF.WDOG_CFG.WIN_MIN * 10000000)) (run [(R.SAF.WDOG_CFG.ARM, 1)]) (0xA5) := by decide +kernel
theorem wit_IslandFaultsAndWatchdog_11 : (fun (s : State) => (s.chip.get R.SAF.ISL_STAT.STATE = 1) ∧ (s.chip.get R.SAF.WDOG_CFG.ARM = 1) ∧ (s.chip.saf.wdBase + s.chip.get R.SAF.WDOG_CFG.WIN_MAX * 10000000 ≤ s.chip.ps)) (on (run [(R.SAF.ISL_STAT.STATE, 1), (R.SAF.WDOG_CFG.ARM, 1), (R.SAF.WDOG_CFG.WIN_MAX, 10000)]) fun c => { c with ps := 100000000000 }) := by decide +kernel
theorem wit_IslandFaultsAndWatchdog_12 : (fun (s : State) (a : Nat) (b : Nat) (r : Nat) => (s.chip.pdOn PD.SAFE = true) ∧ (s.chip.ptb.proof = none) ∧ (7200 ≤ a ∧ a ≤ 8800 ∧ 10800 ≤ b ∧ b ≤ 13200 ∧ 450 ≤ r ∧ r ≤ 550) ∧ (s.chip.saf.clkBad = [])) (run []) (8800) (10800) (550) := by decide +kernel
theorem wit_IslandFaultsAndWatchdog_13 : (fun (s : State) (a : Nat) (b : Nat) (r : Nat) => (s.chip.pdOn PD.SAFE = true) ∧ (s.chip.ptb.proof = none) ∧ (7200 ≤ a ∧ a ≤ 8800 ∧ 450 ≤ r ∧ r ≤ 550) ∧ (b < 10800 ∨ 13200 < b) ∧ (s.chip.saf.clkBad = []) ∧ (s.chip.saf.clkRun.getD 1 0 = 1)) (on (run []) fun c => { c with saf := { c.saf with clkRun := [(1, 1)] } }) (8000) (13201) (500) := by decide +kernel

theorem wit_PlanesSafeOkAndDegradedPipes_1 : (fun (s : State) (n : Nat) => (n < 8) ∧ (Reaches s.chip .island (0x131 + n)) ∧ (s.chip.get (R.SAF_P.PLANE_STAT.PENDING n) = 0) ∧ (s.chip.dualFollower n = false) ∧ (s.chip.eccFlaws Ecc.ISL (s.chip.staged (R.SAF_P.TABLE.ADDR n)) 1536 = []) ∧ (s.chip.planeCheck n (planeAsked s n) = none)) (on (run []) fun c => { c with stg := [{ page := 0x138, shadow := [(R.SAF_P.RG_XY.X 7 15, 4)] }] }) (7) := by decide +kernel
theorem wit_PlanesSafeOkAndDegradedPipes_2 : (fun (s : State) (n : Nat) (code : Nat) => (n < 8) ∧ (Reaches s.chip .island (0x131 + n)) ∧ (s.chip.get (R.SAF_P.PLANE_STAT.PENDING n) = 0) ∧ (s.chip.dualFollower n = false) ∧ (s.chip.eccFlaws Ecc.ISL (s.chip.staged (R.SAF_P.TABLE.ADDR n)) 1536 = []) ∧ (s.chip.planeCheck n (planeAsked s n) = some code)) (on (run []) fun c => { c with stg := [{ page := 0x138, shadow := [(R.SAF_P.TABLE.EN 7, 1), (R.SAF_P.TABLE.ADDR 7, 8)] }] }) (7) (E.ALIGN) := by decide +kernel
theorem wit_PlanesSafeOkAndDegradedPipes_3 : (fun (s : State) (n : Nat) => (n < 8) ∧ (Reaches s.chip .island (0x131 + n))) (on (run [(R.SAF_P.PLANE_STAT.PENDING 7, 1)]) fun c => { c with stg := [{ page := 0x138, pending := [(R.SAF_P.RG_XY.X 7 15, 4)] }] }) (7) := by decide +kernel
theorem wit_PlanesSafeOkAndDegradedPipes_4 : (fun (s : State) (data : Word) => (Reaches s.chip .island 0x130) ∧ (bits data.toNat 5 11 = 0 ∧ data.toNat < 2 ^ 22) ∧ (s.chip.safeHeld = false) ∧ (data.toNat.testBit 4 = false ∨ s.chip.brg.up = true ∨ s.chip.get R.SAF.SAFE_OK.FIELD_DROP ≠ 0)) (run [(R.SAF.ISL_STAT.STATE, 1), (R.SAF.SAFE_OK.FORCED, 63)]) (0x15000F) := by decide +kernel
theorem wit_PlanesSafeOkAndDegradedPipes_5 : (fun (s : State) (data : Word) => (Reaches s.chip .island 0x130) ∧ (bits data.toNat 5 11 = 0 ∧ data.toNat < 2 ^ 22) ∧ (s.chip.safeHeld = false) ∧ (data.toNat.testBit 4 = true ∧ s.chip.brg.up = false ∧ s.chip.get R.SAF.SAFE_OK.FIELD_DROP = 0)) (on (run [(R.SAF.ISL_STAT.STATE, 1), (R.SAF.SAFE_OK.FIELD_DROP, 0)]) fun c => { c with brg := { c.brg with up := false } }) (0x13) := by decide +kernel
theorem wit_PlanesSafeOkAndDegradedPipes_6 : (fun (s : State) (data : Word) => (Reaches s.chip .island 0x130) ∧ (bits data.toNat 5 11 = 0 ∧ data.toNat < 2 ^ 22) ∧ (s.chip.safeHeld = true) ∧ (s.chip.get R.SAF.SAFE_OK.EN_A = 0 ∧ data.toNat.testBit 0 = true)) (run []) (1) := by decide +kernel
theorem wit_PlanesSafeOkAndDegradedPipes_7 : (fun (s : State) (data : Word) => (Reaches s.chip .island 0x130) ∧ (data.toNat < 256)) (run []) (255) := by decide +kernel
theorem wit_PlanesSafeOkAndDegradedPipes_8 : (fun (s : State) (src : Src) (_data : Word) => (Reaches s.chip src 0x130) ∧ ((match src with | .inst _ => false | .island => false | _ => true) = true)) (run []) (.ccs 3) (255) := by decide +kernel

theorem wit_GatewayCrossesWorlds_1 : (fun (s : State) (k : Nat) (rd : Nat) (target : Nat) (pc : Nat) (priv : Nat) (_d : Bool) => (k < 4 ∧ rd < 32 ∧ priv < 4 ∧ pc + 4 < 2 ^ 64) ∧ (s.chip.ccRuns k = true) ∧ (s.chip.ccSecure k = false ∧ 1 ≤ priv) ∧ (s.chip.gateOk s.mem.sram target = true)) (gateState) (3) (31) (0x1000000) (8) (1) (false) := by decide +kernel
theorem wit_GatewayCrossesWorlds_2 : (fun (s : State) (k : Nat) (rd : Nat) (target : Nat) (_pc : Nat) (priv : Nat) (_d : Bool) => (k < 4 ∧ rd < 32 ∧ priv < 4) ∧ (s.chip.ccRuns k = true) ∧ (s.chip.ccSecure k = false ∧ 1 ≤ priv) ∧ (s.chip.gateOk s.mem.sram target = false)) (gateState) (3) (31) (0x1000001) (8) (1) (true) := by decide +kernel
theorem wit_GatewayCrossesWorlds_3 : (fun (s : State) (k : Nat) (rd : Nat) (imm : Nat) (_target : Nat) (_pc : Nat) (priv : Nat) (d : Bool) => (k < 4 ∧ rd < 32 ∧ priv < 4) ∧ (s.chip.ccRuns k = true) ∧ (imm ≠ 0 ∨ s.chip.ccSecure k = true ∨ priv = 0) ∧ (d = false ∨ 2 ≤ priv)) (gateState) (3) (31) (0) (0x1000000) (8) (0) (false) := by decide +kernel
theorem wit_GatewayCrossesWorlds_4 : (fun (s : State) (k : Nat) (rd : Nat) (imm : Nat) (_target : Nat) (_pc : Nat) (priv : Nat) => (k < 4 ∧ rd < 32 ∧ priv < 2) ∧ (s.chip.ccRuns k = true) ∧ (imm ≠ 0 ∨ s.chip.ccSecure k = true ∨ priv = 0)) (gateState) (3) (31) (1) (0x1000000) (8) (1) := by decide +kernel
theorem wit_GatewayCrossesWorlds_5 : (fun (s : State) (k : Nat) (target : Nat) (_pc : Nat) (priv : Nat) (_d : Bool) => (k < 4 ∧ priv < 4 ∧ target < 2 ^ 64) ∧ (s.chip.ccRuns k = true) ∧ (s.chip.ccSecure k = true)) (run [(R.CTL.CC_STAT.RUNNING, 15), (R.CTL.CC_STAT.SECURE, 15)]) (3) (64) (8) (3) (false) := by decide +kernel
theorem wit_GatewayCrossesWorlds_6 : (fun (s : State) (k : Nat) (rd : Nat) (pc : Nat) (priv : Nat) (_d : Bool) => (k < 4 ∧ rd < 32 ∧ priv < 4 ∧ pc + 4 < 2 ^ 64) ∧ (s.chip.ccRuns k = true)) (run [(R.CTL.CC_STAT.RUNNING, 15), (R.CTL.CC_STAT.SECURE, 8)]) (3) (31) (8) (0) (false) := by decide +kernel
theorem wit_GatewayCrossesWorlds_7 : (fun (s : State) (k : Nat) (pc : Nat) (priv : Nat) (_d : Bool) => (k < 4 ∧ priv < 4 ∧ pc + 4 < 2 ^ 64) ∧ (s.chip.ccRuns k = true)) (run [(R.CTL.CC_STAT.RUNNING, 15), (R.CTL.CC_STAT.SECURE, 8)]) (3) (8) (0) (false) := by decide +kernel
theorem wit_GatewayCrossesWorlds_8 : (fun (s : State) (k : Nat) (pc : Nat) (priv : Nat) (_en : Bool) => (k < 4 ∧ priv < 4 ∧ pc < 2 ^ 64) ∧ (s.chip.ccRuns k = true) ∧ (s.chip.ccSecure k = false) ∧ (s.chip.gateOk s.mem.sram (sramBase + s.chip.get R.SEC.SIRQ_VEC.OFFSET * 8) = true)) (gateState) (3) (8) (0) (false) := by decide +kernel
theorem wit_GatewayCrossesWorlds_9 : (fun (s : State) (k : Nat) (_pc : Nat) (priv : Nat) => (k < 4 ∧ priv < 4) ∧ (s.chip.ccRuns k = true) ∧ (s.chip.ccSecure k = true)) (run [(R.CTL.CC_STAT.RUNNING, 15), (R.CTL.CC_STAT.SECURE, 8)]) (3) (8) (0) := by decide +kernel

theorem wit_SecureWorldRegistersAndCores_1 : (fun (s : State) (src : Src) (b : Nat) => (1 ≤ b ∧ b ≤ 0x15) ∧ (Reaches s.chip src 0x030) ∧ (isSecure src = true)) (run []) (.ccs 0) (0x15) := by decide +kernel
theorem wit_SecureWorldRegistersAndCores_2 : (fun (s : State) (src : Src) (b : Nat) => (1 ≤ b ∧ b ≤ 0x15) ∧ (Reaches s.chip src 0x030) ∧ (isSecure src = true)) (run [(H.CLAIMED 0x1C0, 1)]) (.ccs 0) (0x15) := by decide +kernel
theorem wit_SecureWorldRegistersAndCores_3 : (fun (s : State) (src : Src) (data : Word) => (Reaches s.chip src 0x031) ∧ (isSecure src = true) ∧ (s.chip.get R.SEC_WDOG.WD_CFG.ARMED = 1) ∧ (data.toNat = if s.chip.get R.SEC_WDOG.WD_STAT.NEXT_KEY = 1 then 0x3C else 0xC3)) (run [(R.SEC_WDOG.WD_CFG.ARMED, 1)]) (.ccs 0) (0xC3) := by decide +kernel
theorem wit_SecureWorldRegistersAndCores_4 : (fun (s : State) (src : Src) (data : Word) => (Reaches s.chip src 0x031) ∧ (isSecure src = true) ∧ (s.chip.get R.SEC_WDOG.WD_CFG.ARMED = 1) ∧ (data.toNat < 256) ∧ (data.toNat ≠ if s.chip.get R.SEC_WDOG.WD_STAT.NEXT_KEY = 1 then 0x3C else 0xC3)) (run [(R.SEC_WDOG.WD_CFG.ARMED, 1)]) (.ccs 0) (0x3C) := by decide +kernel
theorem wit_SecureWorldRegistersAndCores_5 : (fun (s : State) => (s.chip.get R.SEC_WDOG.WD_CFG.ARMED = 1) ∧ (s.chip.ctl.wdWarned = false) ∧ (3 * (s.chip.ctl.wdLimit * 1000000000) ≤ 4 * s.chip.ctl.wdAge)) (on (run [(R.SEC_WDOG.WD_CFG.ARMED, 1)]) fun c => { c with ctl := { c.ctl with wdAge := 1500000000000 } }) := by decide +kernel
theorem wit_SecureWorldRegistersAndCores_6 : (fun (s : State) => (s.chip.get R.SEC_WDOG.WD_CFG.ARMED = 1) ∧ (s.chip.ctl.wdLimit * 1000000000 ≤ s.chip.ctl.wdAge)) (on (run [(R.SEC_WDOG.WD_CFG.ARMED, 1)]) fun c => { c with ctl := { c.ctl with wdAge := 2000000000000 } }) := by decide +kernel
theorem wit_SecureWorldRegistersAndCores_7 : (fun (s : State) (src : Src) (rel : Nat) => (rel < 16 ∧ rel % 2 = 1) ∧ (Reaches s.chip src 0x040) ∧ (isSecure src = true)) (run [(R.CTL.CC_CTRL.RELEASE, 3), (R.CTL.CC_VEC.ADDR 3, 0x1000)]) (.ccs 0) (9) := by decide +kernel
theorem wit_SecureWorldRegistersAndCores_8 : (fun (s : State) (src : Src) (mask : Nat) => (mask < 16 ∧ mask % 2 = 0) ∧ (s.chip.get R.CTL.CC_CTRL.RELEASE < 16 ∧ s.chip.get R.CTL.CC_CTRL.RELEASE % 2 = 1) ∧ (Reaches s.chip src 0x040) ∧ (isSecure src = true)) (on (run [(R.CTL.CC_CTRL.RELEASE, 9), (R.CTL.CC_VEC.ADDR 3, 0x1000)]) fun c => c.setCc 3 { pc := 4 }) (.ccs 0) (12) := by decide +kernel
theorem wit_SecureWorldRegistersAndCores_9 : (fun (s : State) (src : Src) (cc : Bool) (f : Fld) => (Reaches s.chip src 0x032) ∧ (isSecure src = true) ∧ (f = if cc then R.SEC_FUSE.CC_ROLLBACK.COUNT else R.SEC_FUSE.ISL_ROLLBACK.COUNT) ∧ (s.chip.get f < 63)) (run [(R.SEC_FUSE.CC_ROLLBACK.COUNT, 62)]) (.ccs 0) (true) (R.SEC_FUSE.CC_ROLLBACK.COUNT) := by decide +kernel
theorem wit_SecureWorldRegistersAndCores_10 : (fun (s : State) (src : Src) (cc : Bool) (f : Fld) => (Reaches s.chip src 0x032) ∧ (isSecure src = true) ∧ (f = if cc then R.SEC_FUSE.CC_ROLLBACK.COUNT else R.SEC_FUSE.ISL_ROLLBACK.COUNT) ∧ (s.chip.get f = 63)) (run [(R.SEC_FUSE.ISL_ROLLBACK.COUNT, 63)]) (.ccs 0) (false) (R.SEC_FUSE.ISL_ROLLBACK.COUNT) := by decide +kernel
theorem wit_SecureWorldRegistersAndCores_11 : (fun (s : State) (k : Nat) (a : Nat) (n : Nat) (_pc : Nat) (priv : Nat) (data : List Byte) (_d : Bool) => (k < 4 ∧ priv < 4 ∧ 1 ≤ n ∧ n ≤ 8 ∧ data.length = n) ∧ (s.chip.ccRuns k = true) ∧ (sramBase ≤ a ∧ a + n ≤ sramBase + sramSize) ∧ (s.chip.ccSecure k = true ∨ s.chip.get R.SEC.SRAM_WMARK.WMARK * 4096 ≤ a - sramBase)) ({ run [(R.CTL.CC_STAT.RUNNING, 15), (R.SEC.SRAM_WMARK.WMARK, 0)] with mem := { sram := [(3, 7), (20, 9)] } }) (3) (sramBase + 60) (8) (0) (0) (leBytes 8 0x0102030405060708) (false) := by decide +kernel
theorem wit_SecureWorldRegistersAndCores_12 : (fun (s : State) (k : Nat) (a : Nat) (n : Nat) (_pc : Nat) (priv : Nat) (_data : List Byte) (_d : Bool) => (k < 4 ∧ priv < 4 ∧ 1 ≤ n ∧ n ≤ 8) ∧ (s.chip.ccRuns k = true) ∧ (sramBase ≤ a ∧ a + n ≤ sramBase + sramSize) ∧ (s.chip.ccSecure k = true ∨ s.chip.get R.SEC.SRAM_WMARK.WMARK * 4096 ≤ a - sramBase) ∧ (∀ l ∈ linesOf a n, s.chip.eccFlaws Ecc.SRAM (l * lineSize - sramBase) lineSize = [])) ({ run [(R.CTL.CC_STAT.RUNNING, 15), (R.SEC.SRAM_WMARK.WMARK, 0)] with mem := { sram := [(3, 7)] } }) (3) (sramBase) (8) (0) (0) ([]) (false) := by decide +kernel
theorem wit_SecureWorldRegistersAndCores_13 : (fun (s : State) (k : Nat) (a : Nat) (n : Nat) (_pc : Nat) (priv : Nat) (data : List Byte) (_d : Bool) => (k < 4 ∧ priv < 4 ∧ 1 ≤ n ∧ n ≤ 8 ∧ data.length = n) ∧ (s.chip.ccRuns k = true) ∧ (dramBase ≤ a ∧ a + n ≤ dramBase + s.chip.dramUsable) ∧ (s.chip.ccSecure k = true ∨ s.chip.get R.SEC.DRAM_WMARK.WMARK * 2 ^ 21 ≤ a - dramBase)) (run [(R.CTL.CC_STAT.RUNNING, 15), (R.CTL.CC_STAT.SECURE, 15), (R.DRC.CAPACITY.USABLE_2M, 1)]) (3) (dramBase + 60) (8) (0) (0) (leBytes 8 0x0102030405060708) (false) := by decide +kernel
theorem wit_SecureWorldRegistersAndCores_14 : (fun (s : State) (k : Nat) (a : Nat) (n : Nat) (_pc : Nat) (priv : Nat) (_data : List Byte) (_d : Bool) => (k < 4 ∧ priv < 4 ∧ 1 ≤ n ∧ n ≤ 8) ∧ (s.chip.ccRuns k = true) ∧ (dramBase ≤ a ∧ a + n ≤ dramBase + s.chip.dramUsable) ∧ (s.chip.ccSecure k = true ∨ s.chip.get R.SEC.DRAM_WMARK.WMARK * 2 ^ 21 ≤ a - dramBase) ∧ (∀ l ∈ linesOf a n, s.chip.eccFlaws Ecc.DRAM (l * lineSize - dramBase) lineSize = [])) ({ run [(R.CTL.CC_STAT.RUNNING, 15), (R.CTL.CC_STAT.SECURE, 15), (R.DRC.CAPACITY.USABLE_2M, 1)] with mem := { dram := [(3, 7)] } }) (3) (dramBase) (8) (0) (0) ([]) (false) := by decide +kernel
theorem wit_SecureWorldRegistersAndCores_15 : (fun (s : State) (k : Nat) (a : Nat) (n : Nat) (_pc : Nat) (priv : Nat) (op : CoreOp) (x : CacheLine) (_data : List Byte) (_d : Bool) => (k < 4 ∧ priv < 4 ∧ 1 ≤ n ∧ n ≤ 8) ∧ (s.chip.ccRuns k = true) ∧ (sramBase ≤ a ∧ a + n ≤ sramBase + sramSize) ∧ (s.chip.ccSecure k = true ∨ s.chip.get R.SEC.SRAM_WMARK.WMARK * 4096 ≤ a - sramBase) ∧ (op = .clean ∨ op = .flush ∨ op = .evict) ∧ (s.chip.ctl.cache.find? (a / lineSize) = some x) ∧ (x.dirty = true)) (on (run [(R.CTL.CC_STAT.RUNNING, 15), (R.SEC.SRAM_WMARK.WMARK, 0)]) fun c => { c with ctl := { c.ctl with cache := [(sramBase / 64, { bytes := [7], dirty := true })] } }) (3) (sramBase + 9) (8) (0) (0) (.flush) ({ bytes := [7], dirty := true }) ([]) (false) := by decide +kernel
theorem wit_SecureWorldRegistersAndCores_16 : (fun (s : State) (k : Nat) (a : Nat) (n : Nat) (_pc : Nat) (priv : Nat) (_data : List Byte) (_d : Bool) => (k < 4 ∧ priv < 4 ∧ 1 ≤ n ∧ n ≤ 8) ∧ (s.chip.ccRuns k = true) ∧ (sramBase ≤ a ∧ a + n ≤ sramBase + sramSize) ∧ (s.chip.ccSecure k = true ∨ s.chip.get R.SEC.SRAM_WMARK.WMARK * 4096 ≤ a - sramBase)) (on (run [(R.CTL.CC_STAT.RUNNING, 15), (R.SEC.SRAM_WMARK.WMARK, 0)]) fun c => { c with ctl := { c.ctl with cache := [(sramBase / 64, { bytes := [7], dirty := true })] } }) (3) (sramBase + 9) (8) (0) (0) ([]) (false) := by decide +kernel
theorem wit_SecureWorldRegistersAndCores_17 : (fun (s : State) (k : Nat) (a : Nat) (n : Nat) (_pc : Nat) (priv : Nat) (_data : List Byte) (op : CoreOp) (_d : Bool) => (k < 4 ∧ priv < 4 ∧ 1 ≤ n ∧ n ≤ 8) ∧ (s.chip.ccRuns k = true) ∧ (op ≠ .evict) ∧ (sramBase ≤ a ∧ a + n ≤ sramBase + sramSize) ∧ (s.chip.ccSecure k = false ∧ a - sramBase < s.chip.get R.SEC.SRAM_WMARK.WMARK * 4096)) (run [(R.CTL.CC_STAT.RUNNING, 15), (R.SEC.SRAM_WMARK.WMARK, 1)]) (3) (sramBase + 4095) (8) (0) (0) ([]) (.store) (false) := by decide +kernel
theorem wit_SecureWorldRegistersAndCores_18 : (fun (s : State) (a : Nat) (n : Nat) (_pc : Nat) (priv : Nat) (data : List Byte) (_d : Bool) => (priv < 4 ∧ 1 ≤ n ∧ n ≤ 8 ∧ data.length = n) ∧ (s.chip.islandRuns = true ∧ s.chip.pdOn PD.SAFE = true) ∧ (a + n ≤ islSize)) (run [(R.SAF.ISL_STAT.STATE, 1)]) (2 ^ 21 - 8) (8) (0) (0) (leBytes 8 5) (false) := by decide +kernel
theorem wit_SecureWorldRegistersAndCores_19 : (fun (s : State) (a : Nat) (n : Nat) (_pc : Nat) (priv : Nat) (_data : List Byte) (_d : Bool) => (priv < 4 ∧ 1 ≤ n ∧ n ≤ 8) ∧ (s.chip.islandRuns = true ∧ s.chip.pdOn PD.SAFE = true) ∧ (a + n ≤ islSize) ∧ (s.chip.eccFlaws Ecc.ISL a n = [])) ({ run [(R.SAF.ISL_STAT.STATE, 1)] with mem := { isl := [(3, 7)] } }) (0) (8) (0) (0) ([]) (false) := by decide +kernel
theorem wit_SecureWorldRegistersAndCores_20 : (fun (s : State) (k : Nat) => (k < 4) ∧ (s.chip.mode = Mode.SERVICE) ∧ ((s.chip.get R.CTL.CC_STAT.RUNNING).testBit k = true)) (regs [(R.SYS_MODE.MODE_STAT.MODE, 5), (R.CTL.CC_STAT.RUNNING, 15)]) (3) := by decide +kernel

theorem wit_AuthenticationFailureIsReported_1 : (fun (s : State) (src : Src) => (isSecure src = true) ∧ (Reaches s.chip src 0x030)) (run []) (.ccs 0) := by decide +kernel

theorem wit_TouchRingEntries_1 : (fun (s : State) (r : Nat) (e : Issued) => (r < 64) ∧ (s.chip.freshEntry r 5 0 = some e) ∧ (zeroAt e.bytes 0x10 48 = true)) (atEntry5 (leBytes 64 0)) (63) (⟨9, leBytes 64 0, true, none⟩) := by decide +kernel
theorem wit_TouchRingEntries_2 : (fun (s : State) (r : Nat) (n : Nat) (e : Issued) => (r < 64) ∧ (s.chip.freshEntry r 5 1 = some e) ∧ (n = fieldAt e.bytes 0x10 1 ∧ n < 4) ∧ (fieldAt e.bytes 0x11 1 = 0 ∧ zeroAt e.bytes 0x12 46 = true) ∧ (s.chip.tchOwns (s.chip.ringOwn r) n = true) ∧ (s.chip.tchPartner n = false)) (atEntry5 (tchBytes 1 3 0)) (63) (3) (⟨9, tchBytes 1 3 0, true, none⟩) := by decide +kernel
theorem wit_TouchRingEntries_3 : (fun (s : State) (r : Nat) (n : Nat) (e : Issued) => (r < 64) ∧ (s.chip.freshEntry r 5 1 = some e) ∧ (n = fieldAt e.bytes 0x10 1 ∧ n < 4) ∧ (fieldAt e.bytes 0x11 1 = 1 ∧ zeroAt e.bytes 0x12 46 = true) ∧ (s.chip.tchOwns (s.chip.ringOwn r) n = true) ∧ (s.chip.tchPartner n = false)) (on (atEntry5 (tchBytes 1 3 1)) fun c => (c.set (R.TCH_ST.SUBSCR.NONE 3) 0).set (R.TCH_ST.SUBSCR.RING 3) 63) (63) (3) (⟨9, tchBytes 1 3 1, true, none⟩) := by decide +kernel
theorem wit_TouchRingEntries_4 : (fun (s : State) (r : Nat) (n : Nat) (e : Issued) => (r < 64) ∧ (s.chip.freshEntry r 5 1 = some e) ∧ (n = fieldAt e.bytes 0x10 1 ∧ n < 4) ∧ (fieldAt e.bytes 0x11 1 < 2 ∧ zeroAt e.bytes 0x12 46 = true) ∧ (s.chip.tchOwns (s.chip.ringOwn r) n = false)) (on (atEntry5 (tchBytes 1 3 0)) fun c => { c with imx := { c.imx with shares := [(15, { tch := 8 })] } }) (63) (3) (⟨9, tchBytes 1 3 0, true, none⟩) := by decide +kernel
theorem wit_TouchRingEntries_5 : (fun (s : State) (r : Nat) (n : Nat) (a : Nat) (size : Nat) (e : Issued) (b : TchRef) => (r < 64) ∧ (s.chip.freshEntry r 5 2 = some e) ∧ (n = fieldAt e.bytes 0x10 1 ∧ n < 4) ∧ (zeroAt e.bytes 0x11 7 = true ∧ zeroAt e.bytes 0x20 32 = true) ∧ (s.chip.tchOwns (s.chip.ringOwn r) n = true) ∧ (s.chip.tchPartner n = false) ∧ (a = fieldAt e.bytes 0x18 8) ∧ (size = 16 + s.chip.tchNd n * 72 + (s.chip.tchNd n + 36) * 2) ∧ (s.chip.dmaSide (s.chip.ringOwn r) 0 a 0 size 1 = true) ∧ (Readable s a size) ∧ (refBlock s.mem.dram a (s.chip.tchNd n) = some b)) (refState) (63) (3) (8192) (4232) (⟨9, tchBytes 2 3 0 8192, true, none⟩) (aRef) := ⟨by decide +kernel, by decide +kernel, by decide +kernel, by decide +kernel, by decide +kernel, by decide +kernel, by decide +kernel, by decide +kernel, by decide +kernel, by decide +kernel, refState_ok⟩
theorem wit_TouchRingEntries_6 : (fun (s : State) (r : Nat) (n : Nat) (a : Nat) (size : Nat) (e : Issued) => (r < 64) ∧ (s.chip.freshEntry r 5 2 = some e) ∧ (n = fieldAt e.bytes 0x10 1 ∧ n < 4) ∧ (zeroAt e.bytes 0x11 7 = true ∧ zeroAt e.bytes 0x20 32 = true) ∧ (s.chip.tchOwns (s.chip.ringOwn r) n = true) ∧ (s.chip.tchPartner n = false) ∧ (a = fieldAt e.bytes 0x18 8) ∧ (size = 16 + s.chip.tchNd n * 72 + (s.chip.tchNd n + 36) * 2) ∧ (s.chip.dmaSide (s.chip.ringOwn r) 0 a 0 size 1 = true) ∧ (Readable s a size) ∧ (refBlock s.mem.dram a (s.chip.tchNd n) = none)) (on (atEntry5 (tchBytes 2 3 0 8192)) (fun c => c.set R.DRC.CAPACITY.GIB 12)) (63) (3) (8192) (4232) (⟨9, tchBytes 2 3 0 8192, true, none⟩) := by decide +kernel
theorem wit_TouchRingEntries_7 : (fun (s : State) (r : Nat) (n : Nat) (e : Issued) => (r < 64) ∧ (s.chip.freshEntry r 5 3 = some e) ∧ (n = fieldAt e.bytes 0x10 1 ∧ n < 4) ∧ (zeroAt e.bytes 0x11 47 = true) ∧ (s.chip.tchOwns (s.chip.ringOwn r) n = true) ∧ (s.chip.tchPartner n = false)) (on (atEntry5 (tchBytes 3 3 0)) fun c => c.setTch 3 { phase := 3, contacts := [(2, { x := 5, y := 6, area := 1, peak := 9, lastX := 5, lastY := 6, since := 0 })] }) (63) (3) (⟨9, tchBytes 3 3 0, true, none⟩) := by decide +kernel
theorem wit_TouchRingEntries_8 : (fun (s : State) (r : Nat) (n : Nat) (e : Issued) => (r < 64) ∧ (s.chip.freshEntry r 5 4 = some e) ∧ (n = fieldAt e.bytes 0x10 1 ∧ n < 4) ∧ (zeroAt e.bytes 0x11 47 = true) ∧ (s.chip.tchOwns (s.chip.ringOwn r) n = true) ∧ (s.chip.tchPartner n = false)) (atEntry5 (tchBytes 4 3 0)) (63) (3) (⟨9, tchBytes 4 3 0, true, none⟩) := by decide +kernel
theorem wit_TouchRingEntries_9 : (fun (s : State) (r : Nat) (n : Nat) (a : Nat) (size : Nat) (e : Issued) => (r < 64) ∧ (s.chip.freshEntry r 5 5 = some e) ∧ (n = fieldAt e.bytes 0x10 1 ∧ n < 4) ∧ (fieldAt e.bytes 0x11 1 < 3 ∧ zeroAt e.bytes 0x12 6 = true ∧ zeroAt e.bytes 0x20 32 = true) ∧ (s.chip.tchOwns (s.chip.ringOwn r) n = true) ∧ (s.chip.tchPartner n = false) ∧ (a = fieldAt e.bytes 0x18 8) ∧ (size = s.chip.tchNd n * 72 + (s.chip.tchNd n + 36) * 2) ∧ (s.chip.dmaSide (s.chip.ringOwn r) 0 a 0 size 1 = true)) (on (atEntry5 (tchBytes 5 3 2 8192)) (fun c => c.set R.DRC.CAPACITY.GIB 12)) (63) (3) (8192) (4216) (⟨9, tchBytes 5 3 2 8192, true, none⟩) := by decide +kernel

theorem wit_TouchFramesAndSelfTests_1 : (fun (s : State) (n : Nat) => (n < 4) ∧ (s.chip.scanReady n = true)) (on (run []) fun c => c.setTch 3 { phase := 3 }) (3) := by decide +kernel
theorem wit_TouchFramesAndSelfTests_2 : (fun (s : State) (n : Nat) (_nodes : List Nat) (_lines : List Nat) => (n < 4) ∧ ((s.chip.tch1 n).measuring = true ∧ (s.chip.tch1 n).phase = 2 ∧ (s.chip.tch1 n).raws = []) ∧ (s.chip.tchM n * 1000000 ≤ s.chip.tchDone n) ∧ ((s.chip.tch1 n).settled < 3 ∧ ((s.chip.tch1 n).settled = 0 → (s.chip.tch1 n).contacts = []))) (on (run []) fun c => { c with ps := 4000000000 }.setTch 3 { phase := 2, measuring := true, window := true, settled := 1, sumM := [4, 5], sumS := [6] }) (3) ([1, 2]) ([3]) := by decide +kernel
theorem wit_TouchFramesAndSelfTests_3 : (fun (s : State) (n : Nat) (_nodes : List Nat) (_lines : List Nat) => (n < 4) ∧ ((s.chip.tch1 n).measuring = true ∧ (s.chip.tch1 n).phase = 2 ∧ (s.chip.tch1 n).raws = []) ∧ (s.chip.tchM n * 1000000 ≤ s.chip.tchDone n) ∧ ((s.chip.tch1 n).settled = 0)) (on (run []) fun c => { c with ps := 4000000000 }.setTch 3 { phase := 2, measuring := true, window := true, contacts := [(9, { x := 5, y := 6, area := 1, peak := 9, lastX := 5, lastY := 6, since := 0 })] }) (3) ([1, 2]) ([3]) := by decide +kernel
theorem wit_TouchFramesAndSelfTests_4 : (fun (s : State) (n : Nat) (nodes : List Nat) (_lines : List Nat) => (n < 4) ∧ ((s.chip.tch1 n).measuring = true ∧ (s.chip.tch1 n).phase = 3 ∧ (s.chip.tch1 n).raws = []) ∧ (s.chip.tchM n * 1000000 ≤ s.chip.tchDone n) ∧ (s.chip.tchNd n = 56) ∧ ((s.chip.tch1 n).contacts = [] ∧ (s.chip.tch1 n).ref = none ∧ (s.chip.tch1 n).resync = false) ∧ ((s.chip.tchRaw n nodes).map Int.ofNat = (s.chip.tch1 n).baseM ∧ s.chip.tchSelf n = false) ∧ (1 ≤ s.chip.get (R.TCH_CFG.THRESH.RELEASE_TH n) ∧ 1 ≤ s.chip.get (R.TCH_CFG.THRESH2.NEG_TH n) ∧ s.chip.mode = Mode.RUN) ∧ (s.chip.imx.resync = [])) (on (run [(R.TCH_CFG.TF_CFG.SELF_EN 3, 0)]) fun c => { c with ps := 4000000000 }.setTch 3 { phase := 3, measuring := true, window := true, baseM := List.replicate 2016 0 }) (3) ([]) ([]) := by decide +kernel
theorem wit_TouchFramesAndSelfTests_5 : (fun (s : State) (n : Nat) (k : Nat) (x : Contact) => (n < 4) ∧ ((s.chip.tch1 n).contacts.find? k = some x) ∧ (x.stuck = false) ∧ (s.chip.get (R.TCH_CFG.BASE_CFG.HOLD_S n) ≠ 0) ∧ (s.chip.since x.since (s.chip.get (R.TCH_CFG.BASE_CFG.HOLD_S n) * 1000) = true)) (on (run [(R.TCH_CFG.BASE_CFG.HOLD_S 3, 1)]) fun c => { c.setTch 3 { phase := 3, contacts := [(9, { x := 5, y := 6, area := 1, peak := 9, lastX := 5, lastY := 6, since := 0 })] } with ps := 1000000000000 }) (3) (9) ({ x := 5, y := 6, area := 1, peak := 9, lastX := 5, lastY := 6, since := 0 }) := by decide +kernel
theorem wit_TouchFramesAndSelfTests_6 : (fun (s : State) (n : Nat) (line : Nat) (m : Nat) => (n < 4 ∧ line < 56) ∧ (m = if s.chip.tchPartner n then n - 1 else n) ∧ ((s.chip.tch1 m).phase = 2 ∨ (s.chip.tch1 m).phase = 3)) (on (run [(R.TCH_CFG.TF_CFG.COMBINE 2, 1)]) fun c => c.setTch 2 { phase := 3 }) (3) (55) (2) := by decide +kernel
theorem wit_TouchFramesAndSelfTests_7 : (fun (s : State) (n : Nat) (_levels : List Int) (_pairs : List (Nat × Nat)) (_opn : List Nat) (_self : List Nat) => (n < 4) ∧ ((s.chip.tch1 n).phase = 1) ∧ (s.chip.tchLead n = false)) (on (run []) fun c => c.setTch 3 { phase := 1 }) (3) ([0, -301, 1000]) ([(90, 91)]) ([]) ([]) := by decide +kernel
theorem wit_TouchFramesAndSelfTests_8 : (fun (s : State) (n : Nat) (r : Nat) (q : Nat) (levels : List Int) (pairs : List (Nat × Nat)) (_opn : List Nat) (_self : List Nat) => (n < 4 ∧ r < 64) ∧ ((s.chip.tch1 n).phase = 1 ∧ (s.chip.tch1 n).tests = [(r, q)] ∧ (s.chip.tch1 n).ref = none) ∧ (s.chip.tchLead n = false) ∧ (s.chip.get (H.ENABLE (0x1A8 + 2 * n)) = 0) ∧ ((levels.all fun v => decide (300 ≤ v) && decide (v ≤ 3000)) = true ∧ pairs = [])) (on (run [(R.RNG.RING_BIND.CLASS 31 1, 5)]) fun c => { (c.setTch 3 { phase := 1, tests := [(63, 9)] }) with imx := { rings := [(63, { issued := [⟨9, tchBytes 4 3 0, false, none⟩] })] } }) (3) (63) (9) ([300, 3000]) ([]) ([7]) ([]) := by decide +kernel

theorem wit_HapticRingEntries_1 : (fun (s : State) (r : Nat) (e : Issued) => (r < 64) ∧ (s.chip.freshEntry r 4 0 = some e) ∧ (zeroAt e.bytes 0x10 48 = true)) (atEntry4 (leBytes 64 0)) (63) (⟨9, leBytes 64 0, true, none⟩) := by decide +kernel
theorem wit_HapticRingEntries_2 : (fun (s : State) (r : Nat) (k : Nat) (eff : Nat) (delay : Nat) (e : Issued) (g : HapTrig) (b : List Byte) => (r < 64 ∧ k < 8) ∧ (s.chip.freshEntry r 4 1 = some e) ∧ (s.chip.playCheck r e.bytes = none) ∧ (fieldAt e.bytes 0x12 1 = 1 <<< k) ∧ (eff = fieldAt e.bytes 0x10 1 ∧ s.chip.hapImage eff = some b) ∧ (delay = fieldAt e.bytes (0x14 + 2 * k) 1) ∧ (g = { effect := eff, prio := fieldAt e.bytes 0x11 1 % 4, gain := fieldAt e.bytes (0x15 + 2 * k) 1, ref := some (r, e.seq) }) ∧ (g.gain ≠ 0) ∧ (s.chip.hapFaulted k = false) ∧ ((s.chip.hch k).play = none ∧ (s.chip.hch k).testing = false) ∧ ((s.chip.hap.tests.all fun y => y.1 != k) = true) ∧ ((s.chip.hap.plays.all fun p => p.waiting != 0) = true) ∧ (s.chip.hapBudget k g b = true)) (hapReady (playBytes 135 2 128 10)) (63) (7) (135) (10) (⟨9, playBytes 135 2 128 10, true, none⟩) ({ effect := 135, prio := 2, gain := 255, ref := some (63, 9) }) (anImage) := by decide +kernel
theorem wit_HapticRingEntries_3 : (fun (s : State) (r : Nat) (code : Nat) (e : Issued) => (r < 64) ∧ (s.chip.freshEntry r 4 1 = some e) ∧ (s.chip.playCheck r e.bytes = some code)) (hapReady (playBytes 136 2 128 10)) (63) (0x26) (⟨9, playBytes 136 2 128 10, true, none⟩) := by decide +kernel
theorem wit_HapticRingEntries_4 : (fun (s : State) (r : Nat) (k : Nat) (e : Issued) (p : HapCopy) => (r < 64 ∧ k < 8) ∧ (s.chip.freshEntry r 4 2 = some e) ∧ (fieldAt e.bytes 0x10 1 = 1 <<< k ∧ zeroAt e.bytes 0x11 47 = true) ∧ (s.chip.hapOwns (s.chip.ringOwn r) (1 <<< k) = true) ∧ ((s.chip.hch k).play = some p ∧ p.stage ≠ 0) ∧ ((s.chip.hch k).pend = none)) (on (hapReady (leBytes 16 2 ++ leBytes 48 128)) fun c => c.setHch 7 { play := some { trig := ⟨135, 2, 255, none⟩, stage := 2 } }) (63) (7) (⟨9, leBytes 16 2 ++ leBytes 48 128, true, none⟩) ({ trig := ⟨135, 2, 255, none⟩, stage := 2 }) := by decide +kernel
theorem wit_HapticRingEntries_5 : (fun (s : State) (r : Nat) (slot : Nat) (a : Nat) (n : Nat) (e : Issued) (img : List Byte) => (r < 64) ∧ (s.chip.freshEntry r 4 3 = some e) ∧ (zeroAt e.bytes 0x11 7 = true ∧ zeroAt e.bytes 0x20 32 = true) ∧ (16 ≤ s.chip.ringOwn r) ∧ (slot = fieldAt e.bytes 0x10 1 ∧ slot < 16) ∧ (a = fieldAt e.bytes 0x18 8) ∧ (n = 16 + Img.bodyLen (Memory.readBytes s.mem.dram a 16)) ∧ (img = Memory.readBytes s.mem.dram a n) ∧ (s.chip.dmaSide (s.chip.ringOwn r) 0 a 0 n 1 = true) ∧ (Readable s a n) ∧ (Img.ok img = true)) ({ on (atEntry4 (tchBytes 3 15 0 8192)) (fun c => c.set R.DRC.CAPACITY.GIB 12) with mem := { dram := Memory.writeBytes [] 8192 anImage } }) (63) (15) (8192) (18) (⟨9, tchBytes 3 15 0 8192, true, none⟩) (anImage) := by decide +kernel
theorem wit_HapticRingEntries_6 : (fun (s : State) (slot : Nat) (r : Nat) (q : Nat) (x : HapShadow) => (slot < 16 ∧ r < 64) ∧ (s.chip.hap.shadow.find? slot = some x) ∧ (x.refs = [(r, q)]) ∧ (s.chip.hapInUse (128 + slot) = false)) (on (atEntry4 []) fun c => { c with hap := { shadow := [(15, ⟨anImage, [(63, 9)]⟩)] } }) (15) (63) (9) (⟨anImage, [(63, 9)]⟩) := by decide +kernel
theorem wit_HapticRingEntries_7 : (fun (s : State) (r : Nat) (k : Nat) (e : Issued) => (r < 64 ∧ k < 8) ∧ (s.chip.freshEntry r 4 4 = some e) ∧ (fieldAt e.bytes 0x10 1 = 1 <<< k ∧ zeroAt e.bytes 0x11 47 = true) ∧ (s.chip.hapOwns (s.chip.ringOwn r) (1 <<< k) = true) ∧ (s.chip.hap.tests = []) ∧ ((s.chip.hch k).play = none ∧ (s.chip.hch k).testing = false ∧ (s.chip.hch k).pend = none) ∧ (s.chip.get R.HAP.HAP_STAT.HOLD = 0 ∧ s.chip.blockStarted 0x12 = true)) (hapReady (leBytes 16 4 ++ leBytes 48 128)) (63) (7) (⟨9, leBytes 16 4 ++ leBytes 48 128, true, none⟩) := by decide +kernel
theorem wit_HapticRingEntries_8 : (fun (s : State) (r : Nat) (eff : Nat) (a : Nat) (e : Issued) (img : List Byte) => (r < 64) ∧ (s.chip.freshEntry r 4 5 = some e) ∧ (zeroAt e.bytes 0x11 7 = true ∧ zeroAt e.bytes 0x20 32 = true) ∧ (eff = fieldAt e.bytes 0x10 1 ∧ eff < 144 ∧ s.chip.hapImage eff = some img) ∧ (a = fieldAt e.bytes 0x18 8) ∧ (s.chip.dmaSide (s.chip.ringOwn r) 0 a 0 img.length 1 = true)) (on (hapReady (tchBytes 5 135 0 8192)) fun c => c.set R.DRC.CAPACITY.GIB 12) (63) (135) (8192) (⟨9, tchBytes 5 135 0 8192, true, none⟩) (anImage) := by decide +kernel
theorem wit_HapticRingEntries_9 : (fun (s : State) (k : Nat) (eff : Nat) (data : Word) (b : List Byte) => (k < 8 ∧ eff < 144) ∧ (data.toNat % 2 ^ 31 = eff + 256 * 1 <<< k) ∧ (Reaches s.chip .island 0x1A0) ∧ (s.chip.hapImage eff = some b) ∧ (s.chip.hapFaulted k = false) ∧ ((s.chip.hch k).play = none ∧ (s.chip.hch k).testing = false) ∧ ((s.chip.hap.tests.all fun y => y.1 != k) = true) ∧ (s.chip.get (R.HAP_CH.CH_CFG.EN k) = 1 ∧ s.chip.get R.HAP.HAP_STAT.HOLD = 0)) (hapReady []) (7) (135) (0x80008087) (anImage) := by decide +kernel

theorem wit_HapticDriveTestsAndFaults_1 : (fun (s : State) (k : Nat) (p : HapCopy) (b : List Byte) => (k < 8) ∧ ((s.chip.hch k).play = some p ∧ p.stage = 0 ∧ p.due ≤ s.chip.ps) ∧ (s.chip.hapImage p.trig.effect = some b)) (on (hapReady []) fun c => c.setHch 7 { play := some { trig := ⟨135, 2, 255, none⟩, stage := 0 } }) (7) ({ trig := ⟨135, 2, 255, none⟩, stage := 0 }) (anImage) := by decide +kernel
theorem wit_HapticDriveTestsAndFaults_2 : (fun (s : State) (k : Nat) (p : HapCopy) (b : List Byte) => (k < 8) ∧ ((s.chip.hch k).play = some p ∧ p.stage ≠ 0 ∧ p.toTest = false) ∧ (s.chip.hapImage p.trig.effect = some b ∧ p.nextAt b ≤ s.chip.ps) ∧ ((s.chip.hch k).pend = none)) (on (hapReady []) fun c => { c with ps := 10 ^ 12 }.setHch 7 { play := some { trig := ⟨135, 2, 255, none⟩, stage := 2 } }) (7) ({ trig := ⟨135, 2, 255, none⟩, stage := 2 }) (anImage) := by decide +kernel
theorem wit_HapticDriveTestsAndFaults_3 : (fun (s : State) (k : Nat) (p : HapCopy) (b : List Byte) (b2 : List Byte) (g : HapTrig) => (k < 8) ∧ ((s.chip.hch k).play = some p ∧ p.stage ≠ 0 ∧ p.toTest = false ∧ p.trig.prio < 4) ∧ (s.chip.hapImage p.trig.effect = some b ∧ (p.next b).isSome = true ∧ p.nextAt b ≤ s.chip.ps) ∧ ((s.chip.hch k).pend = some g ∧ g.prio = 4) ∧ (s.chip.hapImage g.effect = some b2)) (on (hapReady []) fun c => { c with ps := 10 ^ 12 }.setHch 7 { play := some { trig := ⟨135, 2, 255, none⟩, stage := 1 }, pend := some ⟨135, 4, 255, none⟩ }) (7) ({ trig := ⟨135, 2, 255, none⟩, stage := 1 }) (anImage) (anImage) (⟨135, 4, 255, none⟩) := by decide +kernel
theorem wit_HapticDriveTestsAndFaults_4 : (fun (s : State) (v : Nat) (w : Nat) => (w = ((List.range 8).map fun k => (s.chip.hch k).dT + s.chip.get R.HAP.THERM.HEAT_K * (s.chip.hch k).vtStep / 1024 - (s.chip.hch k).dT / (100 * s.chip.get R.HAP.THERM.TAU_S)).foldl max 0) ∧ (s.chip.get R.HAP.THERM.TH_LIMIT * 1000000000 < w) ∧ (v = s.chip.loop 5 ∧ v ≤ 256) ∧ (s.chip.get (R.SYS_POLICY.STAT.PROTECT 5) = 0 ∧ s.chip.pow.recover.contains 5 = false) ∧ (s.chip.get (R.SYS_POLICY.BOUNDS.FLOOR 5) + 8 ≤ v ∧ v ≤ s.chip.get (R.SYS_POLICY.BOUNDS.CEIL 5))) (on (hapReady []) fun c => c.setHch 7 { dT := 31000000000 }) (256) (30994833334) := by decide +kernel
theorem wit_HapticDriveTestsAndFaults_5 : (fun (s : State) (k : Nat) (_high : Bool) => (k < 8) ∧ ((s.chip.hch k).testing = false)) (run []) (7) (true) := by decide +kernel
theorem wit_HapticDriveTestsAndFaults_6 : (fun (s : State) (volts : Nat) => (s.chip.get R.HAP.BOOST.EN = 1 ∧ s.chip.hap.railOff = false) ∧ (9 * s.chip.hapRail ≤ 10 * volts ∧ 10 * volts ≤ 11 * s.chip.hapRail) ∧ (volts < 128)) (run [(R.HAP.BOOST.EN, 1)]) (44) := by decide +kernel
theorem wit_HapticDriveTestsAndFaults_7 : (fun (s : State) (volts : Nat) => (s.chip.get R.HAP.BOOST.EN = 1 ∧ s.chip.hap.railOff = false) ∧ (10 * volts < 9 * s.chip.hapRail ∨ 11 * s.chip.hapRail < 10 * volts)) (run [(R.HAP.BOOST.EN, 1), (R.HAP_CH.CH_CFG.MODE 3, 1)]) (35) := by decide +kernel
theorem wit_HapticDriveTestsAndFaults_8 : (fun (s : State) => (s.chip.get R.HAP.BOOST.EN = 1)) (run [(R.HAP.BOOST.EN, 1), (R.HAP_CH.CH_CFG.MODE 3, 1)]) := by decide +kernel
theorem wit_HapticDriveTestsAndFaults_9 : (fun (s : State) (k : Nat) (r : Nat) (f : Nat) (e : Issued) (gnd : Bool) (vin : Bool) (opn : Bool) (lobe : Bool) => (k < 8 ∧ r < 64) ∧ (s.chip.hap.tests = [(k, some (r, e.seq))]) ∧ ((s.chip.hch k).testing = true ∧ (s.chip.hch k).play = none ∧ (s.chip.hch k).pend = none) ∧ (((s.chip.ring r).issued.find? fun x => x.seq == e.seq) = some e) ∧ (fieldAt e.bytes 0x10 1 = 1 <<< k) ∧ (f = b2n gnd + 2 * b2n vin + 8 * b2n opn + 16 * b2n (lobe != (s.chip.flag (R.HAP_CH.CH_CFG.POL_REF k) != s.chip.flag (R.HAP_CH.CH_CFG.INVERT k))))) (on (atEntry4 (leBytes 16 4 ++ leBytes 48 128)) fun c => { c.setHch 7 { testing := true, boostFault := true } with hap := { (c.setHch 7 { testing := true, boostFault := true }).hap with tests := [(7, some (63, 9))] } }) (7) (63) (17) (⟨9, leBytes 16 4 ++ leBytes 48 128, true, none⟩) (true) (false) (false) (true) := by decide +kernel

theorem wit_AudioRingEntriesAndChimes_1 : (fun (s : State) (r : Nat) (e : Issued) => (r < 64) ∧ (s.chip.freshEntry r 3 0 = some e) ∧ (zeroAt e.bytes 0x10 48 = true)) (atEntry3 (leBytes 64 0)) (63) (⟨9, leBytes 64 0, true, none⟩) := by decide +kernel
theorem wit_AudioRingEntriesAndChimes_2 : (fun (s : State) (r : Nat) (k : Nat) (e : Issued) => (r < 64) ∧ (s.chip.freshEntry r 3 1 = some e) ∧ (k = fieldAt e.bytes 0x10 1 ∧ k < 16) ∧ (s.chip.bufCheck r e.bytes (s.chip.audUsable (s.chip.ringOwn r) k) true 32 1 = none)) (atEntry3 (bufBytes 1 15 0 4)) (63) (15) (⟨9, bufBytes 1 15 0 4, true, none⟩) := by decide +kernel
theorem wit_AudioRingEntriesAndChimes_3 : (fun (s : State) (r : Nat) (k : Nat) (e : Issued) => (r < 64) ∧ (s.chip.freshEntry r 3 1 = some e) ∧ (fieldAt e.bytes 0x10 1 = k + 16 ∧ k < 16 ∧ k % 2 = 0) ∧ (s.chip.bufCheck r e.bytes (s.chip.audUsable (s.chip.ringOwn r) k && s.chip.audUsable (s.chip.ringOwn r) (k + 1)) true 32 2 = none)) (atEntry3 (bufBytes 1 30 0 4)) (63) (14) (⟨9, bufBytes 1 30 0 4, true, none⟩) := by decide +kernel
theorem wit_AudioRingEntriesAndChimes_4 : (fun (s : State) (r : Nat) (k : Nat) (code : Nat) (e : Issued) => (r < 64) ∧ (s.chip.freshEntry r 3 1 = some e) ∧ (k = fieldAt e.bytes 0x10 1 ∧ k < 16) ∧ (s.chip.bufCheck r e.bytes (s.chip.audUsable (s.chip.ringOwn r) k) true 32 1 = some code)) (atEntry3 (bufBytes 1 15 0 0)) (63) (15) (E.VALUE) (⟨9, bufBytes 1 15 0 0, true, none⟩) := by decide +kernel
theorem wit_AudioRingEntriesAndChimes_5 : (fun (s : State) (r : Nat) (k : Nat) (e : Issued) => (r < 64) ∧ (s.chip.freshEntry r 3 2 = some e) ∧ (k = fieldAt e.bytes 0x10 1 ∧ k < 4) ∧ (s.chip.bufCheck r e.bytes (decide (16 ≤ s.chip.ringOwn r)) true 4 1 = none)) (atEntry3 (bufBytes 2 3 0 4)) (63) (3) (⟨9, bufBytes 2 3 0 4, true, none⟩) := by decide +kernel
theorem wit_AudioRingEntriesAndChimes_6 : (fun (s : State) (r : Nat) (k : Nat) (g : Nat) (e : Issued) => (r < 64) ∧ (s.chip.freshEntry r 3 3 = some e) ∧ (k = fieldAt e.bytes 0x10 1 ∧ 1 ≤ k ∧ k < 16) ∧ (g = fieldAt e.bytes 0x11 1 ∧ g < 4 ∧ zeroAt e.bytes 0x12 46 = true) ∧ (16 ≤ s.chip.ringOwn r) ∧ (s.chip.chimeSeg k 0 % 4096 ≠ 0) ∧ (s.chip.aud.tg.find? g = none)) (on (atEntry3 (leBytes 16 3 ++ leBytes 1 15 ++ leBytes 1 3 ++ leBytes 46 0)) fun c => c.set (R.AUD_TONE.SEGMENT.DUR_MS 56) 9) (63) (15) (3) (⟨9, leBytes 16 3 ++ leBytes 1 15 ++ leBytes 1 3 ++ leBytes 46 0, true, none⟩) := by decide +kernel
theorem wit_AudioRingEntriesAndChimes_7 : (fun (s : State) (r : Nat) (k : Nat) (g : Nat) (e : Issued) (o : ToneGen) => (r < 64) ∧ (s.chip.freshEntry r 3 3 = some e) ∧ (k = fieldAt e.bytes 0x10 1 ∧ 1 ≤ k ∧ k < 16) ∧ (g = fieldAt e.bytes 0x11 1 ∧ g < 4 ∧ zeroAt e.bytes 0x12 46 = true) ∧ (16 ≤ s.chip.ringOwn r) ∧ (s.chip.chimeSeg k 0 % 4096 ≠ 0) ∧ (s.chip.aud.tg.find? g = some o ∧ 0 < o.rank)) (on (atEntry3 (leBytes 16 3 ++ leBytes 1 15 ++ leBytes 1 3 ++ leBytes 46 0)) fun c => { (c.set (R.AUD_TONE.SEGMENT.DUR_MS 56) 9) with aud := { tg := [(3, { chime := 1, rank := 1, segs := [9] })] } }) (63) (15) (3) (⟨9, leBytes 16 3 ++ leBytes 1 15 ++ leBytes 1 3 ++ leBytes 46 0, true, none⟩) ({ chime := 1, rank := 1, segs := [9] }) := by decide +kernel
theorem wit_AudioRingEntriesAndChimes_8 : (fun (s : State) (k : Nat) (g : Nat) (data : Word) => (1 ≤ k ∧ k < 16 ∧ g < 4) ∧ (data.toNat % 2 ^ 31 = k + 16 * g) ∧ (Reaches s.chip .island 0x19A) ∧ (s.chip.chimeSeg k 0 % 4096 ≠ 0) ∧ (s.chip.aud.tg.find? g = none)) (run [(R.AUD_TONE.SEGMENT.DUR_MS 56, 9)]) (15) (3) (0x8000003F) := by decide +kernel
theorem wit_AudioRingEntriesAndChimes_9 : (fun (s : State) (g : Nat) (x : ToneGen) => (g < 4) ∧ (s.chip.aud.tg.find? g = some x) ∧ (msSamples (x.word % 4096) ≤ x.phase) ∧ (x.seg < 3 ∧ x.segs.getD (x.seg + 1) 0 % 4096 ≠ 0)) (on (run []) fun c => { c with aud := { tg := [(3, { chime := 1, rank := 1, segs := [1, 2], phase := 48 })] } }) (3) ({ chime := 1, rank := 1, segs := [1, 2], phase := 48 }) := by decide +kernel
theorem wit_AudioRingEntriesAndChimes_10 : (fun (s : State) (g : Nat) (r : Nat) (q : Nat) (x : ToneGen) => (g < 4 ∧ r < 64) ∧ (s.chip.aud.tg.find? g = some x ∧ x.ref = some (r, q)) ∧ (msSamples (x.word % 4096) ≤ x.phase) ∧ (x.seg = 3 ∨ x.segs.getD (x.seg + 1) 0 % 4096 = 0)) (on (atEntry3 []) fun c => { c with aud := { tg := [(3, { chime := 1, rank := 0, segs := [1, 0], phase := 48, ref := some (63, 9) })] } }) (3) (63) (9) ({ chime := 1, rank := 0, segs := [1, 0], phase := 48, ref := some (63, 9) }) := by decide +kernel

theorem wit_AudioSamplesGainsAndAmplifiers_1 : (fun (s : State) (_tdm : List Nat) (_mic : List Nat) (_host : List Nat) => (s.chip.pdOn PD.AUD = true) ∧ (∀ k ∈ List.range 4, (s.chip.cap k).bufs = [])) (on (run [(R.SYS_POWER.PD_ON.ON, 0x1FFFFFF), (R.AUD_AMP.AMP_CFG.EN 0, 1)]) fun c => { c with brg := { c.brg with up := true } }) ([32767]) ([32768]) ([]) := by decide +kernel
theorem wit_AudioSamplesGainsAndAmplifiers_2 : (fun (s : State) (_tdm : List Nat) (_mic : List Nat) (_host : List Nat) => (s.chip.pdOn PD.AUD = false)) (run [(R.SYS_POWER.PD_ON.ON, 0)]) ([32767]) ([32768]) ([]) := by decide +kernel
theorem wit_AudioSamplesGainsAndAmplifiers_3 : (fun (s : State) (i : Nat) (b : Nat) (n : Nat) => (i < 40 ∧ b < 16) ∧ (s.chip.aud.gainDue.find? (16 * i + b) = some n) ∧ (n + msSamples (s.chip.get R.AUD.AUD_CFG.ZC_TIMEOUT) ≤ s.chip.aud.n)) (on (run [(xpReg 39 15, 0x2000)]) fun c => { c with aud := { n := 2000, gainDue := [(639, 4)] } }) (39) (15) (4) := by decide +kernel
theorem wit_AudioSamplesGainsAndAmplifiers_4 : (fun (s : State) (b : Nat) (n : Nat) => (b < 16) ∧ ((s.chip.abus b).dDue = some n) ∧ (n + msSamples (s.chip.get R.AUD.AUD_CFG.ZC_TIMEOUT) ≤ s.chip.aud.n)) (on (run []) fun c => { (c.setBus 15 { ducked := true, dDue := some 4 }) with aud := { (c.setBus 15 { ducked := true, dDue := some 4 }).aud with n := 2000 } }) (15) (4) := by decide +kernel
theorem wit_AudioSamplesGainsAndAmplifiers_5 : (fun (s : State) (b : Nat) => (4 ≤ b ∧ b < 16) ∧ ((s.chip.abus b).ducked = true ∧ 0 < (s.chip.abus b).hold ∧ msSamples (s.chip.get R.AUD.AUD_CFG.DUCK_HOLD) ≤ (s.chip.abus b).hold)) (on (run [(R.AUD.AUD_STAT.DUCKED, 4095)]) fun c => c.setBus 15 { ducked := true, hold := 24000 }) (15) := by decide +kernel
theorem wit_AudioSamplesGainsAndAmplifiers_6 : (fun (s : State) (i : Nat) => (i < 40) ∧ (msSamples (s.chip.get R.AUD.SIL_CFG.SIL_MS) ≤ s.chip.aud.quiet.getD i 0)) (on (run []) fun c => { c with aud := { quiet := [(15, 4800)], loud := [3, 15] } }) (15) := by decide +kernel
theorem wit_AudioSamplesGainsAndAmplifiers_7 : (fun (s : State) (a : Nat) => (a < 2) ∧ (s.chip.get (R.AUD_AMP.AMP_CFG.HOLD_ON a) = 0 ∧ s.chip.get (R.AUD_AMP.AMP_CFG.EN a) = 1 ∧ s.chip.get (R.AUD_AMP.AMP_STAT.FAULT a) = 0) ∧ (0 < (s.chip.aamp a).quiet ∧ msSamples (10 * s.chip.get R.AUD.SIL_CFG.AMP_OFF) ≤ (s.chip.aamp a).quiet)) (on (run [(R.AUD_AMP.AMP_CFG.EN 1, 1)]) fun c => c.setAmp 1 { quiet := 96000 }) (1) := by decide +kernel
theorem wit_AudioSamplesGainsAndAmplifiers_8 : (fun (s : State) (src : Src) (b : Nat) (k : Nat) (j : Nat) (data : Word) => (b < 16 ∧ k < 8 ∧ j < 5) ∧ (Reaches s.chip src (0x196 + b / 4)) ∧ (s.chip.mgrOrCtl src = true) ∧ ((match src with | .inst _ => false | _ => true) = true) ∧ (bits data.toNat 23 8 ≠ 255)) (run []) (.ccn 0) (15) (7) (4) (0xFF7FFFFF) := by decide +kernel
theorem wit_AudioSamplesGainsAndAmplifiers_9 : (fun (s : State) (src : Src) (b : Nat) (k : Nat) (j : Nat) (data : Word) => (b < 16 ∧ k < 8 ∧ j < 5) ∧ (Reaches s.chip src (0x196 + b / 4)) ∧ (s.chip.mgrOrCtl src = true) ∧ ((match src with | .inst _ => false | _ => true) = true) ∧ (bits data.toNat 23 8 = 255)) (run []) (.ccn 0) (15) (7) (4) (0xFF800000) := by decide +kernel
theorem wit_AudioSamplesGainsAndAmplifiers_10 : (fun (s : State) (src : Src) (a : Nat) => (a < 2) ∧ (Reaches s.chip src 0x19E) ∧ (s.chip.mgrOrCtl src = true) ∧ ((match src with | .inst _ => false | _ => true) = true) ∧ ((s.chip.aamp a).testing = false)) (run []) (.ccn 0) (1) := by decide +kernel
theorem wit_AudioSamplesGainsAndAmplifiers_11 : (fun (s : State) (a : Nat) (f : Nat) (gnd : Bool) (vin : Bool) (opn : Bool) (lobe : Bool) => (a < 2) ∧ ((s.chip.aamp a).testing = true ∧ (s.chip.aamp a).held = false) ∧ (a = 1 → (s.chip.aamp 0).testing = false) ∧ (f = b2n gnd + 2 * b2n vin + 8 * b2n opn + 16 * b2n (lobe != (s.chip.flag (R.AUD_AMP.AMP_CFG.POL_REF a) != s.chip.flag (R.AUD_AMP.AMP_CFG.INVERT a))))) (on (run []) fun c => c.setAmp 1 { testing := true, out := 7 }) (1) (17) (true) (false) (false) (true) := by decide +kernel
theorem wit_AudioSamplesGainsAndAmplifiers_12 : (fun (_s : State) (a : Nat) (_high : Bool) => (a < 2)) (on (run []) fun c => c.setAmp 1 { out := 7 }) (1) (true) := by decide +kernel

theorem wit_CaskStagesAndCommitsRecords_1 : (fun (s : State) (ev : CaskEv) (rest : List CaskEv) => (s.chip.brg.up = true ∧ s.chip.csk.bridgeLost = 0 ∧ s.chip.csk.bridgeBuf = []) ∧ (s.chip.csk.waiting = ev :: rest) ∧ (ev.source < 32 ∧ (rest.all fun e => e.source == ev.source) = true) ∧ (s.chip.csk.lost = 0 ∧ s.chip.csk.staging.length < 1024)) (on (run [(R.CSK.CSK_STAT.STATE, 3), (R.CSK.NEXT_SEQ.VALUE, 0xFFFFFFFF)]) fun c => { c with csk := { waiting := [⟨0x0101, 0, [], 5, 1, true⟩] } }) (⟨0x0101, 0, [], 5, 1, true⟩) ([]) := by decide +kernel
theorem wit_CaskStagesAndCommitsRecords_2 : (fun (s : State) (ev : CaskEv) (rest : List CaskEv) => (s.chip.brg.up = true ∧ s.chip.csk.bridgeLost = 0 ∧ s.chip.csk.bridgeBuf = []) ∧ (s.chip.csk.waiting = ev :: rest) ∧ (ev.source < 32 ∧ (rest.all fun e => e.source == ev.source) = true) ∧ (1024 ≤ s.chip.csk.staging.length)) (on (run [(R.CSK.CSK_STAT.STATE, 2)]) fun c => { c with csk := { waiting := [⟨0x0101, 0, [], 5, 1, true⟩], staging := List.replicate 1024 ⟨⟨0x0101, 0, [], 5, 1, true⟩, 0, 0, 0, 0, 0, true⟩ } }) (⟨0x0101, 0, [], 5, 1, true⟩) ([]) := by decide +kernel
theorem wit_CaskStagesAndCommitsRecords_3 : (fun (s : State) (ev : CaskEv) (rest : List CaskEv) => (s.chip.brg.up = false) ∧ (s.chip.csk.waiting = ev :: rest) ∧ (ev.source < 32 ∧ (rest.all fun e => e.source == ev.source) = true) ∧ (ev.field = false ∧ s.chip.csk.bridgeBuf.length < 32)) (on (run []) fun c => { c with brg := { c.brg with up := false }, csk := { waiting := [⟨0x0101, 0, [], 5, 1, true⟩] } }) (⟨0x0101, 0, [], 5, 1, true⟩) ([]) := by decide +kernel
theorem wit_CaskStagesAndCommitsRecords_4 : (fun (s : State) (r : CaskRec) (rest : List CaskRec) (w : Nat) (ok1 : Bool) (ok2 : Bool) => (s.chip.cskMayCommit = true) ∧ (s.chip.csk.staging = r :: rest ∧ s.chip.csk.lost = 0) ∧ (w = s.chip.get R.CSK.WPTR.VALUE ∧ w < s.chip.cskSlots ∧ s.chip.get R.CSK.CSK_CFG.SLOTS_LOG2 ≤ 24) ∧ (s.chip.get R.CSK.CSK_CFG.MEDIA = 0 ∨ w % 64 ≠ 0) ∧ ((ok1 || ok2) = true)) ({ on (run [(R.CSK.CSK_STAT.STATE, 2), (R.CSK.CSK_CFG.SLOTS_LOG2, 7), (R.CSK.WPTR.VALUE, 127)]) (fun c => { c with csk := { staging := [⟨⟨0x0101, 0, [], 5, 1, true⟩, 0, 0, 0, 0, 0, true⟩], retained := 128 } }) with mem := { cask := [(8130, 5)] } }) (⟨⟨0x0101, 0, [], 5, 1, true⟩, 0, 0, 0, 0, 0, true⟩) ([]) (127) (false) (true) := by decide +kernel
theorem wit_CaskStagesAndCommitsRecords_5 : (fun (s : State) (r : CaskRec) (rest : List CaskRec) (w : Nat) => (s.chip.cskMayCommit = true) ∧ (s.chip.csk.staging = r :: rest) ∧ (w = s.chip.get R.CSK.WPTR.VALUE ∧ w < s.chip.cskSlots ∧ s.chip.get R.CSK.CSK_CFG.SLOTS_LOG2 ≤ 24) ∧ (s.chip.get R.CSK.CSK_CFG.MEDIA = 0 ∨ w % 64 ≠ 0) ∧ (s.chip.get R.CSK.CSK_CFG.VERIFY = 1)) (on (run [(R.CSK.CSK_STAT.STATE, 2), (R.CSK.CSK_CFG.SLOTS_LOG2, 7), (R.CSK.WPTR.VALUE, 127)]) (fun c => { c with csk := { staging := [⟨⟨0x0101, 0, [], 5, 1, true⟩, 0, 0, 0, 0, 0, true⟩], retained := 128 } })) (⟨⟨0x0101, 0, [], 5, 1, true⟩, 0, 0, 0, 0, 0, true⟩) ([]) (127) := by decide +kernel
theorem wit_CaskStagesAndCommitsRecords_6 : (fun (s : State) => (s.chip.get R.CSK.CSK_STAT.STATE = CSK.OFF)) (run [(R.CSK.NEXT_SEQ.VALUE, 7)]) := by decide +kernel
theorem wit_CaskStagesAndCommitsRecords_7 : (fun (s : State) (n : Nat) (_gaps : Bool) => (n ≤ 24) ∧ (s.chip.get R.CSK.CSK_STAT.STATE = CSK.LOCATING)) (run [(R.CSK.CSK_STAT.STATE, 1)]) (24) (true) := by decide +kernel
theorem wit_CaskStagesAndCommitsRecords_8 : (fun (s : State) (n : Nat) (hi : Nat) (lo : Nat) (good : List Nat) => (n ≤ 24) ∧ (s.chip.get R.CSK.CSK_STAT.STATE = CSK.LOCATING) ∧ (good = (usedSlots s.mem.cask).filter fun i => decide (i < 2 ^ n) && slotGood s.mem.cask i) ∧ (bestSlot s.mem.cask (fun a b => decide (b < a)) good = some hi) ∧ (bestSlot s.mem.cask (fun a b => decide (a < b)) good = some lo)) ({ run [(R.CSK.CSK_STAT.STATE, 1)] with mem := { cask := Memory.writeBytes [] (100 * 64) (CaskRec.bytes ⟨⟨0x0101, 0, [], 5, 1, true⟩, 0, 0, 0, 7, 3, true⟩) } }) (7) (100) (100) ([100]) := by decide +kernel

theorem wit_CaskFreezesReadsAndKeepsTime_1 : (fun (s : State) (src : Src) (data : Word) => (Reaches s.chip src 0x1B0) ∧ (s.chip.mgrOrCtl src = true) ∧ ((match src with | .inst _ => false | _ => true) = true) ∧ (data.toNat < 2)) (run [(R.CSK.CSK_STAT.STATE, 3)]) (.ccn 0) (1) := by decide +kernel
theorem wit_CaskFreezesReadsAndKeepsTime_2 : (fun (s : State) (src : Src) (data : Word) => (Reaches s.chip src 0x1B0) ∧ (isSecure src = true) ∧ (s.chip.mode = Mode.SERVICE) ∧ (data.toNat < 4)) (regs [(R.SYS_MODE.MODE_STAT.MODE, 5), (R.CSK.CSK_STAT.STATE, 3), (R.CSK.WPTR.VALUE, 9)]) (.ccs 0) (3) := by decide +kernel
theorem wit_CaskFreezesReadsAndKeepsTime_3 : (fun (s : State) => (s.chip.get R.CSK.CSK_CTRL.FREEZE = 1) ∧ (s.chip.csk.frozenAt + s.chip.get R.CSK.FREEZE_MAX.MS * 1000000000 ≤ s.chip.ps)) (on (run [(R.CSK.CSK_STAT.STATE, 4), (R.CSK.CSK_CTRL.FREEZE, 1)]) fun c => { c with ps := 2000000000000 }) := by decide +kernel
theorem wit_CaskFreezesReadsAndKeepsTime_4 : (fun (s : State) (src : Src) (data : Word) (i : Nat) => (Reaches s.chip src 0x1B1) ∧ (s.chip.mgrOrCtl src = true) ∧ ((match src with | .inst _ => false | _ => true) = true) ∧ (data.toNat % 2 ^ 31 = i ∧ i < 2 ^ 24 ∧ i < s.chip.cskSlots) ∧ (s.chip.get R.CSK.CSK_STAT.STATE = CSK.FROZEN) ∧ (s.chip.csk.bad.contains i = false)) ({ run [(R.CSK.CSK_STAT.STATE, 4), (R.CSK.CSK_CFG.SLOTS_LOG2, 7)] with mem := { cask := [(8130, 5), (8191, 255)] } }) (.ccn 0) (0x8000007F) (127) := by decide +kernel
theorem wit_CaskFreezesReadsAndKeepsTime_5 : (fun (s : State) (src : Src) (data : Word) (i : Nat) (r : CaskRec) => (Reaches s.chip src 0x1B1) ∧ (s.chip.mgrOrCtl src = true) ∧ ((match src with | .inst _ => false | _ => true) = true) ∧ (data.toNat % 2 ^ 31 = i + 2 ^ 24 ∧ i < 2 ^ 24) ∧ (s.chip.get R.CSK.CSK_STAT.STATE = CSK.FROZEN) ∧ (s.chip.csk.staging[i]? = some r)) (on (run [(R.CSK.CSK_STAT.STATE, 4)]) (fun c => { c with csk := { staging := [⟨⟨0x0101, 0, [], 5, 1, true⟩, 0, 0, 0, 7, 3, true⟩] } })) (.ccn 0) (0x01000000) (0) (⟨⟨0x0101, 0, [], 5, 1, true⟩, 0, 0, 0, 7, 3, true⟩) := by decide +kernel
theorem wit_CaskFreezesReadsAndKeepsTime_6 : (fun (s : State) (src : Src) (data : Word) (ev : Nat) (u : Nat) => (Reaches s.chip src 0x1B2) ∧ (s.chip.mgrOrCtl src = true) ∧ ((match src with | .inst _ => false | _ => true) = true) ∧ (data.toNat % 2 ^ 31 = ev + 65536 * u ∧ 0x8000 ≤ ev ∧ ev < 65536 ∧ u < 256) ∧ (s.chip.logBusy = false)) (run [(R.CSK_LOG.LOG_PARAM.DATA 6, 7)]) (.ccs 0) (0x80FFFFFF) (0xFFFF) (255) := by decide +kernel
theorem wit_CaskFreezesReadsAndKeepsTime_7 : (fun (s : State) (src : Src) => (Reaches s.chip src 0x1B3) ∧ (isSecure src = true)) (on (run []) fun c => { c with ps := 99, csk := { heldFrac := 1023, heldLo := 5, heldHi := 63 } }) (.ccs 0) := by decide +kernel
theorem wit_CaskFreezesReadsAndKeepsTime_8 : (fun (s : State) (_src : Src) => (s.chip.brg.up = true)) (on (run []) fun c => { c with ps := 2500000000000, brg := { c.brg with up := true } }) (.ccn 0) := by decide +kernel
theorem wit_CaskFreezesReadsAndKeepsTime_9 : (fun (s : State) (_src : Src) => (s.chip.brg.up = false)) (on (run []) fun c => { c with brg := { c.brg with up := false } }) (.ccn 0) := by decide +kernel
theorem wit_CaskFreezesReadsAndKeepsTime_10 : (fun (s : State) (_src : Src) (i : Nat) => (i < 10) ∧ (s.chip.brg.up = true)) (run [(R.PWR_THERM.TEMP.TEMP 9, 5), (R.PWR_THERM.TEMP.PEAK 9, 77)]) (.ccn 0) (9) := by decide +kernel

theorem wit_LinkPortsTrainAndFail_1 : (fun (s : State) (src : Src) (p : Nat) (data : Word) => (p < 2) ∧ (Reaches s.chip src (0x151 + p)) ∧ (s.chip.mgrOrCtl src = true) ∧ ((match src with | .inst _ => false | _ => true) = true) ∧ (data.toNat < 4 ∧ data.toNat % 2 = 1) ∧ (s.chip.get (R.LNK_PORT.PORT_CFG.EN p) = 0)) (on (run []) fun c => { c with lnk := { hello := [1, 0], reach := [(1, 8)] } }) (.ccn 0) (1) (1) := by decide +kernel
theorem wit_LinkPortsTrainAndFail_2 : (fun (s : State) (p : Nat) (dev : Nat) (_reach : Nat) (_hop : Nat) (_d0 : Nat) (_base : Nat) (_size : Nat) => (p < 2 ∧ dev < 4) ∧ (s.chip.pdOn PD.LINK = true) ∧ (s.chip.lnkState p = LnkSt.TRAINING) ∧ (dev ≠ s.chip.devId) ∧ (s.chip.get R.LNK.TOPO.REACH0 = if s.chip.lnkState 0 = LnkSt.UP then s.chip.lnk.reach.getD 0 0 else 0) ∧ (s.chip.get R.LNK.TOPO.REACH1 = if s.chip.lnkState 1 = LnkSt.UP then s.chip.lnk.reach.getD 1 0 else 0)) (run [(R.SYS_POWER.PD_ON.ON, 0x1FFFFFF), (R.LNK_PORT.PORT_STAT.STATE 1, 1)]) (1) (3) (4) (9) (11) (1) (2) := by decide +kernel
theorem wit_LinkPortsTrainAndFail_3 : (fun (s : State) (p : Nat) (dev : Nat) (_reach : Nat) (_hop : Nat) (_d0 : Nat) (_base : Nat) (_size : Nat) (_direct : Bool) => (p < 2 ∧ dev < 4) ∧ (s.chip.pdOn PD.LINK = true) ∧ (s.chip.lnkState p = LnkSt.TRAINING) ∧ (dev = s.chip.devId)) (run [(R.SYS_POWER.PD_ON.ON, 0x1FFFFFF), (R.LNK_PORT.PORT_STAT.STATE 1, 1)]) (1) (0) (4) (9) (11) (1) (2) (false) := by decide +kernel
theorem wit_LinkPortsTrainAndFail_4 : (fun (s : State) (p : Nat) (q : Nat) (lanes : Nat) (_rate : Nat) => (p < 2 ∧ q = 1 - p) ∧ (2 ≤ lanes ∧ lanes ≤ 4) ∧ (s.chip.lnkState p = LnkSt.TRAINING) ∧ (s.chip.lnk.hello.contains p = true) ∧ (s.chip.get (if p = 0 then R.LNK.TOPO.REACH0 else R.LNK.TOPO.REACH1) = 0) ∧ (s.chip.get (if p = 0 then R.LNK.TOPO.REACH1 else R.LNK.TOPO.REACH0) = (if s.chip.lnkState q = LnkSt.UP then s.chip.lnk.reach.getD q 0 else 0))) (on (run [(R.LNK_PORT.PORT_STAT.STATE 1, 1)]) fun c => { c with lnk := { hello := [1], reach := [(1, 8)] } }) (1) (0) (2) (1) := by decide +kernel
theorem wit_LinkPortsTrainAndFail_5 : (fun (s : State) (p : Nat) (lanes : Nat) (_rate : Nat) => (p < 2) ∧ (lanes < 2) ∧ (s.chip.lnkState p = LnkSt.TRAINING)) (on (run [(R.LNK_PORT.PORT_STAT.STATE 1, 1)]) fun c => { c with lnk := { hello := [1], reach := [(1, 8)] } }) (1) (1) (1) := by decide +kernel
theorem wit_LinkPortsTrainAndFail_6 : (fun (s : State) (p : Nat) => (p < 2) ∧ (s.chip.pdOn PD.LINK = true) ∧ (s.chip.lnkState p = LnkSt.DOWN) ∧ (s.chip.get (R.LNK_PORT.PORT_CFG.EN p) = 1) ∧ (s.chip.lnk.downAt.getD p 0 + 100000000000 ≤ s.chip.ps)) (on (run [(R.SYS_POWER.PD_ON.ON, 0x1FFFFFF), (R.LNK_PORT.PORT_CFG.EN 1, 1)]) fun c => { c with ps := 200000000000, lnk := { downAt := [(1, 100000000000)] } }) (1) := by decide +kernel
theorem wit_LinkPortsTrainAndFail_7 : (fun (s : State) (p : Nat) => (p < 2) ∧ (s.chip.lnkState p = LnkSt.UP)) (run [(R.LNK_PORT.PORT_STAT.STATE 1, 2)]) (1) := by decide +kernel
theorem wit_LinkPortsTrainAndFail_8 : (fun (s : State) (p : Nat) (_again : Bool) => (p < 2) ∧ (s.chip.lnkState p = LnkSt.UP)) (on (run [(R.LNK_PORT.PORT_STAT.STATE 1, 2)]) fun c => { c with lnk := { replays := [(1, 4)] } }) (1) (true) := by decide +kernel
theorem wit_LinkPortsTrainAndFail_9 : (fun (s : State) (p : Nat) (_events : Nat) (silent : Bool) => (p < 2) ∧ (s.chip.lnkState p = LnkSt.UP) ∧ (silent = true ∨ 16 ≤ s.chip.lnk.replays.getD p 0)) (on (run [(R.LNK_PORT.PORT_STAT.STATE 1, 2), (R.LNK.TOPO.REACH1, 8)]) fun c => { c with lnk := { hello := [1], reach := [(1, 8)], replays := [(1, 16)], reqs := [{ tag := 3, dev := 3, port := 1, write := false, core := 0, addr := 0x10000000, pc := 0, priv := 3, delegated := false, since := 0 }] } }) (1) (2) (false) := by decide +kernel
theorem wit_LinkPortsTrainAndFail_10 : (fun (s : State) => (s.chip.pdOn PD.LINK = true)) (run [(R.SYS_POWER.PD_ON.ON, 0x1FFFFFF)]) := by decide +kernel

theorem wit_LinkServesRemoteRequests_1 : (fun (s : State) (k : Nat) (a : Nat) (n : Nat) (d : Nat) (o : Nat) (kind : Nat) (addr : Nat) (p : Nat) (_pc : Nat) (priv : Nat) (_data : List Byte) (_del : Bool) => (k < 4 ∧ priv < 4 ∧ 1 ≤ n ∧ n ≤ 64) ∧ (s.chip.ccRuns k = true) ∧ (windowOf a = some (d, o)) ∧ (s.chip.windowTo d o n = some (kind, addr)) ∧ (s.chip.linkPath d = some p)) (run [(R.CTL.CC_STAT.RUNNING, 15), (R.LNK_WIN.WIN_CFG.EN 3, 1), (R.LNK_WIN.WIN_CFG.KIND 3, 1), (R.LNK_WIN.WIN_CFG.BASE 3, 2), (R.LNK.TOPO.REACH1, 8)]) (3) (0x4FFFFFC0) (64) (3) (0x0FFFFFC0) (0x0A) (0x2FFFFFC0) (1) (0) (3) ([]) (false) := by decide +kernel
theorem wit_LinkServesRemoteRequests_2 : (fun (s : State) (k : Nat) (a : Nat) (n : Nat) (d : Nat) (o : Nat) (kind : Nat) (addr : Nat) (p : Nat) (_pc : Nat) (priv : Nat) (data : List Byte) (_del : Bool) => (k < 4 ∧ priv < 4 ∧ 1 ≤ n ∧ n ≤ 64 ∧ data.length = n) ∧ (s.chip.ccRuns k = true) ∧ (windowOf a = some (d, o)) ∧ (s.chip.windowTo d o n = some (kind, addr)) ∧ (s.chip.linkPath d = some p)) (run [(R.CTL.CC_STAT.RUNNING, 15), (R.LNK_WIN.WIN_CFG.EN 3, 1), (R.LNK.TOPO.REACH1, 8)]) (3) (0x40000040) (4) (3) (0x40) (9) (0x40) (1) (0) (3) (leBytes 4 5) (false) := by decide +kernel
theorem wit_LinkServesRemoteRequests_3 : (fun (s : State) (k : Nat) (a : Nat) (n : Nat) (d : Nat) (o : Nat) (_pc : Nat) (priv : Nat) (_data : List Byte) (_w : Bool) (_del : Bool) => (k < 4 ∧ priv < 4 ∧ 1 ≤ n ∧ n ≤ 64) ∧ (s.chip.ccRuns k = true) ∧ (windowOf a = some (d, o)) ∧ (s.chip.windowTo d o n = none)) (run [(R.CTL.CC_STAT.RUNNING, 15)]) (3) (0x40000040) (4) (3) (0x40) (0) (3) ([]) (false) (false) := by decide +kernel
theorem wit_LinkServesRemoteRequests_4 : (fun (s : State) (dev : Nat) (tag : Nat) (_data : List Byte) (q : LinkReq) => (dev < 4) ∧ ((s.chip.lnk.reqs.find? fun q => q.tag == tag && q.dev == dev) = some q) ∧ (q.write = false)) (on (run []) fun c => { c with lnk := { reqs := [{ tag := 3, dev := 3, port := 1, write := false, core := 0, addr := 0x10000000, pc := 0, priv := 3, delegated := false, since := 0 }] } }) (3) (3) (leBytes 4 77) ({ tag := 3, dev := 3, port := 1, write := false, core := 0, addr := 0x10000000, pc := 0, priv := 3, delegated := false, since := 0 }) := by decide +kernel
theorem wit_LinkServesRemoteRequests_5 : (fun (s : State) (dev : Nat) (tag : Nat) (_data : List Byte) (q : LinkReq) => (dev < 4) ∧ ((s.chip.lnk.reqs.find? fun q => q.tag == tag && q.dev == dev) = some q)) (on (run [(R.CTL.CC_STAT.RUNNING, 15)]) fun c => { c with lnk := { reqs := [{ tag := 3, dev := 3, port := 1, write := false, core := 0, addr := 0x10000000, pc := 0, priv := 3, delegated := false, since := 0 }] } }) (3) (3) ([]) ({ tag := 3, dev := 3, port := 1, write := false, core := 0, addr := 0x10000000, pc := 0, priv := 3, delegated := false, since := 0 }) := by decide +kernel
theorem wit_LinkServesRemoteRequests_6 : (fun (s : State) (tag : Nat) (q : LinkReq) => ((s.chip.lnk.reqs.find? fun q => q.tag == tag && !q.write) = some q) ∧ (q.since + 100000000 ≤ s.chip.ps)) (on (run [(R.CTL.CC_STAT.RUNNING, 15)]) fun c => { c with ps := 100000000, lnk := { reqs := [{ tag := 3, dev := 3, port := 1, write := false, core := 0, addr := 0x10000000, pc := 0, priv := 3, delegated := false, since := 0 }] } }) (3) ({ tag := 3, dev := 3, port := 1, write := false, core := 0, addr := 0x10000000, pc := 0, priv := 3, delegated := false, since := 0 }) := by decide +kernel
theorem wit_LinkServesRemoteRequests_7 : (fun (s : State) (dev : Nat) (_tag : Nat) (a : Nat) (n : Nat) => (dev < 4 ∧ n ≤ 256) ∧ (s.chip.fabOn = true) ∧ (s.chip.daccOk dev a n = true) ∧ (Readable s a n) ∧ ((s.chip.linkPath dev).isSome = true)) ({ daccState with mem := { dram := [(8195, 5)] } }) (3) (9) (8192) (256) := by decide +kernel
theorem wit_LinkServesRemoteRequests_8 : (fun (s : State) (dev : Nat) (_tag : Nat) (a : Nat) (n : Nat) => (dev < 4 ∧ n ≤ 256) ∧ (s.chip.fabOn = true) ∧ (s.chip.daccOk dev a n = false) ∧ ((s.chip.linkPath dev).isSome = true)) (daccState) (3) (9) (2097152) (1) := by decide +kernel
theorem wit_LinkServesRemoteRequests_9 : (fun (s : State) (dev : Nat) (_tag : Nat) (a : Nat) (n : Nat) => (dev < 4 ∧ n ≤ 2048) ∧ (s.chip.fabOn = true) ∧ (s.chip.daccOk dev a n = true) ∧ (Readable s a n) ∧ ((s.chip.linkPath dev).isSome = true)) ({ daccState with mem := { dram := [(8195, 5)] } }) (3) (9) (8192) (2048) := by decide +kernel
theorem wit_LinkServesRemoteRequests_10 : (fun (s : State) (dev : Nat) (_tag : Nat) (a : Nat) (data : List Byte) => (dev < 4 ∧ data.length ≤ 256) ∧ (s.chip.fabOn = true) ∧ (s.chip.daccOk dev a data.length = true) ∧ ((s.chip.linkPath dev).isSome = true)) ({ daccState with mem := { dram := [(8195, 5), (9000, 1)] } }) (3) (9) (8192) (leBytes 8 0x0102030405060708) := by decide +kernel
theorem wit_LinkServesRemoteRequests_11 : (fun (s : State) (dev : Nat) (_tag : Nat) (a : Nat) (data : List Byte) => (dev < 4 ∧ data.length ≤ 256) ∧ (s.chip.fabOn = true) ∧ (s.chip.daccOk dev a data.length = false) ∧ ((s.chip.linkPath dev).isSome = true)) (daccState) (2) (9) (8192) ([1]) := by decide +kernel
theorem wit_LinkServesRemoteRequests_12 : (fun (s : State) (tag : Nat) (data : List Byte) (q : LayerReq) => ((s.chip.lnk.layers.find? fun q => q.tag == tag) = some q) ∧ (data.length = q.len)) (on (run []) fun c => { c with lnk := { layers := [⟨3, 2, 1, 0, 47, 5, 8192, 4⟩] } }) (3) (leBytes 4 5) (⟨3, 2, 1, 0, 47, 5, 8192, 4⟩) := by decide +kernel
theorem wit_LinkServesRemoteRequests_13 : (fun (s : State) (dev : Nat) (_tag : Nat) (page : Nat) (off : Nat) (data : List Byte) => (dev < 4 ∧ placeOk (.link dev) page off = true ∧ data.length ≤ 64) ∧ (s.chip.fabOn = true ∧ s.chip.pdOn PD.LINK = true) ∧ ((s.chip.get R.LNK.ACCEPT.REG_FROM).testBit dev = true) ∧ (((s.chip.busWrite s.mem (.link dev) page off data).1.linkPath dev).isSome = true)) (regAcc) (3) (9) (0x003) (0x018) (leBytes 4 5) := by decide +kernel
theorem wit_LinkServesRemoteRequests_14 : (fun (s : State) (dev : Nat) (_tag : Nat) (page : Nat) (off : Nat) (data : List Byte) => (dev < 4 ∧ placeOk (.link dev) page off = true ∧ data.length ≤ 64) ∧ (s.chip.fabOn = true ∧ s.chip.pdOn PD.LINK = true) ∧ ((s.chip.get R.LNK.ACCEPT.REG_FROM).testBit dev = false) ∧ ((s.chip.linkPath dev).isSome = true)) (daccState) (3) (9) (0x003) (0x018) (leBytes 4 5) := by decide +kernel
theorem wit_LinkServesRemoteRequests_15 : (fun (s : State) (dev : Nat) (_tag : Nat) (page : Nat) (off : Nat) (size : Nat) => (dev < 4 ∧ placeOk (.link dev) page off = true ∧ size ≤ 64) ∧ (s.chip.fabOn = true ∧ s.chip.pdOn PD.LINK = true) ∧ ((s.chip.get R.LNK.ACCEPT.REG_FROM).testBit dev = true) ∧ (((s.chip.busRead s.mem (.link dev) page off size).linkPath dev).isSome = true)) (regAcc) (3) (9) (0x003) (0x000) (4) := by decide +kernel
theorem wit_LinkServesRemoteRequests_16 : (fun (s : State) (dev : Nat) (r : Nat) (e : List Byte) => (dev < 4 ∧ e.length = 32) ∧ (s.chip.pdOn PD.LINK = true) ∧ (r = s.chip.get (R.LNK_FWD.RX_RING.RING dev) ∧ s.chip.get (R.LNK_FWD.RX_RING.EN dev) = 1) ∧ (s.chip.ringOwner r = 2 ∨ s.chip.ringOwner r = 3) ∧ (s.chip.ringClass r = 5 ∧ s.chip.ringLive r = true)) (run [(R.SYS_POWER.PD_ON.ON, 0x1FFFFFF), (R.LNK_FWD.RX_RING.RING 3, 63), (R.LNK_FWD.RX_RING.EN 3, 1), (R.RNG.RING_BIND.OWNER 31 1, 2), (R.RNG.RING_BIND.CLASS 31 1, 5), (R.RNG.RING_CTRL.ENABLE 31 1, 1), (R.RNG.RING_STAT.STATE 31 1, 3)]) (3) (63) (leBytes 32 0x22) := by decide +kernel
theorem wit_LinkServesRemoteRequests_17 : (fun (s : State) (dev : Nat) (_e : List Byte) => (dev < 4) ∧ (s.chip.pdOn PD.LINK = true) ∧ (s.chip.get (R.LNK_FWD.RX_RING.EN dev) = 0)) (run [(R.SYS_POWER.PD_ON.ON, 0x1FFFFFF)]) (3) (leBytes 32 0x22) := by decide +kernel
theorem wit_LinkServesRemoteRequests_18 : (fun (s : State) (dev : Nat) (tf : Nat) (z : Nat) (eff : Nat) (prio : Nat) => (dev < 4 ∧ tf < 4 ∧ z < 64 ∧ eff < 256 ∧ prio < 4) ∧ (s.chip.pdOn PD.LINK = true) ∧ ((s.chip.get R.LNK_FWD.FOCUS_EN.EN).testBit (4 * dev + tf) = false)) (run [(R.SYS_POWER.PD_ON.ON, 0x1FFFFFF)]) (3) (3) (63) (1) (3) := by decide +kernel
theorem wit_LinkServesRemoteRequests_19 : (fun (s : State) (dev : Nat) (tf : Nat) (z : Nat) (eff : Nat) (prio : Nat) (k : Nat) (n : Nat) (g : HapTrig) (b : List Byte) => (dev < 4 ∧ tf < 4 ∧ z < 64 ∧ eff < 256 ∧ prio < 4 ∧ k < 8) ∧ (s.chip.pdOn PD.LINK = true) ∧ ((s.chip.get R.LNK_FWD.FOCUS_EN.EN).testBit (4 * dev + tf) = true) ∧ (n = s.chip.get R.LNK_FWD.FOCUS_MAP.PAGES / 4 ^ (4 * dev + tf) % 4) ∧ (((List.range 8).all fun j => (if j % 2 = 0 then s.chip.get (R.HAP_FOCUS.FOCUS.GAIN_A n (4 * z + j / 2)) else s.chip.get (R.HAP_FOCUS.FOCUS.GAIN_B n (4 * z + j / 2))) == if j = k then g.gain else 0) = true) ∧ ((if k % 2 = 0 then s.chip.get (R.HAP_FOCUS.FOCUS.DELAY_A n (4 * z + k / 2)) else s.chip.get (R.HAP_FOCUS.FOCUS.DELAY_B n (4 * z + k / 2))) = 0) ∧ (g = { effect := eff, prio := prio, gain := g.gain } ∧ g.gain ≠ 0) ∧ (s.chip.get (R.HAP_CH.CH_CFG.EN k) = 1 ∧ s.chip.get R.HAP.HAP_STAT.HOLD = 0 ∧ s.chip.hapFaulted k = false) ∧ ((s.chip.hch k).play = none ∧ (s.chip.hch k).testing = false) ∧ ((s.chip.hap.tests.all fun y => y.1 != k) = true) ∧ (s.chip.hapImage eff = some b ∧ s.chip.hapBudget k g b = true)) (on (hapReady []) fun c => (((c.set R.SYS_POWER.PD_ON.ON 0x1FFFFFF).set R.LNK_FWD.FOCUS_EN.EN 0x8000).set R.LNK_FWD.FOCUS_MAP.PAGES 0xC0000000).set (R.HAP_FOCUS.FOCUS.GAIN_B 3 255) 200) (3) (3) (63) (135) (3) (7) (3) ({ effect := 135, prio := 3, gain := 200 }) (anImage) := by decide +kernel

theorem wit_ProofTestsRunInService_1 : (fun (s : State) (src : Src) => (s.chip.islandRuns = true) ∧ (Reaches s.chip src 0x1C0) ∧ (s.chip.mgrOrCtl src = true) ∧ ((match src with | .inst _ => false | _ => true) = true) ∧ (s.chip.mode = Mode.SERVICE) ∧ (s.chip.ptb.proof = none ∧ s.chip.ptbShow.get R.PTB.PTB_STAT.ACTIVE = 0) ∧ (s.chip.proofReady 1 0 = true)) (regs [(R.SYS_MODE.MODE_STAT.MODE, 5), (R.SAF.ISL_STAT.STATE, 1)]) (.ccn 0) := by decide +kernel
theorem wit_ProofTestsRunInService_2 : (fun (s : State) (src : Src) => (s.chip.get R.SAF.WDOG_CFG.ARM = 1) ∧ (s.chip.saf.wdKey = 0x5A ∨ s.chip.saf.wdKey = 0xA5) ∧ (Reaches s.chip src 0x1C0) ∧ (s.chip.mgrOrCtl src = true) ∧ ((match src with | .inst _ => false | _ => true) = true) ∧ (s.chip.mode = Mode.SERVICE) ∧ (s.chip.ptb.proof = none ∧ s.chip.ptbShow.get R.PTB.PTB_STAT.ACTIVE = 0) ∧ (s.chip.proofReady 2 0 = true)) (regs [(R.SYS_MODE.MODE_STAT.MODE, 5), (R.SAF.WDOG_CFG.ARM, 1)]) (.ccn 0) := by decide +kernel
theorem wit_ProofTestsRunInService_3 : (fun (s : State) (src : Src) (arg : Nat) => (arg < 128) ∧ (Reaches s.chip src 0x1C0) ∧ (s.chip.mgrOrCtl src = true) ∧ ((match src with | .inst _ => false | _ => true) = true) ∧ (s.chip.mode = Mode.SERVICE) ∧ (s.chip.ptb.proof = none ∧ s.chip.ptbShow.get R.PTB.PTB_STAT.ACTIVE = 0) ∧ (s.chip.proofReady 3 arg = true)) (regs [(R.SYS_MODE.MODE_STAT.MODE, 5), (R.SAF_P.RG_CFG.EN 7 15, 1), (R.SAF_P.RG_STAT.VALID 7 15, 1)]) (.ccn 0) (127) := by decide +kernel
theorem wit_ProofTestsRunInService_4 : (fun (s : State) (src : Src) => (Reaches s.chip src 0x1C0) ∧ (s.chip.mgrOrCtl src = true) ∧ ((match src with | .inst _ => false | _ => true) = true) ∧ (s.chip.mode = Mode.SERVICE) ∧ (s.chip.ptb.proof = none ∧ s.chip.ptbShow.get R.PTB.PTB_STAT.ACTIVE = 0) ∧ (s.chip.proofReady 4 0 = true)) (regs [(R.SYS_MODE.MODE_STAT.MODE, 5), (R.SAF.SAFE_OK.EN_A, 1), (R.SAF.SAFE_OK.EN_B, 1)]) (.ccn 0) := by decide +kernel
theorem wit_ProofTestsRunInService_5 : (fun (s : State) (src : Src) => (Reaches s.chip src 0x1C0) ∧ (s.chip.mgrOrCtl src = true) ∧ ((match src with | .inst _ => false | _ => true) = true) ∧ (s.chip.mode = Mode.SERVICE) ∧ (s.chip.ptb.proof = none ∧ s.chip.ptbShow.get R.PTB.PTB_STAT.ACTIVE = 0) ∧ (s.chip.proofReady 5 0 = true)) (regs [(R.SYS_MODE.MODE_STAT.MODE, 5)]) (.ccn 0) := by decide +kernel
theorem wit_ProofTestsRunInService_6 : (fun (s : State) (src : Src) => (Reaches s.chip src 0x1C0) ∧ (s.chip.mgrOrCtl src = true) ∧ ((match src with | .inst _ => false | _ => true) = true) ∧ (s.chip.mode = Mode.SERVICE) ∧ (s.chip.ptb.proof = none ∧ s.chip.ptbShow.get R.PTB.PTB_STAT.ACTIVE = 0) ∧ (s.chip.proofReady 6 0 = true)) (regs [(R.SYS_MODE.MODE_STAT.MODE, 5)]) (.ccn 0) := by decide +kernel
theorem wit_ProofTestsRunInService_7 : (fun (s : State) (src : Src) (k : Nat) => (k < 8) ∧ (Reaches s.chip src 0x1C0) ∧ (s.chip.mgrOrCtl src = true) ∧ ((match src with | .inst _ => false | _ => true) = true) ∧ (s.chip.mode = Mode.SERVICE) ∧ (s.chip.ptb.proof = none ∧ s.chip.ptbShow.get R.PTB.PTB_STAT.ACTIVE = 0) ∧ (s.chip.proofReady 7 k = true)) (regs [(R.SYS_MODE.MODE_STAT.MODE, 5), (R.DRC_ECC.REG_BASE.EN 7, 1), (R.DRC_ECC.REG_BASE.ADDR 7, 5)]) (.ccn 0) (7) := by decide +kernel
theorem wit_ProofTestsRunInService_8 : (fun (s : State) (src : Src) => (Reaches s.chip src 0x1C0) ∧ (s.chip.mgrOrCtl src = true) ∧ ((match src with | .inst _ => false | _ => true) = true) ∧ (s.chip.mode = Mode.SERVICE) ∧ (s.chip.ptb.proof = none ∧ s.chip.ptbShow.get R.PTB.PTB_STAT.ACTIVE = 0) ∧ (s.chip.proofReady 8 0 = true)) (regs [(R.SYS_MODE.MODE_STAT.MODE, 5), (R.SCN_OUT.OUT_CFG.ENABLE 7, 1)]) (.ccn 0) := by decide +kernel
theorem wit_ProofTestsRunInService_9 : (fun (s : State) (src : Src) (mask : Nat) => (mask < 16) ∧ (Reaches s.chip src 0x1C0) ∧ (s.chip.mgrOrCtl src = true) ∧ ((match src with | .inst _ => false | _ => true) = true) ∧ (s.chip.mode = Mode.SERVICE) ∧ (s.chip.ptb.proof = none ∧ s.chip.ptbShow.get R.PTB.PTB_STAT.ACTIVE = 0) ∧ (s.chip.proofReady 9 mask = true)) (regs [(R.SYS_MODE.MODE_STAT.MODE, 5), (H.ENABLE 0x1AE, 1)]) (.ccn 0) (8) := by decide +kernel
theorem wit_ProofTestsRunInService_10 : (fun (s : State) (src : Src) => (Reaches s.chip src 0x1C0) ∧ (s.chip.mgrOrCtl src = true) ∧ ((match src with | .inst _ => false | _ => true) = true) ∧ (s.chip.mode = Mode.SERVICE) ∧ (s.chip.ptb.proof = none ∧ s.chip.ptbShow.get R.PTB.PTB_STAT.ACTIVE = 0) ∧ (s.chip.proofReady 10 0 = true)) (regs [(R.SYS_MODE.MODE_STAT.MODE, 5), (R.HAP_CH.CH_CFG.EN 7, 1), (R.AUD_AMP.AMP_CFG.EN 1, 1)]) (.ccn 0) := by decide +kernel
theorem wit_ProofTestsRunInService_11 : (fun (s : State) (src : Src) => (Reaches s.chip src 0x1C0) ∧ (s.chip.mgrOrCtl src = true) ∧ ((match src with | .inst _ => false | _ => true) = true) ∧ (s.chip.mode = Mode.SERVICE) ∧ (s.chip.ptb.proof = none ∧ s.chip.ptbShow.get R.PTB.PTB_STAT.ACTIVE = 0) ∧ (s.chip.proofReady 11 0 = true)) (regs [(R.SYS_MODE.MODE_STAT.MODE, 5)]) (.ccn 0) := by decide +kernel
theorem wit_ProofTestsRunInService_12 : (fun (s : State) (src : Src) => (Reaches s.chip src 0x1C0) ∧ (s.chip.mgrOrCtl src = true) ∧ ((match src with | .inst _ => false | _ => true) = true) ∧ (s.chip.mode ≠ Mode.SERVICE)) (run []) (.ccn 0) := by decide +kernel
theorem wit_ProofTestsRunInService_13 : (fun (s : State) (m : Nat) (p : Proof) => (s.chip.ptb.proof = some p) ∧ (s.chip.proofState p m = some none)) (on (regs [(R.SYS_MODE.MODE_STAT.MODE, 5)]) fun c => { c with ptb := { proof := some { test := 11, arg := 0, start := 0 } }, ps := 2000000000 }) (0) ({ test := 11, arg := 0, start := 0 }) := by decide +kernel
theorem wit_ProofTestsRunInService_14 : (fun (s : State) (m : Nat) (d : Nat) (p : Proof) => (s.chip.ptb.proof = some p) ∧ (s.chip.proofState p m = some (some d) ∨ (s.chip.proofState p m = none ∧ s.chip.proofLate p = true ∧ d = s.chip.proofLateDetail p))) (on (regs [(R.SYS_MODE.MODE_STAT.MODE, 5)]) fun c => { c with ptb := { proof := some { test := 4, arg := 0, start := 0 } }, ps := 2000000000 }) (1) (0) ({ test := 4, arg := 0, start := 0 }) := by decide +kernel
theorem wit_ProofTestsRunInService_15 : (fun (s : State) => (s.chip.mode = Mode.SERVICE) ∧ (s.chip.pow.islandHeld = false)) (on (regs [(R.SYS_MODE.MODE_STAT.MODE, 5), (R.SYS_BOOT.STRAPS.SERVICE_EN, 1), (R.CTL.CC_STAT.HALTED, 5), (R.PTB_PERTURB.FAB_STALL.PORTS, 3)]) fun c => { c with ptb := { proof := some { test := 4, arg := 0, start := 0 } } }) := by decide +kernel
theorem wit_ProofTestsRunInService_16 : (fun (s : State) => (s.chip.mode ≠ Mode.SERVICE) ∧ (s.chip.get R.SYS_MODE.MODE_STAT.BUSY = 0 ∨ s.chip.get R.SYS_MODE.MODE_STAT.TARGET ≠ Mode.SERVICE)) (run [(R.SYS_BOOT.STRAPS.SERVICE_EN, 1)]) := by decide +kernel
theorem wit_ProofTestsRunInService_17 : (fun (s : State) => (s.chip.mode ≠ Mode.SERVICE) ∧ (s.chip.get R.SYS_MODE.MODE_STAT.BUSY = 1 ∧ s.chip.get R.SYS_MODE.MODE_STAT.TARGET = Mode.SERVICE)) (run [(R.SYS_BOOT.STRAPS.SERVICE_EN, 1), (R.SYS_MODE.MODE_STAT.BUSY, 1), (R.SYS_MODE.MODE_STAT.TARGET, 5)]) := by decide +kernel

theorem wit_PerturbationsActInService_1 : (fun (s : State) (src : Src) (data : Word) => (Reaches s.chip src 0x1C1) ∧ (s.chip.mgrOrCtl src = true) ∧ ((match src with | .inst _ => false | _ => true) = true) ∧ (s.chip.mode = Mode.SERVICE) ∧ (s.chip.ptb.proof = none) ∧ (data.toNat < 2 ^ 20 ∧ data.toNat ≠ 0)) (regs [(R.SYS_MODE.MODE_STAT.MODE, 5)]) (.ccn 0) (0x80000) := by decide +kernel
theorem wit_PerturbationsActInService_2 : (fun (s : State) (src : Src) (data : Word) => (Reaches s.chip src 0x1C1) ∧ (s.chip.mgrOrCtl src = true) ∧ ((match src with | .inst _ => false | _ => true) = true) ∧ (s.chip.mode = Mode.SERVICE) ∧ (s.chip.ptb.proof = none) ∧ (data.toNat < 2 ^ 24 ∧ data.toNat % 4096 ≠ 0)) (regs [(R.SYS_MODE.MODE_STAT.MODE, 5)]) (.ccn 0) (0xFFF800) := by decide +kernel
theorem wit_PerturbationsActInService_3 : (fun (s : State) (src : Src) (data : Word) (cls : Nat) (len : Nat) => (Reaches s.chip src 0x1C1) ∧ (s.chip.mgrOrCtl src = true) ∧ ((match src with | .inst _ => false | _ => true) = true) ∧ (s.chip.mode = Mode.SERVICE) ∧ (s.chip.ptb.proof = none) ∧ (data.toNat % 2 ^ 31 = cls + 65536 * len ∧ 0 < cls ∧ cls < 16 ∧ 0 < len ∧ len < 2 ^ 15) ∧ (s.chip.fab.pressed = 0)) (regs [(R.SYS_MODE.MODE_STAT.MODE, 5)]) (.ccn 0) (0x7FFF000F) (15) (0x7FFF) := by decide +kernel
theorem wit_PerturbationsActInService_4 : (fun (s : State) (src : Src) (data : Word) => (Reaches s.chip src 0x1C1) ∧ (s.chip.mgrOrCtl src = true) ∧ ((match src with | .inst _ => false | _ => true) = true) ∧ (s.chip.mode = Mode.SERVICE) ∧ (s.chip.ptb.proof = none) ∧ (data.toNat < 2 ^ 10 ∧ data.toNat % 256 ≠ 0)) (regs [(R.SYS_MODE.MODE_STAT.MODE, 5)]) (.ccn 0) (0x380) := by decide +kernel
theorem wit_PerturbationsActInService_5 : (fun (s : State) (src : Src) (data : Word) (o : Nat) (g : Nat) (k : Nat) => (Reaches s.chip src 0x1C1) ∧ (s.chip.mgrOrCtl src = true) ∧ ((match src with | .inst _ => false | _ => true) = true) ∧ (s.chip.mode = Mode.SERVICE) ∧ (s.chip.ptb.proof = none) ∧ (data.toNat % 2 ^ 31 = o + 8 * g + 256 * k ∧ o < 8 ∧ g < 16 ∧ 1 ≤ k ∧ k < 16) ∧ (s.chip.get R.PTB_PERTURB.SIG_INJ.GO = 0)) (regs [(R.SYS_MODE.MODE_STAT.MODE, 5)]) (.ccn 0) (0x80000F7F) (7) (15) (15) := by decide +kernel
theorem wit_PerturbationsActInService_6 : (fun (s : State) (src : Src) (data : Word) (g : Nat) (b : Nat) => (Reaches s.chip src 0x1C1) ∧ (s.chip.mgrOrCtl src = true) ∧ ((match src with | .inst _ => false | _ => true) = true) ∧ (s.chip.mode = Mode.SERVICE) ∧ (s.chip.ptb.proof = none) ∧ (data.toNat % 2 ^ 31 = g + 8 * b ∧ g < 4 ∧ b < 2)) (regs [(R.SYS_MODE.MODE_STAT.MODE, 5)]) (.ccn 0) (11) (3) (1) := by decide +kernel
theorem wit_PerturbationsActInService_7 : (fun (s : State) (src : Src) (data : Word) (f : Nat) (d : Nat) (e : Nat) (x : Nat) => (Reaches s.chip src 0x1C1) ∧ (s.chip.mgrOrCtl src = true) ∧ ((match src with | .inst _ => false | _ => true) = true) ∧ (s.chip.mode = Mode.SERVICE) ∧ (s.chip.ptb.proof = none) ∧ (data.toNat = f + 4 * d + 512 * e + 65536 * x + 2 ^ 31 ∧ f < 4 ∧ d < s.chip.tchNd f ∧ e < 36 ∧ x < 4096)) (regs [(R.SYS_MODE.MODE_STAT.MODE, 5)]) (.ccn 0) (0x8FFF46DF) (3) (55) (35) (4095) := by decide +kernel
theorem wit_PerturbationsActInService_8 : (fun (s : State) (src : Src) (_data : Word) => (Reaches s.chip src 0x1C1) ∧ (s.chip.mgrOrCtl src = true) ∧ ((match src with | .inst _ => false | _ => true) = true) ∧ (s.chip.mode ≠ Mode.SERVICE)) (run []) (.ccn 0) (1) := by decide +kernel

theorem wit_RegisterBusWritesAndReads_1 : (fun (s : State) (src : Src) (p : Nat) (data : List Byte) => (p < 512 ∧ data.length = 4 ∧ placeOk src p 0x018 = true) ∧ (s.chip.recoveryAt src p 0x018 = none) ∧ ((match src with | .inst _ => false | _ => true) = true) ∧ (Reaches s.chip src p) ∧ (s.chip.pageWriter src p = true)) (run []) (.ccn 3) (0x1C0) (leBytes 4 0xFFFFFFFF) := by decide +kernel
theorem wit_RegisterBusWritesAndReads_2 : (fun (s : State) (src : Src) (i : Nat) (lo : Nat) (hi : Nat) (data : List Byte) => (i < 7 ∧ data.length = 4 ∧ leNat data = lo + 65536 * hi ∧ lo < 65536) ∧ (placeOk src 0x003 (0x040 + 16 * i) = true) ∧ (s.chip.recoveryAt src 0x003 (0x040 + 16 * i) = none) ∧ ((match src with | .inst _ => false | _ => true) = true) ∧ (Reaches s.chip src 0x003) ∧ (s.chip.mgrOrCtl src = true) ∧ (R.loopMin i ≤ lo ∧ lo ≤ hi ∧ hi ≤ R.loopMax i ∧ (i = 0 → 750 ≤ hi))) (run []) (.ccn 3) (6) (0) (256) (leBytes 4 0x01000000) := by decide +kernel
theorem wit_RegisterBusWritesAndReads_3 : (fun (s : State) (src : Src) (i : Nat) (lo : Nat) (hi : Nat) (data : List Byte) => (i < 7 ∧ data.length = 4 ∧ leNat data = lo + 65536 * hi ∧ lo < 65536) ∧ (placeOk src 0x003 (0x040 + 16 * i) = true) ∧ (s.chip.recoveryAt src 0x003 (0x040 + 16 * i) = none) ∧ ((match src with | .inst _ => false | _ => true) = true) ∧ (Reaches s.chip src 0x003) ∧ (s.chip.mgrOrCtl src = true) ∧ (hi < lo ∨ lo < R.loopMin i ∨ R.loopMax i < hi)) (run []) (.ccn 3) (6) (1) (0) (leBytes 4 1) := by decide +kernel
theorem wit_RegisterBusWritesAndReads_4 : (fun (s : State) (src : Src) (p : Nat) (off : Nat) (data : List Byte) => (data.length = 4 ∧ placeOk src p off = true ∧ off % 4 = 0) ∧ ((match src with | .ccn _ => true | .ccs _ => true | .island => true | _ => false) = true) ∧ (s.chip.fabOn = true) ∧ (pageExists p = false) ∧ (off = 0x018 ∨ (0x040 ≤ off ∧ off < 0xC00 ∧ leNat data = 0))) (run []) (.ccn 3) (0x1FF) (0x018) (leBytes 4 7) := by decide +kernel
theorem wit_RegisterBusWritesAndReads_5 : (fun (s : State) (src : Src) (p : Nat) (off : Nat) (data : List Byte) => (data.length ≤ 64 ∧ placeOk src p off = true) ∧ ((match src with | .ccn _ => true | .ccs _ => true | .island => true | _ => false) = true) ∧ (Reaches s.chip src p) ∧ (off % 4 ≠ 0 ∨ data.length ≠ 4)) (run []) (.island) (0x1C0) (0x018) (leBytes 8 7) := by decide +kernel
theorem wit_RegisterBusWritesAndReads_6 : (fun (s : State) (port : Nat) (p : Nat) (data : List Byte) => (data.length = 4 ∧ port < 4 ∧ p < 0x010) ∧ (s.chip.recoveryAt (.pf port) p 0x018 = none) ∧ (s.chip.fabOn = true ∧ s.chip.beforeRun = false) ∧ (s.chip.get R.IMX.MANAGER.MGR ≠ port)) (run [(R.IMX.MANAGER.MGR, 0)]) (3) (0x00F) (leBytes 4 7) := by decide +kernel
theorem wit_RegisterBusWritesAndReads_7 : (fun (s : State) (vi : Nat) (w : Nat) (off : Nat) (data : List Byte) (u : Nat × Nat) => (data.length = 4 ∧ vi < 16 ∧ off < 0x1000 ∧ off % 4 = 0 ∧ 0x040 ≤ off) ∧ (w = 0 ∨ (10 ≤ w ∧ w < 16)) ∧ (s.chip.instOn vi = true) ∧ (u = s.chip.winUnder vi w off)) (on (run [(R.IMX_VI.VI_STAT.STATE 15, 1)]) fun c => { c with imx := { vfEn := [(0, 1)], numVfs := [(0, 8)] } }) (15) (15) (0xFFC) (leBytes 4 1) ((0x06F, 0xFFC)) := by decide +kernel
theorem wit_RegisterBusWritesAndReads_8 : (fun (s : State) (src : Src) (p : Nat) (_data : Word) => (placeOk src p 0x010 = true) ∧ (s.chip.recoveryAt src p 0x010 = none) ∧ ((match src with | .inst _ => false | _ => true) = true) ∧ (Reaches s.chip src p) ∧ (s.chip.pageWriter src p = true)) (run [(H.ERR_CODE 0x1C0, 7), (H.ERR_COUNT 0x1C0, 3)]) (.ccn 3) (0x1C0) (0x01000080) := by decide +kernel
theorem wit_RegisterBusWritesAndReads_9 : (fun (s : State) (src : Src) (p : Nat) (_data : Word) => (placeOk src p 0x01C = true) ∧ (s.chip.recoveryAt src p 0x01C = none) ∧ ((match src with | .inst _ => false | _ => true) = true) ∧ (Reaches s.chip src p) ∧ (s.chip.pageWriter src p = true)) (run [(H.IRQ_RAW 0x1C0, 0xFFFFFFFF)]) (.ccn 3) (0x1C0) (0x80000001) := by decide +kernel
theorem wit_RegisterBusWritesAndReads_10 : (fun (s : State) (src : Src) (p : Nat) (en : Bool) => (placeOk src p 0x008 = true) ∧ (s.chip.recoveryAt src p 0x008 = none) ∧ ((match src with | .inst _ => false | _ => true) = true) ∧ (Reaches s.chip src p) ∧ (s.chip.pageWriter src p = true) ∧ (s.chip.get (H.CLAIMED p) = 0 ∨ isSecure src = true ∨ s.chip.get (H.ENABLE p) = b2n en) ∧ (p < 0x1A8 ∨ 0x1B0 ≤ p ∨ p % 2 = 1) ∧ (s.chip.brg.hold.contains p = false)) (run []) (.ccn 3) (0x1C0) (true) := by decide +kernel
theorem wit_RegisterBusWritesAndReads_11 : (fun (s : State) (src : Src) (p : Nat) (en : Bool) => (placeOk src p 0x008 = true) ∧ (s.chip.recoveryAt src p 0x008 = none) ∧ ((match src with | .inst _ => false | _ => true) = true) ∧ (Reaches s.chip src p) ∧ (s.chip.pageWriter src p = true) ∧ (s.chip.get (H.CLAIMED p) = 1 ∧ isSecure src = false ∧ s.chip.get (H.ENABLE p) ≠ b2n en)) (run [(H.CLAIMED 0x1C0, 1)]) (.ccn 3) (0x1C0) (true) := by decide +kernel
theorem wit_RegisterBusWritesAndReads_12 : (fun (s : State) (src : Src) (n : Nat) => (n < 4 ∧ placeOk src (0x1A8 + 2 * n) 0x008 = true) ∧ (s.chip.recoveryAt src (0x1A8 + 2 * n) 0x008 = none) ∧ ((match src with | .inst _ => false | _ => true) = true) ∧ (Reaches s.chip src (0x1A8 + 2 * n)) ∧ (s.chip.mgrOrCtl src = true) ∧ (s.chip.get (H.CLAIMED (0x1A8 + 2 * n)) = 0 ∨ isSecure src = true) ∧ (s.chip.get (H.ENABLE (0x1A8 + 2 * n)) = 1) ∧ (s.chip.tchPartner n = false)) (on (run [(H.ENABLE 0x1AE, 1)]) fun c => c.setTch 3 { phase := 3, baseM := [4], contacts := [(2, { x := 5, y := 6, area := 1, peak := 9, lastX := 5, lastY := 6, since := 0 })] }) (.ccn 3) (3) := by decide +kernel
theorem wit_RegisterBusWritesAndReads_13 : (fun (s : State) (src : Src) (p : Nat) (data : Word) => (Reaches s.chip src p) ∧ (isSecure src = true) ∧ (data.toNat < 2)) (run []) (.ccs 3) (0x1C0) (1) := by decide +kernel
theorem wit_RegisterBusWritesAndReads_14 : (fun (s : State) (src : Src) (p : Nat) (off : Nat) => (placeOk src p off = true ∧ off % 4 = 0 ∧ 0x040 ≤ off) ∧ (s.chip.recoveryAt src p off = none) ∧ ((match src with | .ccn _ => true | .ccs _ => true | .island => true | _ => false) = true) ∧ (s.chip.fabOn = true ∧ pageExists p = true ∧ (onField p = true → s.chip.brg.up = true)) ∧ (p ≠ 0x012 ∧ p ≠ 0x014 ∧ p ≠ 0x020 ∧ p ≠ 0x022 ∧ p ≠ 0x140 ∧ p ≠ 0x1B3 ∧ p ≠ 0x1C0)) (run []) (.ccn 3) (0x191) (0x040) := by decide +kernel
theorem wit_RegisterBusWritesAndReads_15 : (fun (s : State) (src : Src) (p : Nat) (off : Nat) => (placeOk src p off = true ∧ off % 4 = 0 ∧ off < 0x040 ∧ off ≠ 0x00C) ∧ (s.chip.recoveryAt src p off = none) ∧ ((match src with | .ccn _ => true | .ccs _ => true | .island => true | _ => false) = true) ∧ (s.chip.fabOn = true ∧ pageExists p = true ∧ (onField p = true → s.chip.brg.up = true))) (run []) (.ccn 3) (0x1C0) (0x000) := by decide +kernel
theorem wit_RegisterBusWritesAndReads_16 : (fun (s : State) (src : Src) (p : Nat) (off : Nat) => (placeOk src p off = true ∧ off % 4 = 0) ∧ ((match src with | .ccn _ => true | .ccs _ => true | .island => true | _ => false) = true) ∧ (s.chip.fabOn = true ∧ pageExists p = false)) (run []) (.ccn 3) (0x1FF) (0x000) := by decide +kernel

theorem wit_StagedSetsCommitAndLatchWhole_1 : (fun (s : State) (src : Src) (p : Nat) (l : List Nat) => (placeOk src p 0x024 = true ∧ isCommitPage p = true) ∧ (s.chip.recoveryAt src p 0x024 = none) ∧ ((match src with | .inst _ => false | _ => true) = true) ∧ (Reaches s.chip src p) ∧ (s.chip.mgrOrCtl src = true) ∧ (s.chip.commitPages p = some l) ∧ ((l.all fun q => !s.chip.shadowTaken src q && !s.chip.shadowBusy q) = true) ∧ (isCmpPage p = false ∨ (s.chip.mode ≠ Mode.DEGRADED ∧ s.chip.pow.cmpRising = false)) ∧ (s.chip.get (H.BUSY p) = 0 ∧ s.chip.get (H.PENDING p) = 0)) (run []) (.ccn 3) (0x1A0) ([0x1A0]) := by decide +kernel
theorem wit_StagedSetsCommitAndLatchWhole_2 : (fun (s : State) (src : Src) (p : Nat) => (placeOk src p 0x024 = true ∧ isCommitPage p = true) ∧ (s.chip.recoveryAt src p 0x024 = none) ∧ ((match src with | .inst _ => false | _ => true) = true) ∧ (Reaches s.chip src p) ∧ (s.chip.mgrOrCtl src = true) ∧ (s.chip.get (H.BUSY p) = 0) ∧ ((((s.chip.commitPages p).getD [stageHome p]).all fun q => !s.chip.shadowBusy q) = true) ∧ ((s.chip.stg.map (·.page)).Nodup)) (on (run [(H.PENDING 0x1A0, 1)]) fun c => c.putStage { page := 0x1A0, owner := some (.ccn 0), shadow := [(R.HAP.BOOST.EN, 1)], pending := [(R.HAP.BOOST.VBOOST, 30)], pendBy := some 0x1A0 }) (.ccn 3) (0x1A0) := by decide +kernel
theorem wit_StagedSetsCommitAndLatchWhole_3 : (fun (s : State) (p : Nat) (code : Nat) => (p = 0x190 ∨ p = 0x1A0) ∧ (s.chip.get (H.BUSY p) = 1) ∧ ((s.chip.stg.filter fun x => x.busyBy == some p).map (·.page) = [p]) ∧ ((s.chip.stg.map (·.page)).Nodup) ∧ ((if p = 0x190 then s.chip.audCheck else s.chip.hapCheck) = some code ∧ code ≠ 0 ∧ code < 256)) (on (run [(H.BUSY 0x1A0, 1)]) fun c => c.putStage { page := 0x1A0, owner := some (.ccn 0), shadow := [(R.HAP_CH.CH_CFG.VLIM 7, 100)], busyBy := some 0x1A0, goBy := some (.ccn 0) }) (0x1A0) (E.VALUE) := by decide +kernel
theorem wit_StagedSetsCommitAndLatchWhole_4 : (fun (s : State) (p : Nat) => (p = 0x190 ∨ p = 0x1A0) ∧ (s.chip.get (H.BUSY p) = 1) ∧ ((s.chip.stg.filter fun x => x.busyBy == some p).map (·.page) = [p]) ∧ ((s.chip.stg.map (·.page)).Nodup) ∧ ((if p = 0x190 then s.chip.audCheck else s.chip.hapCheck) = none) ∧ ((s.chip.stage p).pending = [] ∧ (s.chip.stage p).shadow ≠ [])) (on (run [(H.BUSY 0x1A0, 1)]) fun c => c.putStage { page := 0x1A0, owner := some (.ccn 0), shadow := [(R.HAP_CH.CH_CFG.VLIM 7, 40)], busyBy := some 0x1A0, goBy := some (.ccn 0) }) (0x1A0) := by decide +kernel
theorem wit_StagedSetsCommitAndLatchWhole_5 : (fun (s : State) (x : StageSet) (f : Fld) (v : Nat) => (s.chip.pdOn PD.AUD = true) ∧ (s.chip.get (H.PENDING 0x190) = 1) ∧ ((s.chip.stg.filter fun y => y.pendBy == some 0x190) = [x]) ∧ (x.pending = [(f, v)]) ∧ (f.key ≠ (H.PENDING 0x190).key ∧ f.key ≠ (H.SEQ 0x190).key)) (on (run [(R.SYS_POWER.PD_ON.ON, 0x1FFFFFF), (H.PENDING 0x190, 1)]) fun c => c.putStage { page := 0x190, pending := [(xpReg 39 15, 0x2000)], pendBy := some 0x190 }) ({ page := 0x190, pending := [(xpReg 39 15, 0x2000)], pendBy := some 0x190 }) (xpReg 39 15) (0x2000) := by decide +kernel
theorem wit_StagedSetsCommitAndLatchWhole_6 : (fun (s : State) (p : Nat) => (p < 512) ∧ (s.chip.latchDue p = false)) (run []) (0x1A0) := by decide +kernel


/-- Hypotheses of AnEmptyQueueLetsANanosecondPass that hold together. -/
theorem wit_AnEmptyQueueLetsANanosecondPass :
    (fun s : State => s.pending = [] ∧ s.chip.pdOn PD.DISP = true ∧ s.chip.led.nsRem < 1000 ∧ s.chip.led.slow = 0 ∧ s.chip.led.slew = 0) (run [(R.SYS_POWER.PD_ON.ON, 0x1FFFFFF)]) := by
  decide +kernel



/-- Hypotheses of WellFormedCommandsComplete that hold together. -/
theorem wit_WellFormedCommandsComplete : (fun c : Instr => c.wellFormed = true) (.regWrite (.inst 15) 15 0xFFF (leBytes 64 0)) := by decide


/-- Hypotheses of EveryStepKeepsTheMemoriesCanonical that hold together. -/
theorem wit_EveryStepKeepsTheMemoriesCanonical :
    (fun s : State => s.mem.wf = true ∧ step s = .next s.idle) { run [] with mem := { dram := Memory.writeBytes [] 4096 (leBytes 4 7) } } :=
  ⟨by decide +kernel, rfl⟩

end Sys2Proof.Tests
end

/-! # Mode requests

Chapter `00_scope.md`: what an accepted mode request changes (R5, R6, R46–R54, R60), and where a request of the safety island is lost (R7, R50). -/

namespace Sys2Proof.Machine

/-! ### What an operation changes

`c.Moves l r d` says what `Only` says of two states, of two chips; the operations of the mode controller are put together from it. -/

/-- From `c` to `d` nothing changes but the listed parts and, among the registers, the listed fields. -/
def Chip.Moves (l : List Part) (r : List Fld) (c d : Chip) : Prop :=
  (∀ p, p ∉ l → p.same c d) ∧ ∀ f : Fld, f.key ∉ r.map Fld.key → d.get f = c.get f

theorem Part.same_trans {p : Part} {c d e : Chip} (h : p.same c d) (k : p.same d e) : p.same c e := by
  cases p <;> exact Eq.trans k h

theorem Chip.Moves.refl (c : Chip) : Chip.Moves [] [] c c := ⟨fun p _ => by cases p <;> rfl, fun _ _ => rfl⟩

theorem Chip.Moves.mono {l l' : List Part} {r r' : List Fld} {c d : Chip} (h : Chip.Moves l r c d) (hl : l ⊆ l') (hr : r ⊆ r') :
    Chip.Moves l' r' c d :=
  ⟨fun p hp => h.1 p fun hm => hp (hl hm), fun f hf => h.2 f fun hm => hf (List.map_subset Fld.key hr hm)⟩

theorem Chip.Moves.trans {l l' : List Part} {r r' : List Fld} {c d e : Chip} (h : Chip.Moves l r c d) (k : Chip.Moves l' r' d e) :
    Chip.Moves (l ++ l') (r ++ r') c e := by
  refine ⟨fun p hp => ?_, fun f hf => ?_⟩
  · rw [List.mem_append, not_or] at hp
    exact Part.same_trans (h.1 p hp.1) (k.1 p hp.2)
  · rw [List.map_append, List.mem_append, not_or] at hf
    exact (k.2 f hf.2).trans (h.2 f hf.1)

/-- A field that is not among those listed reads as before. -/
theorem Chip.Moves.get {l : List Part} {r : List Fld} {c d : Chip} (h : Chip.Moves l r c d) {f : Fld} (hf : f.key ∉ r.map Fld.key) :
    d.get f = c.get f := h.2 f hf

/-- A command that acts on the chip alone keeps memories and queue, so it changes only what it changes of the chip. -/
theorem Chip.Moves.only {l : List Part} {r : List Fld} {s : State} {d : Chip} (h : Chip.Moves l r s.chip d) :
    Only l r s { s with chip := d } := ⟨h.1, h.2, rfl, rfl⟩

theorem Chip.Moves.onlyPages {l : List Part} {r : List Fld} {ps : List Nat} {s : State} {d : Chip} (h : Chip.Moves l r s.chip d)
    (hr : ∀ g ∈ r, g.pageOf ∈ ps) : OnlyPages l ps s { s with chip := d } := by
  refine ⟨h.1, fun f hf => h.2 f fun hm => ?_, rfl, rfl⟩
  obtain ⟨g, hg, hk⟩ := List.mem_map.1 hm
  exact hf (by simpa only [Fld.pageOf, hk] using hr g hg)

theorem Chip.moves_set (c : Chip) (f : Fld) (v : Nat) : Chip.Moves [.rf] [f] c (c.set f v) := by
  refine ⟨fun p hp => ?_, fun g hg => Chip.get_set_of_ne c v (by simpa using hg)⟩
  cases p <;> simp_all [Part.same]

theorem Chip.moves_bump (c : Chip) (f : Fld) : Chip.Moves [.rf] [f] c (c.bump f) := Chip.moves_set c f _

theorem Chip.moves_lines (c d : Chip) (p w : Nat) : Chip.Moves [.deliveries] [] d (c.lines d p w) := by
  refine ⟨fun q hq => ?_, fun f _ => Chip.get_lines c d p w f⟩
  cases q <;> simp_all [Part.same]

theorem Chip.moves_raise (c : Chip) (p b : Nat) : Chip.Moves [.rf, .deliveries] [H.IRQ_RAW p] c (c.raise p b) :=
  (Chip.moves_set c _ _).trans (Chip.moves_lines c _ p 0)

theorem Chip.moves_reject (c : Chip) (p o s e : Nat) :
    Chip.Moves [.rf, .deliveries] [H.ERR_CODE p, H.ERR_OFFSET p, H.ERR_SOURCE p, H.ERR_COUNT p, H.IRQ_RAW p] c (c.reject p o s e) := by
  refine ⟨fun q hq => ?_, fun f hf => Chip.get_reject_of_ne c p o s e hf⟩
  cases q <;> simp_all [Part.same]

theorem Chip.moves_record (c : Chip) (e u : Nat) (l : List Nat) : Chip.Moves [.csk] [] c (c.record e u l) := by
  refine ⟨fun p hp => ?_, fun f _ => rfl⟩
  cases p <;> simp_all [Part.same]

theorem Chip.moves_pow (c : Chip) (x : Power) : Chip.Moves [.pow] [] c { c with pow := x } := by
  refine ⟨fun p hp => ?_, fun f _ => rfl⟩
  cases p <;> simp_all [Part.same]

theorem Chip.moves_cmp (c : Chip) (x : Cmp) : Chip.Moves [.cmp] [] c { c with cmp := x } := by
  refine ⟨fun p hp => ?_, fun f _ => rfl⟩
  cases p <;> simp_all [Part.same]

/-! ### Bits -/

theorem testBit_clearBits (v m j : Nat) : (clearBits v m).testBit j = (v.testBit j && !m.testBit j) := by
  have parity (v m : Nat) := Nat.and_mod_two_eq_one (a := v) (b := m)
  have le (v m : Nat) : v &&& m ≤ v := Nat.and_le_left
  induction j generalizing v m with
  | zero =>
    have := parity v m
    have := le v m
    simp only [clearBits, Nat.testBit_zero, ← decide_not, ← Bool.decide_and, decide_eq_decide]
    omega
  | succ j ih =>
    have half : clearBits v m / 2 = clearBits (v / 2) (m / 2) := by
      have := parity v m
      have := le v m
      have := le (v / 2) (m / 2)
      have : (v &&& m) / 2 = v / 2 &&& m / 2 := Nat.and_div_two
      unfold clearBits
      omega
    rw [Nat.testBit_succ, half, ih, Nat.testBit_succ, Nat.testBit_succ]

theorem testBit_putBit (v i j : Nat) (b : Bool) : (putBit v i b).testBit j = if j = i then b else v.testBit j := by
  cases b with
  | true =>
    simp only [putBit, if_true, Nat.one_shiftLeft, Nat.testBit_or, Nat.testBit_two_pow, eq_comm (a := i)]
    split <;> simp_all
  | false =>
    change (clearBits v (1 <<< i)).testBit j = _
    simp only [testBit_clearBits, Nat.one_shiftLeft, Nat.testBit_two_pow, eq_comm (a := i)]
    split <;> simp_all

/-- Switching domain `d` switches no other. -/
theorem Chip.pdOn_setBit (c : Chip) (d : Nat) (b : Bool) {e : Nat} (he : e < 25) :
    (c.setBit R.SYS_POWER.PD_ON.ON d b).pdOn e = if e = d then b else c.pdOn e := by
  rw [Chip.pdOn, Chip.setBit, Chip.get_set_self, Nat.testBit_mod_two_pow, testBit_putBit]
  simp [R.SYS_POWER.PD_ON.ON, he, Chip.pdOn]

/-! ### The power of the domains, and what else happens when one goes off -/

/-- What decides about the domains: those that are on, and those that were on when the device last left RUN (R52). -/
def Chip.domains (c : Chip) : Nat × Nat := (c.get R.SYS_POWER.PD_ON.ON, c.pow.savedPd)

theorem Chip.pdOn_of_domains {c d : Chip} (h : d.domains = c.domains) (e : Nat) : d.pdOn e = c.pdOn e := by
  rw [Chip.pdOn, Chip.pdOn, show d.get _ = c.get _ from congrArg Prod.fst h]

/-- Pages 0 to 2 apart, no register bears on the domains. -/
theorem Chip.domains_set (c : Chip) {f : Fld} (v : Nat) (h : 2 < f.page) : (c.set f v).domains = c.domains := by
  rw [Chip.domains, Chip.get_set_of_ne, Chip.set_pow, Chip.domains]
  simp only [Fld.key, R.SYS_POWER.PD_ON.ON]
  omega

theorem Chip.domains_bump (c : Chip) {f : Fld} (h : 2 < f.page) : (c.bump f).domains = c.domains := Chip.domains_set c _ h

theorem Chip.domains_wrap (c : Chip) {f : Fld} (h : 2 < f.page) : (c.wrap f).domains = c.domains := Chip.domains_set c _ h

theorem Chip.domains_setBit (c : Chip) {f : Fld} (i : Nat) (b : Bool) (h : 2 < f.page) : (c.setBit f i b).domains = c.domains :=
  Chip.domains_set c _ h

@[simp] theorem Chip.domains_raise (c : Chip) (p b : Nat) : (c.raise p b).domains = c.domains := by
  rw [Chip.domains, Chip.get_raise_of_ne, Chip.raise_pow, Chip.domains]
  simp only [Fld.key, R.SYS_POWER.PD_ON.ON, H.IRQ_RAW]
  omega

@[simp] theorem Chip.domains_record (c : Chip) (e u : Nat) (l : List Nat) : (c.record e u l).domains = c.domains := rfl

theorem foldl_keeps {α β γ : Type} {g : β → γ} {f : β → α → β} (h : ∀ b a, g (f b a) = g b) (l : List α) (b : β) :
    g (l.foldl f b) = g b := by
  induction l generalizing b with
  | nil => rfl
  | cons a l ih => exact (ih _).trans (h b a)

theorem forN_keeps {β γ : Type} {g : β → γ} {f : Nat → β → β} (h : ∀ i b, g (f i b) = g b) (n : Nat) (b : β) : g (forN n b f) = g b :=
  foldl_keeps (fun b i => h i b) _ b

theorem forN_succ {β : Type} (n : Nat) (b : β) (f : Nat → β → β) : forN (n + 1) b f = f n (forN n b f) := by
  simp [forN, List.range_succ]

theorem forN_of_fixed {β : Type} {n : Nat} {b : β} {f : Nat → β → β} (h : ∀ i < n, f i b = b) : forN n b f = b := by
  induction n with
  | zero => rfl
  | succ n ih => rw [forN_succ, ih fun i hi => h i (Nat.lt_succ_of_lt hi), h n n.lt_succ_self]

theorem Chip.domains_coreShow (c : Chip) (k : Nat) : (c.coreShow k).domains = c.domains := by
  have put (o h s e p : Nat) : (((((c.set (R.GFX_SC.SC_STAT.OWNER k) o).set (R.GFX_SC.SC_STAT.HELPING k) h).set (R.GFX_SC.SC_STAT.SPLIT k) s).set
      (R.GFX_SC.SC_STAT.EARLY k) e).set (R.GFX_SC.SC_STAT.PARTNER k) p).domains = c.domains := by
    simp (disch := (dsimp only; omega)) only [R.GFX_SC.SC_STAT.OWNER, R.GFX_SC.SC_STAT.HELPING, R.GFX_SC.SC_STAT.SPLIT, R.GFX_SC.SC_STAT.EARLY,
      R.GFX_SC.SC_STAT.PARTNER, Chip.domains_set]
  unfold Chip.coreShow
  split
  · exact put ..
  · dsimp only
    split <;> exact put ..

theorem Chip.domains_poolEmpty (c : Chip) (p : Nat) : (c.poolEmpty p).domains = c.domains := by
  have shown (d : Chip) : (d.poolShow p).domains = d.domains := by
    simp (disch := exact of_decide_eq_true rfl) only [Chip.poolShow, Chip.domains_set]
  simp only [Chip.poolEmpty, Chip.poolFell, Chip.when]
  split
  · rw [Chip.domains_raise, shown]; rfl
  · rw [shown]; rfl

theorem Chip.domains_l2Show (c : Chip) : c.l2Show.domains = c.domains := Chip.domains_set _ _ (by decide)

theorem Chip.domains_linesDrop (c : Chip) (p : Nat → Bool) : (c.linesDrop p).domains = c.domains := rfl

theorem Chip.domains_setDch (c : Chip) (k : Nat) (x : DmaChan) : (c.setDch k x).domains = c.domains := by
  simp (disch := exact of_decide_eq_true rfl) only [Chip.setDch, Chip.domains_set]
  rfl

theorem Chip.domains_ssDisarm (c : Chip) (k : Nat) : (c.ssDisarm k).domains = c.domains :=
  Chip.domains_set c SS.IDLE (f := R.LDG_SLOTS.SS_STAT.STATE (k / 64) (k % 64)) (by simp only [R.LDG_SLOTS.SS_STAT.STATE]; omega)

theorem Chip.domains_dmaPowerOff (c : Chip) : c.dmaPowerOff.domains = c.domains := by
  refine forN_keeps (fun k c => ?_) 32 c
  split
  · rfl
  · rw [Chip.domains_setDch]
    split
    · exact Chip.domains_ssDisarm ..
    · rfl

theorem Chip.domains_ampSilence (c : Chip) : c.ampSilence.domains = c.domains := by
  refine forN_keeps (fun a c => ?_) 2 c
  simp (disch := exact of_decide_eq_true rfl) only [Chip.setAmp, Chip.ampShow, Chip.domains_set]
  rfl

/-! #### Locks of a device that is no longer reachable (R238) -/

theorem Chip.domains_lkSetWait (c : Chip) (r : Nat) (k : Option Nat) : (c.lkSetWait r k).domains = c.domains := by
  unfold Chip.lkSetWait
  cases k <;> dsimp only <;> split <;> simp (disch := exact of_decide_eq_true rfl) only [Chip.domains_set] <;> rfl

theorem Chip.domains_lkMark (c : Chip) (r k : Nat) (b : Bool) : (c.lkMark r k b).domains = c.domains := by
  unfold Chip.lkMark
  split <;> exact Chip.domains_setBit c _ b (of_decide_eq_true rfl)

theorem Chip.domains_lkGrant (c : Chip) (r k : Nat) : (c.lkGrant r k).domains = c.domains := by
  simp (disch := exact of_decide_eq_true rfl) only [Chip.lkGrant, Chip.lkResult, Chip.domains_raise,
    Chip.domains_bump, Chip.domains_lkMark, Chip.domains_set, Chip.domains_wrap, Chip.domains_lkSetWait]

theorem Chip.domains_lkPass (c : Chip) (k : Nat) : (c.lkPass k).domains = c.domains := by
  unfold Chip.lkPass
  split
  · rfl
  · exact Chip.domains_lkGrant ..

theorem Chip.domains_lkPoison (c : Chip) (r k : Nat) : (c.lkPoison r k).domains = c.domains := by
  simp (disch := exact of_decide_eq_true rfl) only [Chip.lkPoison, Chip.domains_lkPass, Chip.domains_raise,
    Chip.domains_bump, Chip.domains_record, Chip.domains_set, Chip.domains_lkMark]

theorem Chip.domains_lkLose (c : Chip) (r : Nat) : (c.lkLose r).domains = c.domains := by
  refine (forN_keeps (fun k c => ?_) 64 _).trans (Chip.domains_lkSetWait c r none)
  split
  · exact Chip.domains_lkPoison ..
  · rfl

/-! #### A link port that stops (R352) -/

theorem Chip.domains_syncState (c : Chip) (st : Nat) : (c.syncState st).domains = c.domains := by
  unfold Chip.syncState
  dsimp only
  split <;> simp (disch := exact of_decide_eq_true rfl) only [Chip.domains_set]

theorem Chip.domains_topology (c : Chip) : c.topology.domains = c.domains := by
  unfold Chip.topology
  extract_lets r old0 old1
  split
  case isTrue => rfl
  case isFalse c₁ c₂ c₃ c₄ _ =>
    have h₂ : c₂.domains = c.domains := by
      simp (disch := exact of_decide_eq_true rfl) only [c₂, c₁, Chip.domains_raise, Chip.domains_set]
    have h₃ : c₃.domains = c₂.domains := by
      refine forN_keeps (fun d c => ?_) 4 c₂
      split
      · exact Chip.domains_lkLose c (23 + d)
      · rfl
    have h₄ : c₄.domains = c₃.domains := by
      unfold c₄
      split
      · exact Chip.domains_syncState c₃ 1
      · rfl
    split
    · exact h₄.trans (h₃.trans h₂)
    · exact (Chip.domains_set c₄ _ (of_decide_eq_true rfl)).trans (h₄.trans (h₃.trans h₂))

theorem Chip.domains_reqFails (c : Chip) (q : LinkReq) : (c.reqFails q).domains = c.domains := by
  unfold Chip.reqFails
  split <;> rfl

theorem Chip.domains_fetchFails (c : Chip) (n u row : Nat) : (c.fetchFails n u row).domains = c.domains := by
  rw [Chip.fetchFails, Chip.domains_raise, Chip.domains_bump, Chip.domains_bump]
  · rfl
  · simp only [R.CMP_L.FETCH_ERR.COUNT]; omega
  · simp only [R.CMP_P.FETCH_ERR.COUNT]; omega

theorem Chip.domains_portFails (c : Chip) (p : Nat) : (c.portFails p).domains = c.domains := by
  unfold Chip.portFails
  extract_lets qs ls _ c₁ c₂
  have h₂ : c₂.domains = c.domains := foldl_keeps Chip.domains_reqFails qs c₁
  refine (foldl_keeps (fun c q => ?_) ls c₂).trans h₂
  exact Chip.domains_fetchFails c q.pipe q.unit q.row

theorem Chip.domains_portStops (c : Chip) (p st cause : Nat) : (c.portStops p st cause).domains = c.domains := by
  rw [Chip.portStops, Chip.domains_topology, Chip.domains_portFails]
  refine (Chip.domains_set _ (f := R.LNK_PORT.PORT_STAT.CAUSE p) cause ?_).trans (Chip.domains_set c (f := R.LNK_PORT.PORT_STAT.STATE p) st ?_)
  · simp only [R.LNK_PORT.PORT_STAT.CAUSE]; omega
  · simp only [R.LNK_PORT.PORT_STAT.STATE]; omega

/-! ### The domains that software switches return to what they were in RUN (R52) -/

/-- Software switches domain `d` in RUN. -/
def inRunSwitched (d : Nat) : Bool := (5 ≤ d && d ≤ 17) || (21 ≤ d && d ≤ 23)

/-- What `requestBack` does about domain `d`. -/
def Chip.domainBack (d : Nat) (c : Chip) : Chip :=
  if !inRunSwitched d || c.pdOn d == c.pow.savedPd.testBit d then c
  else if c.pow.savedPd.testBit d then c.setBit R.SYS_POWER.PD_ON.ON d true
  else c.domainOff d

theorem Chip.requestBack_eq (c : Chip) : c.requestBack = forN 24 c Chip.domainBack := rfl

/-- A domain that goes off, PD_CMP apart, takes no other with it. -/
theorem Chip.domains_domainOff (c : Chip) {d : Nat} (h : d ≠ PD.CMP) :
    (c.domainOff d).domains = (c.setBit R.SYS_POWER.PD_ON.ON d false).domains := by
  simp only [Chip.domainOff, if_neg h]
  split
  · rw [Chip.domains_l2Show, Chip.domains_linesDrop]
    refine forN_keeps (fun p c => ?_) 17 _
    exact Chip.domains_poolEmpty c p
  · split
    · exact Chip.domains_dmaPowerOff _
    · split
      · exact Chip.domains_ampSilence _
      · split
        · rw [Chip.domains_portStops, Chip.domains_portStops]
        · split
          · exact Chip.domains_coreShow ..
          · rfl

/-- Turning back domain `d` gives it the power it had in RUN, if software switches it, and forgets nothing. -/
theorem Chip.domains_domainBack (c : Chip) (d : Nat) :
    (Chip.domainBack d c).domains =
      if inRunSwitched d = true ∧ c.pdOn d ≠ c.pow.savedPd.testBit d then
        (c.setBit R.SYS_POWER.PD_ON.ON d (c.pow.savedPd.testBit d)).domains
      else c.domains := by
  have notCmp (h : inRunSwitched d = true) : d ≠ PD.CMP := by rintro rfl; exact absurd h (by decide)
  unfold Chip.domainBack
  split
  next stays =>
    rw [if_neg]
    rintro ⟨on, differs⟩
    simp [on, differs] at stays
  next goes =>
    have goes : inRunSwitched d = true ∧ c.pdOn d ≠ c.pow.savedPd.testBit d := by simpa using goes
    rw [if_pos goes]
    split
    next was => rw [was]
    next was => rw [Chip.domains_domainOff c (notCmp goes.1), eq_false_of_ne_true was]

theorem Chip.savedPd_domainBack (c : Chip) (d : Nat) : (Chip.domainBack d c).pow.savedPd = c.pow.savedPd := by
  have h := congrArg Prod.snd (Chip.domains_domainBack c d)
  split at h <;> exact h

theorem Chip.pdOn_domainBack (c : Chip) (d : Nat) {e : Nat} (he : e < 25) :
    (Chip.domainBack d c).pdOn e = if e = d ∧ inRunSwitched d = true then c.pow.savedPd.testBit d else c.pdOn e := by
  have h := Chip.domains_domainBack c d
  split at h
  next other =>
    rw [Chip.pdOn_of_domains h, Chip.pdOn_setBit _ _ _ he]
    simp [other]
  next same =>
    rw [Chip.pdOn_of_domains h]
    grind

/-- The domains below `n` have been turned back, the others not yet. -/
theorem Chip.pdOn_forN_domainBack (c : Chip) {e : Nat} (he : e < 25) (n : Nat) :
    (forN n c Chip.domainBack).pow.savedPd = c.pow.savedPd ∧
      (forN n c Chip.domainBack).pdOn e = if e < n ∧ inRunSwitched e = true then c.pow.savedPd.testBit e else c.pdOn e := by
  induction n with
  | zero => simp [forN]
  | succ n ih =>
    obtain ⟨saved, on⟩ := ih
    rw [forN_succ, Chip.savedPd_domainBack, Chip.pdOn_domainBack _ _ he, saved, on]
    refine ⟨rfl, ?_⟩
    grind

/-- R52: the domains that software switches stand as they stood when the device last left RUN. -/
theorem Chip.requestBack_asInRun (c : Chip) : DomainsAsInRun c.requestBack c.pow.savedPd := by
  intro e he
  have hs : e < 24 ∧ inRunSwitched e = true := by revert e; decide
  have ⟨_, on⟩ := Chip.pdOn_forN_domainBack c (Nat.lt_succ_of_lt hs.1) 24
  rw [Chip.requestBack_eq, on, if_pos hs]

/-- Where they stand so already, nothing happens. -/
theorem Chip.requestBack_eq_self {c : Chip} (h : DomainsAsInRun c c.pow.savedPd) : c.requestBack = c := by
  have listed : ∀ d < 24, inRunSwitched d = true → d ∈ [5, 6, 7, 8, 9, 10, 11, 12, 13, 14, 15, 16, 17, 21, 22, 23] := by decide
  refine forN_of_fixed fun d hd => if_pos ?_
  change (!inRunSwitched d || c.pdOn d == c.pow.savedPd.testBit d) = true
  by_cases on : inRunSwitched d = true
  · simp [h d (listed d hd on)]
  · simp [on]

/-! ### The operations of the mode controller -/

theorem Chip.moves_modeStart (c : Chip) (m : Nat) :
    Chip.Moves [.rf] [R.SYS_MODE.MODE_STAT.BUSY, R.SYS_MODE.MODE_STAT.TARGET] c (c.modeStart m) :=
  ((Chip.moves_set c _ _).trans (Chip.moves_set _ _ _)).mono (by decide) (by decide)

theorem Chip.modeBusy_modeStart (c : Chip) (m : Nat) : (c.modeStart m).modeBusy = true := by
  rw [Chip.modeBusy, Chip.flag, Chip.modeStart, Chip.get_set_of_ne _ _ (by decide), Chip.get_set_self]
  rfl

theorem Chip.modeTarget_modeStart (c : Chip) (m : Nat) : (c.modeStart m).modeTarget = m % 8 := Chip.get_set_self _ _ _

theorem Chip.moves_modeIdle (c : Chip) :
    Chip.Moves [.rf] [R.SYS_MODE.MODE_STAT.BUSY, R.SYS_MODE.MODE_STAT.TARGET] c c.modeIdle :=
  ((Chip.moves_set c _ _).trans (Chip.moves_set _ _ _)).mono (by decide) (by decide)

/-- Registers that the end of a transition writes. -/
def modeDoneRegs : List Fld :=
  [R.SYS_MODE.MODE_STAT.BUSY, R.SYS_MODE.MODE_STAT.TARGET, R.SYS_MODE.MODE_STAT.MODE, R.SYS_MODE.TRANS_CNT.COUNT, H.IRQ_RAW 1]

theorem Chip.moves_modeDone (c : Chip) (m : Nat) : Chip.Moves [.rf, .deliveries, .pow] modeDoneRegs c (c.modeDone m) := by
  have ends (d : Chip) : Chip.Moves [.rf, .deliveries] modeDoneRegs d
      (((d.modeIdle.set R.SYS_MODE.MODE_STAT.MODE m).bump R.SYS_MODE.TRANS_CNT.COUNT).raise 0x001 0) :=
    ((((Chip.moves_modeIdle d).trans (Chip.moves_set _ _ _)).trans (Chip.moves_bump _ _)).trans (Chip.moves_raise _ _ _)).mono
      (by decide) (by decide)
  unfold Chip.modeDone
  split
  · exact ((Chip.moves_pow c _).trans (ends _)).mono (by decide) (by decide)
  · exact (ends c).mono (by decide) (by decide)

theorem Chip.mode_modeDone (c : Chip) (m : Nat) : (c.modeDone m).mode = m % 8 := by
  rw [Chip.mode, Chip.modeDone, Chip.get_raise_of_ne _ _ _ (by decide), Chip.get_bump_of_ne _ (by decide), Chip.get_set_self]
  rfl

/-- Registers that the rejection of a mode request writes. -/
def modeRejectRegs : List Fld := [R.SYS_MODE.MODE_STAT.LAST_ERR, R.SYS_MODE.REJECT_CNT.COUNT, H.IRQ_RAW 1]

theorem Chip.moves_modeReject (c : Chip) (e : Nat) : Chip.Moves [.rf, .deliveries] modeRejectRegs c (c.modeReject e) :=
  (((Chip.moves_set c _ _).trans (Chip.moves_bump _ _)).trans (Chip.moves_raise _ _ _)).mono (by decide) (by decide)

theorem Chip.get_modeReject_lastErr (c : Chip) (e : Nat) : (c.modeReject e).get R.SYS_MODE.MODE_STAT.LAST_ERR = e % 256 := by
  rw [Chip.modeReject, Chip.get_raise_of_ne _ _ _ (by decide), Chip.get_bump_of_ne _ (by decide), Chip.get_set_self]
  rfl

theorem Chip.get_modeReject_rejectCnt (c : Chip) (e : Nat) :
    (c.modeReject e).get R.SYS_MODE.REJECT_CNT.COUNT = min (c.get R.SYS_MODE.REJECT_CNT.COUNT + 1) (2 ^ 32 - 1) := by
  rw [Chip.modeReject, Chip.get_raise_of_ne _ _ _ (by decide), Chip.get_bump_self, Chip.get_set_of_ne _ _ (by decide)]
  rfl

theorem Chip.moves_agreeClear (c : Chip) : Chip.Moves [.rf, .pow] [R.SYS_MODE.AGREE.MGR, R.SYS_MODE.AGREE.SAF] c c.agreeClear :=
  (((Chip.moves_set c _ _).trans (Chip.moves_set _ _ _)).trans (Chip.moves_pow _ _)).mono (by decide) (by decide)

theorem Chip.agreeClear_mgr (c : Chip) : c.agreeClear.flag R.SYS_MODE.AGREE.MGR = false := by
  change (((c.set R.SYS_MODE.AGREE.MGR 0).set R.SYS_MODE.AGREE.SAF 0).get R.SYS_MODE.AGREE.MGR == 1) = false
  rw [Chip.get_set_of_ne _ _ (by decide), Chip.get_set_self]
  rfl

theorem Chip.agreeClear_saf (c : Chip) : c.agreeClear.flag R.SYS_MODE.AGREE.SAF = false := by
  change (((c.set R.SYS_MODE.AGREE.MGR 0).set R.SYS_MODE.AGREE.SAF 0).get R.SYS_MODE.AGREE.SAF == 1) = false
  rw [Chip.get_set_self]
  rfl

/-! ### Waiting for the outputs (R46) -/

/-- What does not touch the timing generators leaves the active outputs. -/
theorem Chip.Moves.activeOuts {l : List Part} {r : List Fld} {c d : Chip} (h : Chip.Moves l r c d)
    (hr : ∀ n ∈ List.range 8, (R.LDG_OUTS.LINE.RUNNING n).key ∉ r.map Fld.key) : d.activeOuts = c.activeOuts :=
  List.filter_congr fun n hn => congrArg (· == 1) (h.get (hr n hn))

/-- With an active output, none of which has switched yet, a transition waits. -/
theorem Chip.outsSwitched_none {c : Chip} (ha : c.activeOuts ≠ []) (hs : c.pow.switched = []) : c.outsSwitched = false := by
  obtain ⟨n, hn⟩ := List.exists_mem_of_ne_nil _ ha
  rw [Chip.outsSwitched, List.all_eq_false]
  exact ⟨n, hn, by simp [hs]⟩

/-- A transition begins for which no output has switched yet. -/
def Chip.beginsTo (c : Chip) (m : Nat) : Chip := { c.modeStart m with pow := { c.pow with switched := [] } }

theorem Chip.moves_beginsTo (c : Chip) (m : Nat) :
    Chip.Moves [.rf, .pow] [R.SYS_MODE.MODE_STAT.BUSY, R.SYS_MODE.MODE_STAT.TARGET] c (c.beginsTo m) :=
  ((Chip.moves_modeStart c m).trans (Chip.moves_pow _ _)).mono (by decide) (by decide)

theorem Chip.beginsTo_modeBusy (c : Chip) (m : Nat) : (c.beginsTo m).modeBusy = true := Chip.modeBusy_modeStart c m

theorem Chip.beginsTo_modeTarget (c : Chip) (m : Nat) : (c.beginsTo m).modeTarget = m % 8 := Chip.modeTarget_modeStart c m

/-! ### RUN → VIGIL -/

theorem Chip.moves_toVigil (c : Chip) :
    Chip.Moves [.rf, .pow] [R.SYS_MODE.MODE_STAT.BUSY, R.SYS_MODE.MODE_STAT.TARGET] c c.toVigil :=
  ((Chip.moves_modeStart c _).trans (Chip.moves_pow _ _)).mono (by decide) (by decide)

theorem Chip.toVigil_modeBusy (c : Chip) : c.toVigil.modeBusy = true := Chip.modeBusy_modeStart c Mode.VIGIL

theorem Chip.toVigil_modeTarget (c : Chip) : c.toVigil.modeTarget = Mode.VIGIL := Chip.modeTarget_modeStart c Mode.VIGIL

theorem Chip.toVigil_quiesce (c : Chip) : c.toVigil.pow.quiesce = (List.range 25).filter fun d => decide (2 ≤ d) && c.pdOn d := by
  have same (d : Nat) : (c.modeStart Mode.VIGIL).pdOn d = c.pdOn d :=
    congrArg (Nat.testBit · d) ((Chip.moves_modeStart c Mode.VIGIL).get (by decide))
  simp only [Chip.toVigil, same]

/-! ### RUN → DEGRADED -/

theorem Chip.moves_cmpHold (c : Chip) (ps : List Nat) : Chip.Moves [.cmp] [] c (c.cmpHold ps) := Chip.moves_cmp c _

theorem Chip.mem_hold_cmpHold (c : Chip) {ps : List Nat} {p : Nat} (h : p ∈ ps) : p ∈ (c.cmpHold ps).cmp.hold :=
  List.mem_append_left _ h

/-- With an active output, Degraded composition is called for and the transition waits until every active output shows it. -/
theorem Chip.degradeStart_waits {c : Chip} (ha : c.activeOuts ≠ []) :
    c.degradeStart = (c.cmpHold (List.range 8)).beginsTo Mode.DEGRADED := by
  have hm := (Chip.moves_cmpHold c (List.range 8)).trans (Chip.moves_beginsTo _ Mode.DEGRADED)
  have waits : ((c.cmpHold (List.range 8)).beginsTo Mode.DEGRADED).outsSwitched = false :=
    Chip.outsSwitched_none (by rwa [hm.activeOuts (by decide)]) rfl
  change ((c.cmpHold (List.range 8)).beginsTo Mode.DEGRADED).degradeCheck = _
  simp [Chip.degradeCheck, waits]

theorem Chip.moves_degradeStart {c : Chip} (ha : c.activeOuts ≠ []) :
    Chip.Moves [.rf, .pow, .cmp] [R.SYS_MODE.MODE_STAT.BUSY, R.SYS_MODE.MODE_STAT.TARGET] c c.degradeStart := by
  rw [Chip.degradeStart_waits ha]
  exact ((Chip.moves_cmpHold c _).trans (Chip.moves_beginsTo _ _)).mono (by decide) (by decide)

theorem Chip.toDegraded_waits {c : Chip} (hm : c.mode = Mode.RUN) (ha : c.activeOuts ≠ []) :
    c.toDegraded = (c.cmpHold (List.range 8)).beginsTo Mode.DEGRADED := by
  have same : c.degradeStart.mode = Mode.RUN := ((Chip.moves_degradeStart ha).get (by decide)).trans hm
  unfold Chip.toDegraded
  rw [if_neg (by rw [same]; decide), Chip.degradeStart_waits ha]

/-! ### RUN → SERVICE -/

theorem Chip.moves_forN {l : List Part} {r : List Fld} {f : Nat → Chip → Chip} (h : ∀ i c, Chip.Moves l r c (f i c)) (n : Nat) (c : Chip) :
    Chip.Moves l r c (forN n c f) := by
  induction n with
  | zero => exact (Chip.Moves.refl c).mono (List.nil_subset _) (List.nil_subset _)
  | succ n ih =>
    rw [forN_succ]
    exact (ih.trans (h n _)).mono (by simp) (by simp)

theorem Chip.moves_bannerNow (c : Chip) : Chip.Moves [.cmp] [] c c.bannerNow := by
  refine Chip.moves_forN (fun n c => ?_) 8 c
  dsimp only
  split
  · exact Chip.moves_cmp c _
  · exact (Chip.Moves.refl c).mono (by decide) (by decide)

theorem Chip.moves_ptbShow (c : Chip) :
    Chip.Moves [.rf] [R.PTB.PTB_STAT.SERVICE, R.PTB.PTB_STAT.TEST_BUSY, R.PTB.PTB_STAT.ACTIVE] c c.ptbShow :=
  (((Chip.moves_set c _ _).trans (Chip.moves_set _ _ _)).trans (Chip.moves_set _ _ _)).mono (by decide) (by decide)

theorem Chip.ptbShow_service (c : Chip) : c.ptbShow.flag R.PTB.PTB_STAT.SERVICE = (c.mode == Mode.SERVICE) := by
  rw [Chip.flag, Chip.ptbShow, Chip.get_set_of_ne _ _ (by decide), Chip.get_set_of_ne _ _ (by decide), Chip.get_set_self]
  cases c.mode == Mode.SERVICE <;> rfl

/-- The chip once RUN → SERVICE has begun; the pipes that compose a next frame carry the banner. -/
def Chip.servicing (c : Chip) : Chip := (c.beginsTo Mode.SERVICE).bannerNow

theorem Chip.moves_servicing (c : Chip) :
    Chip.Moves [.rf, .pow, .cmp] [R.SYS_MODE.MODE_STAT.BUSY, R.SYS_MODE.MODE_STAT.TARGET] c c.servicing :=
  ((Chip.moves_beginsTo c _).trans (Chip.moves_bannerNow _)).mono (by decide) (by decide)

theorem Chip.servicing_switched (c : Chip) : c.servicing.pow.switched = [] := by
  have same : c.servicing.pow = (c.beginsTo Mode.SERVICE).pow := (Chip.moves_bannerNow _).1 .pow (by decide)
  rw [same]
  rfl

theorem Chip.servicing_mode (c : Chip) : c.servicing.mode = c.mode := (Chip.moves_servicing c).get (by decide)

theorem Chip.servicing_modeBusy (c : Chip) : c.servicing.modeBusy = true :=
  (congrArg (· == 1) ((Chip.moves_bannerNow _).get (by decide))).trans (Chip.beginsTo_modeBusy c Mode.SERVICE)

theorem Chip.servicing_modeTarget (c : Chip) : c.servicing.modeTarget = Mode.SERVICE :=
  ((Chip.moves_bannerNow _).get (by decide)).trans (Chip.beginsTo_modeTarget c Mode.SERVICE)

theorem Chip.servicing_activeOuts (c : Chip) : c.servicing.activeOuts = c.activeOuts := (Chip.moves_servicing c).activeOuts (by decide)

theorem Chip.toService_waits {c : Chip} (ha : c.activeOuts ≠ []) : c.toService = c.servicing := by
  have waits : c.servicing.outsSwitched = false :=
    Chip.outsSwitched_none (by rwa [Chip.servicing_activeOuts]) (Chip.servicing_switched c)
  change c.servicing.serviceCheck = _
  simp [Chip.serviceCheck, waits]

theorem Chip.toService_done {c : Chip} (ha : c.activeOuts = []) :
    c.toService = ((c.servicing.modeDone Mode.SERVICE).record 0x1503 0xFF [1, 0]).ptbShow := by
  have shown : c.servicing.outsSwitched = true := by rw [Chip.outsSwitched, Chip.servicing_activeOuts, ha]; rfl
  change c.servicing.serviceCheck = _
  simp [Chip.serviceCheck, shown, Chip.servicing_modeBusy, Chip.servicing_modeTarget]

/-! ### DEGRADED → RUN (R47) -/

/-- Registers that the return from DEGRADED writes, or the agreement to it. -/
def agreeRegs : List Fld := modeDoneRegs ++ [R.SYS_MODE.AGREE.MGR, R.SYS_MODE.AGREE.SAF]

/-- The last step of the return: PD_CMP begins to rise if it is off. -/
def Chip.cmpRises (c : Chip) : Chip := if c.pdOn PD.CMP then c else { c with pow := { c.pow with cmpRising := true } }

theorem Chip.fromDegraded_eq (c : Chip) : c.fromDegraded = ((c.requestBack.modeDone Mode.RUN).agreeClear).cmpRises := rfl

theorem Chip.moves_cmpRises (c : Chip) : Chip.Moves [.pow] [] c c.cmpRises := by
  unfold Chip.cmpRises
  split
  · exact (Chip.Moves.refl c).mono (by decide) (by decide)
  · exact Chip.moves_pow c _

/-- From the domains being as in RUN to mode RUN. -/
theorem Chip.moves_returnEnd (c : Chip) :
    Chip.Moves [.rf, .deliveries, .pow] agreeRegs c ((c.modeDone Mode.RUN).agreeClear).cmpRises :=
  (((Chip.moves_modeDone c _).trans (Chip.moves_agreeClear _)).trans (Chip.moves_cmpRises _)).mono (by decide) (by decide)

theorem Chip.mode_returnEnd (c : Chip) : ((c.modeDone Mode.RUN).agreeClear).cmpRises.mode = Mode.RUN :=
  (((Chip.moves_agreeClear _).trans (Chip.moves_cmpRises _)).get (by decide)).trans (Chip.mode_modeDone c Mode.RUN)

theorem Chip.pdOn_returnEnd (c : Chip) (d : Nat) : ((c.modeDone Mode.RUN).agreeClear).cmpRises.pdOn d = c.pdOn d :=
  congrArg (Nat.testBit · d) ((Chip.moves_returnEnd c).get (by decide))

/-- After the return no agreement is pending. -/
theorem Chip.agreed_returnEnd (c : Chip) :
    ((c.modeDone Mode.RUN).agreeClear).cmpRises.flag R.SYS_MODE.AGREE.MGR = false ∧
      ((c.modeDone Mode.RUN).agreeClear).cmpRises.flag R.SYS_MODE.AGREE.SAF = false :=
  have kept (f : Fld) : ((c.modeDone Mode.RUN).agreeClear).cmpRises.flag f = ((c.modeDone Mode.RUN).agreeClear).flag f :=
    congrArg (· == 1) ((Chip.moves_cmpRises _).get (List.not_mem_nil))
  ⟨(kept _).trans (Chip.agreeClear_mgr _), (kept _).trans (Chip.agreeClear_saf _)⟩

/-- R49: the return powers PD_CMP on where it is off. -/
theorem Chip.cmpRising_returnEnd {c : Chip} (h : c.pdOn PD.CMP = false) :
    ((c.modeDone Mode.RUN).agreeClear).cmpRises.pow.cmpRising = true := by
  have off : ((c.modeDone Mode.RUN).agreeClear).pdOn PD.CMP = false :=
    (congrArg (Nat.testBit · PD.CMP) (((Chip.moves_modeDone c Mode.RUN).trans (Chip.moves_agreeClear _)).get (by decide))).trans h
  rw [Chip.cmpRises, if_neg (by simp [off])]

/-- The manager posts its agreement where the island has not agreed. -/
def Chip.mgrAgrees (c : Chip) : Chip :=
  let d := (c.set R.SYS_MODE.AGREE.MGR 1).raise 0x001 2
  { d with pow := { d.pow with agreeLeft := d.get R.SYS_MODE.AGREE.WINDOW } }

theorem Chip.moves_mgrAgrees (c : Chip) :
    Chip.Moves [.rf, .deliveries, .pow] [R.SYS_MODE.AGREE.MGR, H.IRQ_RAW 1] c c.mgrAgrees :=
  (((Chip.moves_set c _ _).trans (Chip.moves_raise _ _ _)).trans (Chip.moves_pow _ _)).mono (by decide) (by decide)

theorem Chip.mgrAgrees_mgr (c : Chip) : c.mgrAgrees.flag R.SYS_MODE.AGREE.MGR = true := by
  change (((c.set R.SYS_MODE.AGREE.MGR 1).raise 0x001 2).get R.SYS_MODE.AGREE.MGR == 1) = true
  rw [Chip.get_raise_of_ne _ _ _ (by decide), Chip.get_set_self]
  rfl

theorem Chip.mgrAgrees_agreeLeft (c : Chip) : c.mgrAgrees.pow.agreeLeft = c.get R.SYS_MODE.AGREE.WINDOW :=
  ((Chip.moves_set c _ _).trans (Chip.moves_raise _ _ _)).get (by decide)

theorem Chip.agreePost_posts {c : Chip} (hs : c.flag R.SYS_MODE.AGREE.SAF = false) (hm : c.flag R.SYS_MODE.AGREE.MGR = false) :
    c.agreePost true = c.mgrAgrees := by
  simp [Chip.agreePost, Chip.mgrAgrees, hs, hm]

theorem Chip.agreePost_returns {c : Chip} (hs : c.flag R.SYS_MODE.AGREE.SAF = true) : c.agreePost true = c.fromDegraded := by
  simp [Chip.agreePost, hs]

/-! ### A write of MODE_REQ (R46) -/

/-- A noted rejection: PAGE_ERR and what the block keeps of it. -/
theorem Chip.notedPort_fail {c : Chip} {src : Src} {p off e : Nat} {l : List (Bool × Nat)} {note : Nat → Chip → Chip} {eff : Chip → Chip}
    (h : Reaches c src p) (hl : firstFail l = some e) (he : e ≠ E.CLAIMED) :
    c.notedPort src p off l note eff = note e (c.reject p off (srcCode src) e) := by
  obtain ⟨heard, here⟩ := h
  simp [Chip.notedPort, Chip.claimPort, Chip.port_fail ⟨heard, here⟩ hl, hl, he, heard, here]

section
variable {c : Chip} {src : Src} (reach : Reaches c src 1) (busy : c.modeBusy = false) (held : c.pow.islandHeld = false)
include reach busy held

theorem Chip.modeRequest_vigil (mgr : c.isMgr src = true) (hm : c.mode = Mode.RUN) (free : c.computeClaimed = false ∨ isSecure src = true)
    (idle : c.flag R.SYS_POWER.PD_RESULT.BUSY = false)
    (wakes : c.get R.SYS_MODE.VIGIL_CFG.WK_PIN ≠ 0 ∨ c.get R.SYS_MODE.VIGIL_CFG.WK_TOUCH ≠ 0 ∨ c.get R.SYS_MODE.VIGIL_CFG.WK_RTC ≠ 0
      ∨ c.get R.SYS_MODE.VIGIL_CFG.WK_GPIO ≠ 0 ∨ c.get R.SYS_MODE.VIGIL_CFG.TIMEOUT ≠ 0) :
    c.modeRequest src Mode.VIGIL = c.toVigil := by
  unfold Chip.modeRequest
  refine (Chip.notedPort_effect reach ?_).trans rfl
  have cfg : (c.get R.SYS_MODE.VIGIL_CFG.WK_PIN + c.get R.SYS_MODE.VIGIL_CFG.WK_TOUCH + c.get R.SYS_MODE.VIGIL_CFG.WK_RTC
    + c.get R.SYS_MODE.VIGIL_CFG.WK_GPIO + c.get R.SYS_MODE.VIGIL_CFG.TIMEOUT == 0) = false := by
    rw [beq_eq_false_iff_ne]; omega
  have claim : (!isSecure src && c.computeClaimed) = false := by rcases free with h | h <;> simp [h]
  simp [Chip.mgrOrCtl, hm, mgr, busy, held, idle, cfg, claim, permitted, bits, Mode.RUN, Mode.VIGIL, Mode.SERVICE, Mode.DEGRADED]

theorem Chip.modeRequest_degraded (mgr : c.isMgr src = true) (hm : c.mode = Mode.RUN) : c.modeRequest src Mode.DEGRADED = c.toDegraded := by
  unfold Chip.modeRequest
  refine (Chip.notedPort_effect reach ?_).trans rfl
  simp [Chip.mgrOrCtl, hm, mgr, busy, held, permitted, bits, Mode.RUN, Mode.VIGIL, Mode.SERVICE, Mode.DEGRADED]

theorem Chip.modeRequest_run (mgr : c.isMgr src = true) (hm : c.mode = Mode.DEGRADED) : c.modeRequest src Mode.RUN = c.agreePost true := by
  unfold Chip.modeRequest
  refine (Chip.notedPort_effect reach ?_).trans ?_
  · simp [Chip.mgrOrCtl, hm, mgr, busy, held, permitted, bits, Mode.RUN, Mode.VIGIL, Mode.SERVICE, Mode.DEGRADED]
  · simp [hm, bits, Mode.RUN, Mode.VIGIL, Mode.SERVICE, Mode.DEGRADED]

theorem Chip.modeRequest_service (sec : isSecure src = true) (hm : c.mode = Mode.RUN) (en : c.flag R.SYS_BOOT.STRAPS.SERVICE_EN = true) :
    c.modeRequest src Mode.SERVICE = c.toService := by
  unfold Chip.modeRequest
  refine (Chip.notedPort_effect reach ?_).trans ?_
  · have ctl : isControl src = true := by cases src <;> simp_all [isSecure, isControl]
    simp [Chip.mgrOrCtl, hm, sec, ctl, en, busy, held, permitted, bits, Mode.RUN, Mode.VIGIL, Mode.SERVICE, Mode.DEGRADED]
  · simp [bits, Mode.VIGIL, Mode.SERVICE, Mode.DEGRADED]

end

/-- R5: no transition leads to the other modes, whatever the mode is. -/
theorem Chip.modeRequest_other {c : Chip} {src : Src} {target : Nat} (reach : Reaches c src 1) (who : c.mgrOrCtl src = true)
    (ht : target = Mode.DORMANT ∨ target = Mode.BOOT ∨ target = 6 ∨ target = 7) :
    c.modeRequest src (target % 8) = (c.reject 0x001 0x044 (srcCode src) E.MODE).modeReject E.MODE := by
  unfold Chip.modeRequest
  refine (Chip.notedPort_fail reach (e := E.MODE) ?_ (by decide)).trans rfl
  rcases ht with rfl | rfl | rfl | rfl <;>
    simp [who, permitted, bits, Mode.RUN, Mode.VIGIL, Mode.SERVICE, Mode.DEGRADED, Mode.DORMANT, Mode.BOOT]

/-- The level at the SERVICE_EN ball bears on no access of the secure world. -/
theorem reaches_set_serviceEn {c : Chip} {src : Src} (h : Reaches c src 1) (sec : isSecure src = true) (v : Nat) :
    Reaches (c.set R.SYS_BOOT.STRAPS.SERVICE_EN v) src 1 := by
  cases src with
  | ccs k =>
    have fab : (c.set R.SYS_BOOT.STRAPS.SERVICE_EN v).fabOn = c.fabOn := congrArg (Nat.testBit · 19) (Chip.get_set_of_ne _ _ (by decide))
    refine ⟨?_, h.2⟩
    simpa [Chip.unheard, fab] using h.1
  | _ => exact absurd sec (by simp [isSecure])

/-! ### The commands -/

/-- The level at the SERVICE_EN ball, high. -/
def Chip.serviceBall (c : Chip) : Chip := c.set R.SYS_BOOT.STRAPS.SERVICE_EN 1

theorem exec_modeReqVigil (src : Src) (s : State) : exec (.modeReqVigil src) s = s.on true fun c => c.modeRequest src Mode.VIGIL := rfl

theorem exec_modeReqDegraded (src : Src) (s : State) :
    exec (.modeReqDegraded src) s = s.on true fun c => c.modeRequest src Mode.DEGRADED := rfl

theorem exec_modeReqRun (src : Src) (s : State) : exec (.modeReqRun src) s = s.on true fun c => c.modeRequest src Mode.RUN := rfl

theorem exec_modeReqService (src : Src) (s : State) :
    exec (.modeReqService src true) s = s.on true fun c => c.serviceBall.modeRequest src Mode.SERVICE := rfl

theorem exec_modeReqOther (src : Src) (target : Nat) (s : State) :
    exec (.modeReqOther src target) s = s.on true fun c => c.modeRequest src (target % 8) := rfl

theorem exec_islandDegradeReq (s : State) : exec (.islandDegradeReq .island) s = s.on true fun c => c.islModeReq .island 1 := rfl

/-- A command that acts on the chip alone completes with what it makes of the chip. -/
theorem completes_of_chip {i : Instr} {s : State} {f : Chip → Chip} {d : Chip} {P : State → Prop} (hi : exec i s = s.on true f)
    (hf : f s.chip = d) (hP : P { s with chip := d }) : Completes i s P :=
  ⟨_, hi.trans (State.on_next.2 ⟨rfl, by rw [hf]⟩), hP⟩

/-- What the return from DEGRADED does where the domains stand as in RUN already. -/
theorem Chip.fromDegraded_of_asInRun {c : Chip} (h : DomainsAsInRun c c.pow.savedPd) :
    c.fromDegraded = ((c.modeDone Mode.RUN).agreeClear).cmpRises := by
  rw [Chip.fromDegraded_eq, Chip.requestBack_eq_self h]

/-- R52: behind the return the domains stand as in RUN, wherever they stood before. -/
theorem Chip.fromDegraded_asInRun (c : Chip) : DomainsAsInRun c.fromDegraded c.pow.savedPd := by
  intro d hd
  rw [Chip.fromDegraded_eq, Chip.pdOn_returnEnd]
  exact c.requestBack_asInRun d hd

/-- RUN → SERVICE without an active output. -/
theorem Chip.moves_toService_done {c : Chip} (ha : c.activeOuts = []) :
    Chip.Moves [.rf, .deliveries, .cmp, .csk, .pow]
      (modeDoneRegs ++ [R.PTB.PTB_STAT.SERVICE, R.PTB.PTB_STAT.TEST_BUSY, R.PTB.PTB_STAT.ACTIVE]) c c.toService := by
  rw [Chip.toService_done ha]
  exact ((((Chip.moves_servicing c).trans (Chip.moves_modeDone _ _)).trans (Chip.moves_record _ _ _ _)).trans (Chip.moves_ptbShow _)).mono
    (by decide) (by decide)

theorem Chip.toService_done_mode {c : Chip} (ha : c.activeOuts = []) :
    c.toService.mode = Mode.SERVICE ∧ c.toService.flag R.PTB.PTB_STAT.SERVICE = true := by
  rw [Chip.toService_done ha]
  have hm : ((c.servicing.modeDone Mode.SERVICE).record 0x1503 0xFF [1, 0]).mode = Mode.SERVICE := Chip.mode_modeDone _ _
  exact ⟨((Chip.moves_ptbShow _).get (by decide)).trans hm, by rw [Chip.ptbShow_service, hm]; rfl⟩

theorem Chip.serviceBall_flag (c : Chip) : c.serviceBall.flag R.SYS_BOOT.STRAPS.SERVICE_EN = true :=
  congrArg (· == 1) (Chip.get_set_self c R.SYS_BOOT.STRAPS.SERVICE_EN 1)

theorem Chip.moves_serviceBall (c : Chip) : Chip.Moves [.rf] [R.SYS_BOOT.STRAPS.SERVICE_EN] c c.serviceBall := Chip.moves_set c _ 1

theorem Chip.serviceBall_mode (c : Chip) : c.serviceBall.mode = c.mode := c.moves_serviceBall.get (by decide)

/-- The ball's level has no say in whether a request for SERVICE is accepted but by the strap itself. -/
theorem Chip.modeRequest_serviceBall {c : Chip} {src : Src} (reach : Reaches c src 1) (sec : isSecure src = true) (hm : c.mode = Mode.RUN)
    (busy : c.modeBusy = false) (held : c.pow.islandHeld = false) : c.serviceBall.modeRequest src Mode.SERVICE = c.serviceBall.toService :=
  Chip.modeRequest_service (reaches_set_serviceEn reach sec 1)
    ((congrArg (· == 1) ((Chip.moves_serviceBall c).get (by decide))).trans busy) held sec
    (c.serviceBall_mode.trans hm) c.serviceBall_flag

/-- Settles O1: each clause names what the accepted or rejected request makes of the chip, and reads off it what has changed. -/
theorem modeRequestsTakeEffect : Obligations.ModeRequestsTakeEffect := by
  unfold Obligations.ModeRequestsTakeEffect
  refine ⟨?vigil, ?degraded, ?run, ?domains, ?service, ?banner, ?other⟩
  case vigil =>
    intro s src reach mgr hm busy held free idle wakes
    refine completes_of_chip (exec_modeReqVigil ..) (Chip.modeRequest_vigil reach busy held mgr hm free idle wakes) ?_
    exact ⟨s.chip.toVigil_modeBusy, s.chip.toVigil_modeTarget, s.chip.toVigil_quiesce, s.chip.moves_toVigil.only⟩
  case degraded =>
    intro s src reach mgr hm busy held active
    have waits := Chip.toDegraded_waits hm active
    refine completes_of_chip (exec_modeReqDegraded ..) ((Chip.modeRequest_degraded reach busy held mgr hm).trans waits) ?_
    refine ⟨Chip.beginsTo_modeBusy _ _, Chip.beginsTo_modeTarget _ _, rfl, fun p hp => Chip.mem_hold_cmpHold s.chip hp, ?_⟩
    exact (Chip.degradeStart_waits active ▸ Chip.moves_degradeStart active).only
  case run =>
    intro s src reach mgr hm busy held notYet asInRun
    have request := Chip.modeRequest_run reach busy held mgr hm
    cases saf : s.chip.flag R.SYS_MODE.AGREE.SAF with
    | false =>
      refine completes_of_chip (exec_modeReqRun ..) (request.trans (Chip.agreePost_posts saf notYet)) ?_
      refine ⟨fun _ => ⟨?_, s.chip.mgrAgrees_mgr, s.chip.mgrAgrees_agreeLeft⟩, fun h => absurd h (by simp), ?_⟩
      · exact (s.chip.moves_mgrAgrees.get (by decide)).trans hm
      · exact (s.chip.moves_mgrAgrees.mono (by decide) (by decide)).only
    | true =>
      have back := (Chip.agreePost_returns saf).trans (Chip.fromDegraded_of_asInRun (asInRun saf))
      refine completes_of_chip (exec_modeReqRun ..) (request.trans back) ?_
      obtain ⟨noMgr, noSaf⟩ := s.chip.agreed_returnEnd
      exact ⟨fun h => absurd h (by simp), fun _ => ⟨s.chip.mode_returnEnd, noMgr, noSaf, Chip.cmpRising_returnEnd⟩,
        s.chip.moves_returnEnd.only⟩
  case domains =>
    intro s src reach mgr hm busy held saf
    have back := Chip.agreePost_returns saf
    refine completes_of_chip (exec_modeReqRun ..) ((Chip.modeRequest_run reach busy held mgr hm).trans back) ?_
    exact ⟨Chip.mode_returnEnd _, s.chip.fromDegraded_asInRun, rfl, rfl⟩
  case service =>
    intro s src reach sec hm busy held still
    refine completes_of_chip (exec_modeReqService ..) (Chip.modeRequest_serviceBall reach sec hm busy held) ?_
    have still : s.chip.serviceBall.activeOuts = [] := (s.chip.moves_serviceBall.activeOuts (by decide)).trans still
    obtain ⟨mode, shown⟩ := Chip.toService_done_mode still
    have strap := congrArg (· == 1) ((Chip.moves_toService_done still).get (f := R.SYS_BOOT.STRAPS.SERVICE_EN) (by decide))
    dsimp only
    refine ⟨mode, shown, strap.trans s.chip.serviceBall_flag, ?_⟩
    exact ((s.chip.moves_serviceBall.trans (Chip.moves_toService_done still)).mono (by decide) (List.Subset.refl _)).onlyPages (by decide)
  case banner =>
    intro s src reach sec hm busy held active
    have active : s.chip.serviceBall.activeOuts ≠ [] := by rwa [s.chip.moves_serviceBall.activeOuts (by decide)]
    refine completes_of_chip (exec_modeReqService ..) ((Chip.modeRequest_serviceBall reach sec hm busy held).trans (Chip.toService_waits active)) ?_
    dsimp only
    have moves := s.chip.moves_serviceBall.trans s.chip.serviceBall.moves_servicing
    refine ⟨(Chip.servicing_mode _).trans (s.chip.serviceBall_mode.trans hm), Chip.servicing_modeBusy _, Chip.servicing_modeTarget _,
      Chip.servicing_switched _, ?_⟩
    exact (moves.mono (by decide) (by decide)).only
  case other =>
    intro s src target reach who named
    refine completes_of_chip (exec_modeReqOther ..) (Chip.modeRequest_other reach who named) ?_
    have rejected := s.chip.moves_reject 0x001 0x044 (srcCode src) E.MODE
    refine ⟨Chip.get_modeReject_lastErr _ _, ?_, ?_⟩
    · exact (Chip.get_modeReject_rejectCnt _ _).trans (by rw [rejected.get (by decide)])
    · exact ((rejected.trans (Chip.moves_modeReject _ _)).mono (by decide) (by decide)).only

/-! ### The island's request while PD_FAB is off -/

/-- A request of the island for DEGRADED in BOOT is a rejection on its own page and nothing else while PD_FAB is off: MODE_STAT and Cask learn nothing
of it, although the island's own path carries the write. -/
theorem Chip.islModeReq_fabOff {c : Chip} (reach : Reaches c .island 0x130) (hm : c.mode = Mode.BOOT) (off : c.fabOn = false) :
    c.islModeReq .island 1 = c.reject 0x130 0x05C (srcCode .island) E.MODE := by
  have code : c.islandDegrade.1 = some E.MODE := by simp [Chip.islandDegrade, hm]
  unfold Chip.islModeReq
  dsimp only
  rw [if_neg (by simp [off]), Chip.safWrite, Chip.port_fail reach]
  simp [code]

/-- BOOT with PD_SAFE and PD_DISP on and PD_FAB off. -/
def islandAloneInBoot : State := { chip := Chip.set {} R.SYS_POWER.PD_ON.ON 0xC }

theorem reaches_islandAloneInBoot : Reaches islandAloneInBoot.chip .island 0x130 := by decide +kernel

/-- Refutes O2: with PD_FAB off in BOOT the island's own path carries its request for DEGRADED to page 0x130 (R14), where it is rejected, but LAST_ERR
does not become E_MODE (R50). -/
theorem not_islandRequestsAndAgreements : ¬ Obligations.IslandRequestsAndAgreements := by
  unfold Obligations.IslandRequestsAndAgreements
  rintro ⟨-, inBoot, -, -⟩
  obtain ⟨t, answers, lastErr, -, -⟩ := inBoot islandAloneInBoot reaches_islandAloneInBoot (by decide)
  obtain ⟨-, rfl⟩ := State.on_next.1 ((exec_islandDegradeReq _).symm.trans answers)
  rw [Chip.islModeReq_fabOff reaches_islandAloneInBoot (by decide) (by decide), Chip.get_reject_of_ne _ _ _ _ _ (by decide)] at lastErr
  exact absurd lastErr (by decide)

end Sys2Proof.Machine

/-! # The register model

Chapter `03_register_model.md`: what a staged set holds after GO, DISCARD, the end of validation and the latch (R38–R40, R315, R330), what reset leaves
(R33, R36), and a read that changes a register (R34). -/

namespace Sys2Proof.Machine

/-! ### One-bit fields -/

theorem Chip.flag_false {c : Chip} {f : Fld} (h : c.get f = 0) : c.flag f = false := by simp [Chip.flag, h]

theorem Chip.flag_true {c : Chip} {f : Fld} (h : c.get f = 1) : c.flag f = true := by simp [Chip.flag, h]

/-! ### Commands that write a register word -/

/-- An access that reaches a page of the register window is not made through the window of a virtual function (R44). -/
theorem not_inst_of_reaches {c : Chip} {src : Src} {p : Nat} (h : Reaches c src p) (vi : Nat) : src ≠ .inst vi := by
  rintro rfl
  exact absurd h.2 (Option.some_ne_none _)

/-- An aligned access of four bytes outside the recovery window is a write of the word they spell (R34). -/
theorem Chip.busWrite_word {c : Chip} {m : Mems} {src : Src} {p off : Nat} {bs : List Byte} (window : c.recoveryAt src p off = none)
    (heard : c.unheard src p = false) (aligned : off % 4 = 0) (four : bs.length = 4) :
    c.busWrite m src p off bs = c.wordWrite m src p off (leNat bs) := by
  simp [Chip.busWrite, window, heard, aligned, four]

/-- The word at 0x024 of a page with staged sets is COMMIT. -/
theorem Chip.wordWrite_commit {c : Chip} {m : Mems} {src : Src} {p data : Nat} (reach : Reaches c src p) (page : isCommitPage p = true) :
    c.wordWrite m src p 0x024 data = (c.commitWrite src p data, m) := by
  have window := not_inst_of_reaches reach
  cases src with
  | inst vi => exact absurd rfl (window vi)
  | _ => simp [Chip.wordWrite, Chip.headWrite, page]

/-- A command that writes COMMIT completes with what the write makes of the chip. -/
theorem completes_of_commit {i : Instr} {s : State} {src : Src} {p v : Nat} {d : Chip} {P : State → Prop}
    (hi : exec i s = s.onMem (placeOk src p 0x024) fun c m => c.busWrite m src p 0x024 (leBytes 4 v)) (hv : leNat (leBytes 4 v) = v)
    (place : placeOk src p 0x024 = true ∧ isCommitPage p = true) (window : s.chip.recoveryAt src p 0x024 = none) (reach : Reaches s.chip src p)
    (hd : s.chip.commitWrite src p v = d) (hP : P { s with chip := d }) : Completes i s P := by
  obtain ⟨exists_, page⟩ := place
  have word : s.chip.busWrite s.mem src p 0x024 (leBytes 4 v) = (d, s.mem) := by
    rw [Chip.busWrite_word window reach.1 rfl rfl, hv, Chip.wordWrite_commit reach page, hd]
  exact ⟨_, hi.trans (State.onMem_next.2 ⟨exists_, by rw [word]⟩), hP⟩

theorem exec_commitGo (src : Src) (p : Nat) (s : State) :
    exec (.commitGo src p) s = s.onMem (placeOk src p 0x024) fun c m => c.busWrite m src p 0x024 (leBytes 4 1) := rfl

theorem exec_commitDiscard (src : Src) (p : Nat) (s : State) :
    exec (.commitDiscard src p) s = s.onMem (placeOk src p 0x024) fun c m => c.busWrite m src p 0x024 (leBytes 4 2) := rfl

theorem exec_commitValidationEnd (p : Nat) (s : State) :
    exec (.commitValidationEnd p) s = s.on (p < 512) fun c => c.when (isCommitPage p) fun c => c.commitValidated p := rfl

theorem exec_commitLatch (p : Nat) (s : State) :
    exec (.commitLatch p) s = s.on (p < 512) fun c => c.when (c.latchDue p) fun c => c.commitLatched p := rfl

/-! ### One staged set put back -/

@[simp] theorem Chip.set_stage (c : Chip) (f : Fld) (v q : Nat) : (c.set f v).stage q = c.stage q := rfl

@[simp] theorem Chip.get_putStage (c : Chip) (x : StageSet) (f : Fld) : (c.putStage x).get f = c.get f := by
  unfold Chip.putStage
  dsimp only
  split <;> rfl

theorem Chip.moves_putStage (c : Chip) (x : StageSet) : Chip.Moves [.stg] [] c (c.putStage x) := by
  refine ⟨fun p hp => ?_, fun f _ => c.get_putStage x f⟩
  unfold Chip.putStage
  dsimp only
  split <;> cases p <;> simp_all [Part.same]

/-- The listed sets after `x` has been put back: those of the other pages, and `x` unless it is empty. -/
theorem Chip.mem_putStage {c : Chip} {x y : StageSet} (h : y ∈ (c.putStage x).stg) : y = x ∨ (y ∈ c.stg ∧ y.page ≠ x.page) := by
  unfold Chip.putStage at h
  dsimp only at h
  split at h
  · exact .inr (by simpa using h)
  · simp only [List.mem_append, List.mem_cons, List.mem_filter, decide_eq_true_eq] at h
    rcases h with ⟨kept, -⟩ | same | ⟨kept, -⟩
    · exact .inr kept
    · exact .inl same
    · exact .inr kept

@[simp] theorem Chip.stage_page (c : Chip) (q : Nat) : (c.stage q).page = q := by
  unfold Chip.stage
  cases h : c.stg.find? (fun x => x.page = q) with
  | none => rfl
  | some x => simpa using List.find?_some h

/-- Dropping sets of other pages does not change which set is listed for page `q`. -/
theorem find?_page_filter_of_kept {l : List StageSet} {p : StageSet → Bool} {q : Nat} (h : ∀ y ∈ l, y.page = q → p y = true) :
    (l.filter p).find? (fun y => y.page = q) = l.find? (fun y => y.page = q) := by
  induction l with
  | nil => rfl
  | cons x l ih =>
    have rest := ih fun y hy => h y (List.mem_cons_of_mem x hy)
    by_cases kept : p x = true
    · rw [List.filter_cons_of_pos kept, List.find?_cons, List.find?_cons, rest]
    · have other : ¬ decide (x.page = q) = true := fun own => kept (h x List.mem_cons_self (of_decide_eq_true own))
      rw [List.filter_cons_of_neg kept, List.find?_cons_of_neg (p := fun y : StageSet => decide (y.page = q)) other, rest]

/-- Where every set of page `q` is dropped, none is listed. -/
theorem find?_page_filter_of_dropped {l : List StageSet} {p : StageSet → Bool} {q : Nat} (h : ∀ y ∈ l, p y = true → y.page ≠ q) :
    (l.filter p).find? (fun y => y.page = q) = none := by
  simp only [List.find?_eq_none, List.mem_filter, decide_eq_true_eq]
  exact fun y hy => h y hy.1 hy.2

@[simp] theorem Chip.stage_putStage_self (c : Chip) (x : StageSet) : (c.putStage x).stage x.page = x := by
  unfold Chip.putStage Chip.stage
  dsimp only
  split
  next empty => rw [find?_page_filter_of_dropped (by simp), Option.getD_none, ← empty]
  next =>
    rw [List.find?_append, find?_page_filter_of_dropped (by grind), Option.none_or, List.find?_cons_of_pos (by simp), Option.getD_some]

theorem Chip.stage_putStage_of_ne (c : Chip) {x : StageSet} {q : Nat} (h : q ≠ x.page) : (c.putStage x).stage q = c.stage q := by
  have others : (c.stg.filter fun y => y.page ≠ x.page).find? (fun y => y.page = q) = c.stg.find? (fun y => y.page = q) :=
    find?_page_filter_of_kept (by grind)
  unfold Chip.putStage Chip.stage
  dsimp only
  split
  next => rw [others]
  next =>
    rw [List.find?_append, List.find?_cons_of_neg (by grind)]
    rcases Nat.lt_or_gt_of_ne h with below | above
    · rw [find?_page_filter_of_kept (by grind), others, find?_page_filter_of_dropped (by grind), Option.or_none]
    · rw [find?_page_filter_of_dropped (by grind), find?_page_filter_of_kept (by grind), others, Option.none_or]

theorem Chip.stage_putStage (c : Chip) (x : StageSet) (q : Nat) : (c.putStage x).stage q = if q = x.page then x else c.stage q := by
  split
  next same => rw [same, Chip.stage_putStage_self]
  next other => exact c.stage_putStage_of_ne other

/-- Putting a set back lists no page twice. -/
theorem Chip.nodup_putStage {c : Chip} (x : StageSet) (h : (c.stg.map (·.page)).Nodup) : ((c.putStage x).stg.map (·.page)).Nodup := by
  have sub (l : List StageSet) (p : StageSet → Bool) (hl : (l.map (·.page)).Nodup) : ((l.filter p).map (·.page)).Nodup :=
    hl.sublist ((List.filter_sublist).map _)
  unfold Chip.putStage
  dsimp only
  split
  · exact sub _ _ h
  · simp only [List.map_append, List.map_cons, List.nodup_append, List.nodup_cons]
    refine ⟨sub _ _ (sub _ _ h), ⟨?_, sub _ _ (sub _ _ h)⟩, ?_⟩
    · simp
    · simp only [List.mem_map, List.mem_filter, List.mem_cons, decide_eq_true_eq]
      rintro _ ⟨y, ⟨-, below⟩, rfl⟩ _ (rfl | ⟨z, ⟨-, above⟩, rfl⟩) <;> omega

/-- With no page listed twice, two listed sets of one page are the same. -/
theorem eq_of_page_eq {l : List StageSet} (h : (l.map (·.page)).Nodup) {x y : StageSet} (hx : x ∈ l) (hy : y ∈ l) (page : x.page = y.page) :
    x = y := by
  induction l with
  | nil => exact absurd hx List.not_mem_nil
  | cons z l ih =>
    rw [List.map_cons, List.nodup_cons] at h
    obtain ⟨alone, rest⟩ := h
    rcases List.mem_cons.1 hx with rfl | inX <;> rcases List.mem_cons.1 hy with rfl | inY
    · rfl
    · exact (alone (List.mem_map.2 ⟨y, inY, page.symm⟩)).elim
    · exact (alone (List.mem_map.2 ⟨x, inX, page⟩)).elim
    · exact ih rest inX inY

/-- With no page listed twice, a listed set is the set of its page. -/
theorem Chip.stage_of_mem {c : Chip} {x : StageSet} (h : (c.stg.map (·.page)).Nodup) (hx : x ∈ c.stg) : c.stage x.page = x := by
  unfold Chip.stage
  cases found : c.stg.find? (fun y => y.page = x.page) with
  | none => exact absurd (List.find?_eq_none.1 found x hx) (by simp)
  | some y => exact eq_of_page_eq h (List.mem_of_find?_eq_some found) hx (by simpa using List.find?_some found)

/-! ### Sets put back one after another -/

/-- The sets of the pages `l`, each changed by `g`. -/
def Chip.restage (c : Chip) (g : StageSet → StageSet) (l : List Nat) : Chip := l.foldl (fun c q => c.putStage (g (c.stage q))) c

/-- The sets `xs` put back. -/
def Chip.putStages (c : Chip) (xs : List StageSet) : Chip := xs.foldl Chip.putStage c

theorem Chip.moves_restage (c : Chip) (g : StageSet → StageSet) (l : List Nat) : Chip.Moves [.stg] [] c (c.restage g l) := by
  induction l generalizing c with
  | nil => exact (Chip.Moves.refl c).mono (by simp) (by simp)
  | cons q l ih => exact ((c.moves_putStage _).trans (ih _)).mono (by simp) (by simp)

theorem Chip.moves_putStages (c : Chip) (xs : List StageSet) : Chip.Moves [.stg] [] c (c.putStages xs) := by
  induction xs generalizing c with
  | nil => exact (Chip.Moves.refl c).mono (by simp) (by simp)
  | cons x xs ih => exact ((c.moves_putStage x).trans (ih _)).mono (by simp) (by simp)

/-- What `restage` makes of each set, where `g` keeps the page and does twice what it does once. -/
theorem Chip.stage_restage {g : StageSet → StageSet} (page : ∀ x, (g x).page = x.page) (twice : ∀ x, g (g x) = g x) (c : Chip) (l : List Nat)
    (q : Nat) : (c.restage g l).stage q = if q ∈ l then g (c.stage q) else c.stage q := by
  induction l generalizing c with
  | nil => rfl
  | cons k l ih =>
    refine (ih _).trans ?_
    rw [Chip.stage_putStage, page, Chip.stage_page]
    by_cases same : q = k <;> simp [same, twice]

theorem Chip.nodup_restage (g : StageSet → StageSet) {c : Chip} (l : List Nat) (h : (c.stg.map (·.page)).Nodup) :
    ((c.restage g l).stg.map (·.page)).Nodup := by
  induction l generalizing c with
  | nil => exact h
  | cons q l ih => exact ih (Chip.nodup_putStage _ h)

/-- After sets have been put back, the set of a page is the one it was or one of them. -/
theorem Chip.stage_putStages (c : Chip) (xs : List StageSet) (q : Nat) :
    (c.putStages xs).stage q = c.stage q ∨ ∃ x ∈ xs, x.page = q ∧ (c.putStages xs).stage q = x := by
  induction xs generalizing c with
  | nil => exact .inl rfl
  | cons x xs ih =>
    rcases ih (c.putStage x) with same | ⟨y, hy, page, is⟩
    · by_cases this : q = x.page
      · exact .inr ⟨x, List.mem_cons_self, this.symm, same.trans (this ▸ c.stage_putStage_self x)⟩
      · exact .inl (same.trans (c.stage_putStage_of_ne this))
    · exact .inr ⟨y, List.mem_cons_of_mem _ hy, page, is⟩

/-- After sets have been put back, one of them is listed or a set of another page. -/
theorem Chip.mem_putStages {c : Chip} {xs : List StageSet} {y : StageSet} (h : y ∈ (c.putStages xs).stg) :
    y ∈ xs ∨ (y ∈ c.stg ∧ ∀ x ∈ xs, y.page ≠ x.page) := by
  induction xs generalizing c with
  | nil => exact .inr ⟨h, by simp⟩
  | cons x xs ih =>
    rcases ih h with later | ⟨kept, other⟩
    · exact .inl (List.mem_cons_of_mem _ later)
    · rcases Chip.mem_putStage kept with rfl | ⟨listed, ne⟩
      · exact .inl List.mem_cons_self
      · exact .inr ⟨listed, by simpa [ne] using other⟩

/-! ### GO (R39) -/

/-- A set under validation by the COMMIT of page `p`. -/
def StageSet.underCheck (p : Nat) (x : StageSet) : StageSet := { x with busyBy := some p }

/-- The sets of `l` under validation, the source of the GO not yet noted. -/
def Chip.checking (c : Chip) (p : Nat) (l : List Nat) : Chip := c.restage (StageSet.underCheck p) l

theorem Chip.commitStart_eq (c : Chip) (src : Src) (p : Nat) (l : List Nat) :
    c.commitStart src p l = ((c.checking p l).putStage { (c.checking p l).stage p with goBy := some src }).set (H.BUSY p) 1 := rfl

theorem Chip.stage_checking (c : Chip) (p : Nat) (l : List Nat) (q : Nat) :
    (c.checking p l).stage q = if q ∈ l then (c.stage q).underCheck p else c.stage q :=
  Chip.stage_restage (g := StageSet.underCheck p) (fun _ => rfl) (fun _ => rfl) c l q

theorem Chip.moves_commitStart (c : Chip) (src : Src) (p : Nat) (l : List Nat) :
    Chip.Moves [.rf, .stg] [H.BUSY p] c (c.commitStart src p l) := by
  rw [Chip.commitStart_eq]
  exact (((c.moves_restage (StageSet.underCheck p) l).trans (Chip.moves_putStage _ _)).trans (Chip.moves_set _ _ _)).mono (by decide) (by simp)

theorem Chip.goBy_commitStart (c : Chip) (src : Src) (p : Nat) (l : List Nat) : ((c.commitStart src p l).stage p).goBy = some src := by
  rw [Chip.commitStart_eq, Chip.set_stage, Chip.stage_putStage, if_pos (Chip.stage_page _ _).symm]

/-- GO marks the sets that the COMMIT covers and keeps what they hold. -/
theorem Chip.stage_commitStart (c : Chip) (src : Src) (p : Nat) {l : List Nat} {q : Nat} (h : q ∈ l) :
    ((c.commitStart src p l).stage q).busyBy = some p ∧ ((c.commitStart src p l).stage q).shadow = (c.stage q).shadow := by
  have marked : (c.checking p l).stage q = (c.stage q).underCheck p := (c.stage_checking p l q).trans (if_pos h)
  rw [Chip.commitStart_eq, Chip.set_stage, Chip.stage_putStage]
  dsimp only
  split
  next own =>
    obtain rfl : q = p := own.trans (Chip.stage_page _ _)
    rw [marked]
    exact ⟨rfl, rfl⟩
  next => rw [marked]; exact ⟨rfl, rfl⟩

/-- A GO that no check of R38 and R39 stands against starts the validation. -/
theorem Chip.commitWrite_go {c : Chip} {src : Src} {p : Nat} {l : List Nat} (reach : Reaches c src p) (who : c.mgrOrCtl src = true)
    (covers : c.commitPages p = some l) (free : (l.all fun q => !c.shadowTaken src q && !c.shadowBusy q) = true)
    (cmp : isCmpPage p = false ∨ (c.mode ≠ Mode.DEGRADED ∧ c.pow.cmpRising = false)) (idle : c.get (H.BUSY p) = 0 ∧ c.get (H.PENDING p) = 0) :
    c.commitWrite src p 1 = c.commitStart src p l := by
  have own : (l.all fun q => !c.shadowTaken src q) = true := List.all_eq_true.2 fun q hq => by
    simpa using (Bool.and_eq_true_iff.1 (List.all_eq_true.1 free q hq)).1
  have still : (l.all fun q => !c.shadowBusy q) = true := List.all_eq_true.2 fun q hq => by
    simpa using (Bool.and_eq_true_iff.1 (List.all_eq_true.1 free q hq)).2
  have mode : (isCmpPage p && c.mode == Mode.DEGRADED) = false := by rcases cmp with h | ⟨h, -⟩ <;> simp [h]
  have rises : (isCmpPage p && c.pow.cmpRising) = false := by rcases cmp with h | ⟨-, h⟩ <;> simp [h]
  unfold Chip.commitWrite
  refine (Chip.port_effect reach ?_).trans (by simp [covers, Nat.testBit])
  simp [who, covers, own, still, mode, rises, Chip.flag_false idle.1, Chip.flag_false idle.2, bits, Nat.testBit]

/-! ### DISCARD (R39) -/

/-- A set whose shadow has been reloaded from the live registers. -/
def StageSet.reloaded (x : StageSet) : StageSet := { x with shadow := [], owner := none }

/-- A set that waits no longer. -/
def StageSet.withdrawn (x : StageSet) : StageSet := { x with pending := [], pendBy := none }

/-- The sets that the COMMIT of page `p` has pending, withdrawn. -/
def Chip.withdrawnBy (c : Chip) (p : Nat) : List StageSet := (c.stg.filter fun x => x.pendBy == some p).map StageSet.withdrawn

theorem Chip.commitDrop_eq (c : Chip) (p : Nat) (l : List Nat) :
    c.commitDrop p l = ((c.restage StageSet.reloaded l).putStages ((c.restage StageSet.reloaded l).withdrawnBy p)).set (H.PENDING p) 0 := by
  rw [Chip.putStages, Chip.withdrawnBy, List.foldl_map]
  rfl

theorem Chip.moves_commitDrop (c : Chip) (p : Nat) (l : List Nat) : Chip.Moves [.rf, .stg] [H.PENDING p] c (c.commitDrop p l) := by
  rw [Chip.commitDrop_eq]
  exact (((c.moves_restage _ l).trans (Chip.moves_putStages _ _)).trans (Chip.moves_set _ _ _)).mono (by decide) (by simp)

/-- After DISCARD the sets that the COMMIT covers stage nothing and belong to nobody. -/
theorem Chip.stage_commitDrop {c : Chip} (p : Nat) {l : List Nat} (h : (c.stg.map (·.page)).Nodup) {q : Nat} (hq : q ∈ l) :
    ((c.commitDrop p l).stage q).shadow = [] ∧ ((c.commitDrop p l).stage q).owner = none := by
  have reloaded : (c.restage StageSet.reloaded l).stage q = (c.stage q).reloaded :=
    (Chip.stage_restage (g := StageSet.reloaded) (fun _ => rfl) (fun _ => rfl) c l q).trans (if_pos hq)
  rw [Chip.commitDrop_eq, Chip.set_stage]
  rcases Chip.stage_putStages (c.restage StageSet.reloaded l) ((c.restage StageSet.reloaded l).withdrawnBy p) q with same | ⟨y, hy, page, is⟩
  · rw [same, reloaded]
    exact ⟨rfl, rfl⟩
  · obtain ⟨x, hx, rfl⟩ := List.mem_map.1 hy
    have listed := Chip.stage_of_mem (Chip.nodup_restage _ l h) (List.mem_filter.1 hx).1
    have was : x = (c.stage q).reloaded := listed.symm.trans ((congrArg _ page).trans reloaded)
    rw [is, was]
    exact ⟨rfl, rfl⟩

/-- After DISCARD nothing waits that the COMMIT of page `p` had accepted. -/
theorem Chip.pendBy_commitDrop {c : Chip} {p : Nat} {l : List Nat} {x : StageSet} (h : x ∈ (c.commitDrop p l).stg) : x.pendBy ≠ some p := by
  rw [Chip.commitDrop_eq, Chip.set_stg] at h
  rcases Chip.mem_putStages h with mine | ⟨listed, other⟩
  · obtain ⟨y, -, rfl⟩ := List.mem_map.1 mine
    exact Option.some_ne_none p ∘ Eq.symm
  · intro pend
    exact other x.withdrawn (List.mem_map_of_mem (List.mem_filter.2 ⟨listed, by simp [pend]⟩)) rfl

theorem Chip.commitWrite_discard {c : Chip} {src : Src} {p : Nat} (reach : Reaches c src p) (who : c.mgrOrCtl src = true)
    (idle : c.get (H.BUSY p) = 0) (still : (((c.commitPages p).getD [stageHome p]).all fun q => !c.shadowBusy q) = true) :
    c.commitWrite src p 2 = c.commitDrop p ((c.commitPages p).getD [stageHome p]) := by
  unfold Chip.commitWrite
  refine (Chip.port_effect reach ?_).trans (by simp [Nat.testBit])
  simp [who, still, Chip.flag_false idle, bits, Nat.testBit]

/-! ### The end of validation (R39, R315, R330) -/

/-- A set that no validation holds. -/
def StageSet.released (x : StageSet) : StageSet := { x with busyBy := none, goBy := none }

section
variable {c : Chip} {p : Nat} (nodup : (c.stg.map (·.page)).Nodup) (alone : (c.stg.filter fun x => x.busyBy == some p).map (·.page) = [p])
include nodup alone

/-- A COMMIT that validates the set of its own page alone releases that set and clears BUSY. -/
theorem Chip.commitEnd_eq : c.commitEnd p = (c.putStage (c.stage p).released).set (H.BUSY p) 0 := by
  obtain ⟨x, mine, page⟩ := List.map_eq_singleton_iff.1 alone
  have listed : x ∈ c.stg := (List.mem_filter.1 (mine ▸ List.mem_singleton_self x)).1
  have own : c.stage p = x := page ▸ Chip.stage_of_mem nodup listed
  rw [Chip.commitEnd, mine, own]
  rfl

theorem Chip.moves_commitEnd : Chip.Moves [.rf, .stg] [H.BUSY p] c (c.commitEnd p) := by
  rw [Chip.commitEnd_eq nodup alone]
  exact ((c.moves_putStage _).trans (Chip.moves_set _ _ _)).mono (by decide) (by simp)

theorem Chip.busy_commitEnd : (c.commitEnd p).get (H.BUSY p) = 0 := by
  rw [Chip.commitEnd_eq nodup alone, Chip.get_set_self]
  rfl

/-- The end of validation keeps what the sets hold. -/
theorem Chip.stage_commitEnd (q : Nat) : (c.commitEnd p).stage q = if q = p then (c.stage q).released else c.stage q := by
  rw [Chip.commitEnd_eq nodup alone, Chip.set_stage, Chip.stage_putStage]
  by_cases own : q = p
  · simp [own, StageSet.released]
  · simp [own, StageSet.released]

theorem Chip.shadow_commitEnd (q : Nat) : ((c.commitEnd p).stage q).shadow = (c.stage q).shadow := by
  rw [Chip.stage_commitEnd nodup alone]
  split <;> rfl

end

theorem all_eq_of_mem {α : Type} {l : List α} {p q : α → Bool} (h : ∀ a ∈ l, p a = q a) : l.all p = l.all q := by
  rw [Bool.eq_iff_iff, List.all_eq_true, List.all_eq_true]
  exact forall₂_congr fun a ha => by rw [h a ha]

/-- A field of a block register, with an offset from 0x040 on, is none of the common header (R33). -/
theorem Fld.key_ne_busy {f : Fld} (body : 0x040 ≤ f.off ∧ f.off < 0x1000 ∧ f.lo < 32) (p : Nat) : f.key ≠ (H.BUSY p).key := by
  obtain ⟨low, high, bit⟩ := body
  simp only [Fld.key, H.BUSY]
  omega

section
variable {c d : Chip} (shadows : ∀ q, (d.stage q).shadow = (c.stage q).shadow)
  (body : ∀ f : Fld, 0x040 ≤ f.off ∧ f.off < 0x1000 ∧ f.lo < 32 → d.get f = c.get f)
include shadows body

/-- What a staged field will be depends on the shadows and the live registers alone. -/
theorem Chip.staged_congr {f : Fld} (h : 0x040 ≤ f.off ∧ f.off < 0x1000 ∧ f.lo < 32) : d.staged f = c.staged f := by
  simp only [Chip.staged, shadows, body f h]

theorem Chip.audCheck_congr : d.audCheck = c.audCheck := by
  refine congrArg (fun ok => firstFail [(ok, E.VALUE)]) (all_eq_of_mem fun i hi => ?_)
  have few : i < 16 := List.mem_range.1 hi
  have slots : d.get (R.AUD_PORTS.TDM_CFG.SLOTS_M1 (i / 8)) = c.get (R.AUD_PORTS.TDM_CFG.SLOTS_M1 (i / 8)) :=
    body _ (by dsimp only [R.AUD_PORTS.TDM_CFG.SLOTS_M1]; omega)
  dsimp only
  rw [Chip.staged_congr shadows body (f := R.AUD_BUS.SINK.AEN (i + 2)) (by dsimp only [R.AUD_BUS.SINK.AEN]; omega),
    Chip.staged_congr shadows body (f := R.AUD_BUS.SINK.MEN (i + 2)) (by dsimp only [R.AUD_BUS.SINK.MEN]; omega), slots]

theorem Chip.hapCheck_congr : d.hapCheck = c.hapCheck := by
  refine congrArg (fun ok => firstFail [(ok, E.VALUE)]) (all_eq_of_mem fun k hk => ?_)
  have few : k < 8 := List.mem_range.1 hk
  rw [Chip.staged_congr shadows body (f := R.HAP_CH.CH_CFG.VLIM k) (by dsimp only [R.HAP_CH.CH_CFG.VLIM]; omega),
    Chip.staged_congr shadows body (f := R.HAP_CH.CH_CFG.MODE k) (by dsimp only [R.HAP_CH.CH_CFG.MODE]; omega),
    Chip.staged_congr shadows body (f := R.HAP.BOOST.VBOOST) (by decide)]

end

/-- The pages of AUD and HAP that hold their block's staged set have no rule of their own at the end of validation. -/
theorem Chip.commitCheck_eq {p : Nat} (hp : p = 0x190 ∨ p = 0x1A0) (c : Chip) (sec : Bool) :
    c.commitCheck p sec = if p = 0x190 then c.audCheck else c.hapCheck := by
  rcases hp with rfl | rfl <;> rfl

theorem Chip.commitReject_eq (c : Chip) (src : Src) (p code : Nat) :
    c.commitReject src p [p] code = ((c.putStage (c.stage p).reloaded).set (H.RESULT p) code).reject p 0x024 (srcCode src) code := rfl

/-- The source whose GO page `p`'s COMMIT has taken. -/
def Chip.goSource (c : Chip) (p : Nat) : Src := (c.stage p).goBy.getD (.ccn 0)

section
variable {c : Chip} {p : Nat} (busy : c.get (H.BUSY p) = 1) (alone : (c.stg.filter fun x => x.busyBy == some p).map (·.page) = [p])
include busy alone

theorem Chip.commitValidated_fault {code : Nat} (check : (c.commitEnd p).commitCheck p (isSecure (c.goSource p)) = some code) :
    c.commitValidated p = (c.commitEnd p).commitReject (c.goSource p) p [p] code := by
  have check : (c.commitEnd p).commitCheck p (isSecure ((c.stage p).goBy.getD (.ccn 0))) = some code := check
  simp [Chip.commitValidated, Chip.flag_true busy, alone, check, Chip.goSource]

theorem Chip.commitValidated_good (check : (c.commitEnd p).commitCheck p (isSecure (c.goSource p)) = none) :
    c.commitValidated p = (c.commitEnd p).commitAccept (c.goSource p) p [p] := by
  have check : (c.commitEnd p).commitCheck p (isSecure ((c.stage p).goBy.getD (.ccn 0))) = none := check
  simp [Chip.commitValidated, Chip.flag_true busy, alone, check, Chip.goSource]

end

/-- The registers that a rejection on page `p` writes (R36). -/
def rejectRegs (p : Nat) : List Fld := [H.ERR_CODE p, H.ERR_OFFSET p, H.ERR_SOURCE p, H.ERR_COUNT p, H.IRQ_RAW p]

/-- COMMIT is none of them. -/
theorem commit_key_not_mem_rejectRegs (p : Nat) {lo w r : Nat} (h : lo < 32) : (Fld.mk p 0x024 lo w r).key ∉ (rejectRegs p).map Fld.key := by
  simp only [rejectRegs, List.map_cons, List.map_nil, List.mem_cons, List.not_mem_nil, or_false, not_or, Fld.key, H.ERR_CODE, H.ERR_OFFSET,
    H.ERR_SOURCE, H.ERR_COUNT, H.IRQ_RAW]
  omega

/-- Two fields of COMMIT with different lowest bits are apart. -/
theorem commit_key_ne (p : Nat) {lo w r lo' w' r' : Nat} (h : lo ≠ lo') : (Fld.mk p 0x024 lo w r).key ≠ (Fld.mk p 0x024 lo' w' r').key := by
  simpa [Fld.key] using h

theorem errCode_key_ne_commit (p : Nat) {lo w r : Nat} (h : lo < 32) : (H.ERR_CODE p).key ≠ (Fld.mk p 0x024 lo w r).key := by
  simp only [Fld.key, H.ERR_CODE]
  omega

/-! #### A set that is rejected -/

theorem Chip.moves_commitReject (c : Chip) (src : Src) (p code : Nat) :
    Chip.Moves [.rf, .stg, .deliveries] (H.RESULT p :: rejectRegs p) c (c.commitReject src p [p] code) := by
  rw [Chip.commitReject_eq]
  exact (((c.moves_putStage _).trans (Chip.moves_set _ _ _)).trans (Chip.moves_reject _ _ _ _ _)).mono (by decide) (by simp [rejectRegs])

/-- BUSY, PENDING and SEQ are none of the registers that a rejection by the COMMIT writes. -/
theorem Chip.get_commitReject_commit (c : Chip) (src : Src) (p code : Nat) {lo w r : Nat} (h : lo < 32) (ne : lo ≠ 8) :
    (c.commitReject src p [p] code).get ⟨p, 0x024, lo, w, r⟩ = c.get ⟨p, 0x024, lo, w, r⟩ := by
  refine (c.moves_commitReject src p code).get ?_
  rw [List.map_cons, List.mem_cons, not_or]
  exact ⟨commit_key_ne p ne, commit_key_not_mem_rejectRegs p h⟩

theorem Chip.get_commitReject_result (c : Chip) (src : Src) (p code : Nat) : (c.commitReject src p [p] code).get (H.RESULT p) = code % 2 ^ 8 := by
  rw [Chip.commitReject_eq]
  exact ((Chip.moves_reject _ p _ _ _).get (commit_key_not_mem_rejectRegs p (by decide))).trans (Chip.get_set_self _ (H.RESULT p) code)

theorem Chip.get_commitReject_errCode (c : Chip) (src : Src) (p code : Nat) :
    (c.commitReject src p [p] code).get (H.ERR_CODE p) = if c.get (H.ERR_CODE p) = 0 then code % 256 else c.get (H.ERR_CODE p) := by
  rw [Chip.commitReject_eq, Chip.get_reject_code, Chip.get_set_of_ne, Chip.get_putStage]
  exact errCode_key_ne_commit p (by decide)

theorem Chip.stage_commitReject (c : Chip) (src : Src) (p code : Nat) : (c.commitReject src p [p] code).stage p = (c.stage p).reloaded := by
  rw [Chip.commitReject_eq, Chip.stage, Chip.reject_stg, Chip.set_stg, ← Chip.stage, Chip.stage_putStage]
  exact if_pos (c.stage_page p).symm

/-! #### A set that is accepted -/

theorem Chip.moves_startBlock (c : Chip) (b : Nat) : Chip.Moves [.pow] [] c (c.startBlock b) := by
  rw [Chip.startBlock_eq]
  exact c.moves_pow _

@[simp] theorem Chip.startBlock_stage (c : Chip) (b q : Nat) : (c.startBlock b).stage q = c.stage q := by
  rw [Chip.startBlock_eq]
  rfl

/-- The chip once the set of page `p`'s COMMIT waits for its latch point. -/
def Chip.waiting (c : Chip) (p : Nat) : Chip := ((c.putStage ((c.stage p).accept p)).set (H.RESULT p) 0).set (H.PENDING p) 1

theorem Chip.commitAccept_eq {p : Nat} (hp : p = 0x190 ∨ p = 0x1A0) (c : Chip) (src : Src) :
    c.commitAccept src p [p] = (c.waiting p).startBlock (blockOf p) := by
  rcases hp with rfl | rfl <;> rfl

theorem Chip.moves_waiting (c : Chip) (p : Nat) : Chip.Moves [.rf, .stg] [H.RESULT p, H.PENDING p] c (c.waiting p) :=
  (((c.moves_putStage _).trans (Chip.moves_set _ _ _)).trans (Chip.moves_set _ _ _)).mono (by decide) (by simp)

theorem StageSet.accept_page (x : StageSet) (p : Nat) : (x.accept p).page = x.page := by
  unfold StageSet.accept
  split <;> rfl

/-- A set that stages something and of which nothing waits becomes pending whole. -/
theorem StageSet.accept_whole {x : StageSet} (p : Nat) (empty : x.pending = []) (staged : x.shadow ≠ []) :
    x.accept p = { x with pending := x.shadow, shadow := [], pendBy := some p } := by
  simp [StageSet.accept, empty, staged]

theorem Chip.stage_waiting (c : Chip) (p : Nat) : (c.waiting p).stage p = (c.stage p).accept p := by
  rw [Chip.waiting, Chip.set_stage, Chip.set_stage, Chip.stage_putStage, StageSet.accept_page]
  exact if_pos (c.stage_page p).symm

theorem Chip.get_waiting_result (c : Chip) (p : Nat) : (c.waiting p).get (H.RESULT p) = 0 := by
  rw [Chip.waiting, Chip.get_set_of_ne, Chip.get_set_self]
  · rfl
  · exact commit_key_ne p (by decide)

theorem Chip.get_waiting_pending (c : Chip) (p : Nat) : (c.waiting p).get (H.PENDING p) = 1 := Chip.get_set_self _ _ _

theorem Chip.get_waiting_busy (c : Chip) (p : Nat) : (c.waiting p).get (H.BUSY p) = c.get (H.BUSY p) := by
  rw [Chip.waiting, Chip.get_set_of_ne, Chip.get_set_of_ne, Chip.get_putStage]
  · exact commit_key_ne p (by decide)
  · exact commit_key_ne p (by decide)

/-! #### The checks judge the staged values that GO found -/

theorem Chip.commitCheck_commitEnd {c : Chip} {p : Nat} (hp : p = 0x190 ∨ p = 0x1A0) (nodup : (c.stg.map (·.page)).Nodup)
    (alone : (c.stg.filter fun x => x.busyBy == some p).map (·.page) = [p]) (sec : Bool) :
    (c.commitEnd p).commitCheck p sec = if p = 0x190 then c.audCheck else c.hapCheck := by
  have shadows := Chip.shadow_commitEnd nodup alone
  have body (f : Fld) (h : 0x040 ≤ f.off ∧ f.off < 0x1000 ∧ f.lo < 32) : (c.commitEnd p).get f = c.get f :=
    (Chip.moves_commitEnd nodup alone).get (by simpa using Fld.key_ne_busy h p)
  rw [Chip.commitCheck_eq hp, Chip.audCheck_congr shadows body, Chip.hapCheck_congr shadows body]

/-! ### The latch (R39, R40) -/

/-- A set that has latched; a next set that has been begun stays its writer's. -/
def StageSet.latched (x : StageSet) : StageSet :=
  { x with pending := [], pendBy := none, owner := if x.shadow.isEmpty then none else x.owner }

theorem Chip.latchBy_eq {c : Chip} {p : Nat} {x : StageSet} {f : Fld} {v : Nat} (alone : (c.stg.filter fun y => y.pendBy == some p) = [x])
    (one : x.pending = [(f, v)]) : c.latchBy p = (((c.putStage x.latched).set f v).set (H.PENDING p) 0).wrap (H.SEQ p) := by
  rw [Chip.latchBy, alone, List.foldl_cons, List.foldl_nil, one]
  rfl

section
variable {c : Chip} {p : Nat} {x : StageSet} {f : Fld} {v : Nat} (alone : (c.stg.filter fun y => y.pendBy == some p) = [x])
  (one : x.pending = [(f, v)])
include alone one

theorem Chip.moves_latchBy : Chip.Moves [.rf, .stg] [f, H.PENDING p, H.SEQ p] c (c.latchBy p) := by
  rw [Chip.latchBy_eq alone one]
  exact ((((c.moves_putStage _).trans (Chip.moves_set _ _ _)).trans (Chip.moves_set _ _ _)).trans (Chip.moves_set _ _ _)).mono
    (by decide) (by simp)

theorem Chip.stage_latchBy : (c.latchBy p).stage x.page = x.latched := by
  rw [Chip.latchBy_eq alone one]
  exact c.stage_putStage_self x.latched

theorem Chip.get_latchBy (apart : f.key ≠ (H.PENDING p).key ∧ f.key ≠ (H.SEQ p).key) : (c.latchBy p).get f = v % 2 ^ f.w := by
  rw [Chip.latchBy_eq alone one, Chip.wrap, Chip.get_set_of_ne _ _ apart.2, Chip.get_set_of_ne _ _ apart.1, Chip.get_set_self]

theorem Chip.get_latchBy_pending : (c.latchBy p).get (H.PENDING p) = 0 := by
  rw [Chip.latchBy_eq alone one, Chip.wrap, Chip.get_set_of_ne, Chip.get_set_self]
  · rfl
  · exact commit_key_ne p (by decide)

theorem Chip.get_latchBy_seq (apart : f.key ≠ (H.SEQ p).key) : (c.latchBy p).get (H.SEQ p) = (c.get (H.SEQ p) + 1) % 2 ^ 16 := by
  rw [Chip.latchBy_eq alone one, Chip.wrap, Chip.get_set_self, Chip.get_set_of_ne (f := H.PENDING p), Chip.get_set_of_ne _ _ apart.symm,
    Chip.get_putStage]
  · rfl
  · exact commit_key_ne p (by decide)

end

/-- AUD latches between two samples while its domain is on. -/
theorem Chip.latchDue_aud {c : Chip} (on : c.pdOn PD.AUD = true) (waits : c.get (H.PENDING 0x190) = 1) : c.latchDue 0x190 = true := by
  simp [Chip.latchDue, Chip.flag_true waits, on]

theorem Chip.commitLatched_aud (c : Chip) : c.commitLatched 0x190 = c.latchBy 0x190 := rfl

/-- COMMIT_VALIDATION_END on the COMMIT page of AUD or HAP. -/
theorem completes_of_validationEnd {s : State} {p : Nat} {d : Chip} {P : State → Prop} (hp : p = 0x190 ∨ p = 0x1A0)
    (hd : s.chip.commitValidated p = d) (hP : P { s with chip := d }) : Completes (.commitValidationEnd p) s P := by
  have place : p < 512 ∧ isCommitPage p = true := by rcases hp with rfl | rfl <;> decide
  refine ⟨_, (exec_commitValidationEnd p s).trans (State.on_next.2 ⟨decide_eq_true place.1, ?_⟩), hP⟩
  rw [Chip.when, if_pos place.2, hd]

/-! ### The statement -/

/-- Settles O55. GO and DISCARD pass the checks of R38 and change the sets that the COMMIT covers, one by one; the end of validation judges what GO found
and has one set to reject or accept; the latch gives the set's one field its value. -/
theorem stagedSetsCommitAndLatchWhole : Obligations.StagedSetsCommitAndLatchWhole := by
  unfold Obligations.StagedSetsCommitAndLatchWhole
  refine ⟨?go, ?discard, ?fault, ?good, ?latch, ?notDue⟩
  case go =>
    intro s src p l place window _ reach who covers free cmp idle
    refine completes_of_commit (exec_commitGo ..) rfl place window reach (Chip.commitWrite_go reach who covers free cmp idle) ?_
    refine ⟨Chip.get_set_self _ _ _, ?_, Chip.goBy_commitStart .., (Chip.moves_commitStart ..).only⟩
    refine List.all_eq_true.2 fun q hq => ?_
    obtain ⟨busy, shadow⟩ := Chip.stage_commitStart s.chip src p hq
    simp [busy, shadow]
  case discard =>
    intro s src p place window _ reach who idle still nodup
    refine completes_of_commit (exec_commitDiscard ..) rfl place window reach (Chip.commitWrite_discard reach who idle still) ?_
    refine ⟨Chip.get_set_self _ _ _, ?_, ?_, (Chip.moves_commitDrop ..).only⟩
    · refine List.all_eq_true.2 fun q hq => ?_
      obtain ⟨shadow, owner⟩ := Chip.stage_commitDrop p nodup hq
      simp [shadow, owner]
    · exact List.all_eq_true.2 fun x hx => bne_iff_ne.2 (Chip.pendBy_commitDrop hx)
  case fault =>
    intro s p code hp busy alone nodup ⟨check, _, small⟩
    have ends := Chip.commitValidated_fault busy alone ((Chip.commitCheck_commitEnd hp nodup alone _).trans check)
    have released := Chip.moves_commitEnd nodup alone
    refine completes_of_validationEnd hp ends ⟨?_, ?_, ?_, ?_, ?_, fun none_ => ?_, ?_⟩
    · exact (Chip.get_commitReject_commit _ _ _ _ (by decide) (by decide)).trans (Chip.busy_commitEnd nodup alone)
    · exact (Chip.get_commitReject_result ..).trans (Nat.mod_eq_of_lt small)
    · refine (Chip.get_commitReject_commit _ _ _ _ (by decide) (by decide)).trans (released.get ?_)
      exact mt List.mem_singleton.1 (commit_key_ne p (by decide))
    · rw [Chip.stage_commitReject]
      rfl
    · rw [Chip.stage_commitReject, Chip.stage_commitEnd nodup alone, if_pos rfl]
      rfl
    · have clean : (s.chip.commitEnd p).get (H.ERR_CODE p) = 0 :=
        (released.get (mt List.mem_singleton.1 (errCode_key_ne_commit p (by decide)))).trans none_
      rw [Chip.get_commitReject_errCode, if_pos clean, Nat.mod_eq_of_lt small]
    · exact ((released.trans (Chip.moves_commitReject ..)).mono (by decide) (List.Subset.refl _)).only
  case good =>
    intro s p hp busy alone nodup check ⟨empty, staged⟩
    have ends := Chip.commitValidated_good busy alone ((Chip.commitCheck_commitEnd hp nodup alone _).trans check)
    have moves := (Chip.moves_commitEnd nodup alone).trans (Chip.moves_waiting _ p)
    have set : ((s.chip.commitEnd p).waiting p).stage p =
        { (s.chip.stage p).released with pending := (s.chip.stage p).shadow, shadow := [], pendBy := some p } := by
      rw [Chip.stage_waiting, Chip.stage_commitEnd nodup alone, if_pos rfl]
      exact StageSet.accept_whole p empty staged
    refine completes_of_validationEnd hp (ends.trans (Chip.commitAccept_eq hp _ _)) ⟨?_, ?_, ?_, ?_, ?_, ?_, ?_, ?_, ?_⟩
    · exact (Chip.startBlock_get _ _ _).trans ((Chip.get_waiting_busy _ p).trans (Chip.busy_commitEnd nodup alone))
    · exact (Chip.startBlock_get _ _ _).trans (Chip.get_waiting_result _ p)
    · exact (Chip.startBlock_get _ _ _).trans (Chip.get_waiting_pending _ p)
    · rw [Chip.startBlock_stage, set]
    · rw [Chip.startBlock_stage, set]
    · rw [Chip.startBlock_stage, set]
    · exact Chip.blockStarted_startBlock _ _
    · rw [Chip.startBlock_eq, moves.1 .pow (by decide)]
    · exact ((moves.trans (Chip.moves_startBlock _ _)).mono (by decide) (by simp)).only
  case latch =>
    intro s x f v on waits alone one apart
    have effect : s.chip.when (s.chip.latchDue 0x190) (fun c => c.commitLatched 0x190) = s.chip.latchBy 0x190 := by
      rw [Chip.when, if_pos (Chip.latchDue_aud on waits), Chip.commitLatched_aud]
    refine completes_of_chip (exec_commitLatch 0x190 s) effect ?_
    refine ⟨Chip.get_latchBy alone one apart, Chip.get_latchBy_pending alone one, Chip.get_latchBy_seq alone one apart.2, ?_, ?_,
      (Chip.moves_latchBy alone one).only⟩
    · rw [Chip.stage_latchBy alone one]
      rfl
    · rw [Chip.stage_latchBy alone one]
      rfl
  case notDue =>
    intro s p exists_ early
    exact ⟨s, (exec_commitLatch p s).trans (State.on_next.2 ⟨decide_eq_true exists_, by simp [Chip.when, early]⟩), rfl⟩

/-! ### Reset (R33) -/

/-- Right after reset every register field reads the value of its register table. -/
theorem get_reset (f : Fld) : State.reset.chip.get f = f.rst := rfl

/-- Settles O58: each register reads the reset value of its table. -/
theorem resetValues : Obligations.ResetValues := by
  unfold Obligations.ResetValues
  dsimp only
  simp only [Chip.mode, get_reset]
  refine ⟨Mems.wf_reset, rfl, rfl, rfl, rfl, rfl, rfl, rfl, rfl, fun i _ => rfl, fun k _ n _ => rfl, rfl, rfl, fun p _ => ⟨rfl, rfl, rfl, rfl⟩⟩

/-! ### A read that measures (R34) -/

theorem exec_registerRead (src : Src) (p off n : Nat) (s : State) :
    exec (.registerRead src p off n) s = s.on (placeOk src p off && decide (n ≤ 64)) fun c => c.busRead s.mem src p off n := rfl

/-- What a control core's read of VCORE_STAT does while the fabric is powered and the bridge is up. -/
theorem Chip.busRead_vcore {c : Chip} (m : Mems) (fab : c.fabOn = true) (up : c.brg.up = true) :
    c.busRead m (.ccn 0) 0x021 0x044 4 = { c.measured 0x044 with readData := (c.measured 0x044).readReg 0x021 0x044 } := by
  have exists_ : pageExists 0x021 = true := by decide
  have field : onField 0x021 = true := by decide
  simp [Chip.busRead, Chip.recoveryAt, Chip.unheard, fab, Chip.wordRead, exists_, field, Chip.fieldRead, up, Chip.pageRead]

/-- With VCORE off Kiln measures 0 V and 0 A. -/
theorem Chip.measured_vcoreOff {c : Chip} (off : c.railOn 7 = false) :
    c.measured 0x044 = (c.set R.PWR_RAILS.VCORE_STAT.MEAS_MV 0).set R.PWR_RAILS.VCORE_STAT.AMPS 0 := by
  simp [Chip.measured, off]

theorem Chip.measMv_measured {c : Chip} (off : c.railOn 7 = false) : (c.measured 0x044).get R.PWR_RAILS.VCORE_STAT.MEAS_MV = 0 := by
  rw [Chip.measured_vcoreOff off, Chip.get_set_of_ne _ _ (by decide), Chip.get_set_self]
  rfl

/-- VCORE was last read at 750 mV and is off since; all else is as after reset. -/
def vcoreWentOff : State := { chip := Chip.set {} R.PWR_RAILS.VCORE_STAT.MEAS_MV 750 }

/-- Refutes O54: page 0x021 is not among the pages whose reads do something themselves, but a read of its VCORE_STAT measures (log entry 115). With the
rail off it leaves 0 in MEAS_MV, where 750 stood. -/
theorem not_registerBusWritesAndReads : ¬ Obligations.RegisterBusWritesAndReads := by
  unfold Obligations.RegisterBusWritesAndReads
  rintro ⟨-, -, -, -, -, -, -, -, -, -, -, -, -, body, -, -⟩
  have fab : vcoreWentOff.chip.fabOn = true := by decide
  obtain ⟨t, answers, -, -, regs, -⟩ :=
    body vcoreWentOff (.ccn 0) 0x021 0x044 (by decide) (by decide) rfl ⟨fab, by decide, fun _ => rfl⟩ (by decide)
  obtain ⟨-, rfl⟩ := State.on_next.1 ((exec_registerRead ..).symm.trans answers)
  have stays := regs R.PWR_RAILS.VCORE_STAT.MEAS_MV (by decide)
  rw [Chip.busRead_vcore _ fab rfl] at stays
  have falls := Chip.measMv_measured (c := vcoreWentOff.chip) (by decide)
  exact absurd (falls.symm.trans stays) (by decide)

end Sys2Proof.Machine

/-! # Modes and power domains

Chapter `04_modes_and_power_domains.md`: what powering PD_CMP on and manager ready write besides their own registers (R49, R71, R170), and a lockstep
proof test that is the island's third fault reset (R209, R369). -/

namespace Sys2Proof.Machine

/-! ### The status registers of the pipes (R165, R170) -/

/-- Fields of two pages are apart. -/
theorem Chip.get_set_of_page_ne (c : Chip) {f g : Fld} (v : Nat)
    (h : g.page ≠ f.page ∧ f.off < 0x1000 ∧ f.lo < 32 ∧ g.off < 0x1000 ∧ g.lo < 32) : (c.set f v).get g = c.get g := by
  refine Chip.get_set_of_ne c v ?_
  simp only [Fld.key]
  omega

/-- Whether output `k` is split is read off the SCN pages, which lie behind those of the pipes. -/
theorem Chip.splits_set_pipe (c : Chip) {f : Fld} (v k : Nat) (h : f.page < 0x120 ∧ f.off < 0x1000 ∧ f.lo < 32) :
    (c.set f v).splits k = c.splits k := by
  obtain ⟨page, low⟩ := h
  have apart : 0x120 + k ≠ f.page := by omega
  rw [Chip.splits, Chip.flag, Chip.get_set_of_page_ne c v ⟨apart, low.1, low.2, of_decide_eq_true rfl⟩, Chip.splits, Chip.flag]

/-- What `cmpShow` shows on the page of pipe `n`. -/
def Chip.pipeShow (n : Nat) (c : Chip) : Chip :=
  let us := unitsOn c.get [n]
  let m := (us.map fun u => 2 ^ u).foldl (· + ·) 0
  let c := ((c.set (R.CMP_P.UNITS.UNITS n 0) m).set (R.CMP_P.UNITS.UNITS n 1) (m / 2 ^ 32)).set (R.CMP_P.PIPE_STAT.UNITS n) us.length
  c.set (R.CMP_P.PIPE_STAT.SPLIT n) (b2n (c.splits (n / 2 * 2)))

theorem Chip.splits_pipeShow (c : Chip) {n : Nat} (h : n < 8) (k : Nat) : (c.pipeShow n).splits k = c.splits k := by
  have page : 0xE0 + n < 0x120 := by omega
  simp only [Chip.pipeShow]
  iterate 4 rw [Chip.splits_set_pipe _ _ _ ⟨page, of_decide_eq_true rfl, of_decide_eq_true rfl⟩]

theorem Chip.get_pipeShow_split_self (c : Chip) {n : Nat} (h : n < 8) :
    (c.pipeShow n).get (R.CMP_P.PIPE_STAT.SPLIT n) = b2n (c.splits (n / 2 * 2)) := by
  have page : 0xE0 + n < 0x120 := by omega
  simp only [Chip.pipeShow]
  rw [Chip.get_set_self]
  iterate 3 rw [Chip.splits_set_pipe _ _ _ ⟨page, of_decide_eq_true rfl, of_decide_eq_true rfl⟩]
  cases c.splits (n / 2 * 2) <;> rfl

theorem Chip.get_pipeShow_split_of_ne (c : Chip) {i n : Nat} (h : n ≠ i) :
    (c.pipeShow i).get (R.CMP_P.PIPE_STAT.SPLIT n) = c.get (R.CMP_P.PIPE_STAT.SPLIT n) := by
  have apart : 0xE0 + n ≠ 0xE0 + i := by omega
  simp only [Chip.pipeShow]
  iterate 4 rw [Chip.get_set_of_page_ne _ _ ⟨apart, of_decide_eq_true rfl⟩]

/-- The pipes below `m` have been shown, the others not yet. -/
theorem Chip.get_forN_pipeShow_split (c : Chip) (n : Nat) {m : Nat} (h : m ≤ 8) :
    (∀ k, (forN m c Chip.pipeShow).splits k = c.splits k) ∧
      (n < m → (forN m c Chip.pipeShow).get (R.CMP_P.PIPE_STAT.SPLIT n) = b2n (c.splits (n / 2 * 2))) := by
  induction m with
  | zero => exact ⟨fun _ => rfl, fun h => absurd h (Nat.not_lt_zero n)⟩
  | succ m ih =>
    obtain ⟨splits, shown⟩ := ih (Nat.le_of_succ_le h)
    rw [forN_succ]
    refine ⟨fun k => (Chip.splits_pipeShow _ h k).trans (splits k), fun below => ?_⟩
    by_cases last : n = m
    · rw [last, Chip.get_pipeShow_split_self _ h, splits]
    · rw [Chip.get_pipeShow_split_of_ne _ last, shown (by omega)]

/-- Where `cmpShow` has run, PIPE_STAT.SPLIT says whether the pipe's pair is split now, whatever it said before. -/
theorem Chip.get_cmpShow_split (c : Chip) {n : Nat} (h : n < 8) :
    c.cmpShow.get (R.CMP_P.PIPE_STAT.SPLIT n) = b2n (c.splits (n / 2 * 2)) := by
  have layer (u : Nat) : 0xE0 + n ≠ 0xE8 + u := by omega
  have attach : 0xE0 + n ≠ 0x118 := by omega
  refine (forN_keeps (g := fun d : Chip => d.get (R.CMP_P.PIPE_STAT.SPLIT n)) (fun u d => ?_) 48 _).trans ?_
  · dsimp only
    iterate 2 rw [Chip.get_set_of_page_ne _ _ ⟨layer u, of_decide_eq_true rfl⟩]
  · iterate 2 rw [Chip.get_set_of_page_ne _ _ ⟨attach, of_decide_eq_true rfl⟩]
    exact (c.get_forN_pipeShow_split n (Nat.le_refl 8)).2 h

/-- PIPE_STAT of pipe 0 shows a split pair that is none any more, as EARLY_RETRY leaves it, which resets OUT_CFG.SPLIT (R391) and shows nothing. -/
def Chip.splitShown (c : Chip) : Chip := c.set (R.CMP_P.PIPE_STAT.SPLIT 0) 1

/-- Page 0x0E0 is a pipe's, and `cmpShow` writes it. -/
theorem ne_cmpShow_of_pagesBut {s t : State} {ps : List Nat} (pages : PagesBut ps s t) (pipe : 0xE0 ∉ ps)
    (shown : s.chip.get (R.CMP_P.PIPE_STAT.SPLIT 0) = 1) {c : Chip} (whole : c.splits 0 = false) : t.chip ≠ c.cmpShow := by
  intro ht
  have stays := pages (R.CMP_P.PIPE_STAT.SPLIT 0) pipe
  rw [ht, Chip.get_cmpShow_split c (by decide), shown, Nat.zero_div, Nat.zero_mul, whole] at stays
  exact absurd stays (by decide)

/-! ### The end of a power-on of PD_CMP (R49, R53) -/

/-- The chip once domain `d` has come on for the request in progress. -/
def Chip.poweredOn (c : Chip) (d : Nat) : Chip := ((c.setBit R.SYS_POWER.PD_ON.ON d true).pdEnd E.NONE 0).raise 0x002 0

theorem exec_pdPowerOnDone_cmp {s : State} (h : s.chip.pow.req = some (PD.CMP, true)) :
    exec (.pdPowerOnDone PD.CMP) s = .next { s with chip := (s.chip.poweredOn PD.CMP).cmpShow } := by
  change execPdPowerOnDone PD.CMP s = _
  exact State.on_next.2 ⟨rfl, by rw [if_pos h]; rfl⟩

/-- DEGRADED, with a request to power PD_CMP on in progress. -/
def cmpComesOn : State :=
  let c := (Chip.set {} R.SYS_MODE.MODE_STAT.MODE Mode.DEGRADED).set R.SYS_POWER.PD_RESULT.BUSY 1
  { chip := { c.splitShown with pow := { req := some (PD.CMP, true) } } }

/-- Refutes O3: with PD_CMP on again the status registers of the pipes are shown too, on pages 0x0E0 to 0x0E7, which the statement keeps. -/
theorem not_powerRequestsSwitchDomains : ¬ Obligations.PowerRequestsSwitchDomains := by
  unfold Obligations.PowerRequestsSwitchDomains
  rintro ⟨-, -, comesOn, -, -, -⟩
  obtain ⟨t, answers, -, -, -, -, -, -, -, pages, -⟩ := comesOn cmpComesOn PD.CMP (by decide) rfl
  obtain rfl := Host.Outcome.next.inj ((exec_pdPowerOnDone_cmp rfl).symm.trans answers)
  exact ne_cmpShow_of_pagesBut pages (by decide) (by decide) (c := cmpComesOn.chip.poweredOn PD.CMP) (by decide) rfl

/-! ### Manager ready (R71) -/

/-- The chip once the secure world has reported manager ready in stage 4 of BOOT, the status registers of composition not yet shown. -/
def Chip.readied (c : Chip) : Chip :=
  let c := ((c.set R.SYS_BOOT.BOOT_CTRL.READY 1).modeDone Mode.RUN).set R.SYS_POWER.PD_ON.ON 0x1FFFFFF
  (c.set R.SYS_BOOT.BOOT_MS.READY_MS (min 0xFFFF c.sinceT0)).setStage 5

theorem Chip.bootReady_eq {c : Chip} (hm : c.mode = Mode.BOOT) (stage : c.get R.SYS_BOOT.BOOT_STAT.STAGE = 4) :
    c.bootReady = c.readied.cmpShow := by
  unfold Chip.bootReady
  exact if_pos ⟨hm, stage⟩

theorem Chip.bootCtrl_ready {c : Chip} {src : Src} (reach : Reaches c src 4) (sec : isSecure src = true) : c.bootCtrl src 1 = c.bootReady := by
  unfold Chip.bootCtrl
  refine (Chip.port_effect reach ?_).trans (by simp [Nat.testBit])
  simp [sec, Nat.testBit]

theorem exec_bootReady (src : Src) (s : State) : exec (.bootReady src) s = s.on true fun c => c.bootCtrl src 1 := rfl

/-- BOOT, with the first stage entered. -/
def readyNext : State := { chip := (Chip.set {} R.SYS_BOOT.BOOT_STAT.STAGE 4).splitShown }

/-- Refutes O8: manager ready shows the status registers of the pipes too, on pages 0x0E0 to 0x0E7, which the statement keeps. -/
theorem not_startUpStages : ¬ Obligations.StartUpStages := by
  unfold Obligations.StartUpStages
  rintro ⟨-, -, -, -, -, -, -, -, -, -, ready, -, -⟩
  have reach : Reaches readyNext.chip (.ccs 0) 4 := by decide
  obtain ⟨t, answers, -, -, -, -, -, pages, -⟩ := ready readyNext (.ccs 0) reach rfl (by decide) (by decide)
  obtain ⟨-, rfl⟩ := State.on_next.1 ((exec_bootReady ..).symm.trans answers)
  refine ne_cmpShow_of_pagesBut pages (by decide) (by decide) (c := readyNext.chip.readied) (by decide) ?_
  exact (Chip.bootCtrl_ready reach rfl).trans (Chip.bootReady_eq (by decide) (by decide))

/-! ### A lockstep proof test (R369) -/

/-- The chip once a test has begun, before its action. -/
def Chip.testBegun (c : Chip) (test arg : Nat) : Chip :=
  let c := (c.set R.PTB.TEST_CTRL.TEST test).set R.PTB.TEST_CTRL.ARG arg
  let b := c.baseNow (8 + arg / 16 % 8)
  let seen := if test = 6 then c.get R.SAF.ECC_UNCORR.COUNT else 0
  let p : Proof := { test := test, arg := arg, start := c.ps, frame0 := b.1, line0 := b.2.1, seen := seen }
  { c with ptb := { c.ptb with proof := some p } }.bump R.PTB.TESTS_RUN.COUNT

/-- GO of the lockstep test in SERVICE resets the island with cause 1. -/
theorem Chip.testCtrl_lockstep {c : Chip} {src : Src} (reach : Reaches c src 0x1C0) (who : c.mgrOrCtl src = true) (hm : c.mode = Mode.SERVICE)
    (free : c.ptb.proof = none ∧ c.ptbShow.get R.PTB.PTB_STAT.ACTIVE = 0) (ready : c.proofReady 1 0 = true)
    (runs : (c.testBegun 1 0).islandRuns = true) : c.testCtrl src (testWord 1 0) = ((c.testBegun 1 0).islandFault 1).ptbShow := by
  have word : bits (testWord 1 0) 0 8 = 1 ∧ bits (testWord 1 0) 8 8 = 0 ∧ bits (testWord 1 0) 16 15 = 0 ∧ (testWord 1 0).testBit 31 = true := by
    decide
  obtain ⟨test, arg, rest, go⟩ := word
  obtain ⟨noProof, still⟩ := free
  have acts : (c.testBegun 1 0).proofAct 1 0 = (c.testBegun 1 0).islandFault 1 := if_pos runs
  unfold Chip.testCtrl
  rw [test, arg, rest, go]
  refine (Chip.port_effect reach ?_).trans (congrArg Chip.ptbShow acts)
  simp [who, hm, noProof, still, ready, proofArgs]

theorem exec_proofLockstep (src : Src) (s : State) : exec (.proofLockstep src) s = s.on true fun c => c.testCtrl src (testWord 1 0) := rfl

/-- SERVICE, with the island running: RECENT reads 0, but two fault resets of the last 60 s are noted. -/
def twoResetsUnshown : State :=
  let c := (Chip.set {} R.SYS_MODE.MODE_STAT.MODE Mode.SERVICE).set R.SAF.ISL_STAT.STATE 1
  { chip := { c with saf := { resets := [0, 0] } } }

/-- Its next fault reset is the third within 60 s (R209). -/
theorem state_islandFault_twoResetsUnshown : ((twoResetsUnshown.chip.testBegun 1 0).islandFault 1).get R.SAF.ISL_STAT.STATE = 2 := by
  decide +kernel

/-- Refutes O52: the prerequisite of the lockstep test reads RECENT, which no hypothesis ties to the resets that are noted. Where two are noted, the test
resets the island for the third time within 60 s, and ISL_STAT.STATE reads FAULT. -/
theorem not_proofTestsRunInService : ¬ Obligations.ProofTestsRunInService := by
  unfold Obligations.ProofTestsRunInService
  rintro ⟨lockstep, -⟩
  have reach : Reaches twoResetsUnshown.chip (.ccn 0) 0x1C0 := by decide
  have free : twoResetsUnshown.chip.ptb.proof = none ∧ twoResetsUnshown.chip.ptbShow.get R.PTB.PTB_STAT.ACTIVE = 0 := by decide
  obtain ⟨t, answers, -, -, -, -, -, state, -⟩ :=
    lockstep twoResetsUnshown (.ccn 0) (by decide) reach (by decide) rfl (by decide) free (by decide)
  obtain ⟨-, rfl⟩ := State.on_next.1 ((exec_proofLockstep ..).symm.trans answers)
  dsimp only at state
  rw [Chip.testCtrl_lockstep reach (by decide) (by decide) free (by decide) (by decide), (Chip.moves_ptbShow _).get (by decide),
    state_islandFault_twoResetsUnshown] at state
  exact absurd state (by decide)

end Sys2Proof.Machine

/-! # Slice composition

Chapter `11_slice_composition.md`: what the NOP, LAYER and COMMIT entries of the composition rings make of the open set and of the entry (R48, R93,
R182–R185). Chapter `12_scan_out_and_outputs.md`: the line count of an output whose V_TOTAL stands beyond its register's width (R19, R189). -/

namespace Sys2Proof.Machine

/-! ### A ring's issued entries -/

@[simp] theorem Chip.ring_setRing_self (c : Chip) (r : Nat) (x : Ring) : (c.setRing r x).ring r = x := SMap.getD_put_self c.imx.rings _ r x

theorem Chip.moves_setRing (c : Chip) (r : Nat) (x : Ring) : Chip.Moves [.imx] [] c (c.setRing r x) := by
  refine ⟨fun p hp => ?_, fun f _ => rfl⟩
  cases p <;> simp_all [Part.same, Chip.setRing]

theorem Chip.moves_finish (c : Chip) (r seq status : Nat) (result : List Byte) : Chip.Moves [.imx] [] c (c.finish r seq status result) :=
  c.moves_setRing r _

theorem Chip.moves_takeUp (c : Chip) (r seq : Nat) : Chip.Moves [.imx] [] c (c.takeUp r seq) := c.moves_setRing r _

/-- Where the chip has kept its rings and its ledger time until the engine ends entry `seq`, the entry ends as `EntryEnds` says. -/
theorem entryEnds_finish {s : State} {c : Chip} (r seq status : Nat) (result : List Byte) (ring : c.ring r = s.chip.ring r)
    (stamp : c.stamp = s.chip.stamp) : EntryEnds r seq status result s { s with chip := c.finish r seq status result } := by
  rw [EntryEnds, Chip.finish, Chip.ring_setRing_self, ring, stamp]

/-! ### The open set of a ring (R182) -/

@[simp] theorem Chip.copen_setOpen_self (c : Chip) (r : Nat) (x : CmpOpen) : (c.setOpen r x).copen r = x := SMap.getD_put_self c.cmp.opens _ r x

theorem Chip.copen_setOpen_of_ne (c : Chip) {r q : Nat} (x : CmpOpen) (h : q ≠ r) : (c.setOpen r x).copen q = c.copen q :=
  SMap.getD_put_of_ne c.cmp.opens _ _ x h

theorem Chip.moves_setOpen (c : Chip) (r : Nat) (x : CmpOpen) : Chip.Moves [.cmp] [] c (c.setOpen r x) := c.moves_cmp _

/-- The open set of ring `r` becomes `x` and entry `seq` ends. -/
theorem Chip.moves_setOpen_finish (c : Chip) (r : Nat) (x : CmpOpen) (seq status : Nat) (result : List Byte) :
    Chip.Moves [.imx, .cmp] [] c ((c.setOpen r x).finish r seq status result) :=
  ((c.moves_setOpen r x).trans (Chip.moves_finish _ _ _ _ _)).mono (by decide) (by decide)

/-- An open set bears on no validation. -/
theorem Chip.ringCommitCheck_setOpen (c : Chip) (r : Nat) (x : CmpOpen) (own p : Nat) (recs : List (Nat × List Byte)) (sec : Bool) :
    (c.setOpen r x).ringCommitCheck own p recs sec = c.ringCommitCheck own p recs sec := rfl

/-! ### LAYER (R183) -/

/-- The records of ring `r`'s open set with the record `b` for its unit in place of an earlier one. -/
def Chip.recsWith (c : Chip) (r : Nat) (b : List Byte) : List (Nat × List Byte) :=
  ((c.copen r).recs.filter fun y => y.1 != fieldAt b 0x10 1) ++ [(fieldAt b 0x10 1, b)]

section
variable {c : Chip} {r : Nat} {e : Issued}

theorem Chip.layerEntry_joins (good : (c.copen r).failed = false) (check : c.layerCheck e.bytes = none)
    (room : ((c.copen r).recs.filter fun y => y.1 != fieldAt e.bytes 0x10 1).length < 12) :
    c.layerEntry r e = (c.setOpen r { recs := c.recsWith r e.bytes, failed := false }).finish r e.seq E.NONE [] := by
  simp [Chip.layerEntry, Chip.recsWith, good, check, Nat.not_le.2 room]

theorem Chip.layerEntry_fails {code : Nat} (good : (c.copen r).failed = false) (check : c.layerCheck e.bytes = some code) :
    c.layerEntry r e = (c.setOpen r { recs := [], failed := true }).finish r e.seq code [] := by
  simp [Chip.layerEntry, good, check]

theorem Chip.layerEntry_discarded (failed : (c.copen r).failed = true) :
    c.layerEntry r e = c.finish r e.seq (if layerClean e.bytes then 0x39 else E.RESERVED) [] := by
  simp [Chip.layerEntry, failed]

end

/-! ### COMMIT (R48, R184, R185) -/

/-- The commit that the COMMIT entry `e` of ring `r` makes of the open set. -/
def Chip.commitOf (c : Chip) (r : Nat) (e : Issued) : RingCommit :=
  { ring := r, seq := e.seq, own := c.ringOwn r, pipe := fieldAt e.bytes 0x10 1, recs := (c.copen r).recs, frameEn := fieldAt e.bytes 0x11 1 == 1,
    frame := fieldAt e.bytes 0x14 4, ok := c.cmpFrees (fieldAt e.bytes 0x10 1) }

/-- The open set of ring `r` is closed and `k` waits for its flip line. -/
def Chip.commitWaits (c : Chip) (r : Nat) (k : RingCommit) : Chip :=
  let c := c.setOpen r {}
  { c.takeUp r k.seq with cmp := { c.cmp with commits := c.cmp.commits ++ [k] } }

theorem Chip.moves_commitWaits (c : Chip) (r : Nat) (k : RingCommit) : Chip.Moves [.imx, .cmp] [] c (c.commitWaits r k) :=
  (((c.moves_setOpen r {}).trans (Chip.moves_takeUp _ r k.seq)).trans (Chip.moves_cmp _ _)).mono (by decide) (by decide)

theorem Chip.copen_commitWaits (c : Chip) (r : Nat) (k : RingCommit) : (c.commitWaits r k).copen r = {} := c.copen_setOpen_self r {}

theorem entryTaken_commitWaits (s : State) (r : Nat) (k : RingCommit) : EntryTaken r k.seq s { s with chip := s.chip.commitWaits r k } :=
  congrArg Ring.issued (Chip.ring_setRing_self _ r _)

section
variable {c : Chip} {r : Nat} {e : Issued} (good : (c.copen r).failed = false) (pipe : fieldAt e.bytes 0x10 1 < 8)
  (clean : fieldAt e.bytes 0x11 1 < 2 ∧ zeroAt e.bytes 0x12 2 = true ∧ zeroAt e.bytes 0x18 40 = true)
include good pipe clean

theorem Chip.commitEntry_waits (mode : c.mode ≠ Mode.DEGRADED)
    (check : c.ringCommitCheck (c.ringOwn r) (fieldAt e.bytes 0x10 1) (c.copen r).recs false = none) :
    c.commitEntry r e = c.commitWaits r (c.commitOf r e) := by
  have mode : (c.setOpen r {}).mode ≠ Mode.DEGRADED := mode
  obtain ⟨flags, low, high⟩ := clean
  simp only [Chip.commitEntry, Chip.ringCommitCheck_setOpen, check]
  rw [if_neg (by simp [Nat.div_eq_of_lt pipe, Nat.div_eq_of_lt flags, low, high]), if_neg (by simp [good]), if_neg mode]
  rfl

theorem Chip.commitEntry_degraded (mode : c.mode = Mode.DEGRADED) : c.commitEntry r e = (c.setOpen r {}).finish r e.seq E.MODE [] := by
  have mode : (c.setOpen r {}).mode = Mode.DEGRADED := mode
  obtain ⟨flags, low, high⟩ := clean
  simp only [Chip.commitEntry]
  rw [if_neg (by simp [Nat.div_eq_of_lt pipe, Nat.div_eq_of_lt flags, low, high]), if_neg (by simp [good]), if_pos mode]

end

/-! ### The commands -/

/-- A command on the chip alone that acts where the unit it names exists completes with what it makes of the chip. -/
theorem completes_of_unit {i : Instr} {s : State} {b : Bool} {f : Chip → Chip} {d : Chip} {P : State → Prop} (hi : exec i s = s.on b f)
    (hb : b = true) (hf : f s.chip = d) (hP : P { s with chip := d }) : Completes i s P :=
  completes_of_chip (hb ▸ hi) hf hP

/-- What an engine makes of its ring's oldest entry that it has not taken up. -/
def Chip.takesEntry (c : Chip) (r cls op : Nat) (f : Issued → Chip) : Chip :=
  match c.freshEntry r cls op with
  | none => c
  | some e => f e

theorem Chip.takesEntry_some {c : Chip} {r cls op : Nat} {f : Issued → Chip} {e : Issued} (h : c.freshEntry r cls op = some e) :
    c.takesEntry r cls op f = f e := by
  rw [Chip.takesEntry, h]

theorem exec_cmpNop (r : Nat) (s : State) :
    exec (.cmpNop r) s = s.on (r < 64) fun c => c.takesEntry r 1 0 fun e => c.finish r e.seq E.NONE [] := rfl

theorem exec_layer (r : Nat) (s : State) : exec (.layer r) s = s.on (r < 64) fun c => c.takesEntry r 1 1 fun e => c.layerEntry r e := rfl

theorem exec_cmpCommit (r : Nat) (s : State) :
    exec (.cmpCommit r) s = s.on (r < 64) fun c => c.takesEntry r 1 2 fun e => c.commitEntry r e := rfl

/-- Settles O34: each clause names what the entry makes of the chip, an open set put and an entry ended or taken up, and reads off it what has changed. -/
theorem composerRingEntries : Obligations.ComposerRingEntries := by
  unfold Obligations.ComposerRingEntries
  refine ⟨?nop, ?joins, ?fails, ?discarded, ?waits, ?degraded⟩
  case nop =>
    intro s r e exists_ fresh
    refine completes_of_unit (exec_cmpNop ..) (decide_eq_true exists_) (Chip.takesEntry_some fresh) ?_
    exact ⟨entryEnds_finish r e.seq E.NONE [] rfl rfl, (Chip.moves_finish ..).only⟩
  case joins =>
    rintro s r _ e exists_ fresh good check rfl room
    refine completes_of_unit (exec_layer ..) (decide_eq_true exists_)
      ((Chip.takesEntry_some fresh).trans (Chip.layerEntry_joins good check room)) ?_
    have set := s.chip.copen_setOpen_self r { recs := s.chip.recsWith r e.bytes, failed := false }
    exact ⟨congrArg CmpOpen.recs set, congrArg CmpOpen.failed set, entryEnds_finish r e.seq E.NONE [] rfl rfl, rfl,
      fun q _ other => s.chip.copen_setOpen_of_ne _ other, (Chip.moves_setOpen_finish ..).only⟩
  case fails =>
    intro s r code e exists_ fresh good check
    refine completes_of_unit (exec_layer ..) (decide_eq_true exists_)
      ((Chip.takesEntry_some fresh).trans (Chip.layerEntry_fails good check)) ?_
    have set := s.chip.copen_setOpen_self r { recs := [], failed := true }
    exact ⟨congrArg CmpOpen.recs set, congrArg CmpOpen.failed set, entryEnds_finish r e.seq code [] rfl rfl, rfl,
      (Chip.moves_setOpen_finish ..).only⟩
  case discarded =>
    intro s r e exists_ fresh failed
    refine completes_of_unit (exec_layer ..) (decide_eq_true exists_)
      ((Chip.takesEntry_some fresh).trans (Chip.layerEntry_discarded failed)) ?_
    exact ⟨entryEnds_finish r e.seq _ [] rfl rfl, (Chip.moves_finish ..).only⟩
  case waits =>
    rintro s r _ e exists_ fresh good ⟨rfl, pipe⟩ clean mode check
    refine completes_of_unit (exec_cmpCommit ..) (decide_eq_true exists_)
      ((Chip.takesEntry_some fresh).trans (Chip.commitEntry_waits good pipe clean mode check)) ?_
    exact ⟨List.map_append, Chip.copen_commitWaits .., entryTaken_commitWaits .., (Chip.moves_commitWaits ..).only⟩
  case degraded =>
    intro s r e exists_ fresh good pipe clean mode
    refine completes_of_unit (exec_cmpCommit ..) (decide_eq_true exists_)
      ((Chip.takesEntry_some fresh).trans (Chip.commitEntry_degraded good pipe clean mode)) ?_
    exact ⟨entryEnds_finish r e.seq E.MODE [] rfl rfl, Chip.copen_setOpen_self .., rfl, (Chip.moves_setOpen_finish ..).only⟩

/-! ### A line count beyond its register (R19, R189) -/

theorem exec_outputLineStart (n : Nat) (s : State) :
    exec (.outputLineStart n) s = s.on (n < 8) fun c => c.when (!c.follows n) fun c => c.outputLine n := rfl

/-- Output 7 runs and sends line 0xFFFF, the last that LINE can count, while V_TOTAL stands at 0x10001, beyond its 16 bits; all else is as after reset. -/
def lastCountedLine : State :=
  let c := (Chip.set {} (R.LDG_OUTS.LINE.RUNNING 7) 1).set (R.LDG_OUTS.LINE.LINE 7) 0xFFFF
  { chip := { c with rf := c.rf.insert (R.SCN_OUT.V_TIMING.TOTAL 7).key 0x10001 } }

/-- Its next line belongs to the same frame, and LINE wraps to 0. -/
theorem line_outputLine_lastCountedLine : (lastCountedLine.chip.outputLine 7).get (R.LDG_OUTS.LINE.LINE 7) = 0 := by
  decide +kernel

/-- Refutes O35 in the clause of OUTPUT_LINE_START: it ranges over every stored V_TOTAL, also over one that no write of its 16 bits leaves. Where 0x10001
stands there, line 0xFFFF is followed by another one of the same frame, and LINE, of 16 bits itself, reads 0 and not 0x10000. -/
theorem not_slicesLinesAndWatermarks : ¬ Obligations.SlicesLinesAndWatermarks := by
  unfold Obligations.SlicesLinesAndWatermarks
  rintro ⟨-, -, -, -, lineStart, -⟩
  obtain ⟨t, answers, line, -⟩ :=
    lineStart lastCountedLine 7 (by decide) (by decide) (by decide) (by decide) (by decide)
  obtain ⟨-, rfl⟩ := State.on_next.1 ((exec_outputLineStart ..).symm.trans answers)
  have lead : lastCountedLine.chip.follows 7 = false := by decide
  rw [Chip.when, if_pos (by rw [lead]; rfl), line_outputLine_lastCountedLine] at line
  exact absurd line (by decide)

end Sys2Proof.Machine

/-! # The safety island

Chapter `13_safety_island.md`: what a fault reset of the island makes of a wait on a lock that the part does not have (R209, R238). -/

namespace Sys2Proof.Machine

/-- A fault reset of the running island with a cause other than its own write. -/
theorem exec_islandFaultReset_of_ne {cause : Nat} (own : cause ≠ 6) (src : Src) (s : State) :
    exec (.islandFaultReset src cause) s =
      s.on (1 ≤ cause && cause ≤ 6) fun c => c.when c.islandRuns fun c => c.islandFault cause := by
  change execIslandFaultReset src cause s = _
  simp only [execIslandFaultReset, if_neg own]

/-- The waiters of lock 2032. The part has 64 locks; the words of the first 2032 would fill the pages 0x091 and 0x092, and this one lies on page 0x093. -/
def strayWaiters : Fld := R.LCK_TABLE.LK_STATE.WAITERS 2032

theorem pageOf_strayWaiters : strayWaiters.pageOf = 0x093 := by decide

/-- The island runs and waits on lock 2032, whose word counts it as its one waiter; all else is as after reset. -/
def waitsOnStrayLock : State :=
  let c := (Chip.set {} R.SAF.ISL_STAT.STATE 1).set strayWaiters 1
  { chip := { c with fab := { waiting := [(lkId .island, 2032)] } } }

/-- The fault reset ends the island's wait, as that of a holder that is lost, and counts it out at the lock it named (R238). -/
theorem strayWaiters_islandFault : (waitsOnStrayLock.chip.islandFault 4).get strayWaiters = 0 := by decide +kernel

/-- Refutes O37 in the clause of the fault reset: it ranges over every lock that the island may be noted to wait on, also over one that no write of the six
bits of LK_ACQ.LOCK leaves. Where 2032 stands there, the wait that ends is counted out on page 0x093, which the statement keeps. -/
theorem not_islandFaultsAndWatchdog : ¬ Obligations.IslandFaultsAndWatchdog := by
  unfold Obligations.IslandFaultsAndWatchdog
  rintro ⟨faultReset, -⟩
  have runs : waitsOnStrayLock.chip.islandRuns = true := by decide
  have counted : waitsOnStrayLock.chip.get strayWaiters = 1 := by decide
  obtain ⟨t, answers, -, -, -, -, -, -, -, -, -, -, -, -, -, -, pages, -⟩ :=
    faultReset waitsOnStrayLock .island 4 (by decide) (by decide)
  obtain ⟨-, rfl⟩ := State.on_next.1 ((exec_islandFaultReset_of_ne (by decide) ..).symm.trans answers)
  have stays := pages strayWaiters (by rw [pageOf_strayWaiters]; decide)
  dsimp only at stays
  rw [counted, Chip.when, if_pos runs, strayWaiters_islandFault] at stays
  exact absurd stays Nat.zero_ne_one

end Sys2Proof.Machine

/-! # The DRAM controller

Chapter `15_dram_controller.md`: the refresh debt that a retraining step lets accrue (R249, R258). -/

namespace Sys2Proof.Machine

/-- What the end of a retraining step makes of channel `k`: its debt is counted up to now while the step still holds the channel, and paid as far as it
is due once the step holds it no longer. -/
def Chip.retrained (k : Nat) (ok : Bool) (c : Chip) : Chip :=
  let d := (c.setDch1 k { c.dch1 k with stepFrame := c.drc.frames, stepTemp := c.get (R.DRC_DC.DC_STAT.TEMP k) }).debtNow k
  let d := (((d.set (R.DRC_DC.DC_STAT.RETRAINING k) 0).debtNow k).bump R.DRC.RETRAIN_CNT.COUNT).addSat (R.DRC_DC.RETRAIN_US.COUNT k)
    ((d.ps - (c.dch1 k).rtAt) / 1000000)
  if ok then d else (d.raise 0x160 3).record 0x0F03 k []

theorem exec_retrainStepDone (k : Nat) (ok : Bool) (s : State) :
    exec (.retrainStepDone k ok) s =
      s.on (k < 12) fun c => c.when (c.flag (R.DRC_DC.DC_STAT.RETRAINING k)) (Chip.retrained k ok) := rfl

/-- DRAM is trained, and channel 0, which owed nothing, has been in a retraining step for one refresh interval; all else is as after reset. -/
def retrainsForOneInterval : State :=
  let c := (Chip.set {} R.DRC.TRAIN.DONE 1).set (R.DRC_DC.DC_STAT.RETRAINING 0) 1
  { chip := { c with ps := trefi } }

/-- The interval adds one unit of 256, which the channel may postpone and does not pay as the step ends (R249). -/
theorem debt_retrained : (retrainsForOneInterval.chip.retrained 0 true).debt 0 = 256 := by decide

/-- Refutes O18 in the clause of the end of a retraining step: it lets no more than RETRAINING, the two counters and IRQ_RAW change, but refresh
debt accrues during the step (R258), and DEBT.D shows what the channel owes as it ends. After 3.906 µs, within the 4 µs of R258, that is one unit more. -/
theorem not_dramTrainingAndRegions : ¬ Obligations.DramTrainingAndRegions := by
  unfold Obligations.DramTrainingAndRegions
  rintro ⟨-, -, -, -, -, stepDone, -⟩
  have holds : retrainsForOneInterval.chip.flag (R.DRC_DC.DC_STAT.RETRAINING 0) = true := by decide
  have owed : retrainsForOneInterval.chip.get (R.DRC_DC.DEBT.D 0) = 0 := by decide
  obtain ⟨t, answers, -, -, -, -, -, regs, -⟩ := stepDone retrainsForOneInterval 0 true (by decide) holds
  obtain ⟨-, rfl⟩ := State.on_next.1 ((exec_retrainStepDone ..).symm.trans answers)
  have stays := regs (R.DRC_DC.DEBT.D 0) (by decide)
  dsimp only at stays
  rw [owed, Chip.when, if_pos holds] at stays
  exact absurd (debt_retrained.symm.trans stays) (by decide)

end Sys2Proof.Machine
